-- ==== Sys2Proof/Syntax.lean ====
section
/-! DEFINITION. Sys2Proof/Syntax.lean: the commands of the block, one constructor for each row of spec/opcode_table.json,
with the operands the spec gives it. An instruction of a Quinx core is the command "core n issues it": its operands are
the core number, the condition field of its first parcel (R83) and the fields of its encoding; an event carries what its
cause supplies (a packet, a sensor reading). -/

namespace Sys2Proof

/-- Condition codes, Table 3-6 (R83). -/
inductive Cond where
  | al | eq | ne | lt | ge | cs | cc | mi | p0 | np0 | p1 | np1 | p2 | p3 | ll | nl
deriving DecidableEq, Repr

/-- Second operand of an ALU instruction: the ALU.R register or the ALU.I 11-bit immediate (Table 4-7). -/
inductive AluSrc where
  | reg (b : Fin 16)
  | imm (v : BitVec 11)
deriving DecidableEq, Repr

/-- Shift amount: SUB 0b000 takes a register, SUB 0b001 the immediate AMT (Table 4-11). -/
inductive ShiftSrc where
  | reg (b : Fin 16)
  | imm (v : BitVec 5)
deriving DecidableEq, Repr

/-- Second operand of vector arithmetic: VC 0b000 (vector-vector) or VC 0b001 (vector-scalar), R165, Table 6-4. -/
inductive VecSrc where
  | vec (v : Fin 32)
  | scalar (d : Fin 16)
deriving DecidableEq, Repr

/-- The vector function units of R166. -/
inductive VUnit where
  | vls | valu | vmul | vfma | vdiv | vxu
deriving DecidableEq, Repr

/-- Who writes an MMIO register: the host through BAR0 or BAR4, the management path, or a core's store with the
privilege of its instruction (R56, R441). -/
inductive Src where
  | host
  | mgmt
  | core (n : Nat) (sup : Bool)
deriving DecidableEq, Repr

/-- The two mailbox channels of R481. -/
inductive Chan where
  | h | m
deriving DecidableEq, Repr

/-- The MMIO pages of Table 10-2. -/
inductive Page where
  | global | pyro | scarab | comb | mould | pugmill (i : Fin 2) | fabric
  | link (n : Nat) | core (n : Nat) | stack (n : Nat) | lpch (n : Nat)
  | ras | scrub | host | firefly
deriving DecidableEq, Repr

/-- B_PARENT or one of B_MASK0 to B_MASK5 (Table 12-7). -/
inductive CtxReg where
  | parent
  | mask (k : Fin 6)
deriving DecidableEq, Repr

/-- The Bulk Port registers written while the port is disabled (R461). -/
inductive BpReg where
  | addrLo | addrHi | cnt
deriving DecidableEq, Repr

/-- A packet: the 256-bit header of Table 13-5 and its data units as words. -/
structure Packet where
  hdr  : BitVec 256
  data : List (BitVec 16)
deriving DecidableEq, Repr

/-- What the FEC reports for a received flit (R371, Table 18-5). -/
inductive FecEvent where
  | clean | corrected (n : Nat) | uncorrectable
deriving DecidableEq, Repr

/-- One reading of the temperature sensors in whole degrees: the fourteen dies CD0-3, MBD0-7, IOD0-1, and the sixteen
core clusters (cluster c of die d at 4d + c, R326). -/
structure Sensors where
  dies     : List Nat
  clusters : List Nat
deriving DecidableEq, Repr

/-- What the Pyrometer measures over one interval (R330): input voltage in 10 mV, input power in W, power of each
compute die in 0.1 W, power of each core island in 0.01 W. -/
structure Telemetry where
  volt  : BitVec 16
  pwr   : Nat
  dies  : List Nat
  cores : List Nat
deriving DecidableEq, Repr

/-- A descriptor slot of a ring in host memory as CXL.cache returns it (R315, R472): 32 words, and whether the read
carried poison. Read only where the queue's H bit is 1. -/
structure HostLine where
  words  : List (BitVec 16)
  poison : Bool
deriving DecidableEq, Repr

/-- The commands of the block: one constructor per row of spec/opcode_table.json. -/
inductive Instr where
  /-- POWER_ON (R44). 48 V comes within range, which is a cold reset, and the module holds internal reset for at least 10 ms. -/
  | powerOn
  /-- INTERNAL_RESET_WAIT_END (R44). The 10 ms wait after 48 V expires while MOD_RST_N is already high, and the module leaves internal reset. -/
  | internalResetWaitEnd (straps : BitVec 15)
  /-- COLD_RESET (R43). A low level on MOD_RST_N has lasted long enough to be taken, and the module enters cold reset at once. -/
  | coldReset
  /-- STRAP_SAMPLE (R52). The module leaves internal reset, samples the straps once and starts bring-up step 1. -/
  | strapSample (straps : BitVec 15)
  /-- POWER_REMOVAL (R47). 48 V is removed and all state is lost. -/
  | powerRemoval
  /-- BROWN_OUT (R46). J14 input has stayed below 38 V for more than 100 µs; the rails are removed, MOD_PG deasserts and state is lost. -/
  | brownOut
  /-- BROWN_OUT_RECOVERY (R46). The input has been back within range for 10 ms and the module performs a cold reset by itself. -/
  | brownOutRecovery (straps : BitVec 15)
  /-- SENSOR_READ (R41). Every 10 µs the Pyrometer reads every die temperature sensor. -/
  | sensorRead (t : Sensors)
  /-- HOST_RESET (R476). PERST_N or a CXL hot reset resets the host interface only. -/
  | hostReset (perst : Bool)
  /-- TAP_RESET (R55). TRST_N resets the JTAG TAP controller only. -/
  | tapReset
  /-- CABLE_INSERT (R364). CBL_PRSNT_N goes low and a NOCABLE link moves to TRAIN. -/
  | cableInsert (k : Nat)
  /-- CABLE_REMOVE (R364). A removed cable takes the link to NOCABLE with reason CABLE. -/
  | cableRemove (k : Nat)
  /-- BISQUE_REACHED (R59). Bring-up step 1 completes: the module reaches Bisque, or HOLD or FAILED where its straps or a training failure require it. -/
  | bisqueReached (lpFail : BitVec 32)
  /-- IMAGE_READ (R62). Bring-up step 2 completes: a flash image has been read into the staging area and verified, or the module enters FAILED. -/
  | imageRead
  /-- STACK_TRAINING (R64). Bring-up step 3 completes: stacked DRAM training and LPDDR6 retraining end, or the module enters FAILED. -/
  | stackTraining (stFail : BitVec 8) (lpFail : BitVec 32)
  /-- LINK_FULL_RATE_STEP (R66). Bring-up step 4 completes once each link is at full rate, reduced or down. -/
  | linkFullRateStep
  /-- GLAZE_REACHED (R59). Bring-up step 5 completes and the module enters Glaze. -/
  | glazeReached
  /-- COMPUTE_RESET (R112). GLOBAL_RESET.COMPUTE with the key resets all cores, Setters, feeders, the Scarab, the Comb and both Pugmills. -/
  | computeReset (src : Src) (w : BitVec 32)
  /-- FIREFLY_RESTART (R491). GLOBAL_RESET.FIREFLY with the key restarts the Firefly on the running slot. -/
  | fireflyRestart (src : Src) (w : BitVec 32)
  /-- GLOBAL_CFG_WRITE (R54). A write of GLOBAL_CFG updates SPARE and ADDR_SEED; a change of SPARE starts a discovery round. -/
  | globalCfgWrite (src : Src) (w : BitVec 32)
  /-- PG_IRQ_EN_WRITE (R16). A write of PG_IRQ_EN latches PG_IRQ for each enable that goes from 0 to 1 while its raw source is high. -/
  | pgIrqEnWrite (src : Src) (page : Page) (w : BitVec 32)
  /-- PG_LOCK (R15). Writing PG_CTL.LOCK to 1 locks every RWL register of the page until cold reset. -/
  | pgLock (src : Src) (page : Page)
  /-- PG_ERR_CLR (R18). Writing PG_CTL.ERR_CLR to 1 clears PG_ERR, unless a new error arrives in the same cycle. -/
  | pgErrClr (src : Src) (page : Page) (arriving : BitVec 16)
  /-- REGISTER_WRITE (R19). A write to a register with no behaviour of its own acts as its access type states. -/
  | registerWrite (src : Src) (off bytes : Nat) (w : BitVec 64)
  /-- CORE_HALT (R109). Writing CORE_RUN.HALT to 1 stops issue at the next instruction boundary and pauses any task. -/
  | coreHalt (src : Src) (n : Nat)
  /-- CORE_RESUME (R323). Writing CORE_RUN.HALT to 0 resumes issue at CORE_PC and moves an OFF core to RUN or a PAUSED core to TASK. -/
  | coreResume (src : Src) (n : Nat)
  /-- CORE_RESET (R110). CORE_RESET.CORE with the key stops issue, empties the Setter, abandons feeder transfers and enters RESETTING. -/
  | coreReset (src : Src) (n : Nat) (w : BitVec 32)
  /-- CORE_RESET_END (R110). RESETTING ends and the core is HALTED with the state of Table 3-13. -/
  | coreResetEnd (n : Nat)
  /-- CORE_SWI (R144). A write of CORE_n_SWI.SET sets IPEND.SWI of core n. -/
  | coreSwi (src : Src) (n : Nat) (w : BitVec 32)
  /-- LD (R117). A 1-word scalar load into Dn. -/
  | ld (n : Nat) (c : Cond) (rg : BitVec 4) (an : Fin 8) (am : BitVec 3) (x : BitVec 12)
  /-- LD_P (R117). A 2-word scalar load into a register pair. -/
  | ldP (n : Nat) (c : Cond) (rg : BitVec 4) (an : Fin 8) (am : BitVec 3) (x : BitVec 12)
  /-- LD_Q (R117). A 4-word scalar load into a register quad. -/
  | ldQ (n : Nat) (c : Cond) (rg : BitVec 4) (an : Fin 8) (am : BitVec 3) (x : BitVec 12)
  /-- LD_A (R117). A 4-word scalar load into an address register. -/
  | ldA (n : Nat) (c : Cond) (rg : BitVec 4) (an : Fin 8) (am : BitVec 3) (x : BitVec 12)
  /-- ST (R117). A 1-word scalar store from Dn. -/
  | st (n : Nat) (c : Cond) (rg : BitVec 4) (an : Fin 8) (am : BitVec 3) (x : BitVec 12)
  /-- ST_P (R117). A 2-word scalar store from a register pair. -/
  | stP (n : Nat) (c : Cond) (rg : BitVec 4) (an : Fin 8) (am : BitVec 3) (x : BitVec 12)
  /-- ST_Q (R117). A 4-word scalar store from a register quad. -/
  | stQ (n : Nat) (c : Cond) (rg : BitVec 4) (an : Fin 8) (am : BitVec 3) (x : BitVec 12)
  /-- ST_A (R117). A 4-word scalar store from an address register. -/
  | stA (n : Nat) (c : Cond) (rg : BitVec 4) (an : Fin 8) (am : BitVec 3) (x : BitVec 12)
  /-- MMIO_LOAD_RETURN (R105). The value of an MMIO or Comb-window load returns and held issue resumes. -/
  | mmioLoadReturn (n : Nat)
  /-- ADD (R120). Add over a word or a pair. -/
  | add (n : Nat) (c : Cond) (f w : Bool) (d a : Fin 16) (b : AluSrc)
  /-- ADC (R120). Add with carry. -/
  | adc (n : Nat) (c : Cond) (f w : Bool) (d a : Fin 16) (b : AluSrc)
  /-- SUB (R120). Subtract. -/
  | sub (n : Nat) (c : Cond) (f w : Bool) (d a : Fin 16) (b : AluSrc)
  /-- SBC (R120). Subtract with borrow. -/
  | sbc (n : Nat) (c : Cond) (f w : Bool) (d a : Fin 16) (b : AluSrc)
  /-- AND (R120). Bitwise AND. -/
  | and (n : Nat) (c : Cond) (f w : Bool) (d a : Fin 16) (b : AluSrc)
  /-- OR (R120). Bitwise OR. -/
  | or (n : Nat) (c : Cond) (f w : Bool) (d a : Fin 16) (b : AluSrc)
  /-- XOR (R120). Bitwise exclusive OR. -/
  | xor (n : Nat) (c : Cond) (f w : Bool) (d a : Fin 16) (b : AluSrc)
  /-- ANDN (R120). AND with the complement of b. -/
  | andn (n : Nat) (c : Cond) (f w : Bool) (d a : Fin 16) (b : AluSrc)
  /-- CMP (R121). Sets the flags of a − b and writes no register. -/
  | cmp (n : Nat) (c : Cond) (f w : Bool) (d a : Fin 16) (b : AluSrc)
  /-- TST (R121). Sets the flags of a AND b and writes no register. -/
  | tst (n : Nat) (c : Cond) (f w : Bool) (d a : Fin 16) (b : AluSrc)
  /-- MOV (R121). Moves b to d without writing the flags. -/
  | mov (n : Nat) (c : Cond) (f w : Bool) (d a : Fin 16) (b : AluSrc)
  /-- NEG (R120). d ← 0 − b. -/
  | neg (n : Nat) (c : Cond) (f w : Bool) (d a : Fin 16) (b : AluSrc)
  /-- NOT (R120). d ← complement of b. -/
  | not (n : Nat) (c : Cond) (f w : Bool) (d a : Fin 16) (b : AluSrc)
  /-- MIN (R120). Signed minimum. -/
  | min (n : Nat) (c : Cond) (f w : Bool) (d a : Fin 16) (b : AluSrc)
  /-- MAX (R120). Signed maximum. -/
  | max (n : Nat) (c : Cond) (f w : Bool) (d a : Fin 16) (b : AluSrc)
  /-- MOVI_W (R120). Moves a 16-bit immediate to Dd. -/
  | moviW (n : Nat) (c : Cond) (d : Fin 16) (imm : BitVec 16)
  /-- MOVI_P (R120). Long form that moves a 32-bit immediate to a pair. -/
  | moviP (n : Nat) (c : Cond) (d : Fin 16) (imm : BitVec 32)
  /-- SHL (R122). Shift left, zeros in. -/
  | shl (n : Nat) (c : Cond) (f w : Bool) (d a : Fin 16) (b : ShiftSrc)
  /-- SHR (R122). Logical shift right. -/
  | shr (n : Nat) (c : Cond) (f w : Bool) (d a : Fin 16) (b : ShiftSrc)
  /-- SAR (R122). Arithmetic shift right. -/
  | sar (n : Nat) (c : Cond) (f w : Bool) (d a : Fin 16) (b : ShiftSrc)
  /-- ROR (R122). Rotate right. -/
  | ror (n : Nat) (c : Cond) (f w : Bool) (d a : Fin 16) (b : ShiftSrc)
  /-- MUL_L (R123). Low 16 bits of a word product, delivered at distance 3. -/
  | mulL (n : Nat) (c : Cond) (d a b : Fin 16)
  /-- MUL_S (R123). 32-bit signed product of two words. -/
  | mulS (n : Nat) (c : Cond) (d a b : Fin 16)
  /-- MUL_U (R123). 32-bit unsigned product of two words. -/
  | mulU (n : Nat) (c : Cond) (d a b : Fin 16)
  /-- MUL_P (R123). Low 32 bits of a pair product. -/
  | mulP (n : Nat) (c : Cond) (d a b : Fin 16)
  /-- CMPP (R124). Compares into a predicate and clears its poison mark. -/
  | cmpp (n : Nat) (c cc : Cond) (w : Bool) (p : Fin 4) (a b : Fin 16)
  /-- ADDA_IMM (R125). Adds a signed immediate to an address register. -/
  | addaImm (n : Nat) (c : Cond) (ad aa : Fin 8) (imm : BitVec 16)
  /-- ADDA_IDX (R125). Adds or subtracts a scaled data register to an address register. -/
  | addaIdx (n : Nat) (c : Cond) (ad aa : Fin 8) (di : Fin 16) (s : Fin 4) (ng : Bool)
  /-- MOVA (R125). Moves a quad into an address register. -/
  | mova (n : Nat) (c : Cond) (ad : Fin 8) (dn : Fin 16)
  /-- MOVD (R125). Moves an address register into a quad. -/
  | movd (n : Nat) (c : Cond) (dn : Fin 16) (aa : Fin 8)
  /-- LEAPC (R125). Writes the address of the instruction plus a displacement. -/
  | leapc (n : Nat) (c : Cond) (ad : Fin 8) (disp : BitVec 19)
  /-- MOVI_A (R125). Long form that moves a zero-extended 44-bit immediate address. -/
  | moviA (n : Nat) (c : Cond) (ad : Fin 8) (imm : BitVec 44)
  /-- BR (R126). PC-relative branch with one delay slot. -/
  | br (n : Nat) (c : Cond) (disp : BitVec 22)
  /-- CALL (R127). PC-relative call that pushes the return address with SR.LH and holds the active loop levels. -/
  | call (n : Nat) (c : Cond) (disp : BitVec 22)
  /-- JMP (R126). Jump to the address in Aa. -/
  | jmp (n : Nat) (c : Cond) (aa : Fin 8)
  /-- CALLR (R127). Call to the address in Aa. -/
  | callr (n : Nat) (c : Cond) (aa : Fin 8)
  /-- RET (R127). Pops the return address, ends the subroutine's loops and restores SR.LH. -/
  | ret (n : Nat) (c : Cond)
  /-- LOOP (R128). Sets up a hardware loop level with a pair count. -/
  | loop (n : Nat) (c : Cond) (dn : Fin 16) (off : BitVec 18)
  /-- LOOPI (R128). Sets up a hardware loop level with an immediate count. -/
  | loopi (n : Nat) (c : Cond) (count : BitVec 16) (off : BitVec 22)
  /-- NOP (R115). Has no effect. -/
  | nop (n : Nat) (c : Cond)
  /-- TRAP (R133). Completes and then raises TRAP with its code. -/
  | trap (n : Nat) (c : Cond) (code : BitVec 8)
  /-- RTE (R155). Checks and restores the frame named by the top entry record and resumes. -/
  | rte (n : Nat) (c : Cond)
  /-- MOVC_READ (R130). Reads a control register into a data or address register. -/
  | movcRead (n : Nat) (c : Cond) (crn : BitVec 6) (k : BitVec 2) (rg : BitVec 4)
  /-- MOVC_WRITE (R130). Writes a control register. -/
  | movcWrite (n : Nat) (c : Cond) (crn : BitVec 6) (k : BitVec 2) (rg : BitVec 4)
  /-- FENCE (R132). Holds issue until the conditions selected in MASK hold. -/
  | fence (n : Nat) (c : Cond) (mask : BitVec 4)
  /-- FENCE_RELEASE (R132). The conditions of a held fence come to hold and it completes. -/
  | fenceRelease (n : Nat)
  /-- TLBI (R135). Invalidates all of the core's TLB or the entries for one page. -/
  | tlbi (n : Nat) (c : Cond) (kind : BitVec 2) (aa : Fin 8)
  /-- TEND (R134). Ends the current task and stops issue. -/
  | tend (n : Nat) (c : Cond)
  /-- MCOPY (R136). Resumable copy that places feeder blocks between two global addresses. -/
  | mcopy (n : Nat) (c : Cond) (ad as : Fin 8) (dn dm : Fin 16) (s : Bool)
  /-- FEEDER_BLOCK_PLACE (R289). A feeder slot frees within the bank limit and the next held block is placed. -/
  | feederBlockPlace (n : Nat)
  /-- FEEDER_BLOCK_COMPLETE (R292). Every word of a feeder block has landed or been performed, or a deferred fault is found on it. -/
  | feederBlockComplete (n id : Nat)
  /-- TABLE_WALK (R303). A table walk after a TLB miss ends with a leaf or a fault. -/
  | tableWalk (n : Nat)
  /-- COMB_ANSWER (R349). This chip's Comb answers a Comb instruction and held issue resumes. -/
  | combAnswer (n : Nat)
  /-- INTERRUPT_ENTRY (R145). An enabled pending interrupt is taken at an instruction boundary while unmasked. -/
  | interruptEntry (n : Nat)
  /-- DEFERRED_FAULT_ENTRY (R141). A waiting deferred fault is taken at an instruction boundary, oldest detection first. -/
  | deferredFaultEntry (n : Nat)
  /-- VSETVL (R163). Sets VTYPE.ET and GRP and a VL clamped to VLMAX. -/
  | vsetvl (n : Nat) (c : Cond) (dd dn : Fin 16) (grp : BitVec 2) (et : BitVec 4)
  /-- VWAIT (R171). Accepted only when every earlier vector instruction has completed. -/
  | vwait (n : Nat) (c : Cond)
  /-- VMV_X (R170). Moves one vector element to a scalar register. -/
  | vmvX (n : Nat) (c : Cond) (dd : Fin 16) (va : Fin 32) (dn : Fin 16)
  /-- VINS (R165). Inserts a scalar value at one element index. -/
  | vins (n : Nat) (c : Cond) (vd : Fin 32) (dm dn : Fin 16)
  /-- VREDSUM (R185). Sum reduction over a fixed tree. -/
  | vredsum (n : Nat) (c : Cond) (m : Bool) (vd va vb : Fin 32)
  /-- VREDMAX (R185). Maximum reduction over a fixed tree. -/
  | vredmax (n : Nat) (c : Cond) (m : Bool) (vd va vb : Fin 32)
  /-- VREDMIN (R185). Minimum reduction over a fixed tree. -/
  | vredmin (n : Nat) (c : Cond) (m : Bool) (vd va vb : Fin 32)
  /-- VANY (R108). Sets a predicate to the OR of mask bits and sets or clears its poison mark. -/
  | vany (n : Nat) (c : Cond) (p : Fin 4) (vb : Fin 32)
  /-- VALL (R108). Sets a predicate to the AND of mask bits and sets or clears its poison mark. -/
  | vall (n : Nat) (c : Cond) (p : Fin 4) (vb : Fin 32)
  /-- VPOPC (R170). Counts set mask bits below VL into a pair. -/
  | vpopc (n : Nat) (c : Cond) (dd : Fin 16) (vb : Fin 32)
  /-- VSLIDEUP (R186). Slides elements up by s. -/
  | vslideup (n : Nat) (c : Cond) (m : Bool) (vd va : Fin 32) (dn : Fin 16)
  /-- VSLIDEDOWN (R186). Slides elements down by s. -/
  | vslidedown (n : Nat) (c : Cond) (m : Bool) (vd va : Fin 32) (dn : Fin 16)
  /-- VGATHERV (R186). Register gather by element index. -/
  | vgatherv (n : Nat) (c : Cond) (m : Bool) (vd va vb : Fin 32)
  /-- VCOMPRESS (R186). Packs the elements selected by a mask. -/
  | vcompress (n : Nat) (c : Cond) (vd va vb : Fin 32)
  /-- VCVT (R204). Converts elements between formats as TF selects. -/
  | vcvt (n : Nat) (c : Cond) (m : Bool) (vd va : Fin 32) (tf : BitVec 5)
  /-- VGEN (R188). Writes stateless generator draws. -/
  | vgen (n : Nat) (c : Cond) (m : Bool) (vd : Fin 32) (dk ds dt db : Fin 16)
  /-- VTOPK (R187). Selects the k largest elements of each segment with their positions. -/
  | vtopk (n : Nat) (c : Cond) (m : Bool) (vd vp va : Fin 32) (k : BitVec 6) (seg : BitVec 13)
  /-- VSCOMB (R190). Combines INT32 slice levels into FP64. -/
  | vscomb (n : Nat) (c : Cond) (vd va ve : Fin 32) (nl : BitVec 3)
  /-- VADD (R179). Integer add modulo 2^SEW. -/
  | vadd (n : Nat) (c : Cond) (m : Bool) (vd va : Fin 32) (b : VecSrc)
  /-- VSUB (R179). Integer subtract. -/
  | vsub (n : Nat) (c : Cond) (m : Bool) (vd va : Fin 32) (b : VecSrc)
  /-- VAND (R179). Bitwise AND. -/
  | vand (n : Nat) (c : Cond) (m : Bool) (vd va : Fin 32) (b : VecSrc)
  /-- VOR (R179). Bitwise OR. -/
  | vor (n : Nat) (c : Cond) (m : Bool) (vd va : Fin 32) (b : VecSrc)
  /-- VXOR (R179). Bitwise XOR. -/
  | vxor (n : Nat) (c : Cond) (m : Bool) (vd va : Fin 32) (b : VecSrc)
  /-- VSHL (R179). Shift left. -/
  | vshl (n : Nat) (c : Cond) (m : Bool) (vd va : Fin 32) (b : VecSrc)
  /-- VSHR (R179). Logical shift right. -/
  | vshr (n : Nat) (c : Cond) (m : Bool) (vd va : Fin 32) (b : VecSrc)
  /-- VSAR (R179). Arithmetic shift right. -/
  | vsar (n : Nat) (c : Cond) (m : Bool) (vd va : Fin 32) (b : VecSrc)
  /-- VMIN (R173). Signed minimum. -/
  | vmin (n : Nat) (c : Cond) (m : Bool) (vd va : Fin 32) (b : VecSrc)
  /-- VMAX (R173). Signed maximum. -/
  | vmax (n : Nat) (c : Cond) (m : Bool) (vd va : Fin 32) (b : VecSrc)
  /-- VMINU (R173). Unsigned minimum. -/
  | vminu (n : Nat) (c : Cond) (m : Bool) (vd va : Fin 32) (b : VecSrc)
  /-- VMAXU (R173). Unsigned maximum. -/
  | vmaxu (n : Nat) (c : Cond) (m : Bool) (vd va : Fin 32) (b : VecSrc)
  /-- VMOV (R173). Moves b to d. -/
  | vmov (n : Nat) (c : Cond) (m : Bool) (vd va : Fin 32) (b : VecSrc)
  /-- VDIV (R179). Signed division rounded toward zero. -/
  | vdiv (n : Nat) (c : Cond) (m : Bool) (vd va : Fin 32) (b : VecSrc)
  /-- VDIVU (R179). Unsigned division. -/
  | vdivu (n : Nat) (c : Cond) (m : Bool) (vd va : Fin 32) (b : VecSrc)
  /-- VMUL (R179). Low SEW bits of the product. -/
  | vmul (n : Nat) (c : Cond) (m : Bool) (vd va : Fin 32) (b : VecSrc)
  /-- VMULH (R173). High SEW bits of the signed product. -/
  | vmulh (n : Nat) (c : Cond) (m : Bool) (vd va : Fin 32) (b : VecSrc)
  /-- VMULHU (R173). High SEW bits of the unsigned product. -/
  | vmulhu (n : Nat) (c : Cond) (m : Bool) (vd va : Fin 32) (b : VecSrc)
  /-- VMACC (R179). Integer multiply-accumulate. -/
  | vmacc (n : Nat) (c : Cond) (m : Bool) (vd va : Fin 32) (b : VecSrc)
  /-- VWMUL (R180). Widening signed multiply. -/
  | vwmul (n : Nat) (c : Cond) (m : Bool) (vd va : Fin 32) (b : VecSrc)
  /-- VWMULU (R180). Widening unsigned multiply. -/
  | vwmulu (n : Nat) (c : Cond) (m : Bool) (vd va : Fin 32) (b : VecSrc)
  /-- VWMULSU (R180). Widening multiply of signed a by unsigned b. -/
  | vwmulsu (n : Nat) (c : Cond) (m : Bool) (vd va : Fin 32) (b : VecSrc)
  /-- VWMACC (R180). Widening signed multiply-accumulate. -/
  | vwmacc (n : Nat) (c : Cond) (m : Bool) (vd va : Fin 32) (b : VecSrc)
  /-- VSADD (R183). Signed saturating add. -/
  | vsadd (n : Nat) (c : Cond) (m : Bool) (vd va : Fin 32) (b : VecSrc)
  /-- VSADDU (R183). Unsigned saturating add. -/
  | vsaddu (n : Nat) (c : Cond) (m : Bool) (vd va : Fin 32) (b : VecSrc)
  /-- VSSUB (R183). Signed saturating subtract. -/
  | vssub (n : Nat) (c : Cond) (m : Bool) (vd va : Fin 32) (b : VecSrc)
  /-- VSSUBU (R183). Unsigned saturating subtract. -/
  | vssubu (n : Nat) (c : Cond) (m : Bool) (vd va : Fin 32) (b : VecSrc)
  /-- VAADD (R182). Signed averaging add. -/
  | vaadd (n : Nat) (c : Cond) (m : Bool) (vd va : Fin 32) (b : VecSrc)
  /-- VAADDU (R182). Unsigned averaging add. -/
  | vaaddu (n : Nat) (c : Cond) (m : Bool) (vd va : Fin 32) (b : VecSrc)
  /-- VSMUL (R182). Fixed-point rounding and saturating multiply. -/
  | vsmul (n : Nat) (c : Cond) (m : Bool) (vd va : Fin 32) (b : VecSrc)
  /-- VSSRA (R182). Rounding arithmetic shift right. -/
  | vssra (n : Nat) (c : Cond) (m : Bool) (vd va : Fin 32) (b : VecSrc)
  /-- VSSRL (R182). Rounding logical shift right. -/
  | vssrl (n : Nat) (c : Cond) (m : Bool) (vd va : Fin 32) (b : VecSrc)
  /-- VNCLIP (R180). Signed narrowing clip with rounding and saturation. -/
  | vnclip (n : Nat) (c : Cond) (m : Bool) (vd va : Fin 32) (b : VecSrc)
  /-- VNCLIPU (R180). Unsigned narrowing clip. -/
  | vnclipu (n : Nat) (c : Cond) (m : Bool) (vd va : Fin 32) (b : VecSrc)
  /-- VDOT_Q (R181). Signed INT8 4-way dot product into INT32. -/
  | vdotQ (n : Nat) (c : Cond) (m : Bool) (vd va : Fin 32) (b : VecSrc)
  /-- VDOTU_Q (R181). Unsigned INT8 4-way dot product into INT32. -/
  | vdotuQ (n : Nat) (c : Cond) (m : Bool) (vd va : Fin 32) (b : VecSrc)
  /-- VFADD (R184). Floating-point add. -/
  | vfadd (n : Nat) (c : Cond) (m : Bool) (vd va : Fin 32) (b : VecSrc)
  /-- VFSUB (R184). Floating-point subtract. -/
  | vfsub (n : Nat) (c : Cond) (m : Bool) (vd va : Fin 32) (b : VecSrc)
  /-- VFMUL (R184). Floating-point multiply. -/
  | vfmul (n : Nat) (c : Cond) (m : Bool) (vd va : Fin 32) (b : VecSrc)
  /-- VFMACC (R184). Fused multiply-add with one rounding. -/
  | vfmacc (n : Nat) (c : Cond) (m : Bool) (vd va : Fin 32) (b : VecSrc)
  /-- VFMIN (R184). Floating-point minimum. -/
  | vfmin (n : Nat) (c : Cond) (m : Bool) (vd va : Fin 32) (b : VecSrc)
  /-- VFMAX (R184). Floating-point maximum. -/
  | vfmax (n : Nat) (c : Cond) (m : Bool) (vd va : Fin 32) (b : VecSrc)
  /-- VFDIV (R184). Correctly rounded division. -/
  | vfdiv (n : Nat) (c : Cond) (m : Bool) (vd va : Fin 32) (b : VecSrc)
  /-- VFSQRT (R184). Correctly rounded square root. -/
  | vfsqrt (n : Nat) (c : Cond) (m : Bool) (vd va : Fin 32) (b : VecSrc)
  /-- VFDOT_D (R181). Two-way FP16 or BF16 dot product into FP32. -/
  | vfdotD (n : Nat) (c : Cond) (m : Bool) (vd va : Fin 32) (b : VecSrc)
  /-- VCMPEQ (R173). Compare equal into mask bits. -/
  | vcmpeq (n : Nat) (c : Cond) (m : Bool) (vd va : Fin 32) (b : VecSrc)
  /-- VCMPNE (R173). Compare not equal into mask bits. -/
  | vcmpne (n : Nat) (c : Cond) (m : Bool) (vd va : Fin 32) (b : VecSrc)
  /-- VCMPLT (R173). Compare less than into mask bits. -/
  | vcmplt (n : Nat) (c : Cond) (m : Bool) (vd va : Fin 32) (b : VecSrc)
  /-- VCMPGE (R173). Compare greater or equal into mask bits. -/
  | vcmpge (n : Nat) (c : Cond) (m : Bool) (vd va : Fin 32) (b : VecSrc)
  /-- VCMPLTU (R173). Unsigned compare less than. -/
  | vcmpltu (n : Nat) (c : Cond) (m : Bool) (vd va : Fin 32) (b : VecSrc)
  /-- VCMPGEU (R173). Unsigned compare greater or equal. -/
  | vcmpgeu (n : Nat) (c : Cond) (m : Bool) (vd va : Fin 32) (b : VecSrc)
  /-- VLD (R174). Unit-stride vector load. -/
  | vld (n : Nat) (c : Cond) (m : Bool) (vd : Fin 32) (an : Fin 8) (up : Bool)
  /-- VST (R174). Unit-stride vector store. -/
  | vst (n : Nat) (c : Cond) (m : Bool) (vd : Fin 32) (an : Fin 8) (up : Bool)
  /-- VLDS (R174). Strided vector load. -/
  | vlds (n : Nat) (c : Cond) (m : Bool) (vd : Fin 32) (an : Fin 8) (dk : Fin 16) (up : Bool)
  /-- VSTS (R174). Strided vector store. -/
  | vsts (n : Nat) (c : Cond) (m : Bool) (vd : Fin 32) (an : Fin 8) (dk : Fin 16) (up : Bool)
  /-- VLDSEG (R175). Structure load of two to four fields. -/
  | vldseg (n : Nat) (c : Cond) (m : Bool) (vd : Fin 32) (an : Fin 8) (nf : BitVec 2) (up : Bool)
  /-- VSTSEG (R175). Structure store of two to four fields. -/
  | vstseg (n : Nat) (c : Cond) (m : Bool) (vd : Fin 32) (an : Fin 8) (nf : BitVec 2) (up : Bool)
  /-- VLDX (R177). Gather load by word offsets. -/
  | vldx (n : Nat) (c : Cond) (m : Bool) (vd : Fin 32) (an : Fin 8) (vi : Fin 32) (up : Bool)
  /-- VSTX (R177). Scatter store by word offsets. -/
  | vstx (n : Nat) (c : Cond) (m : Bool) (vd : Fin 32) (an : Fin 8) (vi : Fin 32) (up : Bool)
  /-- TCFG (R219). Checks and enqueues a new tile shape. -/
  | tcfg (n : Nat) (c : Cond) (t : Fin 64) (dn : Fin 16)
  /-- TZERO (R243). Zeroes a tile's data and sidecar and sets ZM. -/
  | tzero (n : Nat) (c : Cond) (t : Fin 64)
  /-- TMV_VT (R241). Moves a vector group into tile rows. -/
  | tmvVt (n : Nat) (c : Cond) (t : Fin 64) (va : Fin 32) (row : BitVec 6)
  /-- TMV_TV (R242). Moves tile rows into a vector group. -/
  | tmvTv (n : Nat) (c : Cond) (t : Fin 64) (vd : Fin 32) (row : BitVec 6)
  /-- TMASK (R243). Sets a tile's RM from a vector register. -/
  | tmask (n : Nat) (c : Cond) (t : Fin 64) (va : Fin 32)
  /-- TMETA (R242). Copies a row mask or the row exponents into a vector register. -/
  | tmeta (n : Nat) (c : Cond) (t : Fin 64) (vd : Fin 32) (k : BitVec 2)
  /-- TSAVE (R239). Writes a tile image and detaches any suspended operation. -/
  | tsave (n : Nat) (c : Cond) (t : Fin 64) (an : Fin 8)
  /-- TREST (R240). Restores a tile image and re-creates any suspended operation. -/
  | trest (n : Nat) (c : Cond) (t : Fin 64) (an : Fin 8)
  /-- TLD (R223). Tile load with conversion, slicing or scales. -/
  | tld (n : Nat) (c : Cond) (t : Fin 64) (an : Fin 8) (dk : Fin 16) (up : Bool) (w : BitVec 32)
  /-- TILE_STORE (R223). The tst instruction enters the Setter as a reader of its tile and stores its rows to memory, with conversion, scales or a scaled conversion. -/
  | tileStore (n : Nat) (c : Cond) (t : Fin 64) (an : Fin 8) (dk : Fin 16) (up : Bool) (w : BitVec 32)
  /-- SETTER_FIRE (R246). A Setter operation's resources become ready, its unit is free and it fires. -/
  | setterFire (n id : Nat)
  /-- SHELF_FILL (R249). The Setter copies a tile into a free Shelf entry for the oldest array operation that needs it. -/
  | shelfFill (n : Nat) (q : Fin 4) (weight : Bool)
  /-- MMA (R251). Array operation that adds a pass of products into an accumulator. -/
  | mma (n : Nat) (c : Cond) (q : Fin 4) (tw ta : Fin 64) (dc : Fin 16)
  /-- ACC_OPEN (R266). Opens an accumulation group in SEQ or TREE order. -/
  | accOpen (n : Nat) (c : Cond) (q : Fin 4) (g : Fin 8) (acc : Fin 32) (tree z i : Bool) (dn : Fin 16)
  /-- ACC_CLOSE (R271). Closes an accumulation group. -/
  | accClose (n : Nat) (c : Cond) (q : Fin 4) (g : Fin 8)
  /-- ACC_ZERO (R264). Zeroes an accumulator and sets its type. -/
  | accZero (n : Nat) (c : Cond) (q : Fin 4) (acc : Fin 32) (i : Bool)
  /-- ACC_DRT (R276). Drains an accumulator into a tile. -/
  | accDrt (n : Nat) (c : Cond) (q : Fin 4) (acc : Fin 32) (t : Fin 64) (dc : Fin 16)
  /-- ACC_DRM (R277). Drains an accumulator into local memory. -/
  | accDrm (n : Nat) (c : Cond) (q : Fin 4) (acc : Fin 32) (an : Fin 8) (dk dc : Fin 16)
  /-- ACC_DRJ (R278). Drains an FP32 accumulator into a reduction job. -/
  | accDrj (n : Nat) (c : Cond) (q : Fin 4) (acc : Fin 32) (dj dc : Fin 16)
  /-- ACC_LD (R279). Loads an accumulator from local memory, or feeds a group. -/
  | accLd (n : Nat) (c : Cond) (q : Fin 4) (acc : Fin 32) (an : Fin 8) (dk dc : Fin 16)
  /-- WEIGHT_COPY (R261). A weight tile is copied from the Shelf into the free shadow cell set. -/
  | weightCopy (n : Nat) (q : Fin 4)
  /-- PASS_START (R262). A pass's weights and activations are ready and it starts streaming. -/
  | passStart (n : Nat) (q : Fin 4)
  /-- PASS_COMPLETE (R262). A pass completes 74 cycles after its last row. -/
  | passComplete (n : Nat) (q : Fin 4)
  /-- TREE_CLOSE_COMPLETE (R271). The Saggar finishes the canonical sum of a TREE group and the close completes. -/
  | treeCloseComplete (n : Nat) (q : Fin 4) (g : Fin 8)
  /-- DRAIN_COMPLETE (R275). A drain completes and its completion actions follow. -/
  | drainComplete (n id : Nat)
  /-- RUN_AHEAD (R294). The feeder fetches blocks beyond the end of a read stream into spare slots. -/
  | runAhead (n : Nat)
  /-- SNAPSHOT_FIRST_TOUCH (R309). The first translated write to a protected snapshot page starts its copy to AUX. -/
  | snapshotFirstTouch (leaf : BitVec 44)
  /-- SHADOW_FIRST_TOUCH (R310). The first write to a shadow page with T = 0 starts its copy and logs the leaf. -/
  | shadowFirstTouch (leaf : BitVec 44)
  /-- PAGE_COPY_COMPLETE (R311). A Mould page copy completes, the leaf is updated and invalidated, and held writes proceed. -/
  | pageCopyComplete (leaf : BitVec 44)
  /-- MOULD_TAKE (R309). MOULD_SNAP.TAKE increments SGEN, writes the device-state record and starts the sweep. -/
  | mouldTake (src : Src)
  /-- SNAP_SWEEP_END (R309). The snapshot sweep ends and BUSY clears. -/
  | snapSweepEnd
  /-- STEP_COMMIT (R310). MOULD_STEP COMMIT swaps PA and AUX of each logged leaf. -/
  | stepCommit (src : Src)
  /-- STEP_ROLLBACK (R310). MOULD_STEP ROLLBACK clears T of each logged leaf. -/
  | stepRollback (src : Src)
  /-- STEP_CMD_END (R310). A step command finishes processing the shadow log and BUSY clears. -/
  | stepCmdEnd
  /-- SLOG_WRITE (R312). A write of MOULD_SLOG_LO or HI, ignored while CNT is non-zero. -/
  | slogWrite (src : Src) (hi : Bool) (w : BitVec 32)
  /-- XROOT_LO_WRITE (R305). Writing XROOT_LO brings the held high part into use and invalidates the core's TLB. -/
  | xrootLoWrite (src : Src) (n : Nat) (w : BitVec 32)
  /-- XROOT_HI_WRITE (R305). Writing XROOT_HI holds the new high part until the next XROOT_LO write. -/
  | xrootHiWrite (src : Src) (n : Nat) (w : BitVec 32)
  /-- JROOT_LO_WRITE (R305). Writing MOULD_JROOT_LO brings the held high part into use and invalidates the job TLB. -/
  | jrootLoWrite (src : Src) (w : BitVec 32)
  /-- JROOT_HI_WRITE (R305). Writing MOULD_JROOT_HI holds the new high part until the next JROOT_LO write. -/
  | jrootHiWrite (src : Src) (w : BitVec 32)
  /-- QUEUE_DOORBELL (R321). A doorbell word written to SCARAB_DB adds COUNT to the queue's TAIL. -/
  | queueDoorbell (src : Src) (w : BitVec 32)
  /-- CORE_DOORBELL (R322). A write of SCARAB_CDB sets IPEND.DOORBELL of the named core. -/
  | coreDoorbell (src : Src) (w : BitVec 32)
  /-- QUEUE_ENABLE (R317). QCMD ENABLE sets EN and clears QERR. -/
  | queueEnable (src : Src) (q : BitVec 20)
  /-- QUEUE_DISABLE (R317). QCMD DISABLE stops further dispatch from the queue. -/
  | queueDisable (src : Src) (q : BitVec 20)
  /-- QE_WRITE (R316). A write of SCARAB_QE0–QE3 to the selected entry, ignored while EN is 1. -/
  | qeWrite (src : Src) (i : Fin 4) (w : BitVec 32)
  /-- PREEMPT (R328). A write of SCARAB_PRE sets IPEND.PREEMPT of a core in TASK. -/
  | preempt (src : Src) (w : BitVec 32)
  /-- DESCRIPTOR_READ (R318). The Scarab reads a head descriptor, or refuses it and stops the queue. -/
  | descriptorRead (q : BitVec 20) (host : HostLine)
  /-- DISPATCH (R325). The Scarab selects a candidate for an idle core and dispatches it. -/
  | dispatch
  /-- COMPLETION_RECORD (R319). A task's operations have completed and the Scarab writes its completion record. -/
  | completionRecord (n : Nat)
  /-- PYRO_INTERVAL (R330). Every 10 µs the Pyrometer closes an interval, computes budgets and headroom, and sets clock steps. -/
  | pyroInterval (t : Telemetry)
  /-- DVFS_WRITE (R338). A write of PYRO_DVFS that is ignored when FLOOR would exceed CEIL. -/
  | dvfsWrite (src : Src) (w : BitVec 32)
  /-- SEM_ADD (R340). Adds a pair value to a semaphore, here or on another module. -/
  | semAdd (n : Nat) (c : Cond) (an : Fin 8) (dn : Fin 16)
  /-- SEM_SUB (R340). Subtracts a pair value from a semaphore. -/
  | semSub (n : Nat) (c : Cond) (an : Fin 8) (dn : Fin 16)
  /-- SEM_WAIT (R342). Waits until the count reaches N. -/
  | semWait (n : Nat) (c : Cond) (an : Fin 8) (dn : Fin 16)
  /-- SEM_TAKE (R342). Joins the take FIFO and takes N when served. -/
  | semTake (n : Nat) (c : Cond) (an : Fin 8) (dn : Fin 16)
  /-- SEM_ADDI (R340). Long-form ADD of an immediate. -/
  | semAddi (n : Nat) (c : Cond) (an : Fin 8) (imm : BitVec 32)
  /-- SEM_SUBI (R340). Long-form SUB of an immediate. -/
  | semSubi (n : Nat) (c : Cond) (an : Fin 8) (imm : BitVec 32)
  /-- SEM_WAITI (R342). Long-form WAIT for an immediate count. -/
  | semWaiti (n : Nat) (c : Cond) (an : Fin 8) (imm : BitVec 32)
  /-- SEM_TAKEI (R342). Long-form TAKE of an immediate count. -/
  | semTakei (n : Nat) (c : Cond) (an : Fin 8) (imm : BitVec 32)
  /-- BAR_ARR (R354). Counts the core's barrier arrival and returns the generation joined. -/
  | barArr (n : Nat) (c : Cond) (dn : Fin 16) (an : Fin 8)
  /-- BAR_WAIT (R355). Waits for the release of a generation. -/
  | barWait (n : Nat) (c : Cond) (an : Fin 8) (dn : Fin 16)
  /-- COMB_WINDOW_ADD (R346). A posted store to a semaphore's ADD word. -/
  | combWindowAdd (n : Nat) (s : BitVec 16) (v : BitVec 32)
  /-- HOP_ADD (R344). COMB_HOP ADD from the host or management. -/
  | hopAdd (src : Src) (s : BitVec 16)
  /-- HOP_SUB (R344). COMB_HOP SUB. -/
  | hopSub (src : Src) (s : BitVec 16)
  /-- HOP_SET (R340). COMB_HOP SET stores a count and clears a poison mark. -/
  | hopSet (src : Src) (s : BitVec 16)
  /-- HOP_ARRIVE (R354). COMB_HOP ARRIVE is a host barrier arrival. -/
  | hopArrive (src : Src) (s : BitVec 16)
  /-- TCLR (R352). A write of COMB_TCLR clears a core's task semaphores. -/
  | tclr (src : Src) (w : BitVec 32)
  /-- SEM_PACKET (R350). A remote SEM packet is translated and applied at the target and answered. -/
  | semPacket (p : Packet)
  /-- BARR_RECEIVE (R353). A child barrier arrival reaches its parent context and is counted. -/
  | barrReceive (p : Packet)
  /-- BREL_RECEIVE (R353). A barrier release reaches a non-root context on its multicast group. -/
  | brelReceive (p : Packet)
  /-- B_CTL_WRITE (R357). A write of B_CTL; enabling clears arrivals and GEN, and other field changes are ignored while EN is 1. -/
  | bCtlWrite (src : Src) (b : Fin 64) (w : BitVec 32)
  /-- B_NEXT_WRITE (R357). A write of EPOCH_NEXT, which also sets EPOCH while EN is 0. -/
  | bNextWrite (src : Src) (b : Fin 64) (w : BitVec 32)
  /-- B_CTX_WRITE (R357). A write of B_PARENT or B_MASK, ignored while EN is 1. -/
  | bCtxWrite (src : Src) (b : Fin 64) (reg : CtxReg) (w : BitVec 32)
  /-- LINK_ENABLE (R364). Writing LINK_CTL.EN to 1 moves a DISABLED link to NOCABLE or TRAIN. -/
  | linkEnable (src : Src) (l : Nat)
  /-- LINK_DISABLE (R364). Writing LINK_CTL.EN to 0 takes the link to DISABLED. -/
  | linkDisable (src : Src) (l : Nat)
  /-- LINK_RETRAIN (R395). LINK_CTL.RETRAIN is a link reset that takes the link to DOWN. -/
  | linkRetrain (src : Src) (l : Nat)
  /-- LINK_ADMIT (R364). LINK_CTL.ADMIT moves a HELD link to UP or REDUCED. -/
  | linkAdmit (src : Src) (l : Nat)
  /-- LINK_LOCK (R364). Lane lock and FEC lock take a training link to HELLO. -/
  | linkLock (l : Nat)
  /-- TRAIN_TIMEOUT (R364). 100 ms without lock takes the link to DOWN with reason TRAIN. -/
  | trainTimeout (l : Nat)
  /-- DOWN_HOLD_END (R364). 10 ms after entering DOWN the link moves to TRAIN. -/
  | downHoldEnd (l : Nat)
  /-- HELLO_RECEIVE (R366). A peer's HELLO is received and answered with an echoing HELLO and a CERT. -/
  | helloReceive (l : Nat) (p : Packet)
  /-- CERT_RECEIVE (R367). The peer's certificate completes the checks and the link is admitted or taken down. -/
  | certReceive (l : Nat) (p : Packet)
  /-- RATE_RECEIVE (R365). A RATE packet offering the full rate is received. -/
  | rateReceive (l : Nat) (p : Packet)
  /-- RATE_OFFER_TIMEOUT (R66). No full-rate offer within 600 ms leaves the link REDUCED. -/
  | rateOfferTimeout (l : Nat)
  /-- RATE_DRAIN_END (R365). After both offers all data flits are acknowledged and the link enters TRAIN at full rate. -/
  | rateDrainEnd (l : Nat)
  /-- DISCOVERY_ROUND (R368). FABRIC_CTL.ROUND reloads CHIP and sends a fresh HELLO pair on each live link. -/
  | discoveryRound (src : Src)
  /-- FLIT_RECEIVE (R372). A flit is received, checked, taken in sequence or NAKed, and its ACK and credits applied. -/
  | flitReceive (l : Nat) (bytes : List (BitVec 8)) (fec : FecEvent)
  /-- IDLE_FLIT (R374). A side with nothing else sends an idle flit every 1 µs. -/
  | idleFlit (l : Nat)
  /-- WINDOW_MISS (R374). A 2 µs acknowledgement window expires without progress; the third in a row declares the link down. -/
  | windowMiss (l : Nat)
  /-- PACKET_ROUTE (R382). A whole unicast packet is delivered locally or routed to a live candidate link. -/
  | packetRoute (src : Option Nat) (p : Packet)
  /-- MULTICAST_FORWARD (R388). A multicast packet is copied to each live masked link and delivered locally when LOCAL is set. -/
  | multicastForward (src : Option Nat) (p : Packet)
  /-- RD_REQUEST (R391). A remote RD is translated and read at the target and answered with RDR. -/
  | rdRequest (p : Packet)
  /-- WR_REQUEST (R391). A remote WR is translated and written at the target and answered with WRA. -/
  | wrRequest (p : Packet)
  /-- DB_PACKET (R392). A remote DB packet acts as a queue or core doorbell at the target. -/
  | dbPacket (p : Packet)
  /-- FABRIC_ANSWER (R379). An answer arrives, frees its fabric tag and completes or fails its request. -/
  | fabricAnswer (p : Packet)
  /-- REQUEST_TIMEOUT (R381). A request with no answer after FABRIC_RTO completes UNREACH. -/
  | requestTimeout (tag : BitVec 17)
  /-- REMOTE_DOORBELL_STORE (R392). A store to FABRIC_RDB_n sends a DB packet to the chip in FABRIC_RDBD_n. -/
  | remoteDoorbellStore (src : Src) (n : Nat) (w : BitVec 32)
  /-- IMGQ_RECEIVE (R394). An image request from a neighbour starts image service over link-local packets. -/
  | imgqReceive (l : Nat) (p : Packet)
  /-- IMGD_RECEIVE (R394). An image data packet is written into the staging area, and the last one triggers the check. -/
  | imgdReceive (l : Nat) (p : Packet)
  /-- IMAGE_TRANSFER_TIMEOUT (R394). No IMGD within 50 ms fails the transfer and the next offering link is tried. -/
  | imageTransferTimeout
  /-- IMAGE_RETRY (R394). After 1 s the requester starts again from the first offering link. -/
  | imageRetry
  /-- JCMD_OPEN (R400). JCMD OPEN opens a reduction job, or is refused. -/
  | jcmdOpen (src : Src) (pg : Fin 2) (idx : BitVec 11)
  /-- JCMD_CLOSE (R400). JCMD CLOSE clears EN and discards the job's node state. -/
  | jcmdClose (src : Src) (pg : Fin 2) (idx : BitVec 11)
  /-- JE_WRITE (R399). A write of a job entry field; a Fixed field is ignored while EN is 1. -/
  | jeWrite (src : Src) (pg : Fin 2) (i : Fin 14) (w : BitVec 32)
  /-- LEAF_STAGE (R403). A drained tile enters the leaf stage: residual, thinning, wire conversion and sending of 32 packets. -/
  | leafStage (n id : Nat)
  /-- RSUM_RECEIVE (R414). A node output arrives, is checked and slotted, or held for a later round or epoch. -/
  | rsumReceive (p : Packet)
  /-- RRES_RECEIVE (R420). A result packet from the root is checked and written in the delivery mode. -/
  | rresReceive (p : Packet)
  /-- RESULT_DELIVERED (R422). All 32 packets of a result tile have been performed; RSEM receives an add. -/
  | resultDelivered (job tile : Nat)
  /-- PARTICIPANT_TIMEOUT (R419). A node's participant window expires; TOUT and TIMEOUT are recorded. -/
  | participantTimeout (job node tile : Nat)
  /-- XGO_ENABLE (R431). XGO ENABLE sets EN of a Swarm entry and clears XDROP. -/
  | xgoEnable (src : Src) (pg : Fin 2)
  /-- XGO_DISABLE (R431). XGO DISABLE clears EN of a Swarm entry. -/
  | xgoDisable (src : Src) (pg : Fin 2)
  /-- XGO_SEND (R428). Sends one dispatch round of token rows under the quota, with counts. -/
  | xgoSend (src : Src) (pg : Fin 2) (count : BitVec 24)
  /-- XGO_RETURN (R430). Sends each counted row back to its token's chip. -/
  | xgoReturn (src : Src) (pg : Fin 2)
  /-- XE_WRITE (R427). A write of a Swarm entry field, ignored while EN is 1. -/
  | xeWrite (src : Src) (pg : Fin 2) (i : Fin 16) (w : BitVec 32)
  /-- XROW_RECEIVE (R429). A token row part is written into its receive slot with its tag. -/
  | xrowReceive (p : Packet)
  /-- XCNT_RECEIVE (R429). A count arrives; when the round is complete the owner adds to RSEM. -/
  | xcntReceive (p : Packet)
  /-- XRET_RECEIVE (R430). A returned row part is written at RETB; when the round is complete SSEM receives an add. -/
  | xretReceive (p : Packet)
  /-- SCALE_ROLL (R211). A write of SCROLL_LO or HI rolls the named scale entries. -/
  | scaleRoll (src : Src) (n : Nat) (hi : Bool) (w : BitVec 32)
  /-- SC_AMAXW_WRITE (R212). A write of SC_AMAXW raises AMAX to the larger value, or sets NF. -/
  | scAmaxwWrite (src : Src) (n : Nat) (e : Fin 64) (w : BitVec 32)
  /-- LOSS_SCALE_CUR_WRITE (R215). A write of LOSS_SCALE_CUR.EXP; a change of value clears CLEAN. -/
  | lossScaleCurWrite (src : Src) (w : BitVec 32)
  /-- SRSV_COMMIT (R441). MOULD_SRSV COMMIT resolves the step by hand as COMMIT. -/
  | srsvCommit (src : Src)
  /-- SRSV_SKIP (R441). MOULD_SRSV SKIP resolves the step by hand as SKIP. -/
  | srsvSkip (src : Src)
  /-- SRSV_REFUSED (R441). MOULD_SRSV REFUSED resolves the step by hand as REFUSED. -/
  | srsvRefused (src : Src)
  /-- SRSV_ABANDONED (R441). MOULD_SRSV ABANDONED rolls the step back and clears NF. -/
  | srsvAbandoned (src : Src)
  /-- RESTORE_GO (R448). MOULD_RCMD.GO checks the restore and device-state records and applies them. -/
  | restoreGo (src : Src)
  /-- SCTL_WRITE (R437). A write of MOULD_SCTL; EN and CTX are ignored while the step context is enabled. -/
  | sctlWrite (src : Src) (w : BitVec 32)
  /-- STEPN_WRITE (R437). A write of MOULD_STEPN, ignored while SCTL.EN is 1. -/
  | stepnWrite (src : Src) (w : BitVec 32)
  /-- BP_BURST_WRITE (R463). A host write burst to a Bulk Port is applied at its current address. -/
  | bpBurstWrite (port : BitVec 8) (off : BitVec 16) (data : List (BitVec 8))
  /-- BP_BURST_READ (R463). A host read burst from a Bulk Port returns words from its current address. -/
  | bpBurstRead (port : BitVec 8) (off : BitVec 16) (len : Nat)
  /-- BPCTL_WRITE (R461). A write of HOST_BPCTL arms or ends a Bulk Port transfer. -/
  | bpctlWrite (src : Src) (w : BitVec 32)
  /-- BP_REG_WRITE (R461). A write of BPA_LO, BPA_HI or BPCNT, ignored while the port is enabled. -/
  | bpRegWrite (src : Src) (reg : BpReg) (w : BitVec 32)
  /-- BP_COMPLETE (R466). A Bulk Port transfer's words are all performed; the port clears EN, sets DONE and signals. -/
  | bpComplete (port : BitVec 8)
  /-- HOST_QUEUE_DOORBELL (R467). A 32-bit host write in the BAR4 queue-doorbell range acts as SCARAB_DB. -/
  | hostQueueDoorbell (bytes : Nat) (w : BitVec 64)
  /-- HOST_CORE_DOORBELL (R467). A 32-bit host write in the BAR4 core-doorbell range acts as SCARAB_CDB. -/
  | hostCoreDoorbell (bytes : Nat) (w : BitVec 64)
  /-- CXL_MEM_READ (R469). A CXL.mem read of host-managed device memory. -/
  | cxlMemRead (o len : Nat) (cache : Bool)
  /-- CXL_MEM_WRITE (R469). A CXL.mem write of host-managed device memory. -/
  | cxlMemWrite (o : Nat) (data : List (BitVec 8)) (poison : Bool)
  /-- BI_SNOOP_ANSWER (R470). The host answers a back-invalidate snoop and the waiting device access proceeds. -/
  | biSnoopAnswer (line : Nat) (dirty : Option (List (BitVec 8)))
  /-- HSIG_WRITE (R474). A write of HOST_HSIG sends MSI-X vector v. -/
  | hsigWrite (src : Src) (w : BitVec 32)
  /-- HOST_LINK_TRAIN (R45). The CXL port starts link training at the later of PERST_N rising and its island start. -/
  | hostLinkTrain
  /-- HOST_LINK_RETRY (R458). A link below 32 GT/s is retrained every 100 ms. -/
  | hostLinkRetry
  /-- GET_SVC (R482). Mailbox command that returns GLOBAL_SVC. -/
  | getSvc (ch : Chan) (payload : List (BitVec 8))
  /-- GET_ID (R482). Mailbox command that returns PID and PART. -/
  | getId (ch : Chan) (payload : List (BitVec 8))
  /-- GET_CERT (R492). Mailbox command that returns the identity certificate. -/
  | getCert (ch : Chan) (payload : List (BitVec 8))
  /-- QUOTE (R493). Mailbox command that returns a freshly signed attestation quote. -/
  | quote (ch : Chan) (payload : List (BitVec 8))
  /-- SLOT_INFO (R482). Mailbox command that returns each slot's state and the running slot. -/
  | slotInfo (ch : Chan) (payload : List (BitVec 8))
  /-- LOAD (R62). Mailbox command that verifies a host-loaded image in the staging area. -/
  | load (ch : Chan) (payload : List (BitVec 8))
  /-- UPD_BEGIN (R485). Opens an update session and erases the target header. -/
  | updBegin (ch : Chan) (payload : List (BitVec 8))
  /-- UPD_DATA (R486). Takes delta bytes in order and programs the blocks they complete. -/
  | updData (ch : Chan) (payload : List (BitVec 8))
  /-- UPD_END (R487). Verifies the programmed body and programs the target header PENDING. -/
  | updEnd (ch : Chan) (payload : List (BitVec 8))
  /-- UPD_ABORT (R487). Closes the session and leaves the target EMPTY. -/
  | updAbort (ch : Chan) (payload : List (BitVec 8))
  /-- ACTIVATE (R490). Verifies the PENDING slot and clears one bit of TRIES. -/
  | activate (ch : Chan) (payload : List (BitVec 8))
  /-- ACTIVATION_RESTART (R490). After verification the Firefly pauses and restarts on the new image, which completes ACTIVATE. -/
  | activationRestart
  /-- CONFIRM (R489). Programs the running PENDING slot CONFIRMED and the other SUPERSEDED. -/
  | confirm (ch : Chan) (payload : List (BitVec 8))
  /-- SET_GET (R482). Mailbox command that returns a setting. -/
  | setGet (ch : Chan) (payload : List (BitVec 8))
  /-- SET_PUT (R488). Mailbox command that writes a setting record in flash. -/
  | setPut (ch : Chan) (payload : List (BitVec 8))
  /-- JTAG_BYPASS (R479). JTAG BYPASS instruction. -/
  | jtagBypass
  /-- JTAG_IDCODE (R479). JTAG IDCODE instruction, which returns 0x1096_A3C5. -/
  | jtagIdcode
  /-- JTAG_SAMPLE_PRELOAD (R479). JTAG SAMPLE/PRELOAD instruction. -/
  | jtagSamplePreload
  /-- JTAG_EXTEST (R479). JTAG EXTEST instruction, which acts only in HOLD. -/
  | jtagExtest
  /-- RP_ROW (R511). RAS_RPCMD ROW allots a spare DRAM row and appends it to the repair log. -/
  | rpRow (src : Src)
  /-- RP_ACOL (R511). RAS_RPCMD ACOL appends an array column bypass to the repair log. -/
  | rpAcol (src : Src) (w : BitVec 32)
  /-- LOG_CLR (R505). RAS_LOGCTL.CLR empties the address log and zeroes LOST. -/
  | logClr (src : Src)
  /-- SCRUB_GO (R507). SCRUB_CTL.GO starts a scrub of a range, or is refused. -/
  | scrubGo (src : Src) (w : BitVec 32)
  /-- SCRUB_COMPLETE (R509). The last codeword is handled; BUSY clears and SEM may receive an add. -/
  | scrubComplete
  /-- VECTOR_COMPLETE (R169). A vector function unit finishes an instruction it accepted, frees the unit and releases any instruction held on it or on vwait. -/
  | vectorComplete (n : Nat) (u : VUnit)
  /-- RESTORE_COMPLETE (R448). The Mould finishes applying the restore and device-state records, writes STATUS and clears MOULD_RCMD.BUSY. -/
  | restoreComplete
  /-- RPCMD_COMPLETE (R511). A ROW or ACOL repair command finishes its row copy and its repair-log writes to both flash devices, sets STATUS and clears RAS_RPCMD.BUSY. -/
  | rpcmdComplete
  /-- HOST_LINK_UP (R477). CXL link training reaches L0 at 32 GT/s or above; LINKUP sets and waiting CXL.cache completion-record writes can proceed. -/
  | hostLinkUp (rate width : BitVec 2)
  /-- HOST_CACHE_SNOOP (R472). The host snoops a host line that the device holds over CXL.cache, and the device answers and gives up or writes back the line. -/
  | hostCacheSnoop (line : Nat)
  /-- FIREFLY_RESTART_END (R55). The Firefly finishes restarting on the running slot within 25 ms, and management service and image service resume. -/
  | fireflyRestartEnd
deriving DecidableEq, Repr

end Sys2Proof
end

