-- ==== Sys2Proof/Decode.lean ====
section
/-! DEFINITION. Sys2Proof/Decode.lean: the core instruction that one or two parcels spell (R113 to R115), from the encodings of chapters 4, 6, 8, 9
and 12, and the command a word of the opcode table spells. The rows of the table carry no bits of their own; those that are core instructions
are spelt by the parcels of the spec's encodings. -/

namespace Sys2Proof

/-! ## Fields -/

/-- The field of n bits at bit lo of a parcel, as a number, a register number, and a bit. -/
def pf (p lo n : Nat) : Nat := p / 2 ^ lo % 2 ^ n
def pd (p lo : Nat) : Fin 16 := Fin.ofNat 16 (pf p lo 4)
def pa (p lo : Nat) : Fin 8 := Fin.ofNat 8 (pf p lo 3)
def pv (p lo : Nat) : Fin 32 := Fin.ofNat 32 (pf p lo 5)
def pt (p lo : Nat) : Fin 64 := Fin.ofNat 64 (pf p lo 6)
def pq (p lo : Nat) : Fin 4 := Fin.ofNat 4 (pf p lo 2)
def pb (p lo : Nat) : Bool := pf p lo 1 == 1

/-- Whether a field marked zero is zero (R115). -/
def pz (p lo n : Nat) : Bool := pf p lo n == 0

/-- An instruction whose zero fields are zero. -/
def onlyIf (b : Bool) (i : Instr) : Option Instr := if b then some i else none

/-- The condition of a code (Table 3-6). -/
def condOf (x : Nat) : Cond := match x with
  | 0 => .al | 1 => .eq | 2 => .ne | 3 => .lt | 4 => .ge | 5 => .cs | 6 => .cc | 7 => .mi
  | 8 => .p0 | 9 => .np0 | 10 => .p1 | 11 => .np1 | 12 => .p2 | 13 => .p3 | 14 => .ll | _ => .nl

/-- COND of a first parcel (R114). -/
def pc (p : Nat) : Cond := condOf (pf p 28 4)

/-! ## Scalar instructions -/

/-- SYS (Tables 4-18, 4-19, 4-22): function 0x00 is illegal, so the zero parcel is. -/
def decSys (n p : Nat) : Option Instr :=
  let movc (f : Nat → Cond → BitVec 6 → BitVec 2 → BitVec 4 → Instr) : Option Instr :=
    onlyIf (pz p 0 8) (f n (pc p) (BitVec.ofNat 6 (pf p 14 6)) (BitVec.ofNat 2 (pf p 12 2)) (BitVec.ofNat 4 (pf p 8 4)))
  match pf p 20 5 with
  | 1 => onlyIf (pz p 0 20) (.nop n (pc p))
  | 2 => onlyIf (pz p 8 12) (.trap n (pc p) (BitVec.ofNat 8 (pf p 0 8)))
  | 3 => onlyIf (pz p 0 20) (.rte n (pc p))
  | 4 => movc .movcRead
  | 5 => movc .movcWrite
  | 6 => onlyIf (pz p 4 16) (.fence n (pc p) (BitVec.ofNat 4 (pf p 0 4)))
  | 7 => onlyIf (pz p 0 5) (.mcopy n (pc p) (pa p 17) (pa p 14) (pd p 10) (pd p 6) (pb p 5))
  | 8 => onlyIf (pz p 0 15) (.tlbi n (pc p) (BitVec.ofNat 2 (pf p 18 2)) (pa p 15))
  | 9 => onlyIf (pz p 0 20) (.tend n (pc p))
  | _ => none

/-- LS (Tables 4-5, 4-6). -/
def decLs (n p : Nat) : Instr :=
  let rg := BitVec.ofNat 4 (pf p 18 4)
  let am := BitVec.ofNat 3 (pf p 12 3)
  let x := BitVec.ofNat 12 (pf p 0 12)
  let an := pa p 15
  match pf p 22 3 with
  | 0 => .ld n (pc p) rg an am x
  | 1 => .ldP n (pc p) rg an am x
  | 2 => .ldQ n (pc p) rg an am x
  | 3 => .ldA n (pc p) rg an am x
  | 4 => .st n (pc p) rg an am x
  | 5 => .stP n (pc p) rg an am x
  | 6 => .stQ n (pc p) rg an am x
  | _ => .stA n (pc p) rg an am x

/-- An ALU function with its second operand (Tables 4-7, 4-8); 0xF is none of them. -/
def decAluFn (n p : Nat) (b : AluSrc) : Option Instr :=
  let f := pb p 20
  let w := pb p 19
  let d := pd p 15
  let a := pd p 11
  match pf p 21 4 with
  | 0 => some (.add n (pc p) f w d a b)
  | 1 => some (.adc n (pc p) f w d a b)
  | 2 => some (.sub n (pc p) f w d a b)
  | 3 => some (.sbc n (pc p) f w d a b)
  | 4 => some (.and n (pc p) f w d a b)
  | 5 => some (.or n (pc p) f w d a b)
  | 6 => some (.xor n (pc p) f w d a b)
  | 7 => some (.andn n (pc p) f w d a b)
  | 8 => some (.cmp n (pc p) f w d a b)
  | 9 => some (.tst n (pc p) f w d a b)
  | 10 => some (.mov n (pc p) f w d a b)
  | 11 => some (.neg n (pc p) f w d a b)
  | 12 => some (.not n (pc p) f w d a b)
  | 13 => some (.min n (pc p) f w d a b)
  | 14 => some (.max n (pc p) f w d a b)
  | _ => none

/-- ALU.R (Table 4-7). -/
def decAluR (n p : Nat) : Option Instr := if pz p 0 7 then decAluFn n p (.reg (pd p 7)) else none

/-- ALU.I, with movi.w (Tables 4-7, 4-9). -/
def decAluI (n p : Nat) : Option Instr :=
  if pf p 21 4 = 15 then onlyIf (pz p 16 1) (.moviW n (pc p) (pd p 17) (BitVec.ofNat 16 (pf p 0 16)))
  else decAluFn n p (.imm (BitVec.ofNat 11 (pf p 0 11)))

/-- A shift with its amount (Tables 4-11, 4-12). -/
def decShift (n p : Nat) (b : ShiftSrc) : Instr :=
  let f := pb p 19
  let w := pb p 18
  match pf p 20 2 with
  | 0 => .shl n (pc p) f w (pd p 14) (pd p 10) b
  | 1 => .shr n (pc p) f w (pd p 14) (pd p 10) b
  | 2 => .sar n (pc p) f w (pd p 14) (pd p 10) b
  | _ => .ror n (pc p) f w (pd p 14) (pd p 10) b

/-- SHM (Tables 4-11 to 4-13). -/
def decShm (n p : Nat) : Option Instr := match pf p 22 3 with
  | 0 => onlyIf (pz p 0 6) (decShift n p (.reg (pd p 6)))
  | 1 => onlyIf (pz p 0 5) (decShift n p (.imm (BitVec.ofNat 5 (pf p 5 5))))
  | 2 => onlyIf (pz p 18 2 && pz p 0 6) (match pf p 20 2 with
    | 0 => .mulL n (pc p) (pd p 14) (pd p 10) (pd p 6)
    | 1 => .mulS n (pc p) (pd p 14) (pd p 10) (pd p 6)
    | 2 => .mulU n (pc p) (pd p 14) (pd p 10) (pd p 6)
    | _ => .mulP n (pc p) (pd p 14) (pd p 10) (pd p 6))
  | 3 => onlyIf (pz p 0 7) (.cmpp n (pc p) (condOf (pf p 16 4)) (pb p 15) (pq p 20) (pd p 11) (pd p 7))
  | _ => none

/-- ADR (Table 4-14). -/
def decAdr (n p : Nat) : Option Instr := match pf p 22 3 with
  | 0 => some (.addaImm n (pc p) (pa p 19) (pa p 16) (BitVec.ofNat 16 (pf p 0 16)))
  | 1 => onlyIf (pz p 0 9) (.addaIdx n (pc p) (pa p 19) (pa p 16) (pd p 12) (pq p 10) (pb p 9))
  | 2 => onlyIf (pz p 0 15) (.mova n (pc p) (pa p 19) (pd p 15))
  | 3 => onlyIf (pz p 0 15) (.movd n (pc p) (pd p 18) (pa p 15))
  | 4 => some (.leapc n (pc p) (pa p 19) (BitVec.ofNat 19 (pf p 0 19)))
  | _ => none

/-- BR (Table 4-16). -/
def decBr (n p : Nat) : Option Instr := match pf p 22 3 with
  | 0 => some (.br n (pc p) (BitVec.ofNat 22 (pf p 0 22)))
  | 1 => some (.call n (pc p) (BitVec.ofNat 22 (pf p 0 22)))
  | 2 => onlyIf (pz p 0 19) (.jmp n (pc p) (pa p 19))
  | 3 => onlyIf (pz p 0 19) (.callr n (pc p) (pa p 19))
  | 4 => onlyIf (pz p 0 22) (.ret n (pc p))
  | 5 => some (.loop n (pc p) (pd p 18) (BitVec.ofNat 18 (pf p 0 18)))
  | _ => none

/-! ## Vector instructions -/

/-- The functions of Table 6-5; the others are reserved (R173). -/
def decVfn (n p : Nat) (b : VecSrc) : Option Instr :=
  let k := pc p
  let m := pb p 15
  let d := pv p 10
  let a := pv p 5
  match pf p 16 6 with
  | 0x00 => some (.vadd n k m d a b) | 0x01 => some (.vsub n k m d a b) | 0x02 => some (.vand n k m d a b)
  | 0x03 => some (.vor n k m d a b) | 0x04 => some (.vxor n k m d a b) | 0x05 => some (.vshl n k m d a b)
  | 0x06 => some (.vshr n k m d a b) | 0x07 => some (.vsar n k m d a b) | 0x08 => some (.vmin n k m d a b)
  | 0x09 => some (.vmax n k m d a b) | 0x0A => some (.vminu n k m d a b) | 0x0B => some (.vmaxu n k m d a b)
  | 0x0C => some (.vmov n k m d a b) | 0x0D => some (.vdiv n k m d a b) | 0x0E => some (.vdivu n k m d a b)
  | 0x10 => some (.vmul n k m d a b) | 0x11 => some (.vmulh n k m d a b) | 0x12 => some (.vmulhu n k m d a b)
  | 0x13 => some (.vmacc n k m d a b) | 0x14 => some (.vwmul n k m d a b) | 0x15 => some (.vwmulu n k m d a b)
  | 0x16 => some (.vwmulsu n k m d a b) | 0x17 => some (.vwmacc n k m d a b) | 0x18 => some (.vsadd n k m d a b)
  | 0x19 => some (.vsaddu n k m d a b) | 0x1A => some (.vssub n k m d a b) | 0x1B => some (.vssubu n k m d a b)
  | 0x1C => some (.vaadd n k m d a b) | 0x1D => some (.vaaddu n k m d a b) | 0x1E => some (.vsmul n k m d a b)
  | 0x1F => some (.vssra n k m d a b) | 0x20 => some (.vssrl n k m d a b) | 0x21 => some (.vnclip n k m d a b)
  | 0x22 => some (.vnclipu n k m d a b) | 0x23 => some (.vdotQ n k m d a b) | 0x24 => some (.vdotuQ n k m d a b)
  | 0x28 => some (.vfadd n k m d a b) | 0x29 => some (.vfsub n k m d a b) | 0x2A => some (.vfmul n k m d a b)
  | 0x2B => some (.vfmacc n k m d a b) | 0x2C => some (.vfmin n k m d a b) | 0x2D => some (.vfmax n k m d a b)
  | 0x2E => some (.vfdiv n k m d a b) | 0x2F => some (.vfsqrt n k m d a b) | 0x30 => some (.vfdotD n k m d a b)
  | 0x38 => some (.vcmpeq n k m d a b) | 0x39 => some (.vcmpne n k m d a b) | 0x3A => some (.vcmplt n k m d a b)
  | 0x3B => some (.vcmpge n k m d a b) | 0x3C => some (.vcmpltu n k m d a b) | 0x3D => some (.vcmpgeu n k m d a b)
  | _ => none

/-- Vector loads and stores (Tables 6-4, 6-8). -/
def decVmem (n p : Nat) : Option Instr :=
  let k := pc p
  let m := pb p 18
  let d := pv p 13
  let a := pa p 10
  let up := pb p 4
  if !pz p 0 4 then none else match pf p 19 3 with
  | 0 => onlyIf (pz p 5 5) (.vld n k m d a up)
  | 1 => onlyIf (pz p 9 1) (.vlds n k m d a (pd p 5) up)
  | 2 => onlyIf (pz p 7 3) (.vldseg n k m d a (BitVec.ofNat 2 (pf p 5 2)) up)
  | 3 => some (.vldx n k m d a (pv p 5) up)
  | 4 => onlyIf (pz p 5 5) (.vst n k m d a up)
  | 5 => onlyIf (pz p 9 1) (.vsts n k m d a (pd p 5) up)
  | 6 => onlyIf (pz p 7 3) (.vstseg n k m d a (BitVec.ofNat 2 (pf p 5 2)) up)
  | _ => some (.vstx n k m d a (pv p 5) up)

/-- Special functions (Table 6-6). -/
def decVspec (n p : Nat) : Option Instr :=
  let k := pc p
  let m := pb p 15
  match pf p 16 6 with
  | 0x00 => onlyIf (pz p 6 2) (.vsetvl n k (pd p 12) (pd p 8) (BitVec.ofNat 2 (pf p 4 2)) (BitVec.ofNat 4 (pf p 0 4)))
  | 0x01 => onlyIf (pz p 0 16) (.vwait n k)
  | 0x02 => onlyIf (pz p 15 1 && pz p 10 1 && pz p 4 1) (.vmvX n k (pd p 11) (pv p 5) (pd p 0))
  | 0x03 => onlyIf (pz p 15 1 && pz p 4 2) (.vins n k (pv p 10) (pd p 6) (pd p 0))
  | 0x04 => some (.vredsum n k m (pv p 10) (pv p 5) (pv p 0))
  | 0x05 => some (.vredmax n k m (pv p 10) (pv p 5) (pv p 0))
  | 0x06 => some (.vredmin n k m (pv p 10) (pv p 5) (pv p 0))
  | 0x08 => onlyIf (pz p 12 4 && pz p 5 5) (.vany n k (pq p 10) (pv p 0))
  | 0x09 => onlyIf (pz p 12 4 && pz p 5 5) (.vall n k (pq p 10) (pv p 0))
  | 0x0A => onlyIf (pz p 15 1 && pz p 5 6) (.vpopc n k (pd p 11) (pv p 0))
  | 0x0B => onlyIf (pz p 4 1) (.vslideup n k m (pv p 10) (pv p 5) (pd p 0))
  | 0x0C => onlyIf (pz p 4 1) (.vslidedown n k m (pv p 10) (pv p 5) (pd p 0))
  | 0x0D => some (.vgatherv n k m (pv p 10) (pv p 5) (pv p 0))
  | 0x0E => onlyIf (pz p 15 1) (.vcompress n k (pv p 10) (pv p 5) (pv p 0))
  | 0x0F => some (.vcvt n k m (pv p 10) (pv p 5) (BitVec.ofNat 5 (pf p 0 5)))
  | _ => none

/-! ## Tile, array and Comb instructions -/

/-- Tile instructions (Table 8-5). -/
def decTile (n p : Nat) : Option Instr :=
  let k := pc p
  let t := pt p 12
  match pf p 18 4 with
  | 0 => onlyIf (pz p 0 8) (.tcfg n k t (pd p 8))
  | 1 => onlyIf (pz p 0 12) (.tzero n k t)
  | 2 => onlyIf (pz p 0 1) (.tmvVt n k t (pv p 7) (BitVec.ofNat 6 (pf p 1 6)))
  | 3 => onlyIf (pz p 0 1) (.tmvTv n k t (pv p 7) (BitVec.ofNat 6 (pf p 1 6)))
  | 4 => onlyIf (pz p 0 7) (.tmask n k t (pv p 7))
  | 5 => onlyIf (pz p 0 5) (.tmeta n k t (pv p 7) (BitVec.ofNat 2 (pf p 5 2)))
  | 6 => onlyIf (pz p 0 9) (.tsave n k t (pa p 9))
  | 7 => onlyIf (pz p 0 9) (.trest n k t (pa p 9))
  | _ => none

/-- Array and accumulator instructions (Table 9-5). -/
def decArr (n p : Nat) : Option Instr :=
  let k := pc p
  let q := pq p 16
  match pf p 18 4 with
  | 0 => some (.mma n k q (pt p 10) (pt p 4) (pd p 0))
  | 1 => onlyIf (pz p 4 1) (.accOpen n k q (pa p 13) (pv p 8) (pb p 7) (pb p 6) (pb p 5) (pd p 0))
  | 2 => onlyIf (pz p 0 13) (.accClose n k q (pa p 13))
  | 3 => onlyIf (pz p 0 10) (.accZero n k q (pv p 11) (pb p 10))
  | 4 => onlyIf (pz p 0 1) (.accDrt n k q (pv p 11) (pt p 5) (pd p 1))
  | 5 => some (.accDrm n k q (pv p 11) (pa p 8) (pd p 4) (pd p 0))
  | 6 => onlyIf (pz p 0 3) (.accDrj n k q (pv p 11) (pd p 7) (pd p 3))
  | 7 => some (.accLd n k q (pv p 11) (pa p 8) (pd p 4) (pd p 0))
  | _ => none

/-- Comb instructions (Table 12-5). -/
def decComb (n p : Nat) : Option Instr :=
  let k := pc p
  let a := pa p 15
  let d := pd p 11
  if !pz p 0 11 then none else match pf p 18 4 with
  | 0 => some (.semAdd n k a d)
  | 1 => some (.semSub n k a d)
  | 2 => some (.semWait n k a d)
  | 3 => some (.semTake n k a d)
  | 4 => some (.barArr n k d a)
  | 5 => some (.barWait n k a d)
  | _ => none

/-! ## Long forms -/

/-- The long forms of two parcels (Tables 4-3, 4-10, 4-15, 4-17, 6-7, 8-6, 12-6). -/
def decLong (n p q : Nat) : Option Instr :=
  let k := pc p
  let comb (f : Nat → Cond → Fin 8 → BitVec 32 → Instr) : Option Instr := onlyIf (pz p 0 13) (f n k (pa p 13) (BitVec.ofNat 32 q))
  match pf p 16 6 with
  | 0x00 => onlyIf (pz p 0 12) (.moviP n k (pd p 12) (BitVec.ofNat 32 q))
  | 0x01 => onlyIf (pz p 12 1) (.moviA n k (pa p 13) (BitVec.ofNat 44 (pf p 0 12 * 2 ^ 32 + q)))
  | 0x02 => onlyIf (pz q 22 10) (.loopi n k (BitVec.ofNat 16 (pf p 0 16)) (BitVec.ofNat 22 (pf q 0 22)))
  | 0x10 => onlyIf (pz p 0 2 && pz q 0 24) (.vgen n k (pb p 15) (pv p 10) (pd p 6) (pd p 2) (pd q 28) (pd q 24))
  | 0x11 => onlyIf (pz q 0 13) (.vtopk n k (pb p 0) (pv p 11) (pv p 6) (pv p 1) (BitVec.ofNat 6 (pf q 26 6)) (BitVec.ofNat 13 (pf q 13 13)))
  | 0x12 => onlyIf (pz p 0 1 && pz q 0 29) (.vscomb n k (pv p 11) (pv p 6) (pv p 1) (BitVec.ofNat 3 (pf q 29 3)))
  | 0x20 => onlyIf (pz p 0 2) (.tld n k (pt p 10) (pa p 7) (pd p 3) (pb p 2) (BitVec.ofNat 32 q))
  | 0x21 => onlyIf (pz p 0 2) (.tileStore n k (pt p 10) (pa p 7) (pd p 3) (pb p 2) (BitVec.ofNat 32 q))
  | 0x30 => comb .semAddi
  | 0x31 => comb .semSubi
  | 0x32 => comb .semWaiti
  | 0x33 => comb .semTakei
  | _ => none

/-- EXT by sub-class (Table 4-2). -/
def decExt (n p q : Nat) : Option Instr := match pf p 22 3 with
  | 0 => decVfn n p (.vec (pv p 0))
  | 1 => if pz p 4 1 then decVfn n p (.scalar (pd p 0)) else none
  | 2 => decVmem n p
  | 3 => decVspec n p
  | 4 => decTile n p
  | 5 => decArr n p
  | 6 => decComb n p
  | _ => decLong n p q

/-- The instruction of core n whose first parcel is p and, for a long form, whose second is q; none where the encoding is reserved or breaks a
zero field (R114, R115, Table 4-1). -/
def decodeParcels (n p q : Nat) : Option Instr := match pf p 25 3 with
  | 0 => decSys n p
  | 1 => some (decLs n p)
  | 2 => decAluR n p
  | 3 => decAluI n p
  | 4 => decShm n p
  | 5 => decAdr n p
  | 6 => decBr n p
  | _ => decExt n p q

/-- The command a word spells: the core instruction of its parcels, issued by core 0. -/
def decodeTableWord (_nbits w : Nat) : Option Instr := decodeParcels 0 (w % 2 ^ 32) (w / 2 ^ 32 % 2 ^ 32)

end Sys2Proof
end

