-- ==== Sys2Proof/Word.lean ====
section
/-! DEFINITION. Sys2Proof/Word.lean: the word and its plainest arithmetic. The 16-bit word is the only addressable unit of
memory (R2); MMIO registers are 32 bits wide (R10); a global address is 64 bits (R5). -/

namespace Sys2Proof

/-- The 16-bit word of R2. -/
abbrev Word := BitVec 16

/-- A byte of the host's view (R5). -/
abbrev Byte := BitVec 8

/-- A 32-bit register or pair. -/
abbrev W32 := BitVec 32

/-- A 64-bit address register, quad or global word address. -/
abbrev W64 := BitVec 64

end Sys2Proof
end

