-- ==== Sys2Proof/Config.lean ====
section
/-! DEFINITION. Sys2Proof/Config.lean: what the spec leaves open, as constants without a body. Nothing in Lean can
evaluate one, so a statement holds whatever its value is. -/

namespace Sys2Proof.Config

/-- The k-th free value: a value the spec leaves undefined or does not state (assumption log 3). The meaning that needs
one applies it to the counter State.freeCtr and advances the counter. -/
opaque freeValue : Nat → BitVec 64

/-- The cycles an island's clock makes in a microsecond of the module reference, given its frequency in MHz: no two counters are related by a
fixed ratio (R27). Cores are the islands 0 to 191, the others follow State.isle. -/
opaque cyclesIn : (island mhz usec : Nat) → Nat

/-- Whether the access that a packet of this header asks for was issued at supervisor level: Table 13-5 gives the header no field for it, so
that what R301 makes of it at the target is left open. -/
opaque fromSupervisor : (hdr : Nat) → Bool

/-- The rank a reduction job takes whose RANK lies above NMODM1: such a RANK is reserved (Table 14-1), and what it makes the job do is undefined
(R21). -/
opaque wildRank : (rank top : Nat) → Nat

/-- What a byte of the LPDDR6 tier outside the staging area holds after a training of step 3, and whether a codeword there carries a poison mark:
both are unspecified (R61). The first argument tells one training from another. -/
opaque trainedByte : (training byte : Nat) → Byte
opaque trainedMark : (training codeword : Nat) → Bool

/-- What a flash device answers beyond its last byte: it has no address there (R29). -/
opaque beyondFlash : Nat → Byte

/-- The draws of the random-number sources of the I/O dies, by number (R366). -/
opaque randomDraw : Nat → BitVec 64

/-- Ed25519 verification of a signature over a message under a public key (R366, R367, R483, R487). -/
opaque ed25519Verify : (key msg sig : List Byte) → Bool

/-- The bytes of an Ed25519 signature of a message under a private key (R366, R493). -/
opaque ed25519Byte : (key msg : List Byte) → Nat → Byte

/-- The secret in the fuses of IOD0 that the private identity key is derived from, fixed at manufacture (R492). -/
opaque fuseSecret : List Byte

/-- The bytes of the public identity key and of the certificate's signature under the device root key (Table 17-9). -/
opaque identityPublic : Nat → Byte
opaque certificateSig : Nat → Byte

/-- The module's 64-bit identity PID, fixed at manufacture (R492). -/
opaque pid : BitVec 64

/-- The Erougil firmware key as the module holds it, and the SHA-512 digest of that key in the boot ROM (R483). -/
opaque firmwareKey : List Byte
opaque firmwareKeyDigest : List Byte

/-- The bytes of an entry of the repair log, by its kind and numbers: the spec does not give its layout (R512). -/
opaque repairByte : (kind a b c : Nat) → Nat → Byte

/-- The Erougil device root key (R367, Table 17-9). -/
opaque deviceRootKey : List Byte

/-- The bytes a settings record of a key, a value and an SFMT takes in flash, whose layout the spec does not give (R488, Table
17-10). -/
opaque settingRecord : (key value sfmt : Nat) → List Byte

end Sys2Proof.Config
end

