-- ==== Sys2Proof/Machine/State.lean ====
section
/-! DEFINITION. Sys2Proof/Machine/State.lean: the state of the module as plain data, the reasons a step can stop, and the
state right after a cold reset. A Store is a sparse table in one canonical form: keys strictly rising, no entry equal to
what an unlisted key reads as; Machine/Store.lean reads and writes it. -/

namespace Sys2Proof.Machine

/-- A sparse table: keys strictly rising, no entry holding the default of its key. -/
abbrev Store (α : Type) := List (Nat × α)

/-- Faults: there is none. The spec gives every command an effect in every state, or leaves open no more than a value, so that no
step of the model stops. Safe. -/
inductive Fault where
deriving DecidableEq, Repr

/-- Refusals: no meaning is given. Safe. -/
inductive Refusal where
  /-- Raised by the dispatch arm of a command that is not modelled yet. Safe. -/
  | notModelled (mnemonic : String)
deriving DecidableEq, Repr

/-! ## The Quinx core -/

/-- A register a delivery writes (Table 3-8); vet is the ET and GRP fields of VTYPE (R163). -/
inductive RegRef where
  | d (i : Nat) | a (i : Nat) | sr (mask : W32) | ls (i : Nat) | le (i : Nat) | lc (i : Nat)
  | vl | vtype | vet | escSp | prog | vbr | escLim | ipend | ien
deriving DecidableEq, Repr

/-- A result on its way: delivered when left more instructions have issued (R91). -/
structure Flight where
  left : Nat
  ref  : RegRef
  val  : W64
deriving DecidableEq, Repr

/-- A record of the hidden entry record (R150): EP, and whether the frame went to the escalation stack. -/
structure EntryRec where
  ep  : Bool
  esc : Bool
deriving DecidableEq, Repr

/-- The exception causes of Table 5-1. -/
inductive Cause where
  | illegalOp | misaligned | busError | pageFault | protection | privilege | tileShape | semUnderflow | semOverflow
  | poison | trap | accConflict | reduceCsum | preempt | doorbell | page | swi | pyro
deriving DecidableEq, Repr

/-- A deferred fault waiting to be taken (R141): its cause, FADDR, the OP field of OPID (Table 5-8), and the tile of the
suspended operation if one is bound to it. -/
structure Deferred where
  cause : Cause
  faddr : W64
  op    : BitVec 3
  susp  : Option Nat
deriving DecidableEq, Repr

/-- Why issue of a core holds (R105). -/
inductive Hold where
  /-- A fence whose conditions do not hold yet (R132). -/
  | fence (mask : BitVec 4)
  /-- An MMIO or Comb-window load waiting for its value: width in words, destination and EA (R105). -/
  | load (words : Nat) (dst : RegRef) (ea : W64) (upd : Option (Nat × W64))
  /-- A Comb instruction waiting for its answer (R349): what it delivers. -/
  | comb (dst : Option Nat) (val : Word)
  /-- A Comb wait or take (R106): whether the Comb has released it, whether it is a bar.wait, and the semaphore or context. -/
  | wait (released ctx : Bool) (num : Nat)
  /-- A table walk for an address (R105, R305): the address, whether it writes, how many words are still to translate. -/
  | walk (va : W64) (write : Bool)
  /-- The mcopy whose blocks are being placed (R137). -/
  | mcopy
deriving DecidableEq, Repr

/-- A TLB entry: one leaf (R305). The page is named by its first virtual word address; big marks a 64 MiB page. -/
structure TlbEntry where
  vpage : Nat
  big   : Bool
  entry : BitVec 128
  leaf  : Nat
deriving DecidableEq, Repr

/-- A tile register (R217). -/
structure Tile where
  data  : Store Word
  side  : Store Word
  shape : W32
  tsw   : W32
  zm    : W64
  rm    : W64
  pm    : W64
deriving DecidableEq, Repr

/-- Operands a tile load, store, save or restore captured at issue (R223, Table 8-9): both parcels, An, the pitch, Dj, Dm,
Ab and the privilege. -/
structure TArgs where
  p1    : W32
  p2    : W32
  an    : W64
  pitch : W32
  dj    : Word
  dm    : Word
  ab    : W64
  sup   : Bool
deriving DecidableEq, Repr

/-- An operation held by the Setter, with the values captured at issue (Table 8-10, R274). -/
inductive SOp where
  | tcfg (t : Nat) (shape : W32)
  | tzero (t : Nat)
  | tmask (t : Nat) (mask : W64) (psn : Bool)
  | tmvVt (t row : Nat) (words : List Word) (marks : List Bool)
  | tmvTv (vd t row g : Nat)
  | tmeta (vd t k : Nat)
  | tld (t : Nat) (a : TArgs)
  | tst (t : Nat) (a : TArgs)
  | tsave (t : Nat) (a : TArgs)
  | trest (t : Nat) (a : TArgs)
  | mma (q tw ta : Nat) (dc : Word)
  | accOpen (q g acc : Nat) (tree z i : Bool) (b : Nat)
  | accClose (q g base hold : Nat)
  | accZero (q acc : Nat) (i : Bool)
  | accDrt (q acc t : Nat) (dc sem : Word)
  | accDrm (q acc : Nat) (an : W64) (pitch : W32) (dc sem : Word)
  | accDrj (q acc : Nat) (job off dc sem : Word)
  | accLd (q acc : Nat) (an : W64) (pitch : W32) (dc : Word)
deriving DecidableEq, Repr

/-- The phase of a Setter entry: waiting to fire, fired, or suspended by a deferred fault (R237). -/
inductive SPhase where
  | waiting | fired | suspended
deriving DecidableEq, Repr

/-- What the conversion of a memory row of a tile store does beside its words (R209, R213): the scale entry it updates, if it updates one, the
FP32 value its AMAX is raised to, if an element has one, whether NF and SATF set, and the CORE_NF bits it sets. -/
structure RowFlags where
  sc    : Option Nat
  amax  : Option W32
  bad   : Bool
  sat   : Bool
  nf    : W32
deriving DecidableEq, Repr

/-- A Shelf entry or a cell weight set (R249, R250, R261): the tile it copies, the first operation it serves, the first one it no
longer serves since that one writes the tile, the contents, and under SPX the index tile, with the first operation that one no longer serves. -/
structure Held where
  t      : Nat
  since  : Nat
  upTo   : Option Nat
  tile   : Tile
  idx    : Option Tile
  idxTo  : Option Nat
deriving DecidableEq, Repr

/-- One Setter entry (R244). shapes holds the TSHAPE of each named tile as seen at issue (R221); released is set once the
operation has released what it reads (Table 8-10), relIdx the index tile of an SPX product; exp is the scale exponent it
read as it fired (R208, R227); base is the memory row its blocks start at, rows lists the numbers of its complete blocks, and done counts its
complete memory rows from the first (R237); img holds the words of an image, an accumulator or memory rows on their way, with their marks;
flags what the rows of a store still to complete do beside their words, and snap the tile that a store which has released it reads (R245);
keptW and keptA are the copies by which an array operation released its tiles (R250; assumption log 142). -/
structure SEntry where
  id       : Nat
  op       : SOp
  shapes   : List (Nat × W32)
  phase    : SPhase
  released : Bool
  relIdx   : Bool
  exp      : Int
  base     : Nat
  done     : Nat
  rows     : List Nat
  img      : Store (Word × Bool)
  flags    : List (Nat × RowFlags)
  snap     : Option Tile
  keptW    : Option Held
  keptA    : Option Held
deriving DecidableEq, Repr

/-- What a feeder operation does (R288). -/
inductive FKind where
  /-- mcopy: source, destination, count, semaphore to signal, privilege (R136). -/
  | mcopy (src dst : W64) (n : Nat) (sem : Option Word) (sup : Bool)
  /-- A transfer the Setter placed for the entry with this number. -/
  | setter (entry : Nat)
deriving DecidableEq, Repr

/-- A feeder operation with blocks still to place or to complete: next is the next word (mcopy) or the next block to place, placed
is set when the last block is placed, failed when a block failed (R304), cut when an exception stopped an mcopy before its last
block was placed (R137); rd and wr are the runs of words that an mcopy has read and written (R139). -/
structure FOp where
  id     : Nat
  kind   : FKind
  next   : Nat
  placed : Bool
  failed : Bool
  cut    : Bool
  rd     : List (Nat × Nat)
  wr     : List (Nat × Nat)
deriving DecidableEq, Repr

/-- The leaf that a translation used, for a page with PR = 1 (R308): its address, the page's offset of the access, and the entry itself. An access
keeps the entry it was translated by, which only the Mould changes under it (R306, R307, R311). -/
structure LeafRef where
  at_   : Nat
  off   : Nat
  entry : BitVec 128
deriving DecidableEq, Repr

/-- A run of words one side of a block reaches: its address as named, its global address (chip field zero, physical, when it lies
here), its length, and the leaf it is reached through when its page has PR = 1 (R308). -/
structure Run where
  va   : W64
  addr : W64
  len  : Nat
  leaf : Option LeafRef
deriving DecidableEq, Repr

/-- A placed block in its feeder slot (R289): its operation, its first word (mcopy) or its number, the runs it reads and writes, the DRAM
banks it counts against, the words a tile or accumulator operation writes with it, and which bytes of each word it keeps (R228), the fabric
requests it waits for, the words those returned by offset, whether its remote writes have been sent, and its first failure with FADDR. -/
structure Block where
  id    : Nat
  fop   : Nat
  start : Nat
  len   : Nat
  srcs  : List Run
  dsts  : List Run
  banks : List Nat
  out   : List (Word × Bool)
  keep  : List (BitVec 2)
  tags  : List (BitVec 17)
  got   : List (Nat × Word × Bool)
  wrote : Bool
  fail  : Option (Cause × W64)
deriving DecidableEq, Repr

/-- An accumulator (R263): elements by 64m + n, type, XE, whether no accumulating writer has set XE yet (R254), row poison
marks. -/
structure Acc where
  el    : Store W32
  int   : Bool
  xe    : BitVec 16
  fresh : Bool
  marks : W64
deriving DecidableEq, Repr

/-- One leaf of an open TREE group (R268). -/
structure Leaf where
  el    : Store W32
  marks : W64
deriving DecidableEq, Repr

/-- An accumulation group (R266, Table 9-3). openI, accI, treeI, leavesI and totI are the issue view, the others the
state as the fired operations leave it. -/
structure Group where
  openI  : Bool
  baseI  : Nat
  treeI  : Bool
  intI   : Bool
  totI   : Nat
  usedI  : Nat
  base   : Nat
  tree   : Bool
  tot    : Nat
  leaves : List Leaf
deriving DecidableEq, Repr

/-- A pass that has started: its Setter entry and its start cycle count for the throttle (R262, R334). -/
structure Pass where
  entry : Nat
  w     : Held
  a     : Held
deriving DecidableEq, Repr

/-- A matrix array with its Saggar (R263), groups, Shelf entries and cell sets. -/
structure Arr where
  acc     : Store Acc
  accI    : Store Bool
  groups  : Store Group
  shelfW  : Option Held
  shelfA  : Option Held
  active  : Option Held
  shadow  : Option Held
  passes  : List Pass
  lastAt  : Nat
deriving DecidableEq, Repr

/-- Dispatch states of Table 11-5. -/
inductive Dst where
  | off | run | idle | task | ending | paused
deriving DecidableEq, Repr

/-- How a task ended (Table 11-3). -/
inductive TaskEnd where
  | tend | stopped | reset
deriving DecidableEq, Repr

/-- The task a core holds, or one that a core reset ended: queue, descriptor number, host ring or not, slot address, TCTL fields, the island counter at its first
instruction once that has issued, how the task ended, and ELAPSED once its last operation has completed or its reset has ended (R319,
R320). -/
structure Task where
  queue : Nat
  slot  : Nat
  host  : Bool
  addr  : Nat
  sem   : Word
  cone  : Nat
  sig   : Bool
  cyc0  : Option Nat
  endAs : Option TaskEnd
  elapsed : Option W64
deriving DecidableEq, Repr

/-- A vector result not yet delivered (R166): the registers it writes and the instructions left. -/
structure VPend where
  left : Nat
  regs : List Nat
  unit : VUnit
deriving DecidableEq, Repr

/-- A word of local memory as instruction fetch still sees it (R92): the word and the mark it held before a store, until left more
instructions have issued. -/
structure Unfetched where
  left : Nat
  addr : Nat
  word : Word
  mark : Bool
deriving DecidableEq, Repr

/-- One Quinx core. redirect is the target of a taken branch whose delay slot is still to issue (R96); slot says that the next
instruction follows a branch, taken or not (R85, R97). hlen is the length in words of a held instruction;
walked says that the walk the instruction waited for has ended, and that it issues before anything else happens (R148); unfetched holds the
stores that fetch does not see yet, oldest first (R92); tended says that no dispatch has followed a tend (R336). peek is set only while the core
decides between its next instruction's fault and an entry (R145); resumed says that a return restored a progress that is not zero, and that the
instruction it resumes has performed nothing since (R194). ended holds the tasks that core resets ended and whose records are still to come, oldest first (R323):
the core holds none of them any more (Table 11-5). -/
structure Core where
  d        : Store Word
  a        : Store W64
  sr       : W32
  pc       : W64
  ls       : Store W64
  le       : Store W64
  lc       : Store W32
  escSp    : W64
  prog     : W32
  vl       : W32
  vtype    : W32
  vbr      : W64
  escLim   : W64
  ipend    : BitVec 5
  ien      : W32
  record   : List EntryRec
  flight   : List Flight
  unfetched : List Unfetched
  redirect : Option W64
  slot     : Bool
  hold     : Option Hold
  hlen     : Nat
  walked   : Bool
  peek     : Bool
  resumed  : Bool
  resetting : Bool
  stopReq  : Bool
  deferred : List Deferred
  v        : Store Word
  vpsn     : Store Bool
  vpend    : List VPend
  vbusy    : List VUnit
  vserial  : Bool
  tiles    : Store Tile
  shapeI   : Store W32
  setter   : List SEntry
  arrs     : Store Arr
  fops     : List FOp
  blocks   : List Block
  nextId   : Nat
  tlb      : List TlbEntry
  runAhead : List Nat
  rootUse  : BitVec 12
  dst      : Dst
  task     : Option Task
  ended    : List Task
  gated    : Bool
  gheld    : Bool
  tended   : Bool
  step     : Nat
  pwr      : BitVec 16
  cycBase  : Nat
  cycAt    : Nat
deriving DecidableEq, Repr

/-! ## Queues, semaphores, barriers -/

/-- A descriptor as the Scarab read it (Table 11-3). -/
structure Desc where
  words : List Word
deriving DecidableEq, Repr

/-- A queue table entry (Table 11-1); desc is the head descriptor once read, ready the time it became a candidate; mark is
a poison mark (R502) and wr the QE registers written since. -/
structure Queue where
  qe0   : W32
  qe1   : W32
  qe2   : W32
  qe3   : W32
  desc  : Option Desc
  ready : Nat
  mark  : Bool
  wr    : BitVec 4
deriving DecidableEq, Repr

/-- A semaphore (R339): count, the take FIFO from its head and the held waits as core and N, and its poison mark (R502). -/
structure Sem where
  count : W32
  fifo  : List (Nat × W32)
  waits : List (Nat × W32)
  mark  : Bool
deriving DecidableEq, Repr

/-- Arrivals counted for one generation (R354): cores, host, children, and the OR of the children's REFUSE (R439); and the jobs of which a core or
the host arrived before the results of a round were delivered (R358, R360). -/
structure Arrivals where
  cores  : BitVec 192
  host   : Bool
  child  : Nat
  refuse : Bool
  early  : List Nat
deriving DecidableEq, Repr

/-- The dynamic part of a barrier context: arrivals for GEN and GEN + 1, whether the arrival for GEN was sent to the parent,
the waiters held in bar.wait, its poison mark and the registers written since (R502). -/
structure Ctx where
  now   : Arrivals
  next  : Arrivals
  sent  : Bool
  own   : BitVec 3
  waits : List (Nat × Word)
  mark  : Bool
  wr    : BitVec 10
deriving DecidableEq, Repr

/-! ## Fabric -/

/-- A packet queued for a link, with the virtual lane it takes (R373) and the link it came on, if it came on one (R383). -/
structure Queued where
  lane : Nat
  pkt  : Packet
  from_ : Option Nat := none
deriving DecidableEq, Repr

/-- A whole packet that has arrived and is not yet handled: the link and lane it came on, or none when this module made it
(R375, R382). It holds its receive-buffer units until it is handled (R373). copy marks the copy of a multicast packet that is delivered here,
once the packet has been forwarded (R388). -/
structure Rx where
  link : Option Nat
  lane : Nat
  pkt  : Packet
  copy : Bool := false
deriving DecidableEq, Repr

/-- A data flit that waits for its acknowledgement (R372): its number, the payload unit where the first packet starting in it begins, its units
and the packets it holds part of. -/
structure DataFlit where
  seq   : BitVec 12
  fpo   : Nat
  units : List (BitVec 128)
  pkts  : List Packet
deriving DecidableEq, Repr

/-- A flit as a link sends it (Table 13-3): cred holds up to two lanes with the credits returned. -/
structure Flit where
  seq   : BitVec 12
  ack   : BitVec 12
  nak   : Bool
  ft    : Nat
  fpo   : Nat
  cred  : List (Nat × Nat)
  units : List (BitVec 128)
deriving DecidableEq, Repr

/-- The dynamic part of a link (R364 to R376), whose STATE is held in LINK_n_STAT: training rate and offers of R365;
discovery nonce and the peer's second HELLO of R366, the last PID and CHIP accepted (R367); transmit and receive sequence
state of R372 (next to send, next expected), times the oldest flit was resent; queue, credits and credits owed of R373;
missed windows of R374; later is the multicast copies that wait for the end of a rate change (R365); out is the flits sent, the latest last; asked says that a first HELLO of this side waits for the peer's second (R366). -/
structure Link where
  full     : Bool
  offered  : Bool
  peerOff  : Bool
  draining : Bool
  nonce    : W64
  hello2   : Option Packet
  asked    : Bool
  lastPid  : Option (W64 × BitVec 20)
  txSeq    : BitVec 12
  unacked  : List DataFlit
  resends  : Nat
  rxSeq    : BitVec 12
  nakSent  : Bool
  rxUnits  : List (BitVec 128)
  txq      : List Queued
  credits  : Store Nat
  owed     : Store Nat
  missed   : Nat
  later    : List Queued
  out      : List Flit
deriving DecidableEq, Repr

/-- A multicast entry (R388): MDATA0 to MDATA3, and its poison mark (R502). -/
structure McEntry where
  links : BitVec 96
  attr  : W32
  mark  : Bool
deriving DecidableEq, Repr

/-- Who waits for the answer to a fabric request (R379). -/
inductive ReqOwner where
  /-- A feeder block of a core. -/
  | block (core : Nat) (id : Nat)
  /-- A Comb operation or doorbell of a core, with the FADDR of a failure (R350, R392). -/
  | posted (core : Nat) (faddr : W64)
  /-- No one: the core that asked has been reset, or the request has timed out and holds its tag alone. -/
  | gone
deriving DecidableEq, Repr

/-- A packet as an originating unit forms it, before its SRC, HOP and sub-lane are set; its data is padded to whole units. -/
structure PktSpec where
  dst   : Nat
  mc    : Bool
  type  : Nat
  tag   : Nat
  pmask : Nat
  epoch : Nat
  addr  : Nat
  stat  : Nat
  tsf   : W64
  data  : List Word
deriving DecidableEq, Repr

/-- A posted request of a core that waits for a fabric tag (R380): its owner, its address and its packet. -/
structure Unsent where
  owner : ReqOwner
  addr  : W64
  spec  : PktSpec
deriving DecidableEq, Repr

/-- A fabric request waiting for its answer (R380): tag, owner, its address, the offset of its first word in the block and
the words a read asks for. -/
structure Request where
  tag   : BitVec 17
  owner : ReqOwner
  addr  : W64
  off   : Nat
  len   : Nat
deriving DecidableEq, Repr

/-! ## Reduction and dispatch -/

/-- One input of a node (R414): the 32 packets received so far by packet number. -/
structure NodeIn where
  pkts : Store Packet
deriving DecidableEq, Repr

/-- A node holding its inputs for one tile round (R414, R419, R426): its first leaf and size, the tile, the two children, the
bucket tag it uses if it found no slot, and whether its window expired. -/
structure Node where
  lo    : Nat
  size  : Nat
  tile  : Nat
  left  : NodeIn
  right : NodeIn
  tag   : Option Nat
  tout  : Bool
deriving DecidableEq, Repr

/-- A reduction job (Table 14-1): live and staged JE0 to JE3, JE4 to JE13, the nodes with inputs, round parities by leaf or node
and by tile, the held packets in arrival order, the delivery progress, its mark and registers written (R502). mid names the tiles of which a
leaf has contributed and whose result is still to be delivered; und says that the job's results and mode state are undefined (R360). -/
structure Job where
  live    : Store W32
  staged  : Store W32
  fixed   : Store W32
  nodes   : List Node
  leafPar : Store Bool
  leafBusy : Store Bool
  nodePar : Store Bool
  dlvPar  : Store Bool
  held    : List Packet
  dlv     : Store (BitVec 32)
  dlvCf   : Store Bool
  dlvNf   : Store Bool
  dlvBad  : Store Bool
  mid     : Store Bool
  und     : Bool
  mark    : Bool
  wr      : BitVec 14
deriving DecidableEq, Repr

/-- What a Swarm entry has been told to do and has not done yet, since a word it needs is held (R310, R470). -/
inductive XWork where
  /-- SEND of n tokens (R428). -/
  | send (n : Nat)
  /-- RETURN (R430). -/
  | ret
deriving DecidableEq, Repr

/-- A Swarm entry (Table 14-6) and its round state: XE0 to XE15, row parts received by expert and source,
counts received plus one, row parts still to come back, held packets, the commands that wait, its mark and registers written. -/
structure Swarm where
  xe    : Store W32
  rows  : Store Nat
  cnts  : Store Nat
  pendRet : Nat
  held  : List Packet
  work  : List XWork
  mark  : Bool
  wr    : BitVec 16
deriving DecidableEq, Repr

/-! ## Mould, host, Firefly, stored data -/

/-- A page copy in progress (R311): the leaf entry's address, whether it is a shadow copy, the live and copy pages, and the whole entry by which
the write was translated (R307, R308). -/
structure PageCopy where
  leaf   : Nat
  shadow : Bool
  src    : Nat
  dst    : Nat
  entry  : BitVec 128
deriving DecidableEq, Repr

/-- A step resolution that waits for MOULD_STEP.BUSY to clear (R440): the context whose release asked for it, or the OP of
MOULD_SRSV; the refusal the release carried; PSN, CF and REFUSE as SLAST records them, and NF as a write of MOULD_SRSV found it. -/
structure Resolving where
  ctx    : Option Nat
  op     : Nat
  refuse : Bool
  bits   : BitVec 3
  nf     : Bool
deriving DecidableEq, Repr

/-- A row of the opcode table that names the host as a source, which waits its turn behind the accesses of the host's burst (R460): the row's operands
without its source. -/
inductive HostRow where
  | computeReset (w : BitVec 32) | fireflyRestart (w : BitVec 32) | globalCfgWrite (w : BitVec 32) | pgIrqEnWrite (page : Page) (w : BitVec 32)
  | pgLock (page : Page) | pgErrClr (page : Page) (arriving : BitVec 16) | registerWrite (off : Nat) (bytes : Nat) (w : BitVec 64)
  | coreHalt (n : Nat) | coreResume (n : Nat) | coreReset (n : Nat) (w : BitVec 32) | coreSwi (n : Nat) (w : BitVec 32) | mouldTake | stepCommit
  | stepRollback | slogWrite (hi : Bool) (w : BitVec 32) | xrootLoWrite (n : Nat) (w : BitVec 32) | xrootHiWrite (n : Nat) (w : BitVec 32)
  | jrootLoWrite (w : BitVec 32) | jrootHiWrite (w : BitVec 32) | queueDoorbell (w : BitVec 32) | coreDoorbell (w : BitVec 32)
  | queueEnable (q : BitVec 20) | queueDisable (q : BitVec 20) | qeWrite (i : Fin 4) (w : BitVec 32) | preempt (w : BitVec 32)
  | dvfsWrite (w : BitVec 32) | hopAdd (s : BitVec 16) | hopSub (s : BitVec 16) | hopSet (s : BitVec 16) | hopArrive (s : BitVec 16)
  | tclr (w : BitVec 32) | bCtlWrite (b : Fin 64) (w : BitVec 32) | bNextWrite (b : Fin 64) (w : BitVec 32)
  | bCtxWrite (b : Fin 64) (reg : CtxReg) (w : BitVec 32) | linkEnable (l : Nat) | linkDisable (l : Nat) | linkRetrain (l : Nat)
  | linkAdmit (l : Nat) | discoveryRound | remoteDoorbellStore (n : Nat) (w : BitVec 32) | jcmdOpen (pg : Fin 2) (idx : BitVec 11)
  | jcmdClose (pg : Fin 2) (idx : BitVec 11) | jeWrite (pg : Fin 2) (i : Fin 14) (w : BitVec 32) | xgoEnable (pg : Fin 2) | xgoDisable (pg : Fin 2)
  | xgoSend (pg : Fin 2) (count : BitVec 24) | xgoReturn (pg : Fin 2) | xeWrite (pg : Fin 2) (i : Fin 16) (w : BitVec 32)
  | scaleRoll (n : Nat) (hi : Bool) (w : BitVec 32) | scAmaxwWrite (n : Nat) (e : Fin 64) (w : BitVec 32) | lossScaleCurWrite (w : BitVec 32)
  | srsvCommit | srsvSkip | srsvRefused | srsvAbandoned | restoreGo | sctlWrite (w : BitVec 32) | stepnWrite (w : BitVec 32)
  | bpctlWrite (w : BitVec 32) | bpRegWrite (reg : BpReg) (w : BitVec 32) | hsigWrite (w : BitVec 32) | rpRow | rpAcol (w : BitVec 32) | logClr
  | scrubGo (w : BitVec 32)
deriving DecidableEq, Repr

/-- An access of the host to a BAR: a burst written to or read from port p at an offset of its window, a doorbell, a write of a register as its row
of the opcode table names it, or a read at an offset of the model's numbering of the port's registers (R460, R467). -/
inductive Burst where
  | write (p off : Nat) (data : List Byte) | read (p off bytes : Nat) | queueBell (bytes : Nat) (w : BitVec 64) | coreBell (bytes : Nat) (w : BitVec 64)
  | cmd (i : HostRow) | regRead (off bytes : Nat)
deriving DecidableEq, Repr

/-- What the host programs of the CXL port beside the HOST page (R457, R459, R469, R473): the BARs as 32-bit words, the MSI-X table's address and data
words at 4v + k, the HDM decoder's registers as last written, the IDE keys by word, and whether IDE streams are active. -/
structure HostCfg where
  bars    : Store W32
  msix    : Store W32
  hdm     : Store W32
  ideKeys : Store W32
  ideOn   : Bool
deriving DecidableEq, Repr

/-- A Bulk Port (R461). -/
structure Port where
  addr : BitVec 44
  cnt  : W32
  ctl  : W32
deriving DecidableEq, Repr

/-- A mailbox channel (R481): whether a request is held or being performed, the last STATUS and response, and a request that waits
for the Firefly to come back: its opcode and payload. -/
structure Mailbox where
  busy   : Bool
  status : Byte
  resp   : List Byte
  req    : Option (Nat × List Byte)
deriving DecidableEq, Repr

/-- The update session of R485: its channel, target slot and FULL; the delta header once complete, the bytes of a header or record
not yet complete, the bytes accepted (RESUME) and the blocks accepted (R486). -/
structure Session where
  chan   : Chan
  target : Bool
  full   : Bool
  hdr    : List Byte
  part   : List Byte
  count  : Nat
  blocks : Nat
deriving DecidableEq, Repr

/-- An entry of the address log (R505). -/
structure LogEntry where
  addr : Nat
  ue   : Bool
  src  : BitVec 4
  rep  : BitVec 16
deriving DecidableEq, Repr

/-- A latent error in a codeword, as yet unread (R495, R496). -/
inductive Latent where
  | none | ce | ue
deriving DecidableEq, Repr

/-- An entry of the repair log or of the fuses (R510, R511): a spare row of a stacked DRAM bank, a column bypass of an array, or, by the fuses alone,
a row spare of an SRAM on a die and a spare column group of a stacked DRAM channel. -/
inductive Repair where
  | row (stack bank row : Nat)
  | col (core q : Nat) (c : Nat)
  | sram (die sram row : Nat)
  | group (stack chan col : Nat)
deriving DecidableEq, Repr

/-- Where an error can lie in a register file or a control structure (Table 18-1): a tile row, an accumulator row, an element group of a vector
register, the tile copied in a Shelf entry or cell weight set (the weights' if w), a semaphore, a barrier context, a queue, a job, a Swarm entry, a routing
entry, a multicast entry or its staged copy, packet k of an input of a job's node of size leaves from lo for a tile round, and a packet held by a job or by a
Swarm entry. A partial sum of an open TREE group lies in an accumulator that the group holds. -/
inductive Site where
  | tile (n t row : Nat) | acc (n q a row : Nat) | vec (n grain : Nat)
  | shelf (n q : Nat) (w : Bool) | cells (n q : Nat) (shadow : Bool)
  | sem (k : Nat) | ctx (b : Nat) | queue (q : Nat) | job (j : Nat) | swarm (e : Nat) | route (k : Nat) | mcast (g : Nat) (staged : Bool)
  | node (j lo size tile : Nat) (right : Bool) (k : Nat) | held (j : Nat) (p : Packet) | heldRow (e : Nat) (p : Packet)
deriving DecidableEq, Repr

/-- An error in such a place, and whether it is uncorrectable. A read of the place finds it (R495, R496, R499): a correctable one is corrected for the
reader and stays, an uncorrectable one acts once and is no more listed. Data written over the place are free of it (assumption log 145). -/
structure Upset where
  site : Site
  ue   : Bool
deriving DecidableEq, Repr

/-- The JTAG instructions of R479. -/
inductive Tap where
  | bypass | idcode | sample | extest
deriving DecidableEq, Repr

/-- The power of the module (R42, R44 to R49, R59): off, browned out, tripped, tripped with MOD_RST_N low and its release awaited, held in internal
reset, or running; GLOBAL_SVC holds the stage. -/
inductive Power where
  | off | brownOut | tripped | tripHeld | reset | running
deriving DecidableEq, Repr

/-- Memory as bytes of the host's view: word w at keys 2w and 2w + 1 (R5), at physical local addresses. cells lists each byte as its exclusive or with
what an unlisted byte reads as, so that no entry is zero; unlisted bytes read zero (assumption log 1), but for those that a training of the LPDDR6
tier has left unspecified (R61): trained is the number of the last such training. -/
structure Memory where
  cells   : List Host.Cell
  trained : Option Nat
deriving DecidableEq, Repr

/-- The pins of J1 and J15 that the module drives or senses and the spec gives a rule for. strapDriven says which strap pins the system drives (R35). -/
structure Pins where
  modPg      : Bool
  modPrsntN  : Bool
  alertN     : Bool
  thermTripN : Bool
  perstN     : Bool
  fwWpN      : Bool
  modRstN    : Bool
  strapDriven : BitVec 15
  cblPrsntN  : BitVec 12
deriving DecidableEq, Repr

/-- The module. -/
structure State where
  /-- MMIO registers by BAR0 byte offset (R10, R284); default is the register's reset value. -/
  regs      : Store W32
  power     : Power
  pins      : Pins
  /-- Microseconds of the module reference since the cold reset, and at the sampling of the straps. -/
  usec      : Nat
  strapAt   : Nat
  /-- Elapsed time at which ELAPSED_MS stopped (Table 2-8). -/
  svcStop   : Option Nat
  /-- A compute reset held until Glaze, HOLD or FAILED (R58). -/
  heldReset : Bool
  uart      : List Nat
  /-- The mandatory bytes of the in-band interrupts sent on the management bus as I3C (R479). -/
  ibi       : List Byte
  /-- The sensor readings, and as they stood at the last interval close (R326, R330). -/
  sensors   : Sensors
  closed    : Sensors
  cores     : Store Core
  mem       : Memory
  /-- Poison marks by first word of the codeword (Table 18-1). -/
  psn       : Store Bool
  latent    : Store Latent
  /-- Errors of the register files and control structures that nothing has found yet (assumption log 145). -/
  upsets    : List Upset
  queues    : Store Queue
  /-- Whether ERRQ holds the queue of a Q_STOPPED since PG_ERR was cleared (Table 11-6). -/
  errqSet   : Bool
  /-- Reservation of each compute die: queue + 1, or 0 (R326). -/
  res       : Store Nat
  sems      : Store Sem
  ctxs      : Store Ctx
  links     : Store Link
  /-- Routing tables: PLANE at 2048 + p, GROUP at 1024 + g, MEMBER at m (R382); marks of R502. -/
  routes    : Store W32
  routeMark : Store Bool
  mcast     : Store McEntry
  mcastStg  : Store McEntry
  requests  : List Request
  /-- Posted requests without a tag, oldest first (R380). -/
  unsent    : List Unsent
  nextTag   : Nat
  /-- Whole packets that wait to be routed or performed here. -/
  inbox     : List Rx
  /-- The image transfer of R394: the link it runs on, and the links tried since the last start. -/
  imgLink   : Option Nat
  imgTried  : List Nat
  jobs      : Store Job
  swarms    : Store Swarm
  copies    : List PageCopy
  /-- The leaves of protected pages that a remote, Pugmill or expert-dispatch write waits on, with the entry it was translated by (R308). -/
  touchWait : List (Nat × BitVec 128)
  jtlb      : List TlbEntry
  jrootUse  : BitVec 12
  /-- Resolutions waiting for MOULD_STEP.BUSY to clear (R440). -/
  resolving : List Resolving
  stepCyc   : W64
  /-- The step command in progress: COMMIT or ROLLBACK (R310). -/
  stepCmd   : Option Bool
  /-- Pyrometer: N, G and K sums by die at 3d, 3d + 1, 3d + 2 (R332); E_d and its reference as fractions of 0.1 W (R331, R337);
  P_d in 0.1 W; power history, newest first (AVG10); the throttle gap G (R334); whether the last interval exceeded the cap. -/
  sums      : Store Int
  ebud      : Store (Int × Nat)
  pdie      : Store Int
  eref      : Store (Option (Int × Nat))
  phist     : List Nat
  throttle  : Nat
  overCap   : Bool
  ports     : Store Port
  /-- Words of an accepted Bulk Port burst still in flight are none: a burst is applied whole (R463). -/
  bpDone    : BitVec 256
  linkTrain : Bool
  /-- The lanes of J1 that carry lanes 0 upward of the CXL link, while it is in L0 (R33). -/
  j1Lanes   : List Nat
  /-- Base of the committed HDM decoder (R469), MSI-X mask, pending bits and messages sent (R473, R474), CXL.cache writes (byte address
  and words), answers to host reads (bytes and poison; none for Unsupported Request), the snoop filter oldest first and the lines
  being snooped, by word address / 32 (R470), the host lines held over CXL.cache, by byte address / 64 (R472). -/
  hdmBase   : Option Nat
  msixMask  : W32
  msixPend  : W32
  msixSent  : List (BitVec 5)
  hostOut   : List (Nat × List Word)
  hostRead  : List (List Byte × Bool)
  snoop     : List Nat
  biWait    : List Nat
  /-- Accesses to BAR2 and BAR4 that wait for a snoop's answer or behind one that does, in arrival order (R460, R463, R470). -/
  bursts    : List Burst
  /-- A device-state record, with its address, that waits to be written, and whether a restore waits to read its records (R443, R448, R470). -/
  drecWait  : Option (Nat × List Word)
  restWait  : Bool
  hostLines : Store Bool
  /-- CXL.mem reads of lines that wait for room in the snoop filter: offset and length (R470). -/
  memWait   : List (Nat × Nat)
  /-- What the host programs of the port beside the HOST page (R457, R459). -/
  hostCfg   : HostCfg
  /-- The mailbox channels and MB_BUF (R481, R482). -/
  boxH      : Mailbox
  boxM      : Mailbox
  buf       : Store Byte
  session   : Option Session
  /-- The slot whose image the Firefly runs (false A, true B), none for an image from the host or a neighbour; that image's header. -/
  running   : Option Bool
  runHdr    : List Byte
  /-- Whether the Firefly is restarting, or pauses to activate (R490, R491); the channel and slot of an ACTIVATE that waits for its restart (R490). -/
  flyDown   : Bool
  activating : Option (Chan × Bool)
  /-- The I3C dynamic address, if one has been assigned (R479). -/
  dynAddr   : Option (BitVec 7)
  /-- The private identity key, as the discovery engine of each I/O die holds it from a cold reset on (R492). -/
  idKeys    : List (List Byte)
  /-- The flash devices by byte offset; erased flash reads 0xFF. The settings records are held apart (device, key, value, SFMT), and what the entries
  of the repair log say, whose bytes stand in both devices, in repairs (R512). -/
  flashA    : Store Byte
  flashB    : Store Byte
  settings  : List (Bool × Nat × Nat × Nat)
  /-- Setting 1 as the firmware found it when bring-up started it; a later change waits for the next cold reset (R287). -/
  ilvSet    : Nat
  log       : List LogEntry
  /-- The fuses as manufactured, with what a cold reset's step 1 added of the repair log; the log; rows allotted in the field and in force (R510). -/
  fuses     : List Repair
  repairs   : List Repair
  fieldRows : List Repair
  scrub     : Option (Nat × Nat)
  repairing : Option Repair
  /-- The word whose row a repair still has to copy, once the host has answered for the row's lines (R470, R511). -/
  rowWait   : Option Nat
  tap       : Tap
  /-- What the selected JTAG data register shifts out, 32 bits of it (R479). -/
  tapDr     : W32
  freeCtr   : Nat
  rngCtr    : Nat
  /-- The queue of commands that are waiting, first in first out. -/
  pending   : List Instr
deriving DecidableEq, Repr

/-- The module right after a cold reset: powered, held in internal reset, every register at its reset value (R45, R43);
the straps are not sampled yet. -/
def State.reset : State where
  regs := []
  power := .reset
  pins := { modPg := true, modPrsntN := false, alertN := true, thermTripN := true, perstN := false, fwWpN := true,
            modRstN := false, strapDriven := BitVec.allOnes 15, cblPrsntN := BitVec.allOnes 12 }
  usec := 0
  strapAt := 0
  svcStop := none
  heldReset := false
  uart := []
  ibi := []
  sensors := { dies := [], clusters := [] }
  closed := { dies := [], clusters := [] }
  cores := []
  mem := { cells := [], trained := none }
  psn := []
  latent := []
  upsets := []
  queues := []
  errqSet := false
  res := []
  sems := []
  ctxs := []
  links := []
  routes := []
  routeMark := []
  mcast := []
  mcastStg := []
  requests := []
  unsent := []
  nextTag := 0
  inbox := []
  imgLink := none
  imgTried := []
  jobs := []
  swarms := []
  copies := []
  touchWait := []
  jtlb := []
  jrootUse := 0
  resolving := []
  stepCyc := 0
  stepCmd := none
  sums := []
  ebud := []
  pdie := []
  eref := []
  phist := []
  throttle := 0
  overCap := false
  ports := []
  bpDone := 0
  linkTrain := false
  j1Lanes := []
  hdmBase := none
  msixMask := BitVec.allOnes 32
  msixPend := 0
  msixSent := []
  hostOut := []
  hostRead := []
  snoop := []
  biWait := []
  bursts := []
  drecWait := none
  restWait := false
  hostLines := []
  memWait := []
  hostCfg := { bars := [], msix := [], hdm := [], ideKeys := [], ideOn := false }
  boxH := { busy := false, status := 0, resp := [], req := none }
  boxM := { busy := false, status := 0, resp := [], req := none }
  buf := []
  session := none
  running := none
  runHdr := []
  flyDown := false
  activating := none
  dynAddr := none
  idKeys := []
  flashA := []
  flashB := []
  settings := []
  ilvSet := 0
  log := []
  fuses := []
  repairs := []
  fieldRows := []
  scrub := none
  repairing := none
  rowWait := none
  tap := .idcode
  tapDr := 0x1096A3C5
  freeCtr := 0
  rngCtr := 0
  pending := []

end Sys2Proof.Machine
end

