-- ==== Sys2Proof/Machine/Store.lean ====
section
/-! DEFINITION. Sys2Proof/Machine/Store.lean: reading and writing a sparse table in canonical form, and bit fields. -/

namespace Sys2Proof.Machine

/-- What a table reads at a key; d is what an unlisted key reads as. -/
def look {α : Type} (d : α) : Store α → Nat → α
  | [], _ => d
  | (k, v) :: r, i => if i = k then v else look d r i

/-- The table without an entry for the key. -/
def eraseKey {α : Type} (i : Nat) (m : Store α) : Store α := m.filter (fun e => e.1 ≠ i)

/-- The table with an entry for a key that it does not list, before the first greater key. -/
def insertKey {α : Type} (i : Nat) (v : α) : Store α → Store α
  | [] => [(i, v)]
  | (k, w) :: r => if i < k then (i, v) :: (k, w) :: r else (k, w) :: insertKey i v r

/-- Writing a value: the default of the key is kept by listing nothing, so that equal tables are equal data. -/
def put {α : Type} [DecidableEq α] (d : α) (m : Store α) (i : Nat) (v : α) : Store α :=
  if v = d then eraseKey i m else insertKey i v (eraseKey i m)

/-- Keys strictly rising from a bound, and no entry equal to the default of its key. -/
def storeWfFrom {α : Type} [DecidableEq α] (d : Nat → α) : Nat → Store α → Bool
  | _, [] => true
  | b, (k, v) :: r => decide (b ≤ k) && decide (v ≠ d k) && storeWfFrom d (k + 1) r

/-- The canonical form of a table. -/
def storeWf {α : Type} [DecidableEq α] (d : Nat → α) (m : Store α) : Bool := storeWfFrom d 0 m

/-- Writing a run of values from a key upward. -/
def putRun {α : Type} [DecidableEq α] (d : α) : Store α → Nat → List α → Store α
  | m, _, [] => m
  | m, i, v :: vs => putRun d (put d m i v) (i + 1) vs

/-- Reading a run of n values from a key upward. -/
def lookRun {α : Type} (d : α) (m : Store α) : Nat → Nat → List α
  | _, 0 => []
  | i, n + 1 => look d m i :: lookRun d m (i + 1) n

/-- The field of len bits from bit lo of a bit vector, as a number. -/
def fld {w : Nat} (x : BitVec w) (lo len : Nat) : Nat := x.toNat / 2 ^ lo % 2 ^ len

/-- The bit vector with the field of len bits from bit lo replaced. -/
def setFld {w : Nat} (x : BitVec w) (lo len v : Nat) : BitVec w :=
  (x &&& ~~~(BitVec.ofNat w ((2 ^ len - 1) * 2 ^ lo))) ||| BitVec.ofNat w (v % 2 ^ len * 2 ^ lo)

/-- The bit vector with bit i set or cleared. -/
def setBit {w : Nat} (x : BitVec w) (i : Nat) (b : Bool) : BitVec w := setFld x i 1 (if b then 1 else 0)

/-- A 64-bit value as four words, least significant first (R3). -/
def wordsOf64 (x : W64) : List Word := [x.extractLsb' 0 16, x.extractLsb' 16 16, x.extractLsb' 32 16, x.extractLsb' 48 16]

/-- A 32-bit value as two words, least significant first (R3). -/
def wordsOf32 (x : W32) : List Word := [x.extractLsb' 0 16, x.extractLsb' 16 16]

/-- The number that a list of words spells, least significant first (R3). -/
def natOfWords : List Word → Nat
  | [] => 0
  | w :: r => w.toNat + 65536 * natOfWords r

/-- The words of a number, least significant first, n of them. -/
def wordsOfNat : Nat → Nat → List Word
  | 0, _ => []
  | n + 1, x => BitVec.ofNat 16 x :: wordsOfNat n (x / 65536)

/-- The number that a list of bytes spells, least significant first. -/
def natOfBytes : List Byte → Nat
  | [] => 0
  | b :: r => b.toNat + 256 * natOfBytes r

/-- The bytes of a number, least significant first, n of them. -/
def bytesOfNat : Nat → Nat → List Byte
  | 0, _ => []
  | n + 1, x => BitVec.ofNat 8 x :: bytesOfNat n (x / 256)

/-- The bytes of words in byte-address order (R5). -/
def bytesOfWords : List Word → List Byte
  | [] => []
  | w :: r => w.extractLsb' 0 8 :: w.extractLsb' 8 8 :: bytesOfWords r

/-- The words of bytes in byte-address order (R5); a last odd byte is the low byte of a word. -/
def wordsOfBytes : List Byte → List Word
  | [] => []
  | [b] => [b.zeroExtend 16]
  | b :: c :: r => (c ++ b) :: wordsOfBytes r

/-- The bit vector of a list of bits by index: bit i is b i. -/
def bitsOf (w : Nat) (b : Nat → Bool) : BitVec w :=
  (List.range w).foldl (fun x i => if b i then x ||| BitVec.ofNat w (2 ^ i) else x) 0#w

/-- The number of set bits of a bit vector. -/
def countBits {w : Nat} (x : BitVec w) : Nat := (List.range w).countP (fun i => x.getLsbD i)

/-- The signed value of the low w bits of a number. -/
def signedOf (w n : Nat) : Int :=
  if n % 2 ^ w < 2 ^ (w - 1) then (n % 2 ^ w : Nat) else (n % 2 ^ w : Nat) - (2 ^ w : Nat)

/-- Floor of the base-2 logarithm of a positive number. -/
def flog2 (n : Nat) : Nat := Nat.log2 n

/-- Ceiling of the base-2 logarithm of a positive number. -/
def clog2 (n : Nat) : Nat := if n ≤ 1 then 0 else Nat.log2 (n - 1) + 1

/-- Ceiling of a / b. -/
def cdiv (a b : Nat) : Nat := (a + b - 1) / b

end Sys2Proof.Machine
end

