-- ==== Sys2Proof/Machine/Regs.lean ====
section
/-! DEFINITION. Sys2Proof/Machine/Regs.lean: the MMIO registers by BAR0 byte offset, their reset values and access, the page
header (R14 to R18), error codes, latched interrupts and the MSI-X messages they send. -/

namespace Sys2Proof.Machine

/-- BAR0 byte offset of a page (Table 10-2). -/
def pageBase : Page → Nat
  | .global => 0x0
  | .pyro => 0x1000
  | .scarab => 0x2000
  | .comb => 0x3000
  | .mould => 0x4000
  | .pugmill i => 0x5000 + 0x1000 * i.val
  | .fabric => 0x7000
  | .link n => 0x100000 + 0x1000 * n
  | .core n => 0x200000 + 0x1000 * n
  | .stack n => 0x300000 + 0x1000 * n
  | .lpch n => 0x310000 + 0x1000 * n
  | .ras => 0x400000
  | .scrub => 0x401000
  | .host => 0x500000
  | .firefly => 0x600000

/-- Whether a page of that number exists (Table 10-2). -/
def pageExists : Page → Bool
  | .link n => n < 96
  | .core n => n < 192
  | .stack n => n < 8
  | .lpch n => n < 32
  | _ => true

/-- The page at a BAR0 byte offset, if one occupies it (R284). -/
def pageAt (off : Nat) : Option Page :=
  let p := off / 0x1000
  if p = 0 then some .global else if p = 1 then some .pyro else if p = 2 then some .scarab else if p = 3 then some .comb
  else if p = 4 then some .mould else if p = 5 then some (.pugmill 0) else if p = 6 then some (.pugmill 1)
  else if p = 7 then some .fabric
  else if 0x100 ≤ p ∧ p < 0x160 then some (.link (p - 0x100))
  else if 0x200 ≤ p ∧ p < 0x2C0 then some (.core (p - 0x200))
  else if 0x300 ≤ p ∧ p < 0x308 then some (.stack (p - 0x300))
  else if 0x310 ≤ p ∧ p < 0x330 then some (.lpch (p - 0x310))
  else if p = 0x400 then some .ras else if p = 0x401 then some .scrub
  else if p = 0x500 then some .host else if p = 0x600 then some .firefly else none

/-! Register offsets in bytes from the page base. -/

/-- PG_CTL, PG_IRQ_EN, PG_IRQ, PG_ERR (Table 0-3). -/
abbrev oCtl : Nat := 0x00C
abbrev oIrqEn : Nat := 0x014
abbrev oIrq : Nat := 0x018
abbrev oErr : Nat := 0x01C

/-- GLOBAL page (Tables 2-2, 2-3, 2-5, 2-8, 5-5, 10-3). -/
abbrev rStrap : Nat := 0x040
abbrev rCfg : Nat := 0x044
abbrev rSvc : Nat := 0x048
abbrev rIrqRoute : Nat := 0x050
abbrev rIlv : Nat := 0x054

/-- PYRO page (Table 11-7). -/
abbrev rPyIn : Nat := 0x1040
abbrev rPyCap : Nat := 0x1044
abbrev rPyAvg : Nat := 0x1048
abbrev rPyDvfs : Nat := 0x104C
abbrev rPyBud (d : Nat) : Nat := 0x1050 + 0x10 * d
abbrev rPyPwr (d : Nat) : Nat := 0x1054 + 0x10 * d
abbrev rPyTemp (d : Nat) : Nat := 0x1058 + 0x10 * d

/-- SCARAB page (Table 11-6). -/
abbrev rQsel : Nat := 0x2048
abbrev rAge : Nat := 0x2060
abbrev rErrq : Nat := 0x2068

/-- COMB page (Table 12-7). -/
abbrev rHopv : Nat := 0x3044
abbrev rLsctx : Nat := 0x304C
abbrev rErrsem : Nat := 0x3050
abbrev rBctl (b : Nat) : Nat := 0x3100 + 0x20 * b
abbrev rBparent (b : Nat) : Nat := 0x3104 + 0x20 * b
abbrev rBgen (b : Nat) : Nat := 0x3108 + 0x20 * b
abbrev rBnext (b : Nat) : Nat := 0x310C + 0x20 * b
abbrev rBmask (b k : Nat) : Nat := 0x3900 + 0x18 * b + 4 * k

/-- MOULD page (Tables 10-7 to 10-10, 15-8). -/
abbrev rJrootLo : Nat := 0x4040
abbrev rJrootHi : Nat := 0x4044
abbrev rSnap : Nat := 0x4048
abbrev rStep : Nat := 0x404C
abbrev rSlogLo : Nat := 0x4050
abbrev rSlogHi : Nat := 0x4054
abbrev rSctl : Nat := 0x4058
abbrev rSlast : Nat := 0x405C
abbrev rStepn : Nat := 0x4060
abbrev rJctxLo : Nat := 0x4064
abbrev rJctxHi : Nat := 0x4068
abbrev rDrecLo : Nat := 0x4070
abbrev rDrecHi : Nat := 0x4074
abbrev rRrecLo : Nat := 0x4078
abbrev rRrecHi : Nat := 0x407C
abbrev rRcmd : Nat := 0x4080

/-- PUGMILL pages (Tables 7-12, 7-13, 14-7). -/
abbrev rJsel (p : Nat) : Nat := 0x5040 + 0x1000 * p
abbrev rErrjob (p : Nat) : Nat := 0x5048 + 0x1000 * p
abbrev rFbLo : Nat := 0x504C
abbrev rFbHi : Nat := 0x5050
abbrev rXsel (p : Nat) : Nat := 0x5058 + 0x1000 * p
abbrev rLsPol : Nat := 0x5800
abbrev rLsCur : Nat := 0x5804
abbrev rLsSkip : Nat := 0x5808
abbrev rLsPolStg : Nat := 0x5810
abbrev rLsCurStg : Nat := 0x5814

/-- FABRIC page (Table 13-11). -/
abbrev rFabId : Nat := 0x7040
abbrev rFabSeed : Nat := 0x7044
abbrev rFabCtl : Nat := 0x7048
abbrev rFabRto : Nat := 0x704C
abbrev rFabRsel : Nat := 0x7050
abbrev rFabMsel : Nat := 0x7058
abbrev rFabErrdst : Nat := 0x706C
abbrev rRdbd (n : Nat) : Nat := 0x7800 + 8 * n

/-- LINK_n page (Table 13-12). -/
abbrev rLkCtl (n : Nat) : Nat := 0x100040 + 0x1000 * n
abbrev rLkStat (n : Nat) : Nat := 0x100044 + 0x1000 * n
abbrev rLkPeer (n : Nat) : Nat := 0x100048 + 0x1000 * n
abbrev rLkPidLo (n : Nat) : Nat := 0x10004C + 0x1000 * n
abbrev rLkPidHi (n : Nat) : Nat := 0x100050 + 0x1000 * n
abbrev rLkFlags (n : Nat) : Nat := 0x100054 + 0x1000 * n

/-- CORE_n page (Tables 3-9 to 3-12, 5-10, 7-7 to 7-11, 10-7, 11-6). -/
abbrev rRun (n : Nat) : Nat := 0x200040 + 0x1000 * n
abbrev rStart (n : Nat) : Nat := 0x200044 + 0x1000 * n
abbrev rStopinfo (n : Nat) : Nat := 0x200054 + 0x1000 * n
abbrev rNf (n : Nat) : Nat := 0x200060 + 0x1000 * n
abbrev rDisp (n : Nat) : Nat := 0x200064 + 0x1000 * n
abbrev rMbox (n : Nat) : Nat := 0x200068 + 0x1000 * n
abbrev rXrootLo (n : Nat) : Nat := 0x200080 + 0x1000 * n
abbrev rXrootHi (n : Nat) : Nat := 0x200084 + 0x1000 * n
abbrev rScCtl (n e : Nat) : Nat := 0x200400 + 0x1000 * n + 0x30 * e
abbrev rScAmax (n e : Nat) : Nat := 0x200404 + 0x1000 * n + 0x30 * e
abbrev rScHist (n e k : Nat) : Nat := 0x200410 + 0x1000 * n + 0x30 * e + 4 * k

/-- STACK_n and LPCH_n pages (Table 18-4). -/
abbrev rStCe (n : Nat) : Nat := 0x300040 + 0x1000 * n
abbrev rStUe (n : Nat) : Nat := 0x300044 + 0x1000 * n
abbrev rStStat (n : Nat) : Nat := 0x30004C + 0x1000 * n
abbrev rLpCe (n : Nat) : Nat := 0x310040 + 0x1000 * n
abbrev rLpUe (n : Nat) : Nat := 0x310044 + 0x1000 * n
abbrev rLpStat (n : Nat) : Nat := 0x31004C + 0x1000 * n

/-- RAS page (Table 18-5). -/
abbrev rRasSram (d : Nat) : Nat := 0x400040 + 4 * d
abbrev rHostPsn : Nat := 0x400058
abbrev rLinkFec : Nat := 0x40005C
abbrev rLinkRpl : Nat := 0x400060
abbrev rLogctl : Nat := 0x400064
abbrev rLogsel : Nat := 0x400068
abbrev rRpaLo : Nat := 0x400078
abbrev rRpaHi : Nat := 0x40007C
abbrev rRpcmd : Nat := 0x400080

/-- SCRUB page (Table 18-6). -/
abbrev rScrBaseLo : Nat := 0x401040
abbrev rScrBaseHi : Nat := 0x401044
abbrev rScrCntLo : Nat := 0x401048
abbrev rScrCntHi : Nat := 0x40104C
abbrev rScrCtl : Nat := 0x401050
abbrev rScrScan : Nat := 0x401054
abbrev rScrCorr : Nat := 0x401058
abbrev rScrUe : Nat := 0x40105C
abbrev rScrPsn : Nat := 0x401060
abbrev rScrClrd : Nat := 0x401064
abbrev rScrFpaLo : Nat := 0x401068
abbrev rScrFpaHi : Nat := 0x40106C

/-- HOST page (Table 16-5). -/
abbrev rLstat : Nat := 0x500040
abbrev rErrport : Nat := 0x50004C
abbrev rBpsel : Nat := 0x500050

/-- The reset value of the register at an offset: the tables' values; every other register resets to zero. -/
def regReset (off : Nat) : W32 :=
  if off = rSvc then 0x1F000000
  else if off = rPyCap then 0x0AF00000
  else if off = rPyDvfs then 0x00000240
  else if off = rAge then 1000
  else if off = rLsPol ∨ off = rLsPolStg then 0x180003E8
  else if off = rLsCur ∨ off = rLsCurStg then 16
  else if off = rFabId then 0x80000000
  else if off = rFabCtl then 8
  else if off = rFabRto then 200
  else if 0x1050 ≤ off ∧ off < 0x1090 ∧ off % 0x10 = 0 then 700
  else if 0x100000 ≤ off ∧ off < 0x160000 ∧ off % 0x1000 = 0x040 then 0xC0000000
  else if 0x100000 ≤ off ∧ off < 0x160000 ∧ off % 0x1000 = 0x044 then 0x10000000
  else if 0x200000 ≤ off ∧ off < 0x2C0000 then
    if off % 0x1000 = 0x040 then 1
    else if 0x400 ≤ off % 0x1000 ∧ (off % 0x1000 - 0x400) % 0x30 = 0 then 0x01000000
    else 0
  else 0

/-- What the register at an offset holds. -/
def State.reg (s : State) (off : Nat) : W32 := look (regReset off) s.regs off

/-- The state with the register at an offset holding a value. -/
def State.setReg (s : State) (off : Nat) (v : W32) : State := { s with regs := put (regReset off) s.regs off v }

/-- A field of a register as a number. -/
def State.fldReg (s : State) (off lo len : Nat) : Nat := fld (s.reg off) lo len

/-- The state with a field of a register replaced. -/
def State.setFldReg (s : State) (off lo len v : Nat) : State := s.setReg off (setFld (s.reg off) lo len v)

/-- One bit of a register. -/
def State.bitReg (s : State) (off i : Nat) : Bool := (s.reg off).getLsbD i

/-- A counter register with an event counted: it saturates at all ones (R504). -/
def satAdd (w k : Nat) (x : Nat) : Nat := if 2 ^ w - 1 < x + k then 2 ^ w - 1 else x + k

/-- A counter register after k more events (R504). -/
def State.countReg (s : State) (off lo len k : Nat) : State := s.setFldReg off lo len (satAdd len k (s.fldReg off lo len))

/-- The service stage of GLOBAL_SVC (Table 2-8). -/
def State.stage (s : State) : Nat := s.fldReg rSvc 28 4

/-- Whether the module is in Glaze. -/
def State.glaze (s : State) : Bool := s.stage == 4

/-- Sending MSI-X vector v, or setting its pending bit while it is masked (R473, R474). -/
def State.msix (s : State) (v : Nat) : State :=
  if s.msixMask.getLsbD v then { s with msixPend := setBit s.msixPend v true }
  else { s with msixSent := s.msixSent ++ [BitVec.ofNat 5 v] }

/-- The level of each interrupt source of a page, PG_IRQ_RAW (R72, R154, R312, R329, R338, R362, R396, R397, R432, R478,
R482, R506, R509). -/
def State.irqRaw (s : State) (p : Page) : W32 :=
  let err := decide (s.fldReg (pageBase p + oErr) 0 16 ≠ 0)
  let two (a b : Bool) : W32 := (if a then 1 else 0) + (if b then 2 else 0)
  match p with
  | .pyro => two s.overCap ((List.range 4).any (fun d => s.bitReg (rPyTemp d) 8))
      + (if (List.range 4).any (fun d => s.bitReg (rPyTemp d) 9) then 4 else 0)
  | .scarab => two (s.fldReg (pageBase p + oErr) 0 16 == 2) false
  | .mould => two (!s.bitReg rSnap 30) (!s.bitReg rStep 29)
  | .link n => two (s.fldReg (rLkStat n) 28 4 == 7) (s.fldReg (rLkStat n) 28 4 == 6)
  | .stack _ => 0
  | .lpch _ => 0
  | .ras => two err (s.log.any (fun e => e.ue))
  | .scrub => two (!s.bitReg rScrCtl 30) false
  | .host => two err (decide (s.bpDone ≠ 0))
  | .firefly => two (!s.boxH.busy) false
  | _ => two err false

/-- Whether any page asserts its interrupt: some PG_IRQ bit is 1 (R16). -/
def State.anyIrq (s : State) : Bool := s.regs.any (fun e => e.1 % 0x1000 == oIrq && decide (e.2 ≠ 0))

/-- Sending vector 0 when the OR of the page interrupts has risen since the state old (R473). -/
def State.orRise (old s : State) : State := if s.anyIrq && !old.anyIrq then s.msix 0 else s

/-- An operation on the state that may raise sources of a page: each raised and enabled source is latched (R16). -/
def withIrq (p : Page) (f : State → State) (s : State) : State :=
  let t := f s
  let raised := t.irqRaw p &&& ~~~(s.irqRaw p) &&& t.reg (pageBase p + oIrqEn)
  State.orRise s (t.setReg (pageBase p + oIrq) (t.reg (pageBase p + oIrq) ||| raised))

/-- An event raises interrupt sources of a page whose level it leaves low. -/
def State.latchIrq (s : State) (p : Page) (m : W32) : State :=
  State.orRise s (s.setReg (pageBase p + oIrq) (s.reg (pageBase p + oIrq) ||| (m &&& s.reg (pageBase p + oIrqEn))))

/-- Recording an error code in PG_ERR of a page: the first one since it was cleared stays (R18). The second operation is
what the page records beside a first error. -/
def State.errWith (s : State) (p : Page) (code : Nat) (f : State → State) : State :=
  if s.fldReg (pageBase p + oErr) 0 16 = 0 then
    withIrq p (fun t => f (t.setReg (pageBase p + oErr) (BitVec.ofNat 32 code))) s
  else s

/-- Recording an error code in PG_ERR of a page (R18). -/
def State.err (s : State) (p : Page) (code : Nat) : State := s.errWith p code id

/-- Clearing PG_ERR of a page, with the code of an error that arrives in the same cycle, or 0 (R15, R18). Whether the source of the interrupt falls in
between, so that PG_IRQ latches again, the spec does not say; here it does (assumption log 122). -/
def State.clearErr (s : State) (p : Page) (arriving : Nat) : State :=
  let t := withIrq p (fun (t : State) =>
    let u := t.setReg (pageBase p + oErr) 0
    if p = .scarab then { u with errqSet := false } else u) s
  if arriving = 0 then t else t.err p arriving

/-- Whether IPEND.PAGE of a core is high (Table 5-4). -/
def State.pageIrqTo (s : State) (n : Nat) : Bool :=
  s.anyIrq && s.bitReg rIrqRoute 31 && s.fldReg rIrqRoute 0 8 == n

/-- A write of a register takes its turn: one by the host is performed after the accesses to the BARs that wait for the host's answer to a snoop, in
the order they arrived (R460, R470). -/
def State.inTurn (s : State) (src : Src) (i : HostRow) (f : State → State) : State :=
  if src = .host ∧ s.bursts ≠ [] then { s with bursts := s.bursts ++ [.cmd i] } else f s

/-- A command or event acts only while the module runs: powered and out of reset (R45, R48, R49). -/
def command (f : State → State) (s : State) : Host.Outcome State Fault Refusal := .next (if s.power = .running then f s else s)

end Sys2Proof.Machine
end

