-- ==== Sys2Proof/Machine/Mem.lean ====
section
/-! DEFINITION. Sys2Proof/Machine/Mem.lean: the local word-address map (R282), tiers and banks (R286), reading and writing
words, and the check codes of stored data: correction, poison marks, counters and the address log (R494 to R498, R505). -/

namespace Sys2Proof.Machine

/-- The regions of Table 10-1; a core's own window is given with the physical regions it names. -/
inductive Region where
  | stacked | lpddr | window | local_ (n : Nat) | shared (d : Nat) | comb | mmio | reserved
deriving DecidableEq, Repr

/-- The window base of Table 10-1. -/
def winBase : Nat := 0xE0000000000

/-- The Comb windows and MMIO ranges (Table 10-1). -/
def combBase : Nat := 0xE0300000000
def mmioBase : Nat := 0xF0000000000

/-- The region a local word address lies in (Table 10-1). -/
def regionOf (a : Nat) : Region :=
  if a < 0x8000000000 then .stacked
  else if 0x10000000000 ≤ a ∧ a < 0x20000000000 then .lpddr
  else if 0xE0000000000 ≤ a ∧ a < 0xE0000100000 then .window
  else if 0xE0100000000 ≤ a ∧ a < 0xE0100000000 + 0x100000 * 192 then .local_ ((a - 0xE0100000000) / 0x100000)
  else if 0xE0200000000 ≤ a ∧ a < 0xE0200000000 + 0x2000000 * 4 then .shared ((a - 0xE0200000000) / 0x2000000)
  else if 0xE0300000000 ≤ a ∧ a < 0xE0300200000 then .comb
  else if 0xF0000000000 ≤ a ∧ a < 0xF0002000000 then .mmio
  else .reserved

/-- The physical address of word o of core n's local memory (R282). -/
def localAddr (n o : Nat) : Nat := 0xE0100000000 + 0x100000 * n + o % 0x100000

/-- A local address as core n names it, with its window replaced by the memory behind it. -/
def physOf (n a : Nat) : Nat := if regionOf a = .window then localAddr n (a - winBase) else a

/-- The zones of the spread pool, ascending (R286). -/
def stPool (s : State) : List Nat := (List.range 8).filter (fun z => s.bitReg rIlv z)

/-- Stack, channel, bank and row of a stacked DRAM word (R286). -/
def stackedMap (s : State) (a : Nat) : Nat × Nat × Nat × Nat :=
  let z := a / 2 ^ 36 % 8
  let f := a / 2 ^ 11 % 2 ^ 25
  let go (st sf : Nat) := (st, sf % 32, sf / 32 % 32, sf / 1024)
  if s.bitReg rIlv z then
    let pool := stPool s
    let g := (pool.idxOf z) * 2 ^ 25 + f
    go (pool.getD (g % pool.length) 0) (g / pool.length)
  else go z f

/-- Channel, bank and row of an LPDDR6 word by its offset in the tier (R286). -/
def lpddrMap (s : State) (a : Nat) : Nat × Nat × Nat :=
  let o := a - 0x10000000000
  if s.bitReg rIlv 8 then
    let g := o / 2 ^ 11
    (g % 32, g / 32 % 16, g / 512)
  else
    let f := o / 2 ^ 11 % 2 ^ 28
    (16 * (o / 2 ^ 39) + f % 16, f / 16 % 16, f / 256)

/-- A number for the DRAM bank of a word on this module, if it lies in DRAM (R285, R289). -/
def bankOf (s : State) (a : Nat) : Option Nat :=
  match regionOf a with
  | .stacked => let (st, ch, b, _) := stackedMap s a; some ((st * 32 + ch) * 32 + b)
  | .lpddr => let (ch, b, _) := lpddrMap s a; some (8192 + ch * 16 + b)
  | _ => none

/-- Whether a word of a tier is reachable now: stacked DRAM only in Glaze (R68), an LPDDR6 word unless its channel failed
training (R65, R282). Only memory counts. -/
def State.tierOk (s : State) (a : Nat) : Bool :=
  match regionOf a with
  | .stacked => s.glaze
  | .lpddr => !s.bitReg (rLpStat (lpddrMap s a).1) 0
  | .local_ _ => true
  | .shared _ => true
  | _ => false

/-- Stacked DRAM, LPDDR6 or die-shared memory, and reachable: where tables, logs and rings may lie (R302, R312, R315). -/
def State.tableOk (s : State) (a : Nat) : Bool :=
  match regionOf a with
  | .local_ _ => false
  | _ => s.tierOk a

/-- The first word of the codeword that holds a word, and the codeword's length (Table 18-1). -/
def cwLen (a : Nat) : Nat := if a < 0x20000000000 then 16 else 4
def cwOf (a : Nat) : Nat := a - a % cwLen a

/-- The words above the LPDDR6 tier's unspecified part: the staging area (R60). -/
def stagingBase : Nat := 0x1FFFF000000

/-- Whether a word lies in the part of the LPDDR6 tier that a training leaves unspecified (R61). -/
def inTrained (a : Nat) : Bool := decide (0x10000000000 ≤ a) && decide (a < stagingBase)

/-- What a byte that nothing has written reads as: zero (assumption log 1), or what the last training left there (R61). -/
def Memory.unwritten (m : Memory) (b : Nat) : Byte :=
  match m.trained with
  | some k => if inTrained (b / 2) then Config.trainedByte k b else 0
  | none => 0

/-- A byte of memory, and the memory with a byte written. -/
def Memory.byte (m : Memory) (b : Nat) : Byte := look 0 m.cells b ^^^ m.unwritten b
def Memory.setByte (m : Memory) (b : Nat) (v : Byte) : Memory := { m with cells := put 0 m.cells b (v ^^^ m.unwritten b) }

/-- Whether a codeword that nothing has written carries a poison mark (R61). -/
def Memory.unmarked (m : Memory) (c : Nat) : Bool :=
  match m.trained with
  | some k => inTrained c && Config.trainedMark k c
  | none => false

/-- A byte of memory in the host's view (R5). -/
def State.byte (s : State) (b : Nat) : Byte := s.mem.byte b

/-- A word of memory (R5). -/
def State.word (s : State) (a : Nat) : Word := s.byte (2 * a + 1) ++ s.byte (2 * a)

/-- Whether a word carries a poison mark (R497). -/
def State.poisoned (s : State) (a : Nat) : Bool := look false s.psn (cwOf a) ^^ s.mem.unmarked (cwOf a)

/-- The state with a byte of memory written. -/
def State.setByte (s : State) (b : Nat) (v : Byte) : State := { s with mem := s.mem.setByte b v }

/-- The state with the two bytes of a word written. -/
def State.setWord (s : State) (a : Nat) (v : Word) : State :=
  (s.setByte (2 * a) (v.extractLsb' 0 8)).setByte (2 * a + 1) (v.extractLsb' 8 8)

/-- The state with the mark of a codeword set or cleared. -/
def State.setMark (s : State) (a : Nat) (m : Bool) : State :=
  { s with psn := put false s.psn (cwOf a) (m ^^ s.mem.unmarked (cwOf a)) }

/-- The source field of the address log for a word (Table 18-5). -/
def srcOf (a : Nat) : BitVec 4 :=
  match regionOf a with
  | .stacked => 0
  | .lpddr => 1
  | .shared _ => 2
  | _ => 3

/-- The counter of an event on a codeword: register, low bit and width (R495, Tables 18-4 and 18-5). -/
def counterOf (s : State) (a : Nat) (ue : Bool) : Nat × Nat × Nat :=
  match regionOf a with
  | .stacked => ((if ue then rStUe else rStCe) (stackedMap s a).1, 0, 32)
  | .lpddr => ((if ue then rLpUe else rLpCe) (lpddrMap s a).1, 0, 32)
  | .shared d => (rRasSram d, if ue then 0 else 16, 16)
  | .local_ n => (rRasSram (n / 48), if ue then 0 else 16, 16)
  | _ => (rRasSram 4, if ue then 0 else 16, 16)

/-- Logging an event on a codeword (R505). -/
def State.logEvent (s : State) (a : Nat) (ue : Bool) : State :=
  withIrq .ras (fun s =>
    if s.log.any (fun e => e.addr == cwOf a && e.ue == ue) then
      { s with log := s.log.map (fun e =>
          if e.addr == cwOf a && e.ue == ue then { e with rep := BitVec.ofNat 16 (satAdd 16 1 e.rep.toNat) } else e) }
    else if s.log.length < 64 then
      { s with log := s.log ++ [{ addr := cwOf a, ue := ue, src := srcOf a, rep := 1 }] }
    else s.countReg rLogctl 0 24 1) s

/-- Counting and logging an event on a codeword. -/
def State.memEvent (s : State) (a : Nat) (ue : Bool) : State :=
  let (r, lo, len) := counterOf s a ue
  (s.countReg r lo len 1).logEvent a ue

/-- What a read of a codeword does before it returns data: a correctable error is corrected and written back, an
uncorrectable one marks the codeword, each counted and logged; a mark alone counts nothing (R495 to R497). -/
def State.touch (s : State) (a : Nat) : State :=
  match look .none s.latent (cwOf a) with
  | .none => s
  | .ce => ({ s with latent := put .none s.latent (cwOf a) .none }).memEvent a false
  | .ue => (({ s with latent := put .none s.latent (cwOf a) .none }).setMark a true).memEvent a true

/-- The addresses of n words from a. -/
def addrs (a n : Nat) : List Nat := (List.range n).map (fun i => a + i)

/-- Reading checks every codeword that holds a word of the run. -/
def State.touchAll (s : State) (l : List Nat) : State := l.foldl (fun s a => s.touch a) s

/-- The words of a run. -/
def State.words (s : State) (a n : Nat) : List Word := (addrs a n).map s.word

/-- The marks of a run. -/
def State.marks (s : State) (a n : Nat) : List Bool := (addrs a n).map s.poisoned

/-- Whether a run holds a marked word. -/
def State.anyMark (s : State) (a n : Nat) : Bool := (addrs a n).any s.poisoned

/-- The codeword of c after words and marks were written at pairs of address, word and mark: unmarked if every word was
replaced by unmarked words, else marked if it was or if any written word is (R498). -/
def newMark (s : State) (ws : List (Nat × Word × Bool)) (c : Nat) : Bool :=
  let mine := ws.filter (fun e => cwOf e.1 == c)
  let full := (addrs c (cwLen c)).all (fun a => mine.any (fun e => e.1 == a))
  mine.any (fun e => e.2.2) || (!full && s.poisoned c)

/-- Whether words written at given addresses replace a whole codeword. -/
def coversCw (ws : List (Nat × Word × Bool)) (c : Nat) : Bool :=
  (addrs c (cwLen c)).all (fun a => ws.any (fun e => e.1 == a))

/-- Writing words with marks at physical addresses. A write of part of a codeword reads it first; a write of a whole one
replaces what it held (R498). -/
def State.writeMarked (s : State) (ws : List (Nat × Word × Bool)) : State :=
  let cws := (ws.map (fun e => cwOf e.1)).dedup
  let s1 := cws.foldl (fun s c =>
    if coversCw ws c then { s with latent := put .none s.latent c .none } else s.touch c) s
  let s2 := cws.foldl (fun t c => t.setMark c (newMark s1 ws c)) s1
  ws.foldl (fun t e => t.setWord e.1 e.2.1) s2

/-- Pairs each word of a run with its address and a mark. -/
def runOf (a : Nat) (ws : List Word) (m : Bool) : List (Nat × Word × Bool) := (ws.zipIdx).map (fun e => (a + e.2, e.1, m))

/-- Pairs each word of a run with its address and its own mark. -/
def runMarked (a : Nat) (ws : List (Word × Bool)) : List (Nat × Word × Bool) :=
  (ws.zipIdx).map (fun e => (a + e.2, e.1.1, e.1.2))

/-- Writing unmarked words at consecutive physical addresses. -/
def State.writeRun (s : State) (a : Nat) (ws : List Word) : State := s.writeMarked (runOf a ws false)

/-- The list of n words at consecutive addresses with their marks. -/
def State.readRun (s : State) (a n : Nat) : List (Word × Bool) := (addrs a n).map (fun b => (s.word b, s.poisoned b))

/-- The lines of 32 words in the host's snoop filter that hold a word of a set given by a test on the line (R470). -/
def State.biLines (s : State) (f : Nat → Bool) : List Nat := s.snoop.filter f

/-- The test for the lines of a run, and for the lines of a list of words. -/
def inRun (a n l : Nat) : Bool := decide (0 < n) && decide (a / 32 ≤ l) && decide (l ≤ (a + n - 1) / 32)
def inList (as_ : List Nat) (l : Nat) : Bool := as_.any (fun a => a / 32 == l)

/-- Back-invalidate snoops sent for lines (R470). -/
def State.biAsk (s : State) (f : Nat → Bool) : State := { s with biWait := (s.biWait ++ s.biLines f).dedup }

/-- Whether an access must wait for the host's answer to a back-invalidate snoop (R470). -/
def State.biHeld (s : State) (f : Nat → Bool) : Bool := !(s.biLines f).isEmpty

/-! ## Register files and control structures -/

/-- The die of a place, as RAS_SRAM_d counts it (Tables 1-2, 1-3 and 18-5): four compute dies, IOD0 with the Scarab and PUGMILL_0, IOD1 with the Comb and
PUGMILL_1. The tables of the FABRIC page are put on IOD0 (assumption log 145). -/
def Site.die : Site → Nat
  | .tile n _ _ => n / 48
  | .acc n _ _ _ => n / 48
  | .vec n _ => n / 48
  | .shelf n _ _ => n / 48
  | .cells n _ _ => n / 48
  | .sem _ => 5
  | .ctx _ => 5
  | .queue _ => 4
  | .job j => 4 + j / 2048
  | .swarm e => 4 + e / 64
  | .route _ => 4
  | .mcast _ _ => 4
  | .node j _ _ _ _ _ => 4 + j / 2048
  | .held j _ => 4 + j / 2048
  | .heldRow e _ => 4 + e / 64

/-- Whether a place has a parity bit alone, which corrects nothing (Table 18-1). -/
def Site.parity : Site → Bool
  | .shelf _ _ _ => true
  | .cells _ _ _ => true
  | _ => false

/-- Whether an error cannot be corrected. -/
def Upset.bad (u : Upset) : Bool := u.ue || u.site.parity

/-- Counting an error of a register file or a control structure for its die (R495, R496, R504). -/
def State.sramEvent (s : State) (u : Upset) : State := s.countReg (rRasSram u.site.die) (if u.bad then 0 else 16) 16 1

/-- An access reads the places that a test names: every error there is found and counted, and those that cannot be corrected are named, to act there and
to be listed no more (R495, R496, R499). -/
def State.finds (s : State) (f : Site → Bool) : State × List Site :=
  let hit := s.upsets.filter (fun u => f u.site)
  (hit.foldl State.sramEvent { s with upsets := s.upsets.filter (fun u => !(f u.site && u.bad)) }, (hit.filter Upset.bad).map (fun u => u.site))

/-- Whether a read of one place finds an error there that cannot be corrected, and the state after the read. -/
def State.findsAt (s : State) (x : Site) : State × Bool :=
  let (t, l) := s.finds (fun y => y == x)
  (t, !l.isEmpty)

/-- Fresh data are written over the places that a test names: they are free of error. -/
def State.over (s : State) (f : Site → Bool) : State := { s with upsets := s.upsets.filter (fun u => !f u.site) }

/-- The canonical form of memory: addresses strictly rising, no entry equal to what an unlisted address reads as. -/
def Memory.wf (m : Memory) : Bool := storeWf (fun _ => 0) m.cells

end Sys2Proof.Machine
end

