-- ==== Sys2Proof/Machine/Ops.lean ====
section
/-! DEFINITION. Sys2Proof/Machine/Ops.lean: the operations every core instruction shares: reading and delivering registers
(R91 to R94), conditions (R83), issue with its fault order (R116), the end of an instruction (R96, R101), taking an exception
(R149), escalation and the stopped core (R153, R154), and returning from one (R155). -/

namespace Sys2Proof.Machine

/-- A tile register after core reset (R218). -/
def Tile.reset : Tile :=
  { data := [], side := [], shape := 0x40400040, tsw := 0x80000000, zm := BitVec.allOnes 64, rm := BitVec.allOnes 64, pm := 0 }

/-- An accumulator after core reset (R263). -/
def Acc.reset : Acc := { el := [], int := false, xe := 0, fresh := true, marks := 0 }

/-- A free accumulation group (R266). -/
def Group.reset : Group :=
  { openI := false, baseI := 0, treeI := false, intI := false, totI := 0, usedI := 0, base := 0, tree := false,
    tot := 0, leaves := [] }

/-- An array after core reset (R263). -/
def Arr.reset : Arr :=
  { acc := [], accI := [], groups := [], shelfW := none, shelfA := none, active := none, shadow := none, passes := [],
    lastAt := 0 }

/-- A core after core reset with CORE_START at zero (Table 3-13). -/
def Core.reset : Core :=
  { d := [], a := [], sr := 0xC0000000, pc := 0xE0000000000, ls := [], le := [], lc := [], escSp := 0, prog := 0, vl := 0,
    vtype := 0, vbr := 0, escLim := 0, ipend := 0, ien := 0, record := [], flight := [], unfetched := [], redirect := none, slot := false, hold := none, hlen := 0, walked := false,
    peek := false, resumed := false, resetting := false, stopReq := false, deferred := [], v := [], vpsn := [], vpend := [], vbusy := [],
    vserial := false, tiles := [], shapeI := [], setter := [], arrs := [], fops := [], blocks := [], nextId := 0, tlb := [],
    runAhead := [], rootUse := 0, dst := .off, task := none, ended := [], gated := false, gheld := false, tended := false, step := 0, pwr := 0,
    cycBase := 0, cycAt := 0 }

/-- Core n. -/
def State.core (s : State) (n : Nat) : Core := look Core.reset s.cores n

/-- The state with core n replaced. -/
def State.setCore (s : State) (n : Nat) (c : Core) : State := { s with cores := put Core.reset s.cores n c }

/-- The state with core n changed by a function. -/
def State.modCore (s : State) (n : Nat) (f : Core → Core) : State := s.setCore n (f (s.core n))

/-! ## Island clocks -/

/-- The Bisque core clock of the straps, in MHz (R53, R54). -/
def State.bisqMhz (s : State) : Nat := 150 + 150 * s.fldReg rCfg 10 2

/-- Whether a die is at 105 °C or above, as PYRO_DIE_d_TEMP.HOLD shows it. -/
def State.dieHold (s : State) (d : Nat) : Bool := s.bitReg (rPyTemp d) 9

/-- The clock of core n's island in MHz (R333, R335). -/
def State.coreMhz (s : State) (n : Nat) : Nat :=
  if s.glaze then 300 + 50 * (s.core n).step else if s.dieHold (n / 48) then 150 else s.bisqMhz

/-- The cycles an island makes at a frequency in k microseconds from the u-th (R27). -/
def isleRun (island mhz u : Nat) : Nat → Nat
  | 0 => 0
  | k + 1 => isleRun island mhz u k + Config.cyclesIn island mhz (u + k)

/-- The island cycle counter of core n (R27). -/
def State.cycles (s : State) (n : Nat) : Nat :=
  ((s.core n).cycBase + isleRun n (s.coreMhz n) (s.core n).cycAt (s.usec - (s.core n).cycAt)) % 2 ^ 64

/-- The other islands of Table 1-3. -/
inductive Isle where
  | dieNetwork (d : Fin 4) | memoryBase (m : Fin 8) | linkPort (n : Fin 96) | pugmill (p : Fin 2) | lpddr (i : Fin 2) | cxl | service
deriving DecidableEq, Repr

/-- The number of an island after the cores'. -/
def Isle.index : Isle → Nat
  | .dieNetwork d => 192 + d | .memoryBase m => 196 + m | .linkPort n => 204 + n | .pugmill p => 300 + p | .lpddr i => 302 + i
  | .cxl => 304 | .service => 305

/-- The counter of an island that is no core's (R27): zero at the cold reset, running since; no register shows it. Its clock follows Table
1-3 and the service, and every rate of it is a free value here, so no frequency is named. -/
def State.isle (s : State) (i : Isle) : Nat := isleRun i.index 0 0 s.usec % 2 ^ 64

/-- The module's own chip address (R369). -/
def State.chip (s : State) : Nat := s.fldReg rFabId 0 20

/-- Chip field and local part of a global word address (R5). -/
def chipOf (a : W64) : Nat := a.toNat / 2 ^ 44
def localOf (a : W64) : Nat := a.toNat % 2 ^ 44

/-- Whether an address reaches this module (R283). -/
def State.isHere (s : State) (a : W64) : Bool := chipOf a == 0 || chipOf a == s.chip

/-- Whether every word of a run lies in the local-memory window named with chip zero or the module's own (R90). -/
def State.inWindow (s : State) (a : W64) (n : Nat) : Bool :=
  s.isHere a && decide (winBase ≤ localOf a) && decide (localOf a + n ≤ winBase + 0x100000)

/-- The fault of an address that must be an instruction address (R90), in the order of Table 4-4. -/
def State.fetchFault (s : State) (a : W64) : Option Cause :=
  if a.toNat % 2 = 1 then some .misaligned else if s.inWindow a 1 then none else some .busError

/-- An instruction address as the PC holds it: chip field zero (R125). -/
def pcOf (a : W64) : W64 := BitVec.ofNat 64 (localOf a)

/-! ## Registers -/

/-- Data register, pair, quad, address register (R75 to R77). -/
def Core.dreg (c : Core) (i : Nat) : Word := look 0 c.d i
def Core.dpair (c : Core) (i : Nat) : W32 := c.dreg (i + 1) ++ c.dreg i
def Core.dquad (c : Core) (i : Nat) : W64 := c.dpair (i + 2) ++ c.dpair i
def Core.areg (c : Core) (i : Nat) : W64 := look 0 c.a i

/-- Writing a register at its delivery point. -/
def Core.setD (c : Core) (i : Nat) (v : Word) : Core := { c with d := put 0 c.d i v }
def Core.setA (c : Core) (i : Nat) (v : W64) : Core := { c with a := put 0 c.a i v }

/-- Fields of SR (Table 3-4). -/
def Core.sup (c : Core) : Bool := c.sr.getLsbD 31
def Core.masked (c : Core) : Bool := c.sr.getLsbD 30
def Core.la (c : Core) : Nat := fld c.sr 24 4
def Core.lh (c : Core) : Nat := fld c.sr 20 4
def Core.pp (c : Core) (i : Nat) : Bool := c.sr.getLsbD (16 + i)
def Core.p (c : Core) (i : Nat) : Bool := c.sr.getLsbD (4 + i)

/-- The number of levels of a contiguous run of set bits from bit 0 (R79). -/
def levels (x : Nat) : Nat := if x = 0 then 0 else if x = 1 then 1 else if x = 3 then 2 else if x = 7 then 3 else 4

/-- Whether a loop-level field is a contiguous run from bit 0 (R79). -/
def runOk (x : Nat) : Bool := x == 0 || x == 1 || x == 3 || x == 7 || x == 15

/-- LA and LH meet R79. -/
def laLhOk (la lh : Nat) : Bool := runOk la && runOk lh && decide (levels lh ≤ levels la)

/-- Loop registers. -/
def Core.lsr (c : Core) (i : Nat) : W64 := look 0 c.ls i
def Core.ler (c : Core) (i : Nat) : W64 := look 0 c.le i
def Core.lcr (c : Core) (i : Nat) : W32 := look 0 c.lc i

/-- The innermost unheld active level (R103). -/
def Core.inner (c : Core) : Option Nat := if levels c.lh < levels c.la then some (levels c.la - 1) else none

/-- Delivering a value to a register (Table 3-8). A delivery to IPEND clears the latched bits written 1 (Table 5-3). -/
def Core.deliver (c : Core) (r : RegRef) (v : W64) : Core :=
  match r with
  | .d i => c.setD i (v.truncate 16)
  | .a i => c.setA i v
  | .sr m => { c with sr := (c.sr &&& ~~~m) ||| (v.truncate 32 &&& m) }
  | .ls i => { c with ls := put 0 c.ls i v }
  | .le i => { c with le := put 0 c.le i v }
  | .lc i => { c with lc := put 0 c.lc i (v.truncate 32) }
  | .vl => { c with vl := v.truncate 32 &&& 0x1FFF }
  | .vtype => { c with vtype := v.truncate 32 &&& 0x80000C3F }
  | .vet => { c with vtype := setFld c.vtype 0 6 (fld v 0 6) }
  | .escSp => { c with escSp := v }
  | .prog => { c with prog := v.truncate 32 }
  | .vbr => { c with vbr := v &&& ~~~0xFF }
  | .escLim => { c with escLim := v }
  | .ipend => { c with ipend := c.ipend &&& ~~~(v.truncate 5) }
  | .ien => { c with ien := v.truncate 32 &&& 0x1F }

/-- Sending a result: it is delivered to the d-th instruction after the producer (R91). -/
def Core.send (c : Core) (d : Nat) (r : RegRef) (v : W64) : Core := { c with flight := c.flight ++ [{ left := d, ref := r, val := v }] }

/-- Sending a word, a pair or a quad to data registers, all at one delivery point (R76). -/
def Core.sendD (c : Core) (d i : Nat) (v : Word) : Core := c.send d (.d i) (v.zeroExtend 64)
def Core.sendP (c : Core) (d i : Nat) (v : W32) : Core := (c.sendD d i (v.extractLsb' 0 16)).sendD d (i + 1) (v.extractLsb' 16 16)
def Core.sendQ (c : Core) (d i : Nat) (v : W64) : Core := (c.sendP d i (v.extractLsb' 0 32)).sendP d (i + 2) (v.extractLsb' 32 32)

/-- Sending SR bits. -/
def Core.sendSr (c : Core) (d : Nat) (mask v : W32) : Core := c.send d (.sr mask) (v.zeroExtend 64)

/-- One instruction counts: results whose distance has passed are delivered, in program order, so the later write of two
at one point wins (R93). -/
def Core.tick (c : Core) : Core :=
  let due := c.flight.filter (fun f => f.left ≤ 1)
  let rest := (c.flight.filter (fun f => 1 < f.left)).map (fun f => { f with left := f.left - 1 })
  let c1 := due.foldl (fun c f => c.deliver f.ref f.val) { c with flight := rest }
  { c1 with vpend := (c1.vpend.filter (fun p => 1 < p.left)).map (fun p => { p with left := p.left - 1 }),
            unfetched := (c1.unfetched.filter (fun u => 1 < u.left)).map (fun u => { u with left := u.left - 1 }) }

/-- Every result in flight is delivered, stored words to fetch among them, and every vector instruction completes, as exception entry lets
them (R94, R147). The longest scalar distance of a register is 5. -/
def Core.drain (c : Core) : Core :=
  { (Nat.repeat Core.tick 5 c) with vpend := [], vbusy := [], vserial := false, unfetched := [] }

/-- Whether a core's Setter and feeder operations have completed (R109, R134). -/
def Core.opsDone (c : Core) : Bool := c.setter.isEmpty && c.fops.all (fun f => f.cut) && c.blocks.isEmpty

/-- Whether a core that wrote a held compute reset waits for it clock-gated: the operations it had issued have completed (R58). -/
def Core.waitsReset (c : Core) : Bool := c.stopReq && c.opsDone

/-! ## Instruction fetch -/

/-- The store of n words at a physical address, as fetch will see it: until the eighth instruction after it, the words as they stood
(R92, Table 3-8). -/
def State.unfetch (s : State) (k a n : Nat) : State :=
  s.modCore k (fun c => { c with unfetched := c.unfetched ++ (addrs a n).map (fun x =>
    { left := 8, addr := x, word := s.word x, mark := s.poisoned x }) })

/-- The oldest store of a word that the fetch of core n does not see yet (R92). -/
def State.unseen (s : State) (n a : Nat) : Option Unfetched := (s.core n).unfetched.find? (fun u => u.addr == a)

/-- A word of core n's local memory as instruction fetch sees it (R92). -/
def State.fetchWord (s : State) (n a : Nat) : Word := ((s.unseen n a).map (fun u => u.word)).getD (s.word a)

/-- Whether instruction fetch meets a mark at a word of core n's local memory (R92, R501). -/
def State.fetchMark (s : State) (n a : Nat) : Bool := s.poisoned a || ((s.unseen n a).map (fun u => u.mark)).getD false

/-- The test of a condition code on the delivered flags, predicates and loop state (Table 3-6). -/
def Core.cond (c : Core) (k : Cond) : Bool :=
  let n := c.sr.getLsbD 3
  let z := c.sr.getLsbD 2
  let cy := c.sr.getLsbD 1
  let v := c.sr.getLsbD 0
  let last := match c.inner with
    | some i => c.lcr i == 1 || c.lcr i == 0
    | none => false
  match k with
  | .al => true | .eq => z | .ne => !z | .lt => n != v | .ge => n == v | .cs => cy | .cc => !cy | .mi => n
  | .p0 => c.p 0 | .np0 => !c.p 0 | .p1 => c.p 1 | .np1 => !c.p 1 | .p2 => c.p 2 | .p3 => c.p 3
  | .ll => last | .nl => !last

/-- The predicates a condition reads (R108). -/
def condPreds (k : Cond) : List Nat :=
  match k with
  | .p0 => [0] | .np0 => [0] | .p1 => [1] | .np1 => [1] | .p2 => [2] | .p3 => [3] | _ => []

/-- The active unheld levels nest as R99 states. -/
def nestOk (la lh : Nat) (ls le : Nat → W64) : Bool :=
  (List.range (levels la)).all (fun i => decide (i < levels lh) || decide (levels la ≤ i + 1) ||
    (decide ((ls i).toNat ≤ (ls (i + 1)).toNat) && decide ((le (i + 1)).toNat < (le i).toNat)))

/-- Every active level ends after it starts. -/
def endsOk (la : Nat) (ls le : Nat → W64) : Bool :=
  (List.range (levels la)).all (fun i => decide ((ls i).toNat < (le i).toNat))

/-! ## Taking an exception -/

/-- Cause codes of Table 5-1. -/
def Cause.code : Cause → Nat
  | .illegalOp => 0x01 | .misaligned => 0x02 | .busError => 0x03 | .pageFault => 0x04 | .protection => 0x05
  | .privilege => 0x06 | .tileShape => 0x07 | .semUnderflow => 0x08 | .semOverflow => 0x09 | .poison => 0x0A
  | .trap => 0x0B | .accConflict => 0x0C | .reduceCsum => 0x0D | .preempt => 0x10 | .doorbell => 0x11
  | .page => 0x12 | .swi => 0x13 | .pyro => 0x14

/-- What an entry records beside the cause (Tables 5-7 and 5-8): KIND, the trap code, FADDR, OPID and TSW. -/
structure EntryInfo where
  kind  : Nat
  code  : Nat
  faddr : W64
  opid  : W32
  tsw   : W32
deriving DecidableEq, Repr

/-- INFO of Table 5-8. -/
def infoWord (cause : Cause) (e : EntryInfo) (kind er : Nat) (ds : Bool) : W32 :=
  BitVec.ofNat 32 (cause.code + 256 * kind + (if ds then 1024 else 0) + 4096 * er + 65536 * e.code)

/-- FADDR as a frame records it (Table 5-7). A deferred fault records the address it was found at: Table 12-3 and R418 give one to
SEM_OVERFLOW and REDUCE_CSUM too (assumption log 105). -/
def faddrOf (kind : Nat) (cause : Cause) (a : W64) : W64 := match cause with
  | .misaligned => a | .busError => a | .pageFault => a | .protection => a | .poison => a
  | _ => if kind = 1 then a else 0

/-- The frame of Table 5-7. -/
def frameWords (c : Core) (info : W32) (cause : Cause) (e : EntryInfo) : List Word :=
  wordsOf32 c.sr ++ wordsOf32 info ++ wordsOf64 c.pc ++ wordsOf64 (c.redirect.getD 0) ++ wordsOf64 (faddrOf e.kind cause e.faddr) ++
  wordsOf32 c.prog ++ wordsOf32 e.tsw ++ wordsOf32 e.opid ++ wordsOf32 c.vl ++ wordsOf32 c.vtype ++ List.replicate 6 0 ++
  ((List.range 4).map (fun i => wordsOf64 (c.lsr i))).flatten ++ ((List.range 4).map (fun i => wordsOf64 (c.ler i))).flatten ++
  ((List.range 4).map (fun i => wordsOf32 (c.lcr i))).flatten ++ List.replicate 8 0

/-- What entry and escalation do to SR: supervisor, masked, no level active or held (R149, R153). -/
def enterSr (sr : W32) : W32 := setFld (setFld sr 20 8 0) 30 2 3

/-- The core after a frame was written: PROG cleared, a record pushed, SR changed, at the handler (R149, R153). -/
def Core.entered (c : Core) (esc : Bool) (v : W64) : Core :=
  { c with prog := 0, record := { ep := c.sup, esc := esc } :: c.record, sr := enterSr c.sr, pc := v, redirect := none,
           slot := false, hold := none, resumed := false, runAhead := [] }

/-- Stopping a core (R154): HALT sets, PG_ERR records ESC_STOP, STOPINFO takes INFO, and its task ends as stopped (R323). -/
def State.stopCore (s : State) (n : Nat) (info : W32) : State :=
  let s := (s.setFldReg (rRun n) 0 1 1).setReg (rStopinfo n) info
  let s := s.err (.core n) 1
  s.modCore n (fun c =>
    let c := { c with hold := none, gated := false }
    match c.dst, c.task with
    | .task, some t => { c with dst := .ending, task := some { t with endAs := some .stopped } }
    | .paused, some t => { c with dst := .ending, task := some { t with endAs := some .stopped } }
    | .run, _ => { c with dst := .off }
    | .idle, _ => { c with dst := .off }
    | _, _ => c)

/-- Writing an exception frame into core n's local memory. -/
def State.pushFrame (s : State) (n : Nat) (f : W64) (ws : List Word) : State := s.writeRun (physOf n (localOf f)) ws

/-- The state with every result of core n delivered, as the handler's first instruction sees it (R94, R147), and the core whose VBR, ESC_SP and
ESC_LIM the entry uses: a movc write of one of them takes effect on exception entry at distance 3 (R92, Table 3-8), so an entry that comes
before it uses the old value (assumption log 106). -/
def State.entryView (s : State) (n : Nat) : State × Core :=
  let c := s.core n
  (s.setCore n c.drain, { c.drain with vbr := c.vbr, escSp := c.escSp, escLim := c.escLim })

/-- Escalation (R153): the fixed vector and the escalation stack, or the stopped core. Reasons of Table 5-8; v is the core whose ESC_SP and
ESC_LIM it uses. -/
def State.escalate (s : State) (n : Nat) (v : Core) (cause : Cause) (e : EntryInfo) (er : Nat) : State :=
  let c := s.core n
  let f := v.escSp - 80
  let info := infoWord cause e 3 er c.redirect.isSome
  if c.record.length = 16 ∨ f.toNat % 4 ≠ 0 ∨ f.toNat < v.escLim.toNat ∨ !s.inWindow f 80 then s.stopCore n info
  else
    let s := s.pushFrame n f (frameWords c info cause e)
    s.setCore n { c.entered true (BitVec.ofNat 64 (winBase + 0x40)) with escSp := f }

/-- Taking an exception (R149): results in flight are delivered (R94), the frame goes on the current stack, and issue
continues at the vector; or the core escalates. -/
def State.enter (s : State) (n : Nat) (cause : Cause) (e : EntryInfo) : State :=
  let (s, w) := s.entryView n
  let c := s.core n
  if e.kind = 0 ∧ c.masked then s.escalate n w cause e 1
  else if 15 ≤ c.record.length then s.escalate n w cause e 2
  else
    let f := c.areg 7 - 80
    if f.toNat % 4 ≠ 0 ∨ !s.inWindow f 80 then s.escalate n w cause e 3
    else
      let v := w.vbr + BitVec.ofNat 64 (8 * cause.code)
      if (s.fetchFault v).isSome then s.escalate n w cause e 4
      else
        let s := s.pushFrame n f (frameWords c (infoWord cause e e.kind 0 c.redirect.isSome) cause e)
        s.setCore n ({ c.entered false (pcOf v) with a := put 0 c.a 7 f })

/-- A synchronous fault of the instruction at the PC. -/
def State.syncFault (s : State) (n : Nat) (cause : Cause) (faddr : W64) : State :=
  s.enter n cause { kind := 0, code := 0, faddr := faddr, opid := 0, tsw := 0 }

/-! ## Issue -/

/-- What an instruction that issues does, after the checks of its encoding and condition. -/
inductive Res where
  /-- It completes. -/
  | done (s : State)
  /-- It completes and the next instruction is at the given address, with no delay slot (R100). -/
  | goto (s : State) (pc : W64)
  /-- A taken branch: one delay slot, then the target (R96). -/
  | branch (s : State) (target : W64)
  /-- A synchronous fault: no effect but the entry (R116). -/
  | fault (cause : Cause) (faddr : W64)
  /-- A fault of a resumable instruction after part of its effect (R152), or one found only as an instruction proceeds: checks 7 and 8 of
  Table 4-4. -/
  | partial_ (s : State) (cause : Cause) (faddr : W64)
  /-- A fault of checks 5 and 6 of a resumable instruction at the first word or element that it would perform (R145). -/
  | first (s : State) (cause : Cause) (faddr : W64)
  /-- Issue holds (R105). -/
  | held (s : State)
  /-- The instruction set the PC and the registers itself (rte, a failed rte, trap). -/
  | taken (s : State)

/-- Whether core n issues instructions: running, not halted, holding on nothing, with a task or the runtime (R73, R109,
Table 11-5); an instruction whose walk has ended issues before a halt takes effect (R109). -/
def State.issues (s : State) (n : Nat) : Bool :=
  let c := s.core n
  decide (n < 192) && s.power == .running && !c.resetting && c.hold.isNone &&
  (c.walked || (!s.bitReg (rRun n) 0 && !c.stopReq && (c.dst == .run || c.dst == .task)))

/-- The loop-end test when the instruction at c.pc completes (R101), on the loop state before its results are delivered;
c1 is the core after them. A level that ends takes with it the levels above it, so that R79 holds. Where a movc write of LCn is delivered at
the same point, the loop end's write wins, being the later instruction's (R93; assumption log 107). LSn and LEn are compared as they stand, and LSn is
gone to unchecked (assumption log 131). -/
def Core.loopEnd (c c1 : Core) (next : W64) : Core :=
  match c.inner with
  | none => { c1 with pc := next }
  | some i =>
    if c.ler i = c.pc then
      if 1 < (c.lcr i).toNat then { c1 with pc := pcOf (c.lsr i), lc := put 0 c1.lc i (c.lcr i - 1) }
      else
        let la := c1.la % 2 ^ i
        { c1 with pc := next, lc := put 0 c1.lc i 0, sr := setFld (setFld c1.sr 24 4 la) 20 4 (c1.lh % 2 ^ i) }
    else { c1 with pc := next }

/-- The end of an instruction of len words: it counts for every distance, and the PC moves on, to the target after a
delay slot, or to the loop start after a loop end (R91, R96, R101). -/
def Core.advance (c : Core) (len : Nat) : Core :=
  let c1 := { c with slot := false, resumed := false }.tick
  match c.redirect with
  | some t => { c1 with pc := t, redirect := none }
  | none => c.loopEnd c1 (c.pc + BitVec.ofNat 64 len)

/-- The end of an instruction that was performed: it leaves PROG at 0 (R152). -/
def Core.retire (c : Core) (len : Nat) : Core := Core.advance { c with prog := 0 } len

/-- The unheld levels whose body does not contain the target of a taken branch or jump end (R103). -/
def Core.endLoops (c : Core) (t : W64) : Core :=
  let step := fun (c : Core) (_ : Nat) => match c.inner with
    | some i => if (c.lsr i).toNat ≤ t.toNat ∧ t.toNat ≤ (c.ler i).toNat then c else { c with sr := setBit c.sr (24 + i) false }
    | none => c
  (List.range 4).foldl step c

/-- A branch of len words is taken: the next instruction is its delay slot, and the target follows (R96). -/
def Core.takeBranch (c : Core) (len : Nat) (t : W64) : Core :=
  let c1 := { c with prog := 0, slot := true, resumed := false }.tick
  { c1 with pc := c1.pc + BitVec.ofNat 64 len, redirect := some t }

/-- The legality of placing a branch, LOOP or RTE: not in a delay slot (R97). -/
def Core.notInSlot (c : Core) : Bool := !c.slot && c.redirect.isNone

/-- The placement of a branch, jump, call or return of 2 words: not in a delay slot, and not the last instruction of the
innermost unheld body nor the one before it (R97, R102). -/
def Core.branchOk (c : Core) : Bool :=
  c.notInSlot && match c.inner with
    | some i => decide (c.ler i ≠ c.pc) && decide (c.ler i ≠ c.pc + 2)
    | none => true

/-- A register field that names a pair, a quad (R75). -/
def evenReg (i : Nat) : Bool := i % 2 == 0
def quadReg (i : Nat) : Bool := i % 4 == 0

/-- What the outcome of an instruction's own effect does to the machine; s is the state it issued in. -/
def finish (n len : Nat) (s : State) : Res → State
  | .done t => t.modCore n (fun c => c.retire len)
  | .goto t pc => t.modCore n (fun c => { c.retire len with pc := pc })
  | .branch t tgt => t.modCore n (fun c => c.takeBranch len tgt)
  | .fault x f => s.syncFault n x f
  | .partial_ t x f => t.syncFault n x f
  | .first t x f => t.syncFault n x f
  | .held t => t.modCore n (fun c => { c with hlen := len })
  | .taken t => t

/-- The state in which the instruction of len words at the PC of core n decodes: its fetch has read every codeword that
holds a word of it (R501). -/
def State.fetched (s : State) (n len : Nat) : State := s.touchAll (addrs (physOf n (localOf (s.core n).pc)) len)

/-- The offset in the instruction of the first word whose fetch meets a poison mark (R501). A PC that has run past the end of the window
fetches the words of the reserved addresses there, which hold no mark (assumption log 108). -/
def State.fetchPoison (s : State) (n len : Nat) : Option Nat :=
  (List.range len).find? (fun i => s.fetchMark n (physOf n (localOf (s.core n).pc) + i))

/-- One instruction of len words issues on core n, after its fetch: decode and placement, predicate poison, condition, then
its own effect (Table 4-4). legal is check 1 on the core; preds are the predicates it reads as operands; a branch that is
not taken still has its delay slot (R85). A false instruction writes no register, PROG included (R84). -/
def issueFetched (n : Nat) (k : Cond) (len : Nat) (isBr : Bool) (legal : Core → Bool) (preds : List Nat) (body : State → Res)
    (s : State) : State :=
  let c := s.core n
  if !legal c then s.syncFault n .illegalOp 0
  else if (condPreds k ++ preds).any c.pp then s.syncFault n .poison 0
  else if !c.cond k then s.modCore n (fun c => { c.advance len with slot := isBr })
  else finish n len s (body s)

/-- The fault of an instruction that is taken before a deferred fault or an interrupt at its boundary (R145): one of checks 1, 2 and 4 to 6 of
Table 4-4, made on the state delivered there. -/
def entryFault (n : Nat) (k : Cond) (legal : Core → Bool) (preds : List Nat) (body : State → Res) (s : State) : Option (State × Cause × W64) :=
  let c := s.core n
  let early (x : Cause) : Bool := x == .illegalOp || x == .privilege || x == .misaligned || x == .busError
  if !legal c then some (s, .illegalOp, 0)
  else if (condPreds k ++ preds).any c.pp then some (s, .poison, 0)
  else if !c.cond k then none
  else match body s with
    | .fault x f => if early x then some (s, x, f) else none
    | .first t x f => if early x then some (t, x, f) else none
    | _ => none

/-- The core as an instruction of it issues: the walk it may have waited for is over, and a task's first instruction reads the island
counter, given as x (R320). -/
def Core.issuing (c : Core) (x : Nat) : Core :=
  { c with walked := false, peek := false, task := c.task.map (fun t => { t with cyc0 := some (t.cyc0.getD x) }) }

/-- One instruction of len words issues on core n: fetch (R501), then the checks and its effect. A core that issues nothing
now does nothing. A core that only decides between the instruction's faults and an entry takes such a fault, and else stays as it is (R145):
its instruction sees peek, and makes those checks even where it would hold. -/
def issueAs (n : Nat) (k : Cond) (len : Nat) (isBr : Bool) (legal : Core → Bool) (preds : List Nat) (body : State → Res)
    (s : State) : Host.Outcome State Fault Refusal :=
  if !s.issues n then .next s
  else
    let t := (s.fetched n len).modCore n (fun c => c.issuing (s.cycles n))
    match t.fetchPoison n len with
    | some i => .next (t.syncFault n .poison ((t.core n).pc + BitVec.ofNat 64 i))
    | none =>
      if (s.core n).peek then
        match entryFault n k legal preds body (t.modCore n (fun c => { c with peek := true })) with
        | some (u, x, f) => .next ((u.modCore n (fun c => { c with peek := false })).syncFault n x f)
        | none => .next s
      else .next (issueFetched n k len isBr legal preds body t)

/-- An instruction that is no branch issues. -/
def issue (n : Nat) (k : Cond) (len : Nat) (legal : Core → Bool) (preds : List Nat) (body : State → Res) (s : State) :
    Host.Outcome State Fault Refusal := issueAs n k len false legal preds body s

/-- Whether a supervisor-only instruction may run (R81). -/
def privileged (n : Nat) (body : State → Res) (s : State) : Res :=
  if (s.core n).sup then body s else .fault .privilege 0

/-- An instruction that is legal only for some values of its core's state, as VTYPE, VL and tile shapes are: those are no part of the encoding,
so they are judged once its condition has been found true (R84, R116). -/
def shaped (n : Nat) (ok : Core → Bool) (body : State → Res) (s : State) : Res :=
  if ok (s.core n) then body s else .fault .illegalOp 0

/-- An instruction whose only effect is on its core: the results it sends. -/
def coreOnly (n : Nat) (f : Core → Core) (s : State) : Res := .done (s.modCore n f)

/-- A free value, and the state with the next one named (assumption log 3). -/
def State.free (s : State) : W64 × State := (Config.freeValue s.freeCtr, { s with freeCtr := s.freeCtr + 1 })

end Sys2Proof.Machine
end

