-- ==== Sys2Proof/Machine/Flags.lean ====
section
/-! DEFINITION. Sys2Proof/Machine/Flags.lean: the flags N, Z, C and V of Table 3-5 as bits 3 to 0, and the results of the
arithmetic, logic, shift and multiply functions over a width of k bits (Tables 4-8, 4-12, 4-13). -/

namespace Sys2Proof.Machine

/-- N, Z, C and V as bits 3, 2, 1 and 0, as SR holds them (Table 3-4). -/
abbrev Nzcv := BitVec 4

/-- Flags from their four bits. -/
def nzcv (n z c v : Bool) : Nzcv :=
  BitVec.ofNat 4 ((if n then 8 else 0) + (if z then 4 else 0) + (if c then 2 else 0) + (if v then 1 else 0))

/-- Whether a signed value lies outside k bits. -/
def sOverflow (k : Nat) (x : Int) : Bool := decide (x < -(2 ^ (k - 1) : Int)) || decide ((2 ^ (k - 1) : Int) ≤ x)

/-- A result with its flags. -/
abbrev AluResult (k : Nat) := BitVec k × Nzcv

/-- a + b + c, with the Add flags: C is the carry out of the MSB, V signed overflow. -/
def addResult (k : Nat) (a b : BitVec k) (c : Bool) : AluResult k :=
  let ci := if c then 1 else 0
  let r := BitVec.ofNat k (a.toNat + b.toNat + ci)
  (r, nzcv r.msb (r == 0) (decide (2 ^ k ≤ a.toNat + b.toNat + ci)) (sOverflow k (a.toInt + b.toInt + ci)))

/-- a − b − c, with the Subtract flags: C is 1 if a borrow occurred, V signed overflow. -/
def subResult (k : Nat) (a b : BitVec k) (c : Bool) : AluResult k :=
  let ci : Nat := if c then 1 else 0
  let r := a - b - BitVec.ofNat k ci
  (r, nzcv r.msb (r == 0) (decide (a.toNat < b.toNat + ci)) (sOverflow k (a.toInt - b.toInt - ci)))

/-- A result with the Logic flags: C and V are 0. -/
def logicResult (k : Nat) (r : BitVec k) : AluResult k := (r, nzcv r.msb (r == 0) false false)

/-- A result with the Shift flags: C is the last bit shifted out, V is 0. -/
def shiftResult (k : Nat) (r : BitVec k) (out : Bool) : AluResult k := (r, nzcv r.msb (r == 0) out false)

/-- An ALU function: width, a, b and the carry delivered at issue. -/
abbrev AluFn := (k : Nat) → BitVec k → BitVec k → Bool → AluResult k

/-- The functions of Table 4-8. -/
def fnAdd : AluFn := fun k a b _ => addResult k a b false
def fnAdc : AluFn := fun k a b c => addResult k a b c
def fnSub : AluFn := fun k a b _ => subResult k a b false
def fnSbc : AluFn := fun k a b c => subResult k a b c
def fnAnd : AluFn := fun k a b _ => logicResult k (a &&& b)
def fnOr : AluFn := fun k a b _ => logicResult k (a ||| b)
def fnXor : AluFn := fun k a b _ => logicResult k (a ^^^ b)
def fnAndn : AluFn := fun k a b _ => logicResult k (a &&& ~~~b)
def fnMov : AluFn := fun k _ b _ => logicResult k b
def fnNeg : AluFn := fun k _ b _ => subResult k 0 b false
def fnNot : AluFn := fun k _ b _ => logicResult k (~~~b)
def fnMin : AluFn := fun k a b _ => logicResult k (if a.toInt ≤ b.toInt then a else b)
def fnMax : AluFn := fun k a b _ => logicResult k (if a.toInt ≤ b.toInt then b else a)

/-- A shift function of Table 4-12: width, value and amount. -/
abbrev ShiftFn := (k : Nat) → BitVec k → Nat → AluResult k

/-- The shifts of Table 4-12 with the carry of Table 3-5 and R122: the last bit shifted out, 0 for a shift of 0; for ror
the bit rotated into the MSB. -/
def fnShl : ShiftFn := fun k a n => shiftResult k (a <<< n) (decide (0 < n) && a.getLsbD (k - n))
def fnShr : ShiftFn := fun k a n => shiftResult k (a >>> n) (decide (0 < n) && a.getLsbD (n - 1))
def fnSar : ShiftFn := fun k a n => shiftResult k (a.sshiftRight n) (decide (0 < n) && a.getLsbD (n - 1))
def fnRor : ShiftFn := fun k a n => shiftResult k (a.rotateRight n) (decide (0 < n) && (a.rotateRight n).msb)

/-- The products of Table 4-13. -/
def mulLow (a b : Word) : Word := a * b
def mulSigned (a b : Word) : W32 := BitVec.ofInt 32 (a.toInt * b.toInt)
def mulUnsigned (a b : Word) : W32 := BitVec.ofNat 32 (a.toNat * b.toNat)
def mulPair (a b : W32) : W32 := a * b

/-- The conditions 0x1 to 0x7 of Table 3-6 on given flags; cmpp admits no other (R124). -/
def flagsHold (k : Cond) (f : Nzcv) : Option Bool :=
  let n := f.getLsbD 3
  let z := f.getLsbD 2
  let c := f.getLsbD 1
  let v := f.getLsbD 0
  match k with
  | .eq => some z | .ne => some !z | .lt => some (n != v) | .ge => some (n == v)
  | .cs => some c | .cc => some !c | .mi => some n
  | .al => none | .p0 => none | .np0 => none | .p1 => none | .np1 => none | .p2 => none | .p3 => none
  | .ll => none | .nl => none

/-- Sending the four flags, delivered at distance d. -/
def Core.sendFlags (c : Core) (d : Nat) (f : Nzcv) : Core := c.sendSr d 0xF (f.zeroExtend 32)

/-- SR.C as delivered at issue. -/
def Core.carry (c : Core) : Bool := c.sr.getLsbD 1

end Sys2Proof.Machine
end

