-- ==== Sys2Proof/Machine/Operands.lean ====
section
/-! DEFINITION. Sys2Proof/Machine/Operands.lean: the operand forms of the scalar instructions: ALU and shift sources (R120,
R122), addressing modes (R86, R87), branch targets (R126) and the operands of movc (R130). -/

namespace Sys2Proof.Machine

/-- A data register or pair as a number of w bits: the pair when w is set (R75, R120). -/
def Core.aluReg (c : Core) (w : Bool) (i : Nat) : W32 := if w then c.dpair i else (c.dreg i).zeroExtend 32

/-- The second operand of an ALU instruction: a register, or the immediate sign-extended (Table 4-7). -/
def Core.aluB (c : Core) (w : Bool) : AluSrc → W32
  | .reg b => c.aluReg w b.val
  | .imm v => if w then v.signExtend 32 else (v.signExtend 16).zeroExtend 32

/-- The result of an ALU function over words or pairs, as 32 bits, with its flags. -/
def aluApply (fn : AluFn) (w : Bool) (a b : W32) (c : Bool) : W32 × Nzcv :=
  if w then fn 32 a b c
  else
    let r := fn 16 (a.truncate 16) (b.truncate 16) c
    (r.1.zeroExtend 32, r.2)

/-- The amount of a shift: Db[3:0] or Db[4:0], or AMT (R122). -/
def Core.shiftAmt (c : Core) (w : Bool) : ShiftSrc → Nat
  | .reg b => (c.dreg b.val).toNat % (if w then 32 else 16)
  | .imm v => v.toNat

/-- The result of a shift over a word or a pair, with its flags. -/
def shiftApply (fn : ShiftFn) (w : Bool) (a : W32) (n : Nat) : W32 × Nzcv :=
  if w then fn 32 a n
  else
    let r := fn 16 (a.truncate 16) n
    (r.1.zeroExtend 32, r.2)

/-- Sending a result of word or pair width to the data registers. -/
def Core.sendW (c : Core) (d : Nat) (w : Bool) (i : Nat) (v : W32) : Core :=
  if w then c.sendP d i v else c.sendD d i (v.truncate 16)

/-- Whether a register source of pair width is even (R120). -/
def aluSrcOk (w : Bool) : AluSrc → Bool
  | .reg b => !w || evenReg b.val
  | .imm _ => true

/-- Whether the immediate amount of a shift is legal (R122). -/
def shiftSrcOk (w : Bool) : ShiftSrc → Bool
  | .reg _ => true
  | .imm v => w || decide (v.toNat < 16)

/-- The effective address and the new An of a scalar access, none for an illegal mode (Table 3-7). -/
def Core.scalarEa (c : Core) (an : Nat) (am : BitVec 3) (x : BitVec 12) : Option (W64 × Option W64) :=
  let a := c.areg an
  if am = 0 then (if x = 0 then some (a, none) else none)
  else if am = 1 then some (a + x.signExtend 64, none)
  else if am = 2 then some (a, some (a + x.zeroExtend 64))
  else if am = 3 then some (a - x.zeroExtend 64, some (a - x.zeroExtend 64))
  else if am = 4 then
    if fld x 0 6 = 0 then some (a + ((c.dreg (fld x 6 4)).signExtend 64 <<< fld x 10 2), none) else none
  else none

/-- Alignment of an access of 1, 2 or 4 words (R87). -/
def aligned (a : W64) (words : Nat) : Bool := a.toNat % words == 0

/-- The destination of a movc read or the source of a movc write (Table 4-20). -/
inductive MovcReg where
  | pair (i : Nat) | quad (i : Nat) | addr (i : Nat)
deriving DecidableEq, Repr

/-- The operand K and RG name, if it is legal (Table 4-20). -/
def movcReg (k : BitVec 2) (rg : BitVec 4) : Option MovcReg :=
  if k = 0 then (if evenReg rg.toNat then some (.pair rg.toNat) else none)
  else if k = 1 then (if quadReg rg.toNat then some (.quad rg.toNat) else none)
  else if k = 2 then (if rg.toNat < 8 then some (.addr rg.toNat) else none)
  else none

/-- Whether a movc operand is 64 bits wide (R130). -/
def movcWide : MovcReg → Bool
  | .pair _ => false
  | _ => true

/-- Reading the source of a movc write. -/
def Core.movcGet (c : Core) : MovcReg → W64
  | .pair i => (c.dpair i).zeroExtend 64
  | .quad i => c.dquad i
  | .addr i => c.areg i

/-- Sending a value to the destination of a movc read, at distance 1 (R130). -/
def Core.movcPut (c : Core) (v : W64) : MovcReg → Core
  | .pair i => c.sendP 1 i (v.truncate 32)
  | .quad i => c.sendQ 1 i v
  | .addr i => c.send 1 (.a i) v

/-- The width and the user access of a control register (Tables 3-3 and 5-2): wide, and whether user level may use it. -/
def crInfo (crn : Nat) : Option (Bool × Bool) :=
  if crn = 0 then some (false, true)
  else if 4 ≤ crn ∧ crn ≤ 0xB then some (true, true)
  else if 0xC ≤ crn ∧ crn ≤ 0xF then some (false, true)
  else if crn = 0x10 ∨ crn = 0x11 then some (false, true)
  else if crn = 0x18 then some (true, false)
  else if crn = 0x19 then some (false, false)
  else if crn = 0x20 ∨ crn = 0x21 then some (true, false)
  else if crn = 0x22 ∨ crn = 0x23 ∨ crn = 0x24 then some (false, false)
  else none

/-- The register a movc write of a control register delivers to. -/
def crRef (crn : Nat) : RegRef :=
  if crn = 0 then .sr 0xFFFFFFFF
  else if crn ≤ 7 then .ls (crn - 4)
  else if crn ≤ 0xB then .le (crn - 8)
  else if crn ≤ 0xF then .lc (crn - 0xC)
  else if crn = 0x10 then .vl
  else if crn = 0x11 then .vtype
  else if crn = 0x18 then .escSp
  else if crn = 0x19 then .prog
  else if crn = 0x20 then .vbr
  else if crn = 0x21 then .escLim
  else if crn = 0x23 then .ipend
  else .ien

/-- The defined bits of SR (Table 3-4). -/
def srMask : W32 := 0xCFFF00FF

/-- IPEND as a movc read returns it: PAGE is the level, DEF is high while a deferred fault waits (Table 5-3). -/
def State.ipendWord (s : State) (n : Nat) : W32 :=
  let c := s.core n
  setBit (setBit (c.ipend.zeroExtend 32) 2 (s.pageIrqTo n)) 31 (!c.deferred.isEmpty)

/-- The value of a control register (Tables 3-3 and 5-2). -/
def State.crGet (s : State) (n crn : Nat) : W64 :=
  let c := s.core n
  if crn = 0 then c.sr.zeroExtend 64
  else if crn ≤ 7 then c.lsr (crn - 4)
  else if crn ≤ 0xB then c.ler (crn - 8)
  else if crn ≤ 0xF then (c.lcr (crn - 0xC)).zeroExtend 64
  else if crn = 0x10 then c.vl.zeroExtend 64
  else if crn = 0x11 then c.vtype.zeroExtend 64
  else if crn = 0x18 then c.escSp
  else if crn = 0x19 then c.prog.zeroExtend 64
  else if crn = 0x20 then c.vbr
  else if crn = 0x21 then c.escLim
  else if crn = 0x22 then BitVec.ofNat 64 c.record.length
  else if crn = 0x23 then (s.ipendWord n).zeroExtend 64
  else c.ien.zeroExtend 64

/-- Length in words of the instruction at a local-memory address, from its first parcel as fetch sees it (R92, R114). -/
def State.lengthAt (s : State) (n : Nat) (pc : W64) : Nat :=
  let hi := (s.fetchWord n (physOf n (localOf (pc + 1)))).toNat
  if hi / 2 ^ 6 % 64 = 63 then 4 else 2

end Sys2Proof.Machine
end

