-- ==== Sys2Proof/Machine/AdrBranch.lean ====
section
/-! DEFINITION. Sys2Proof/Machine/AdrBranch.lean: address-register instructions (R125), branches, calls and returns (R96,
R103, R126, R127) and hardware loops (R98 to R103, R128, R129). -/

namespace Sys2Proof.Machine

/-- adda Ad, Aa, #imm (Table 4-14). -/
def execAddaImm (n : Nat) (c : Cond) (ad aa : Fin 8) (imm : BitVec 16) (s : State) : Host.Outcome State Fault Refusal :=
  issue n c 2 (fun _ => true) [] (coreOnly n (fun k => k.send 1 (.a ad.val) (k.areg aa.val + imm.signExtend 64))) s

/-- Aa plus or minus Di × 2^s, Di sign-extended (Table 4-14). -/
def Core.addaIdxValue (c : Core) (aa : Fin 8) (di : Fin 16) (sh : Fin 4) (ng : Bool) : W64 :=
  let x := (c.dreg di.val).signExtend 64 <<< sh.val
  if ng then c.areg aa.val - x else c.areg aa.val + x

/-- adda Ad, Aa, Di·2^s (Table 4-14). -/
def execAddaIdx (n : Nat) (c : Cond) (ad aa : Fin 8) (di : Fin 16) (sh : Fin 4) (ng : Bool) (s : State) :
    Host.Outcome State Fault Refusal :=
  issue n c 2 (fun _ => true) [] (coreOnly n (fun k => k.send 1 (.a ad.val) (k.addaIdxValue aa di sh ng))) s

/-- mova: Ad ← quad (Table 4-14). -/
def execMova (n : Nat) (c : Cond) (ad : Fin 8) (dn : Fin 16) (s : State) : Host.Outcome State Fault Refusal :=
  issue n c 2 (fun _ => quadReg dn.val) [] (coreOnly n (fun k => k.send 1 (.a ad.val) (k.dquad dn.val))) s

/-- movd: quad ← Aa (Table 4-14). -/
def execMovd (n : Nat) (c : Cond) (dn : Fin 16) (aa : Fin 8) (s : State) : Host.Outcome State Fault Refusal :=
  issue n c 2 (fun _ => quadReg dn.val) [] (coreOnly n (fun k => k.sendQ 1 dn.val (k.areg aa.val))) s

/-- leapc: Ad ← address of this instruction + DISP (R125). -/
def execLeapc (n : Nat) (c : Cond) (ad : Fin 8) (disp : BitVec 19) (s : State) : Host.Outcome State Fault Refusal :=
  issue n c 2 (fun _ => true) [] (coreOnly n (fun k => k.send 1 (.a ad.val) (k.pc + disp.signExtend 64))) s

/-- movi.a: Ad ← the zero-extended local word address (Table 4-15). -/
def execMoviA (n : Nat) (c : Cond) (ad : Fin 8) (imm : BitVec 44) (s : State) : Host.Outcome State Fault Refusal :=
  issue n c 4 (fun _ => true) [] (coreOnly n (fun k => k.send 1 (.a ad.val) (imm.zeroExtend 64))) s

/-- The target of br and call: the instruction's own address + 2 × DISP (R126). -/
def Core.relTarget (c : Core) (disp : BitVec 22) : W64 := c.pc + 2 * disp.signExtend 64

/-- br and jmp to a target: R90 on the target, then the loops it leaves end (R103). -/
def jumpTo (n : Nat) (t : W64) (s : State) : Res :=
  match s.fetchFault t with
  | some x => .fault x t
  | none => .branch (s.modCore n (fun c => c.endLoops (pcOf t))) (pcOf t)

/-- The fault of the stack access of call, callr and ret: alignment, then reach (R127). -/
def State.stackFault (s : State) (a : W64) : Option Cause :=
  if !aligned a 4 then some .misaligned else if s.inWindow a 4 then none else some .busError

/-- The first fault of an access to a stack word and of a target, alignment of both before reach (Table 4-4). Where both fail the same check, FADDR is the
stack word's (assumption log 152). -/
def State.callFault (s : State) (sp t : W64) : Option (Cause × W64) :=
  match s.stackFault sp, s.fetchFault t with
  | some .misaligned, _ => some (.misaligned, sp)
  | _, some .misaligned => some (.misaligned, t)
  | some x, _ => some (x, sp)
  | none, some x => some (x, t)
  | none, none => none

/-- call and callr: the return address with SR.LH is pushed, LH takes LA, and the target follows the delay slot (R127). -/
def callTo (n : Nat) (t : W64) (s : State) : Res :=
  let c := s.core n
  let sp := c.areg 7 - 4
  match s.callFault sp t with
  | some (x, a) => .fault x a
  | none =>
    let ret := c.pc + 2 + BitVec.ofNat 64 (s.lengthAt n (c.pc + 2))
    let w := ret ||| BitVec.ofNat 64 (c.lh * 2 ^ 60)
    let s1 := (s.unfetch n (physOf n (localOf sp)) 4).writeRun (physOf n (localOf sp)) (wordsOf64 w)
    .branch (s1.modCore n (fun c =>
      (c.send 1 (.a 7) sp).sendSr 1 0x00F00000 (BitVec.ofNat 32 (c.la * 2 ^ 20)))) (pcOf t)

/-- ret: pops the return address, ends the subroutine's own loops and restores LH with the new PC (R127). -/
def retBody (n : Nat) (s : State) : Res :=
  let c := s.core n
  let sp := c.areg 7
  match s.stackFault sp with
  | some x => .fault x sp
  | none =>
    let p := physOf n (localOf sp)
    let s1 := s.touchAll (addrs p 4)
    match (List.range 4).find? (fun i => s1.poisoned (p + i)) with
    | some i => .partial_ s1 .poison (sp + BitVec.ofNat 64 i)
    | none =>
      let t := BitVec.ofNat 64 (natOfWords (s1.words p 4))
      let a := setFld t 60 4 0
      match s1.fetchFault a with
      | some x => .partial_ s1 x a
      | none =>
        let la := fld (BitVec.ofNat 4 c.la &&& BitVec.ofNat 4 c.lh) 0 4
        let lh := fld t 60 4
        if !laLhOk la lh then .partial_ s1 .illegalOp 0
        else .branch (s1.modCore n (fun c =>
          (c.send 1 (.a 7) (sp + 4)).sendSr 2 0x0FF00000 (BitVec.ofNat 32 (la * 2 ^ 24 + lh * 2 ^ 20)))) (pcOf a)

/-- br: PC-relative branch (R126). -/
def execBr (n : Nat) (c : Cond) (disp : BitVec 22) (s : State) : Host.Outcome State Fault Refusal :=
  issueAs n c 2 true Core.branchOk [] (fun s => jumpTo n ((s.core n).relTarget disp) s) s

/-- call: PC-relative call (R127). -/
def execCall (n : Nat) (c : Cond) (disp : BitVec 22) (s : State) : Host.Outcome State Fault Refusal :=
  issueAs n c 2 true Core.branchOk [] (fun s => callTo n ((s.core n).relTarget disp) s) s

/-- jmp: jump to the address in Aa (R126). -/
def execJmp (n : Nat) (c : Cond) (aa : Fin 8) (s : State) : Host.Outcome State Fault Refusal :=
  issueAs n c 2 true Core.branchOk [] (fun s => jumpTo n ((s.core n).areg aa.val) s) s

/-- callr: call to the address in Aa (R127). -/
def execCallr (n : Nat) (c : Cond) (aa : Fin 8) (s : State) : Host.Outcome State Fault Refusal :=
  issueAs n c 2 true Core.branchOk [] (fun s => callTo n ((s.core n).areg aa.val) s) s

/-- ret: return (R127). -/
def execRet (n : Nat) (c : Cond) (s : State) : Host.Outcome State Fault Refusal :=
  issueAs n c 2 true Core.branchOk [] (retBody n) s

/-- Whether a new body from ls to le lies strictly inside every unheld active level (R99). -/
def Core.nestsIn (c : Core) (ls le : W64) : Bool :=
  (List.range (levels c.la)).all (fun m => decide (m < levels c.lh) ||
    (decide ((c.lsr m).toNat ≤ ls.toNat) && decide (le.toNat < (c.ler m).toNat)))

/-- Setting up a loop level with its start, end and count (R98 to R100, R128, R129). -/
def loopBody (n len : Nat) (off : W64) (count : W32) (s : State) : Res :=
  let c := s.core n
  let i := levels c.la
  let ls := c.pc + BitVec.ofNat 64 len
  let le := c.pc + 2 * off
  if i = 4 ∨ le.toNat ≤ ls.toNat ∨ !c.nestsIn ls le then .fault .illegalOp 0
  else
    let send (c : Core) : Core := ((c.send 1 (.ls i) ls).send 1 (.le i) le).send 1 (.lc i) (count.zeroExtend 64)
    if count = 0 then .goto (s.modCore n send) (le + BitVec.ofNat 64 (s.lengthAt n le))
    else .done (s.modCore n (fun c => (send c).sendSr 1 (setBit 0 (24 + i) true) (setBit 0 (24 + i) true)))

/-- loop: the count from a pair (R128). -/
def execLoop (n : Nat) (c : Cond) (dn : Fin 16) (off : BitVec 18) (s : State) : Host.Outcome State Fault Refusal :=
  issue n c 2 (fun k => k.notInSlot && evenReg dn.val) []
    (fun s => loopBody n 2 (off.zeroExtend 64) ((s.core n).dpair dn.val) s) s

/-- loopi: the count is an immediate (R128, Table 4-17). -/
def execLoopi (n : Nat) (c : Cond) (count : BitVec 16) (off : BitVec 22) (s : State) : Host.Outcome State Fault Refusal :=
  issue n c 4 (fun k => k.notInSlot) [] (fun s => loopBody n 4 (off.zeroExtend 64) (count.zeroExtend 32) s) s

end Sys2Proof.Machine
end

