-- ==== Sys2Proof/Machine/Alu.lean ====
section
/-! DEFINITION. Sys2Proof/Machine/Alu.lean: arithmetic, logic, move-immediate, shift, multiply and predicate-compare
instructions (R120 to R124). -/

namespace Sys2Proof.Machine

/-- Which registers an ALU function uses and which encodings it admits (R121): Dd is written, Da is read. -/
inductive AluShape where
  | full | noDest | noA | move
deriving DecidableEq, Repr

/-- Check 1 of Table 4-4 for an ALU instruction (R120, R121). -/
def aluLegal (sh : AluShape) (f w : Bool) (d a : Fin 16) (b : AluSrc) : Bool :=
  aluSrcOk w b && (match sh with
    | .full => !w || (evenReg d.val && evenReg a.val)
    | .noDest => f && d == 0 && (!w || evenReg a.val)
    | .noA => a == 0 && (!w || evenReg d.val)
    | .move => a == 0 && !f && (!w || evenReg d.val))

/-- The result and flags of an ALU function on the operands captured at issue (R74, R120). -/
def Core.aluValue (c : Core) (fn : AluFn) (w : Bool) (a : Fin 16) (b : AluSrc) : W32 × Nzcv :=
  aluApply fn w (c.aluReg w a.val) (c.aluB w b) c.carry

/-- What an ALU instruction sends: its result and, with F, its flags, at distance 1 (Table 3-8). -/
def Core.aluSend (c : Core) (fn : AluFn) (sh : AluShape) (f w : Bool) (d a : Fin 16) (b : AluSrc) : Core :=
  let r := c.aluValue fn w a b
  let c1 := if sh = .noDest then c else c.sendW 1 w d.val r.1
  if f then c1.sendFlags 1 r.2 else c1

/-- An ALU instruction (R120). -/
def aluExec (fn : AluFn) (sh : AluShape) (n : Nat) (c : Cond) (f w : Bool) (d a : Fin 16) (b : AluSrc) (s : State) :
    Host.Outcome State Fault Refusal :=
  issue n c 2 (fun _ => aluLegal sh f w d a b) [] (coreOnly n (fun k => k.aluSend fn sh f w d a b)) s

/-- add: d ← a + b (Table 4-8). -/
def execAdd (n : Nat) (c : Cond) (f w : Bool) (d a : Fin 16) (b : AluSrc) (s : State) : Host.Outcome State Fault Refusal :=
  aluExec fnAdd .full n c f w d a b s

/-- adc: d ← a + b + C (Table 4-8). -/
def execAdc (n : Nat) (c : Cond) (f w : Bool) (d a : Fin 16) (b : AluSrc) (s : State) : Host.Outcome State Fault Refusal :=
  aluExec fnAdc .full n c f w d a b s

/-- sub: d ← a − b (Table 4-8). -/
def execSub (n : Nat) (c : Cond) (f w : Bool) (d a : Fin 16) (b : AluSrc) (s : State) : Host.Outcome State Fault Refusal :=
  aluExec fnSub .full n c f w d a b s

/-- sbc: d ← a − b − C (Table 4-8). -/
def execSbc (n : Nat) (c : Cond) (f w : Bool) (d a : Fin 16) (b : AluSrc) (s : State) : Host.Outcome State Fault Refusal :=
  aluExec fnSbc .full n c f w d a b s

/-- and: d ← a & b (Table 4-8). -/
def execAnd (n : Nat) (c : Cond) (f w : Bool) (d a : Fin 16) (b : AluSrc) (s : State) : Host.Outcome State Fault Refusal :=
  aluExec fnAnd .full n c f w d a b s

/-- or: d ← a | b (Table 4-8). -/
def execOr (n : Nat) (c : Cond) (f w : Bool) (d a : Fin 16) (b : AluSrc) (s : State) : Host.Outcome State Fault Refusal :=
  aluExec fnOr .full n c f w d a b s

/-- xor: d ← a ^ b (Table 4-8). -/
def execXor (n : Nat) (c : Cond) (f w : Bool) (d a : Fin 16) (b : AluSrc) (s : State) : Host.Outcome State Fault Refusal :=
  aluExec fnXor .full n c f w d a b s

/-- andn: d ← a & ~b (Table 4-8). -/
def execAndn (n : Nat) (c : Cond) (f w : Bool) (d a : Fin 16) (b : AluSrc) (s : State) : Host.Outcome State Fault Refusal :=
  aluExec fnAndn .full n c f w d a b s

/-- cmp: flags of a − b (Table 4-8). -/
def execCmp (n : Nat) (c : Cond) (f w : Bool) (d a : Fin 16) (b : AluSrc) (s : State) : Host.Outcome State Fault Refusal :=
  aluExec fnSub .noDest n c f w d a b s

/-- tst: flags of a & b (Table 4-8). -/
def execTst (n : Nat) (c : Cond) (f w : Bool) (d a : Fin 16) (b : AluSrc) (s : State) : Host.Outcome State Fault Refusal :=
  aluExec fnAnd .noDest n c f w d a b s

/-- mov: d ← b (Table 4-8). -/
def execMov (n : Nat) (c : Cond) (f w : Bool) (d a : Fin 16) (b : AluSrc) (s : State) : Host.Outcome State Fault Refusal :=
  aluExec fnMov .move n c f w d a b s

/-- neg: d ← 0 − b (Table 4-8). -/
def execNeg (n : Nat) (c : Cond) (f w : Bool) (d a : Fin 16) (b : AluSrc) (s : State) : Host.Outcome State Fault Refusal :=
  aluExec fnNeg .noA n c f w d a b s

/-- not: d ← ~b (Table 4-8). -/
def execNot (n : Nat) (c : Cond) (f w : Bool) (d a : Fin 16) (b : AluSrc) (s : State) : Host.Outcome State Fault Refusal :=
  aluExec fnNot .noA n c f w d a b s

/-- min: signed minimum (Table 4-8). -/
def execMin (n : Nat) (c : Cond) (f w : Bool) (d a : Fin 16) (b : AluSrc) (s : State) : Host.Outcome State Fault Refusal :=
  aluExec fnMin .full n c f w d a b s

/-- max: signed maximum (Table 4-8). -/
def execMax (n : Nat) (c : Cond) (f w : Bool) (d a : Fin 16) (b : AluSrc) (s : State) : Host.Outcome State Fault Refusal :=
  aluExec fnMax .full n c f w d a b s

/-- movi.w: Dd ← IMM (Table 4-9). -/
def execMoviW (n : Nat) (c : Cond) (d : Fin 16) (imm : BitVec 16) (s : State) : Host.Outcome State Fault Refusal :=
  issue n c 2 (fun _ => true) [] (coreOnly n (fun k => k.sendD 1 d.val imm)) s

/-- movi.p: Dd+1:Dd ← IMM (Table 4-10). -/
def execMoviP (n : Nat) (c : Cond) (d : Fin 16) (imm : BitVec 32) (s : State) : Host.Outcome State Fault Refusal :=
  issue n c 4 (fun _ => evenReg d.val) [] (coreOnly n (fun k => k.sendP 1 d.val imm)) s

/-- Check 1 for a shift (R120, R122). -/
def shiftLegal (w : Bool) (d a : Fin 16) (b : ShiftSrc) : Bool :=
  shiftSrcOk w b && (!w || (evenReg d.val && evenReg a.val))

/-- What a shift sends, at distance 1 (R122, Table 3-8). -/
def Core.shiftSend (c : Core) (fn : ShiftFn) (f w : Bool) (d a : Fin 16) (b : ShiftSrc) : Core :=
  let r := shiftApply fn w (c.aluReg w a.val) (c.shiftAmt w b)
  let c1 := c.sendW 1 w d.val r.1
  if f then c1.sendFlags 1 r.2 else c1

/-- A shift (R122). -/
def shiftExec (fn : ShiftFn) (n : Nat) (c : Cond) (f w : Bool) (d a : Fin 16) (b : ShiftSrc) (s : State) :
    Host.Outcome State Fault Refusal :=
  issue n c 2 (fun _ => shiftLegal w d a b) [] (coreOnly n (fun k => k.shiftSend fn f w d a b)) s

/-- shl: zeros in (Table 4-12). -/
def execShl (n : Nat) (c : Cond) (f w : Bool) (d a : Fin 16) (b : ShiftSrc) (s : State) : Host.Outcome State Fault Refusal :=
  shiftExec fnShl n c f w d a b s

/-- shr: zeros in (Table 4-12). -/
def execShr (n : Nat) (c : Cond) (f w : Bool) (d a : Fin 16) (b : ShiftSrc) (s : State) : Host.Outcome State Fault Refusal :=
  shiftExec fnShr n c f w d a b s

/-- sar: copies of the MSB in (Table 4-12). -/
def execSar (n : Nat) (c : Cond) (f w : Bool) (d a : Fin 16) (b : ShiftSrc) (s : State) : Host.Outcome State Fault Refusal :=
  shiftExec fnSar n c f w d a b s

/-- ror (Table 4-12). -/
def execRor (n : Nat) (c : Cond) (f w : Bool) (d a : Fin 16) (b : ShiftSrc) (s : State) : Host.Outcome State Fault Refusal :=
  shiftExec fnRor n c f w d a b s

/-- mul.l: Dd ← low 16 bits of a × b, at distance 3 (R123). -/
def execMulL (n : Nat) (c : Cond) (d a b : Fin 16) (s : State) : Host.Outcome State Fault Refusal :=
  issue n c 2 (fun _ => true) [] (coreOnly n (fun k => k.sendD 3 d.val (mulLow (k.dreg a.val) (k.dreg b.val)))) s

/-- mul.s: Dd+1:Dd ← signed product of two words, at distance 3 (R123). -/
def execMulS (n : Nat) (c : Cond) (d a b : Fin 16) (s : State) : Host.Outcome State Fault Refusal :=
  issue n c 2 (fun _ => evenReg d.val) []
    (coreOnly n (fun k => k.sendP 3 d.val (mulSigned (k.dreg a.val) (k.dreg b.val)))) s

/-- mul.u: Dd+1:Dd ← unsigned product of two words, at distance 3 (R123). -/
def execMulU (n : Nat) (c : Cond) (d a b : Fin 16) (s : State) : Host.Outcome State Fault Refusal :=
  issue n c 2 (fun _ => evenReg d.val) []
    (coreOnly n (fun k => k.sendP 3 d.val (mulUnsigned (k.dreg a.val) (k.dreg b.val)))) s

/-- mul.p: Dd+1:Dd ← low 32 bits of a product of pairs, at distance 3 (R123). -/
def execMulP (n : Nat) (c : Cond) (d a b : Fin 16) (s : State) : Host.Outcome State Fault Refusal :=
  issue n c 2 (fun _ => evenReg d.val && evenReg a.val && evenReg b.val) []
    (coreOnly n (fun k => k.sendP 3 d.val (mulPair (k.dpair a.val) (k.dpair b.val)))) s

/-- Check 1 for cmpp: the condition, and even registers for a pair (R124). -/
def cmppLegal (cd : Cond) (w : Bool) (a b : Fin 16) : Bool :=
  (flagsHold cd 0).isSome && (!w || (evenReg a.val && evenReg b.val))

/-- What cmpp sends: Pi, and PPi cleared, at distance 1 (R124). -/
def Core.cmppSend (c : Core) (cd : Cond) (w : Bool) (p : Fin 4) (a b : Fin 16) : Core :=
  let fl := (aluApply fnSub w (c.aluReg w a.val) (c.aluReg w b.val) false).2
  let hit := (flagsHold cd fl).getD false
  c.sendSr 1 (setBit (setBit 0 (4 + p.val) true) (16 + p.val) true) (setBit 0 (4 + p.val) hit)

/-- cmpp: compares into Pi and clears PPi, and leaves the flags (R124). -/
def execCmpp (n : Nat) (c cd : Cond) (w : Bool) (p : Fin 4) (a b : Fin 16) (s : State) : Host.Outcome State Fault Refusal :=
  issue n c 2 (fun _ => cmppLegal cd w a b) [] (coreOnly n (fun k => k.cmppSend cd w p a b)) s

end Sys2Proof.Machine
end

