-- ==== Sys2Proof/Machine/Fp.lean ====
section
/-! DEFINITION. Sys2Proof/Machine/Fp.lean: number formats (Table 7-1), exact values, the one rounding of R202, conversion with
its overflow rules (Table 7-4), and exact arithmetic to be rounded once (R184, R201 to R203). -/

namespace Sys2Proof.Machine

/-- What the top codes of a format mean (Table 7-1): infinities and NaNs, one NaN, or finite numbers only. -/
inductive FmtKind where
  | ieee | oneNan | finite
deriving DecidableEq, Repr

/-- A floating-point format: exponent bits, mantissa bits, bias (Table 7-1). -/
structure Fmt where
  eb   : Nat
  mb   : Nat
  bias : Nat
  kind : FmtKind
deriving DecidableEq, Repr

/-- The formats of Table 7-1. -/
def fp64 : Fmt := { eb := 11, mb := 52, bias := 1023, kind := .ieee }
def fp32 : Fmt := { eb := 8, mb := 23, bias := 127, kind := .ieee }
def bf16 : Fmt := { eb := 8, mb := 7, bias := 127, kind := .ieee }
def fp16 : Fmt := { eb := 5, mb := 10, bias := 15, kind := .ieee }
def e4m3 : Fmt := { eb := 4, mb := 3, bias := 7, kind := .oneNan }
def e5m2 : Fmt := { eb := 5, mb := 2, bias := 15, kind := .ieee }
def e3m2 : Fmt := { eb := 3, mb := 2, bias := 3, kind := .finite }
def e2m3 : Fmt := { eb := 2, mb := 3, bias := 1, kind := .finite }
def e2m1 : Fmt := { eb := 2, mb := 1, bias := 1, kind := .finite }

/-- Width of a format in bits. -/
def Fmt.bits (f : Fmt) : Nat := 1 + f.eb + f.mb

/-- An exact value: a NaN, an infinity, or (−1)^neg × m × 2^e. -/
inductive Num where
  | nan
  | inf (neg : Bool)
  | fin (neg : Bool) (m : Nat) (e : Int)
deriving DecidableEq, Repr

/-- Exponent field and mantissa field of a code as one number, and its sign. -/
def Fmt.mag (f : Fmt) (x : Nat) : Nat := x % 2 ^ (f.eb + f.mb)
def Fmt.neg (f : Fmt) (x : Nat) : Bool := x / 2 ^ (f.eb + f.mb) % 2 == 1

/-- The first magnitude code that is not finite (R195). -/
def Fmt.top (f : Fmt) : Nat :=
  match f.kind with
  | .ieee => (2 ^ f.eb - 1) * 2 ^ f.mb
  | .oneNan => 2 ^ (f.eb + f.mb) - 1
  | .finite => 2 ^ (f.eb + f.mb)

/-- The value of a code (R195). -/
def Fmt.decode (f : Fmt) (x : Nat) : Num :=
  let k := f.mag x
  if f.top ≤ k then (if f.kind = .ieee ∧ k = f.top then .inf (f.neg x) else .nan)
  else
    let e := k / 2 ^ f.mb
    let m := k % 2 ^ f.mb
    if e = 0 then .fin (f.neg x) m (1 - f.bias - f.mb)
    else .fin (f.neg x) (2 ^ f.mb + m) (e - f.bias - f.mb)

/-- The canonical NaN (R196). -/
def Fmt.canon (f : Fmt) : Nat :=
  match f.kind with
  | .ieee => f.top + 2 ^ (f.mb - 1)
  | .oneNan => f.top
  | .finite => 0

/-- A code with its sign bit. -/
def Fmt.signed (f : Fmt) (neg : Bool) (k : Nat) : Nat := (if neg then 2 ^ (f.eb + f.mb) else 0) + k

/-- m / 2^n rounded to nearest, ties to even. -/
def rneShift (m n : Nat) : Nat :=
  let q := m / 2 ^ n
  let r := m % 2 ^ n
  if n = 0 then m
  else if 2 ^ (n - 1) < r ∨ (r = 2 ^ (n - 1) ∧ q % 2 = 1) then q + 1 else q

/-- The magnitude code nearest to m × 2^e on the format's grid, with no upper exponent limit (R202). -/
def Fmt.roundMag (f : Fmt) (m : Nat) (e : Int) : Nat :=
  if m = 0 then 0
  else
    let x : Int := Nat.log2 m + e
    let low : Int := 1 - f.bias
    let qe : Int := (if x < low then low else x) - f.mb
    let q := if qe ≤ e then m * 2 ^ (e - qe).toNat else rneShift m (qe - e).toNat
    ((qe + f.mb + f.bias - 1).toNat) * 2 ^ f.mb + q

/-- What a conversion did beside rounding (Table 7-4, R205, R209, R213). -/
inductive ConvEvent where
  | plain | saturated | overflowed | infinite | nan
deriving DecidableEq, Repr

/-- Conversion of an exact value to a format (R201, R202, Table 7-4): the code and what happened. -/
def Fmt.convert (f : Fmt) (sat : Bool) (x : Num) : Nat × ConvEvent :=
  let big (neg : Bool) : Nat :=
    match f.kind with
    | .finite => f.signed neg (f.top - 1)
    | .ieee => if sat then f.signed neg (f.top - 1) else f.signed neg f.top
    | .oneNan => if sat then f.signed neg (f.top - 1) else f.signed neg f.top
  match x with
  | .nan => (f.canon, .nan)
  | .inf s => (big s, .infinite)
  | .fin s m e =>
    let k := f.roundMag m e
    if f.top ≤ k then (big s, if sat ∨ f.kind = .finite then .saturated else .overflowed) else (f.signed s k, .plain)

/-- Rounding an exact value to an IEEE format, as arithmetic does (R184, R196). -/
def Fmt.round (f : Fmt) (x : Num) : Nat := (f.convert false x).1

/-- Scaling by a power of two, exactly. -/
def Num.scale (x : Num) (k : Int) : Num :=
  match x with
  | .fin s m e => .fin s m (e + k)
  | y => y

/-- The signed mantissa of a value at a lower exponent. -/
def signedAt (s : Bool) (m : Nat) (e low : Int) : Int :=
  let v : Int := m * 2 ^ (e - low).toNat
  if s then -v else v

/-- Negation. -/
def Num.negate : Num → Num
  | .nan => .nan
  | .inf s => .inf !s
  | .fin s m e => .fin (!s) m e

/-- Exact sum; a zero sum of values not both negative is +0 (R184). -/
def Num.add (a b : Num) : Num :=
  match a, b with
  | .nan, _ => .nan
  | _, .nan => .nan
  | .inf s, .inf t => if s = t then .inf s else .nan
  | .inf s, _ => .inf s
  | _, .inf t => .inf t
  | .fin s m e, .fin t n g =>
    let low := if e < g then e else g
    let v := signedAt s m e low + signedAt t n g low
    if v = 0 then .fin (s && t) 0 low else .fin (decide (v < 0)) v.natAbs low

/-- Exact product. -/
def Num.mul (a b : Num) : Num :=
  match a, b with
  | .nan, _ => .nan
  | _, .nan => .nan
  | .inf s, .inf t => .inf (s != t)
  | .inf s, .fin t n _ => if n = 0 then .nan else .inf (s != t)
  | .fin s m _, .inf t => if m = 0 then .nan else .inf (s != t)
  | .fin s m e, .fin t n g => .fin (s != t) (m * n) (e + g)

/-- A quotient with more bits than any format holds and a sticky last bit, so that one rounding of it is correct. -/
def Num.div (a b : Num) : Num :=
  match a, b with
  | .nan, _ => .nan
  | _, .nan => .nan
  | .inf _, .inf _ => .nan
  | .inf s, .fin t _ _ => .inf (s != t)
  | .fin s _ _, .inf t => .fin (s != t) 0 0
  | .fin s m e, .fin t n g =>
    if n = 0 then (if m = 0 then .nan else .inf (s != t))
    else
      let k := Nat.log2 n + 72
      let q := m * 2 ^ k / n
      let r := m * 2 ^ k % n
      .fin (s != t) (2 * q + (if r = 0 then 0 else 1)) (e - g - k - 1)

/-- Integer square root by bits, the highest candidate first. -/
def isqrtFrom : Nat → Nat → Nat → Nat
  | 0, _, r => r
  | i + 1, n, r => isqrtFrom i n (if (r + 2 ^ i) * (r + 2 ^ i) ≤ n then r + 2 ^ i else r)

/-- A square root with a sticky last bit. -/
def Num.sqrt (a : Num) : Num :=
  match a with
  | .nan => .nan
  | .inf s => if s then .nan else .inf false
  | .fin s m e =>
    if m = 0 then .fin s 0 e
    else if s then .nan
    else
      let odd := e % 2 ≠ 0
      let m1 := (if odd then 2 * m else m) * 2 ^ 140
      let e1 := if odd then e - 1 else e
      let r := isqrtFrom 130 m1 0
      .fin false (2 * r + (if r * r = m1 then 0 else 1)) (e1 / 2 - 70 - 1)

/-- Whether a is less than b, for values that are not NaN. -/
def Num.lt (a b : Num) : Bool :=
  match a, b with
  | .nan, _ => false
  | _, .nan => false
  | .inf s, .inf t => s && !t
  | .inf s, _ => s
  | _, .inf t => !t
  | .fin s m e, .fin t n g =>
    let low := if e < g then e else g
    decide (signedAt s m e low < signedAt t n g low)

/-- Equality of values; NaN equals nothing, and the zeros are equal. -/
def Num.eq (a b : Num) : Bool :=
  match a, b with
  | .nan, _ => false
  | _, .nan => false
  | x, y => !x.lt y && !y.lt x

/-- Whether a value is finite. -/
def Num.isFin : Num → Bool
  | .fin _ _ _ => true
  | _ => false

/-- The magnitude of a value. -/
def Num.abs : Num → Num
  | .nan => .nan
  | .inf _ => .inf false
  | .fin _ m e => .fin false m e

/-- An integer as an exact value; zero is +0. -/
def Num.ofInt (i : Int) : Num := .fin (decide (i < 0)) i.natAbs 0

/-- Rounding to an integer of w bits, to nearest even and saturating; NaN gives 0 (R203). The second part says whether the
result is a limit or the 0 of a NaN (R205). -/
def Num.toInt (w : Nat) (x : Num) : Int × Bool :=
  let hi : Int := 2 ^ (w - 1) - 1
  let lo : Int := -(2 ^ (w - 1))
  match x with
  | .nan => (0, true)
  | .inf s => (if s then lo else hi, true)
  | .fin s m e =>
    let k : Nat := if 0 ≤ e then m * 2 ^ e.toNat else rneShift m (-e).toNat
    let v : Int := if s then -(k : Int) else k
    if v < lo then (lo, true) else if hi < v then (hi, true) else (v, false)

/-- Floor of the base-2 logarithm of a positive finite value. -/
def Num.flog2 (x : Num) : Int :=
  match x with
  | .fin _ m e => Nat.log2 m + e
  | _ => 0

/-- The value of an E8M0 code, none for 0xFF (Table 7-1). -/
def e8m0 (x : Nat) : Option Int := if x % 256 = 255 then none else some ((x % 256 : Nat) - 127)

/-- The scale and the codes of a block of elements (R206); emax is that of the format. -/
def blockScale (f : Fmt) (emax : Int) (xs : List Num) : Nat × List Nat :=
  if xs.any (fun x => !x.isFin) then (0xFF, xs.map (fun _ => 0))
  else
    let m := xs.foldl (fun a x => if a.lt x.abs then x.abs else a) (Num.fin false 0 0)
    let k0 : Int := match m with
      | .fin _ 0 _ => 0
      | y => y.flog2 - emax
    let k := if k0 < -127 then -127 else if 127 < k0 then 127 else k0
    ((k + 127).toNat, xs.map (fun x => (f.convert true (x.scale (-k))).1))

end Sys2Proof.Machine
end

