-- ==== Sys2Proof/Machine/Xlate.lean ====
section
/-! DEFINITION. Sys2Proof/Machine/Xlate.lean: translation (R300 to R307): table walks, leaf checks, the core's TLB, the job
TLB, and the state of protected pages (R308 to R310). -/

namespace Sys2Proof.Machine

/-- The 8-word table entry at an address (Table 10-6). -/
def State.entryAt (s : State) (a : Nat) : BitVec 128 := BitVec.ofNat 128 (natOfWords (s.words a 8))

/-- Writing a table entry, as the Mould does (R309, R310). -/
def State.setEntry (s : State) (a : Nat) (e : BitVec 128) : State := s.writeRun a (wordsOfNat 8 e.toNat)

/-- Fields of an entry (Table 10-6). -/
def entPa (e : BitVec 128) : Nat := fld e 0 44
def entAux (e : BitVec 128) : Nat := fld e 64 44
def entPr (e : BitVec 128) : Bool := e.getLsbD 59
def entSm (e : BitVec 128) : Bool := e.getLsbD 58
def entT (e : BitVec 128) : Bool := e.getLsbD 57
def entSgen (e : BitVec 128) : Nat := fld e 112 16

/-- The physical address of a word reached through a leaf entry: the live page, or AUX of a touched shadow page
(R310). -/
def entPlace (e : BitVec 128) (off : Nat) : Nat := (if entPr e && entSm e && entT e then entAux e else entPa e) + off

/-- Stacked DRAM, LPDDR6 or die-shared memory, whether reachable now or not (R302). -/
def tableTier (a : Nat) : Bool :=
  match regionOf a with
  | .stacked => true | .lpddr => true | .shared _ => true | _ => false

/-- Whether an address lies in the MMIO or a Comb window. -/
def devRegion (a : Nat) : Bool :=
  match regionOf a with
  | .mmio => true | .comb => true | _ => false

/-- Whether a leaf meets R303: level 2 maps 64 MiB (big), level 3 maps 128 KiB. -/
def leafOk (e : BitVec 128) (big : Bool) : Bool :=
  let pa := entPa e
  (if big then pa % 2 ^ 25 == 0 && !entPr e
   else pa % 2 ^ 16 == 0 &&
    (!entPr e || (tableTier pa && entAux e % 2 ^ 16 == 0 && tableTier (entAux e))) &&
    (!devRegion pa || fld e 96 12 == 0))

/-- One level of a walk: the entry for the address in the table at base. Done with a leaf, going on with the next table, or a
fault (R303). -/
inductive WalkStep where
  | leaf (e : BitVec 128) (at_ : Nat) | table (base : Nat) | bad (c : Cause)

/-- The entry for an address in a table of a level (Table 10-5). -/
def entryOf (level base va : Nat) : Nat :=
  base + 8 * (if level = 1 then va / 2 ^ 34 % 1024 else if level = 2 then va / 2 ^ 25 % 512 else va / 2 ^ 16 % 512)

/-- Reading a table entry finds the latent errors of its codewords: its 8 words lie in one or, in die-shared memory, in two (R495, R496). -/
def State.touchEntry (s : State) (a : Nat) : State := s.touchAll [a, a + 4]

/-- What a walk reads at one level (Table 10-5, R303). -/
def State.walkStep (s : State) (level base va : Nat) : State × WalkStep :=
  let a := entryOf level base va
  if !tableTier base || !s.tableOk a then (s, .bad .pageFault)
  else
    let s := s.touchEntry a
    if s.poisoned a || s.poisoned (a + 4) then (s, .bad .poison)
    else
      let e := s.entryAt a
      if !e.getLsbD 63 || fld e 108 4 ≠ 0 || fld e 44 13 ≠ 0 then (s, .bad .pageFault)
      else if e.getLsbD 62 then
        if level = 1 || !leafOk e (level == 2) then (s, .bad .pageFault) else (s, .leaf e a)
      else if level = 3 || entPa e % 4096 ≠ 0 || !tableTier (entPa e) then (s, .bad .pageFault)
      else (s, .table (entPa e))

/-- The entries a walk reads from a table on, with the levels left. -/
def State.walkReads (s : State) : Nat → Nat → Nat → List Nat
  | 0, _, _ => []
  | k + 1, base, va =>
    let a := entryOf (3 - k) base va
    if !tableTier base || !s.tableOk a then []
    else a :: (if (s.entryAt a).getLsbD 63 && !(s.entryAt a).getLsbD 62 then s.walkReads k (entPa (s.entryAt a)) va else [])

/-- A whole walk from a level-1 table (R302, R303). -/
def State.walk (s : State) (root va : Nat) : State × Except Cause TlbEntry :=
  let entry (level : Nat) (e : BitVec 128) (a : Nat) : TlbEntry :=
    let size := if level = 2 then 2 ^ 25 else 2 ^ 16
    { vpage := va / size * size, big := level == 2, entry := e, leaf := a }
  match s.walkStep 1 root va with
  | (s1, .bad c) => (s1, .error c)
  | (s1, .leaf e a) => (s1, .ok (entry 1 e a))
  | (s1, .table b1) =>
    match s1.walkStep 2 b1 va with
    | (s2, .bad c) => (s2, .error c)
    | (s2, .leaf e a) => (s2, .ok (entry 2 e a))
    | (s2, .table b2) =>
      match s2.walkStep 3 b2 va with
      | (s3, .bad c) => (s3, .error c)
      | (s3, .leaf e a) => (s3, .ok (entry 3 e a))
      | (s3, .table _) => (s3, .error .pageFault)

/-- Whether a TLB entry translates an address. -/
def TlbEntry.hits (e : TlbEntry) (va : Nat) : Bool :=
  let size := if e.big then 2 ^ 25 else 2 ^ 16
  va / size * size == e.vpage

/-- The page's offset of an address. -/
def TlbEntry.off (e : TlbEntry) (va : Nat) : Nat := va % (if e.big then 2 ^ 25 else 2 ^ 16)

/-- The physical address a leaf gives: a touched shadow page is read and written in AUX (R310). -/
def TlbEntry.pa (e : TlbEntry) (va : Nat) : Nat :=
  entPlace e.entry (e.off va)

/-- The kind of access a leaf is checked for: a scalar or vector access that names a region, or a feeder access. -/
inductive Access where
  | direct (r : Region) | feeder
deriving DecidableEq, Repr

/-- The check of a leaf for an access (R303): PROTECTION, then BUS_ERROR for an unreachable place. -/
def State.leafCheck (s : State) (e : TlbEntry) (va : Nat) (write : Bool) (k : Access) : Option Cause :=
  let pa := e.pa va
  let dev := devRegion (entPa e.entry)
  let sub := e.big || !dev || e.entry.getLsbD (64 + e.off va / 2048)
  let kind := match k with
    | .direct r => decide (regionOf pa = r)
    | .feeder => !dev
  if !(if write then e.entry.getLsbD 60 else e.entry.getLsbD 61) || !sub || !kind then some .protection
  else match k with
    | .direct _ => none
    | .feeder => if s.tierOk pa || regionOf pa = .window then none else some .busError

/-- Whether core n's accesses at user level are translated (R300). -/
def State.xlOn (s : State) (n : Nat) (sup : Bool) : Bool := !sup && s.bitReg (rXrootLo n) 0

/-- The root in use of core n (R305, Tables 10-7 and 10-8). -/
def State.xroot (s : State) (n : Nat) : Nat :=
  (s.core n).rootUse.toNat * 2 ^ 32 + s.fldReg (rXrootLo n) 13 19 * 2 ^ 13

/-- Core n's TLB entry for an address. -/
def State.tlbFind (s : State) (n va : Nat) : Option TlbEntry := (s.core n).tlb.find? (fun e => e.hits va)

/-- Whether a walk would no longer find a TLB entry: an entry of the tables was changed and not invalidated (R307). -/
def State.stale (s : State) (root va : Nat) (e : TlbEntry) : Bool :=
  match ({ s with latent := [], psn := [] }.walk root va).2 with
  | .ok f => decide (f ≠ e)
  | .error _ => true

/-- The state before an access uses a TLB: whether an entry that is stale still serves is a free choice, and drop is the state without
it (R307). -/
def State.freshBy (s : State) (hit : Option TlbEntry) (root va : Nat) (drop : State → State) : State :=
  if hit.any (s.stale root va) then
    let (w, t) := s.free
    if w.getLsbD 0 then drop t else t
  else s

/-- The state before an access of core n to an address uses its TLB (R307). -/
def State.fresh (s : State) (n va : Nat) : State :=
  s.freshBy (s.tlbFind n va) (s.xroot n) va (fun t => t.modCore n (fun c => { c with tlb := c.tlb.filter (fun x => !x.hits va) }))

/-- The state before an access to several addresses uses a TLB: one choice for each entry that they hit, so that the access uses one whole
entry for each page (R307). -/
def freshGo (find : State → Nat → Option TlbEntry) (one : State → Nat → State) : List TlbEntry → List Nat → State → State
  | _, [], s => s
  | seen, va :: r, s => match find s va with
    | none => freshGo find one seen r s
    | some e => if seen.contains e then freshGo find one seen r s else freshGo find one (e :: seen) r (one s va)

/-- The same of core n's TLB for the addresses of its feeder. -/
def State.freshAll (s : State) (n : Nat) (sup : Bool) (as_ : List W64) : State :=
  if s.xlOn n sup then
    freshGo (fun t va => t.tlbFind n va) (fun t va => t.fresh n va) [] ((as_.filter (fun a => s.isHere a)).map localOf) s
  else s

/-- The root of the job tables in use (R305). -/
def State.jroot (s : State) : Nat := s.jrootUse.toNat * 2 ^ 32 + s.fldReg rJrootLo 13 19 * 2 ^ 13

/-- The job TLB's entry for an address. -/
def State.jobFind (s : State) (va : Nat) : Option TlbEntry := s.jtlb.find? (fun e => e.hits va)

/-- The job TLB before a request uses its entry for an address (R307): a write that waits for a page's copy keeps the entry by which it waits
(assumption log 146). -/
def State.jobFreshOne (t : State) (va : Nat) : State :=
  match (t.jobFind va).bind (fun h => t.touchWait.find? (fun w => w.1 == h.leaf)) with
  | some w => { t with jtlb := t.jtlb.map (fun x => if x.hits va then { x with entry := w.2 } else x) }
  | none => t.freshBy (t.jobFind va) t.jroot va (fun t => { t with jtlb := t.jtlb.filter (fun x => !x.hits va) })

/-- The state before a request uses the job TLB (R307). -/
def State.jobFresh (s : State) (sup : Bool) (vas : List Nat) : State :=
  if sup || !s.bitReg rJrootLo 0 then s else freshGo State.jobFind State.jobFreshOne [] vas s

/-- The table entries that an access reads which finds a TLB entry or misses. -/
def State.missReads (s : State) (hit : Option TlbEntry) (root va : Nat) : List Nat :=
  if hit.any (fun e => !s.stale root va e) then [] else s.walkReads 3 root va

/-- The table entries that a local access of core n reads (R300, R303). -/
def State.coreReads (s : State) (n : Nat) (sup : Bool) (va : Nat) : List Nat :=
  if s.xlOn n sup then s.missReads (s.tlbFind n va) (s.xroot n) va else []

/-- Core n's TLB with an entry added; when 256 are held the oldest goes (R305). -/
def State.tlbAdd (s : State) (n : Nat) (e : TlbEntry) : State := s.modCore n (fun c => { c with tlb := (e :: c.tlb).take 256 })

/-- The walk of core n's tables for an address, filling its TLB (R305). -/
def State.coreWalk (s : State) (n va : Nat) : State × Except Cause TlbEntry :=
  match s.tlbFind n va with
  | some e => (s, .ok e)
  | none =>
    match s.walk (s.xroot n) va with
    | (t, .ok e) => (t.tlbAdd n e, .ok e)
    | (t, .error c) => (t, .error c)

/-- Translating one local address for core n, walking on a miss: the physical address and the leaf used. -/
def State.coreXlate (s : State) (n va : Nat) (write : Bool) (k : Access) (sup : Bool) :
    State × Except Cause (Nat × Option TlbEntry) :=
  if !s.xlOn n sup then
    match k with
    | .direct _ => (s, .ok (va, none))
    | .feeder => (s, if s.tierOk (physOf n va) then .ok (physOf n va, none) else .error .busError)
  else
    match s.coreWalk n va with
    | (t, .error c) => (t, .error c)
    | (t, .ok e) =>
      match t.leafCheck e va write k with
      | some c => (t, .error c)
      | none => (t, .ok (physOf n (e.pa va), some e))

/-- Whether a local physical address may be reached from outside the core: the tiers and the 0xE01 range (R301). -/
def State.jobReach (s : State) (a : Nat) : Bool :=
  match regionOf a with
  | .window => false
  | _ => s.tierOk a

/-- The entries of the job tables that accesses to addresses read (R301, R303). -/
def State.jobReads (s : State) (sup : Bool) (as_ : List Nat) : List Nat :=
  if sup || !s.bitReg rJrootLo 0 then [] else as_.flatMap (fun a => s.missReads (s.jobFind a) s.jroot a)

/-- The walk of the job tables for an address, filling the job TLB (R305). -/
def State.jobWalk (s : State) (va : Nat) : State × Except Cause TlbEntry :=
  match s.jobFind va with
  | some e => (s, .ok e)
  | none =>
    match s.walk s.jroot va with
    | (t, .ok e) => ({ t with jtlb := (e :: t.jtlb).take 1024 }, .ok e)
    | (t, .error c) => (t, .error c)

/-- Translating a local part through the job tables (R301): remote, Pugmill and expert-dispatch accesses. A supervisor's remote
access, and every one while JROOT.EN is 0, is physical. -/
def State.jobXlate (s : State) (va : Nat) (write sup : Bool) : State × Except Cause (Nat × Option TlbEntry) :=
  if sup || !s.bitReg rJrootLo 0 then (s, if s.jobReach va then .ok (va, none) else .error .busError)
  else
    match s.jobWalk va with
    | (t, .error c) => (t, .error c)
    | (t, .ok e) =>
      match t.leafCheck e va write .feeder with
      | some c => (t, .error c)
      | none => if t.jobReach (e.pa va) then (t, .ok (e.pa va, some e)) else (t, .error .busError)

/-- The blocks, and by tlb and wait the TLB entries and the writes that wait, of accesses through a leaf entry that the Mould changes: a block that
was translated through the entry sees the change (R311). -/
def State.reviseBy (s : State) (leaf : Nat) (e : BitVec 128) (f : BitVec 128 → BitVec 128) (tlb : List TlbEntry → List TlbEntry)
    (wait : List (Nat × BitVec 128) → List (Nat × BitVec 128)) : State :=
  let run (r : Run) : Run := { r with leaf := r.leaf.map (fun x => if x.at_ = leaf ∧ x.entry = e then { x with entry := f e } else x) }
  let s1 := (s.cores.map (·.1)).foldl (fun s n => s.modCore n (fun c =>
    { c with tlb := tlb c.tlb, blocks := c.blocks.map (fun b => { b with srcs := b.srcs.map run, dsts := b.dsts.map run }) })) s
  { s1 with jtlb := tlb s1.jtlb, touchWait := wait s1.touchWait }

/-- What the Mould does to a leaf entry it changes beside writing it: the page is invalidated by its entry in every TLB (R311). -/
def State.reviseLeaf (s : State) (leaf : Nat) (e : BitVec 128) (f : BitVec 128 → BitVec 128) : State :=
  s.reviseBy leaf e f (fun l => l.filter (fun t => t.leaf ≠ leaf)) (fun l => l.filter (fun w => w.1 ≠ leaf))

/-- The Mould changes a leaf entry (R309, R310). -/
def State.mouldEntry (s : State) (leaf : Nat) (f : BitVec 128 → BitVec 128) : State :=
  let s := s.touchEntry leaf
  (s.setEntry leaf (f (s.entryAt leaf))).reviseLeaf leaf (s.entryAt leaf) f

/-- The Mould acts on an entry that accesses use although software has replaced it in memory without invalidating it: what is in memory stays, and
the accesses that use the old entry see the change in it, so that each uses one whole entry (R307; assumption log 146). -/
def State.mouldStale (s : State) (leaf : Nat) (e : BitVec 128) (f : BitVec 128 → BitVec 128) : State :=
  s.reviseBy leaf e f (fun l => l.map (fun t => if t.leaf = leaf ∧ t.entry = e then { t with entry := f e } else t))
    (fun l => l.map (fun w => if w = (leaf, e) then (leaf, f e) else w))

/-- Whether a leaf entry still protects its page against a write (R309, R310). -/
def State.guards (s : State) (e : BitVec 128) : Bool :=
  entPr e && (if entSm e then !entT e else decide (entSgen e ≠ s.fldReg rSnap 0 16))

/-- The same of the entry as memory holds it. -/
def State.protects (s : State) (leaf : Nat) : Bool := s.guards (s.entryAt leaf)

/-- Whether a translated access through a leaf entry holds now: a step command is busy and the page is a shadow page (R310). -/
def State.stepHolds (s : State) (e : BitVec 128) : Bool := s.bitReg rStep 29 && entPr e && entSm e


end Sys2Proof.Machine
end

