-- ==== Sys2Proof/Machine/Net.lean ====
section
/-! DEFINITION. Sys2Proof/Machine/Net.lean: packets (Table 13-5), the queues and credits of a link (R370 to R374), routing
(R382 to R387), multicast (R388), fabric requests and their answers (R379 to R381). -/

namespace Sys2Proof

open Sys2Proof.Machine (fld)

/-- Fields of a packet header (Table 13-5). -/
def Packet.dst (p : Packet) : Nat := fld p.hdr 0 20
def Packet.mcg (p : Packet) : Nat := fld p.hdr 0 16
def Packet.len (p : Packet) : Nat := fld p.hdr 24 5
def Packet.hop (p : Packet) : Nat := fld p.hdr 29 5
def Packet.subl (p : Packet) : Nat := fld p.hdr 34 1
def Packet.type (p : Packet) : Nat := fld p.hdr 36 6
def Packet.src (p : Packet) : Nat := fld p.hdr 44 20
def Packet.tag (p : Packet) : BitVec 17 := p.hdr.extractLsb' 64 17
def Packet.pmask (p : Packet) : BitVec 16 := p.hdr.extractLsb' 96 16
def Packet.epoch (p : Packet) : Nat := fld p.hdr 112 16
def Packet.addr (p : Packet) : Nat := fld p.hdr 128 44
def Packet.stat (p : Packet) : Nat := fld p.hdr 172 4
def Packet.tsf (p : Packet) : W64 := p.hdr.extractLsb' 192 64

/-- The words of a packet with their marks, n of them (R391). -/
def Packet.marked (p : Packet) (n : Nat) : List (Word × Bool) :=
  (List.range n).map (fun i => (p.data.getD i 0, p.pmask.getLsbD (i / 8)))

/-- The class of a packet (Tables 13-4, 13-6, 14-3), none for a reserved TYPE. -/
def Packet.class? (p : Packet) : Option Nat :=
  let t := p.type
  if t = 1 ∨ t = 3 ∨ t = 5 ∨ t = 7 then some 0
  else if t = 2 ∨ t = 4 ∨ t = 6 ∨ t = 8 then some 1
  else if t = 9 ∨ t = 0xA ∨ t = 0x10 ∨ t = 0x11 ∨ (0x18 ≤ t ∧ t ≤ 0x1A) then some 2
  else if 0x20 ≤ t ∧ t ≤ 0x24 then some 3
  else none

/-- The 16-byte units of a packet, header included (R370). -/
def Packet.units (p : Packet) : Nat := 2 + p.len

end Sys2Proof

namespace Sys2Proof.Machine

/-- The words of a list padded with zeros to whole data units of eight words. -/
def padUnits (ws : List Word) : List Word := ws ++ List.replicate ((8 - ws.length % 8) % 8) 0

/-- The packet of a specification (Table 13-5), from source chip src with hops hop. -/
def mkPacket (src hop : Nat) (k : PktSpec) : Packet :=
  let d := padUnits k.data
  { hdr := BitVec.ofNat 256 (k.dst + (if k.mc then 2 ^ 20 else 0) + d.length / 8 * 2 ^ 24 + hop % 32 * 2 ^ 29 + k.type * 2 ^ 36 +
      src * 2 ^ 44 + k.tag * 2 ^ 64 + k.pmask * 2 ^ 96 + k.epoch * 2 ^ 112 + k.addr * 2 ^ 128 + k.stat * 2 ^ 172 +
      k.tsf.toNat * 2 ^ 192)
    data := d }

/-- PMASK of words with marks: bit u is set for a unit with a marked word; the spec gives units whole marks (Table 13-5). -/
def pmaskOf (ms : List Bool) : Nat :=
  (List.range 16).foldl (fun x u => if ((ms.drop (8 * u)).take 8).any id then x + 2 ^ u else x) 0

/-- A link after it starts training. -/
def Link.reset : Link :=
  { full := false, offered := false, peerOff := false, draining := false, nonce := 0, hello2 := none, asked := false, lastPid := none,
    txSeq := 0, unacked := [], resends := 0, rxSeq := 0, nakSent := false, rxUnits := [], txq := [], credits := [], owed := [],
    missed := 0, later := [], out := [] }

/-- Link l. -/
def State.link (s : State) (l : Nat) : Link := look Link.reset s.links l

/-- The state with link l changed. -/
def State.modLink (s : State) (l : Nat) (f : Link → Link) : State :=
  { s with links := put Link.reset s.links l (f (s.link l)) }

/-- STATE of a link (Table 13-1): 0 DISABLED, 1 NOCABLE, 2 TRAIN, 3 HELLO, 4 UP, 5 REDUCED, 6 HELD, 7 DOWN. -/
def State.lk (s : State) (l : Nat) : Nat := s.fldReg (rLkStat l) 28 4

/-- A link the router may use (R364). -/
def State.lkLive (s : State) (l : Nat) : Bool := decide (l < 96) && (s.lk l == 4 || s.lk l == 5)

/-- A link that passes link-local packets. -/
def State.lkLocal (s : State) (l : Nat) : Bool := decide (l < 96) && decide (3 ≤ s.lk l) && decide (s.lk l ≤ 6)

/-- The packets of a queue that may be sent now, in order: each lane sends a packet whole against its credits (R373), and at
most room flits of 15 units are formed (R372). The lists are the packets sent and the packets kept; the third part is the
credits left. -/
def pickTx (room : Nat) : List Queued → List Nat → Nat → Store Nat → List Packet × List Queued × Store Nat
  | [], _, _, cr => ([], [], cr)
  | q :: r, blocked, used, cr =>
    let u := q.pkt.units
    let have_ := look 512 cr q.lane
    if q.lane ∈ blocked ∨ have_ < u ∨ room < cdiv (used + u) 15 then
      let (a, b, c) := pickTx room r (q.lane :: blocked) used cr
      (a, q :: b, c)
    else
      let (a, b, c) := pickTx room r blocked (used + u) (put 512 cr q.lane (have_ - u))
      (q.pkt :: a, b, c)

/-- The 16-byte units of a packet: the header, then its data (R370, R377). -/
def packetUnits (p : Packet) : List (BitVec 128) :=
  [p.hdr.extractLsb' 0 128, p.hdr.extractLsb' 128 128] ++
    (List.range p.len).map (fun i => BitVec.ofNat 128 (natOfWords ((List.range 8).map (fun j => p.data.getD (8 * i + j) 0))))

/-- The data flits that carry packets laid end to end, each with its sequence number (R370, R372). -/
def flitsOf (seq : BitVec 12) (ps : List Packet) : List DataFlit :=
  let units := (ps.zipIdx.map (fun e => ((packetUnits e.1).zipIdx.map (fun u => (u.1, e.2, u.2 == 0))))).flatten
  (units.toChunks 15).zipIdx.map (fun e =>
    { seq := seq + BitVec.ofNat 12 e.2, fpo := (e.1.findIdx? (fun u => u.2.2)).getD 15, units := e.1.map (·.1),
      pkts := (e.1.map (·.2.1)).dedup.filterMap (fun i => ps[i]?) })

/-- A link sends a flit of a type, which carries ACK and up to two lanes' credits (R374, Table 13-3). -/
def Link.emit (k : Link) (ft : Nat) (nak : Bool) (d : DataFlit) : Link :=
  let cr := (k.owed.take 2).map (fun e => (e.1, min e.2 1023))
  { k with
    owed := cr.foldl (fun o e => put 0 o e.1 (look 0 o e.1 - e.2)) k.owed
    out := k.out ++ [{ seq := if ft = 0 then d.seq else 0, ack := k.rxSeq - 1, nak := nak, ft := ft, fpo := d.fpo, cred := cr,
                       units := d.units }] }

/-- A flit without data: idle, or the NAK that asks for a resend from ACK + 1 (R372, R374). -/
def Link.idle (k : Link) (nak : Bool) : Link := k.emit 1 nak { seq := 0, fpo := 15, units := [], pkts := [] }

/-- Sending what the credits and the window of 512 unacknowledged flits allow on a link (R372, R373). -/
def State.pump (s : State) (l : Nat) : State :=
  if !s.lkLocal l then s
  else s.modLink l (fun k =>
    let (ps, q, cr) := pickTx (512 - k.unacked.length) k.txq [] 0 k.credits
    let fs := flitsOf k.txSeq ps
    fs.foldl (fun (k : Link) d => k.emit 0 false d)
      { k with txq := q, credits := cr, unacked := k.unacked ++ fs, txSeq := k.txSeq + BitVec.ofNat 12 fs.length })

/-- Queueing a packet that came on a link or was made here: the transmitter sets SUB and HOP falls by 1 (R385, R386). -/
def State.enqueue (s : State) (l lane hop : Nat) (from_ : Option Nat) (p : Packet) : State :=
  let h := setFld (setFld p.hdr 34 1 (lane % 2)) 29 5 hop
  (s.modLink l (fun k => { k with txq := k.txq ++ [{ lane := lane, pkt := { p with hdr := h }, from_ := from_ }] })).pump l

/-- Queueing a copy of a multicast packet: a link that drains for a rate change takes no new packet, and the copy waits for its end (R365). -/
def State.enqueueMc (s : State) (l lane hop : Nat) (from_ : Option Nat) (p : Packet) : State :=
  if (s.link l).draining then
    let h := setFld (setFld p.hdr 34 1 (lane % 2)) 29 5 hop
    s.modLink l (fun k => { k with later := k.later ++ [{ lane := lane, pkt := { p with hdr := h }, from_ := from_ }] })
  else s.enqueue l lane hop from_ p

/-- Sending a link-local packet on a link (R378). -/
def State.sendLocal (s : State) (l : Nat) (k : PktSpec) : State :=
  s.enqueue l 6 0 none (mkPacket s.chip 0 k)

/-- HOP of an originated packet (R386). -/
def State.hops (s : State) : Nat := if s.fldReg rFabCtl 0 5 = 0 then 1 else s.fldReg rFabCtl 0 5

/-- The number of the routing entry for a destination (R382, Table 13-8). -/
def State.routeKey (s : State) (dst : Nat) : Nat :=
  let me := s.chip
  if dst / 65536 ≠ me / 65536 then 2048 + dst / 65536
  else if dst / 64 % 1024 ≠ me / 64 % 1024 then 1024 + dst / 64 % 1024 else dst % 64

/-- The routing entry for a destination (R382). A marked entry has no candidates (R502). -/
def State.routeEntry (s : State) (dst : Nat) : W32 :=
  let k := s.routeKey dst
  if look false s.routeMark k then 0x0FFFFFFF else look 0x0FFFFFFF s.routes k

/-- Routing entry k is read: an error there that cannot be corrected marks it (R502). -/
def State.readRoute (s : State) (k : Nat) : State :=
  let (t, bad) := s.findsAt (.route k)
  if bad then { t with routeMark := put false t.routeMark k true } else t

/-- The live candidates of an entry in slot order, less the link the packet came on (R383). -/
def State.liveCands (s : State) (e : W32) (from_ : Option Nat) : List Nat :=
  ([0, 1, 2, 3].map (fun i => fld e (7 * i) 7)).filter (fun l => s.lkLive l && decide (some l ≠ from_))

/-- Units queued on an output lane of a link. -/
def State.laneUnits (s : State) (l lane : Nat) : Nat :=
  ((s.link l).txq.filter (fun q => q.lane == lane)).foldl (fun a q => a + q.pkt.units) 0

/-- The link a packet takes among the live candidates (R383). -/
def State.chooseLink (s : State) (e : W32) (cands : List Nat) (p : Packet) (lane : Nat) : Option Nat :=
  if cands = [] then none
  else if e.getLsbD 28 then cands[(p.src ^^^ p.dst) % cands.length]?
  else cands.foldl (fun best l => match best with
    | none => some l
    | some b => if s.laneUnits l lane < s.laneUnits b lane then some l else some b) none

/-- A link whose two ends lie in the same plane and in different groups (R385). -/
def State.groupLink (s : State) (l : Nat) : Bool :=
  let peer := s.fldReg (rLkPeer l) 0 20
  peer / 65536 == s.chip / 65536 && peer / 64 != s.chip / 64

/-- The sub-lane on which this module sends a packet that came on a link (R385). -/
def State.subLane (s : State) (from_ : Option Nat) (p : Packet) : Nat :=
  match from_ with
  | none => 0
  | some l => if p.subl = 1 || s.groupLink l then 1 else 0

/-- The cause an answer status stands for (Table 13-7). -/
def statCause (st : Nat) : Cause :=
  if st = 2 then .pageFault else if st = 3 then .protection else if st = 5 then .semUnderflow else if st = 6 then .semOverflow
  else if st = 7 then .poison else .busError

/-- A deferred fault of a core that suspends nothing: a failed completion action or posted operation (R141, R344). -/
def State.deferAction (s : State) (n : Nat) (c : Cause) (faddr : W64) : State :=
  s.modCore n (fun k => { k with deferred := k.deferred ++ [{ cause := c, faddr := faddr, op := 3, susp := none }] })

/-- The owner of a request takes its status and, for a read, its words: its block or its core, with FADDR for the causes of Table 5-7 (R379). -/
def State.ownerTakes (s : State) (r : Request) (st : Nat) (ws : List (Word × Bool)) : State :=
  match r.owner with
  | .gone => s
  | .posted n fa => if st = 0 then s else s.deferAction n (statCause st) (if st = 5 ∨ st = 6 then 0 else fa)
  | .block n id => s.modCore n (fun (c : Core) => { c with blocks := c.blocks.map (fun (b : Block) =>
      if b.id = id then
        { b with tags := b.tags.filter (fun t => t ≠ r.tag)
                 got := b.got ++ ((ws.take r.len).zipIdx.map (fun e => (r.off + e.2, e.1.1, e.1.2)))
                 fail := if st = 0 ∨ b.fail.isSome then b.fail else some (statCause st, r.addr) }
      else b) })

/-- A request of this module is answered (R379): its tag frees (R380). An answer without a request is discarded, and that of a request which has
timed out frees its tag and does nothing else (R376). -/
def State.completeReq (s : State) (tag : BitVec 17) (st : Nat) (ws : List (Word × Bool)) : State :=
  match s.requests.find? (fun r => r.tag == tag) with
  | none => s
  | some r =>
    let t : State := { s with requests := s.requests.filter (fun q => q.tag ≠ tag) }
    t.ownerTakes r st ws

/-- A request times out: it completes UNREACH, and holds its tag until its answer arrives (R380, R381). -/
def State.timeOut (s : State) (tag : BitVec 17) : State :=
  match s.requests.find? (fun r => r.tag == tag) with
  | none => s
  | some r =>
    let t : State := { s with requests := s.requests.map (fun q => if q.tag = tag then { q with owner := .gone } else q) }
    t.ownerTakes r 1 []

/-- Recording a fabric error and its destination (R397). -/
def State.fabErr (s : State) (code dst : Nat) : State := s.errWith .fabric code (fun t => t.setReg rFabErrdst (BitVec.ofNat 32 dst))

/-- A routed packet put in the router: delivered here, queued on a link, or unroutable. The answer is the state and whether
the packet was unroutable. A link that drains for a rate change takes no new packet (R365): the packet stays in the inbox. -/
def State.routeTo (s : State) (from_ : Option Nat) (p : Packet) : State × Bool :=
  if p.dst = s.chip then ({ s with inbox := s.inbox ++ [{ link := from_, lane := 2 * p.class?.getD 0 + p.subl, pkt := p }] }, false)
  else if p.hop = 0 then (s.fabErr 2 p.dst, true)
  else
    let s := s.readRoute (s.routeKey p.dst)
    let e := s.routeEntry p.dst
    let lane := 2 * p.class?.getD 0 + s.subLane from_ p
    match s.chooseLink e (s.liveCands e from_) p lane with
    | none => (s.fabErr 1 p.dst, true)
    | some l =>
      if (s.link l).draining then ({ s with inbox := s.inbox ++ [{ link := from_, lane := lane, pkt := p }] }, false)
      else (s.enqueue l lane (p.hop - 1) from_ p, false)

/-- Sending an answer, or a packet that has no requester to tell: it is dropped where it cannot be routed (R383). -/
def State.originate (s : State) (k : PktSpec) : State :=
  if s.chip = 0 then s.fabErr 4 k.dst
  else (s.routeTo none (mkPacket s.chip s.hops k)).1

/-- The answer to a request packet: addressed to its SRC with its TAG (R377). -/
def answerSpec (p : Packet) (st : Nat) (ws : List (Word × Bool)) : PktSpec :=
  { dst := p.src, mc := false, type := p.type + 1, tag := p.tag.toNat, pmask := pmaskOf (ws.map (·.2)), epoch := 0, addr := 0,
    stat := st, tsf := 0, data := ws.map (·.1) }

/-- A request packet to a chip: its type, address, type-specific field and words with their marks (Table 13-6). -/
def reqSpec (chip type addr : Nat) (tsf : W64) (ws : List (Word × Bool)) : PktSpec :=
  { dst := chip, mc := false, type := type, tag := 0, pmask := pmaskOf (ws.map (·.2)), epoch := 0, addr := addr, stat := 0,
    tsf := tsf, data := ws.map (·.1) }

/-- Telling the source of a request that it is unreachable; this module's own request completes at once (R375, R383). -/
def State.unreach (s : State) (p : Packet) : State :=
  if p.class? ≠ some 0 then s
  else if p.src = s.chip then s.completeReq p.tag 1 []
  else s.originate (answerSpec p 1 [])

/-- Routing a packet that came on a link or that this module made (R382 to R386). -/
def State.route (s : State) (from_ : Option Nat) (p : Packet) : State :=
  let (t, bad) := s.routeTo from_ p
  if bad then t.unreach p else t

/-- The smallest fabric tag not in use, counting on from the last one given (R380). -/
def State.freeTag (s : State) : Option Nat :=
  if 40960 ≤ s.requests.length then none else (List.range (s.requests.length + 1)).findSome? (fun i =>
    let t := (s.nextTag + i) % 40960
    if s.requests.any (fun r => r.tag.toNat == t) then none else some t)

/-- Sending a request and waiting for its answer; none while no tag is free (R380). A request of an unaddressed module
completes UNREACH (R369). -/
def State.request (s : State) (owner : ReqOwner) (addr : W64) (off : Nat) (k : PktSpec) : Option (State × BitVec 17) :=
  match s.freeTag with
  | none => none
  | some t =>
    let tag := BitVec.ofNat 17 t
    let r : Request := { tag := tag, owner := owner, addr := addr, off := off, len := if k.type = 1 then k.tsf.toNat else 0 }
    let s := { s with nextTag := (t + 1) % 40960, requests := s.requests ++ [r] }
    let s : State := match owner with
      | .block n id => s.modCore n (fun (c : Core) => { c with blocks := c.blocks.map (fun (b : Block) =>
          if b.id = id then { b with tags := b.tags ++ [tag] } else b) })
      | .posted _ _ => s
      | .gone => s
    if s.chip = 0 then some ((s.fabErr 4 k.dst).completeReq tag 1 [], tag)
    else some (s.route none (mkPacket s.chip s.hops { k with tag := t }), tag)

/-- A posted request of a core is sent, or waits for a tag behind those that already wait (R380). -/
def State.postReq (s : State) (owner : ReqOwner) (addr : W64) (k : PktSpec) : State :=
  let wait : State := { s with unsent := s.unsent ++ [{ owner := owner, addr := addr, spec := k }] }
  if s.unsent ≠ [] then wait else match s.request owner addr 0 k with
    | some (t, _) => t
    | none => wait

/-- Requests that wait are sent in their order while tags are free (R380). -/
def State.sendWaiting (s : State) : State := Nat.repeat (fun (s : State) => match s.unsent with
  | [] => s
  | u :: r => match ({ s with unsent := r }).request u.owner u.addr 0 u.spec with
    | some (t, _) => t
    | none => s) s.unsent.length s

/-- The multicast entry of a group: marked ones act as V = 0 (R502). -/
def McEntry.none_ : McEntry := { links := 0, attr := 0, mark := false }
def State.mcEntry (s : State) (g : Nat) : McEntry := look McEntry.none_ s.mcast g
def McEntry.valid (e : McEntry) : Bool := e.attr.getLsbD 31 && !e.mark

/-- The multicast entry of a group, or its staged copy, is read: an error there that cannot be corrected marks it (R502). -/
def State.readMcast (s : State) (g : Nat) (staged : Bool) : State :=
  let (t, bad) := s.findsAt (.mcast g staged)
  if !bad then t
  else if staged then { t with mcastStg := put McEntry.none_ t.mcastStg g { look McEntry.none_ t.mcastStg g with mark := true } }
  else { t with mcast := put McEntry.none_ t.mcast g { t.mcEntry g with mark := true } }

/-- The links of a group's entry that a packet goes out on: all but the one it came on (R388). -/
def State.mcLinks (s : State) (from_ : Option Nat) (g : Nat) : List Nat :=
  (List.range 96).filter (fun l => (s.mcEntry g).links.getLsbD l && decide (some l ≠ from_))

/-- Forwarding a multicast packet (R388): a copy on each masked live link but the one it came on, and one here, which keeps the place rx that
the packet has in a receive buffer. -/
def State.multicast (s : State) (from_ : Option Nat) (p : Packet) (rx : Option Rx) : State :=
  let s := s.readMcast p.mcg false
  let e := s.mcEntry p.mcg
  if !e.valid then s.fabErr 3 p.mcg
  else
    let links := s.mcLinks from_ p.mcg
    let lane := 4 + s.subLane from_ p
    let s1 := if p.hop = 0 ∧ links ≠ [] then s.fabErr 2 p.mcg
      else links.foldl (fun s l => if s.lkLive l then s.enqueueMc l lane (p.hop - 1) from_ p else s.fabErr 5 p.mcg) s
    if e.attr.getLsbD 30 then
      { s1 with inbox := s1.inbox ++ [{ link := rx.bind (fun r => r.link), lane := rx.elim (2 * p.class?.getD 0 + p.subl) (fun r => r.lane),
                                        pkt := p, copy := true }] }
    else s1


/-- Originating a multicast packet (R388, R369). -/
def State.originateMc (s : State) (k : PktSpec) : State :=
  if s.chip = 0 then s.fabErr 4 k.dst else s.multicast none (mkPacket s.chip s.hops { k with mc := true }) none

/-- Originating a posted unicast packet (R378). -/
def State.post (s : State) (k : PktSpec) : State := s.originate k

/-- Whether a packet is multicast (Table 13-5). -/
def isMc (p : Packet) : Bool := p.hdr.getLsbD 20

/-- A packet of the inbox is handled, as a copy delivered here or not: its receive-buffer units are owed back to the sender (R373). -/
def State.consumeAs (s : State) (p : Packet) (copy : Bool) : State :=
  match s.inbox.find? (fun r => r.pkt == p && r.copy == copy) with
  | none => s
  | some r =>
    let s := { s with inbox := s.inbox.erase r }
    match r.link with
    | none => s
    | some l => s.modLink l (fun k => { k with owed := put 0 k.owed r.lane (look 0 k.owed r.lane + p.units) })

/-- A packet addressed here, or the copy of a multicast packet delivered here, is handled. -/
def State.consume (s : State) (p : Packet) : State := s.consumeAs p (isMc p)

/-- Forwarding a multicast packet of the inbox, or one that is named as it comes (R388): where a copy is delivered here, it keeps its receive-buffer
units until it is handled, so that one the Pugmill cannot take fills its sub-lane (R373, R423; assumption log 132). -/
def State.mcForward (s : State) (from_ : Option Nat) (p : Packet) : State :=
  match s.inbox.find? (fun r => r.pkt == p && !r.copy) with
  | none => s.multicast from_ p none
  | some r =>
    let s := s.readMcast p.mcg false
    if (s.mcEntry p.mcg).valid && (s.mcEntry p.mcg).attr.getLsbD 30 then ({ s with inbox := s.inbox.erase r }).multicast from_ p (some r)
    else (s.consumeAs p false).multicast from_ p none

/-- A packet that cannot be handled yet stays in the receive buffer (R391). -/
def State.keep (s : State) (p : Packet) : State :=
  if s.inbox.any (fun r => r.pkt == p && r.copy == isMc p) then s
  else { s with inbox := s.inbox ++ [{ link := none, lane := 2 * p.class?.getD 0 + p.subl, pkt := p, copy := isMc p }] }

/-- Whether no packet that satisfies a test came before a packet, as a copy delivered here or not. -/
def State.turn (s : State) (p : Packet) (copy : Bool) (f : Rx → Bool) : Bool :=
  match s.inbox.find? (fun x => x.copy == copy && f x) with
  | none => true
  | some x => x.pkt == p

/-- Packets of one class, source and destination leave this module in the order they came (R384, R388). -/
def State.mayLeave (s : State) (p : Packet) : Bool :=
  s.turn p false (fun x => x.pkt.class? == p.class? && x.pkt.src == p.src && x.pkt.hdr.extractLsb' 0 21 == p.hdr.extractLsb' 0 21)

/-- Whether a Pugmill or the Swarm may take a packet: none of their packets waits before it on its sub-lane (R423). -/
def State.pugTurn (s : State) (p : Packet) : Bool :=
  let r := (s.inbox.find? (fun r => r.pkt == p && r.copy == isMc p)).getD
    { link := none, lane := 2 * p.class?.getD 0 + p.subl, pkt := p, copy := isMc p }
  match s.inbox.find? (fun x => x.copy == isMc x.pkt && x.link == r.link && x.lane == r.lane && (isMc x.pkt || x.pkt.dst == s.chip) &&
      decide (0x10 ≤ x.pkt.type) && decide (x.pkt.type ≤ 0x1F)) with
  | none => true
  | some x => x.pkt == p

end Sys2Proof.Machine
end

