-- ==== Sys2Proof/Machine/Comb.lean ====
section
/-! DEFINITION. Sys2Proof/Machine/Comb.lean: the semaphores of the Comb (R339 to R346, R352), the Comb windows (Table 12-4)
and the barrier contexts as data (Table 12-7). What a release does stands in Machine/Barrier.lean. -/

namespace Sys2Proof.Machine

/-- A semaphore after reset (R339). -/
def Sem.reset : Sem := { count := 0, fifo := [], waits := [], mark := false }

/-- Semaphore k. -/
def State.sem (s : State) (k : Nat) : Sem := look Sem.reset s.sems k

/-- The state with semaphore k replaced. -/
def State.setSem (s : State) (k : Nat) (q : Sem) : State := { s with sems := put Sem.reset s.sems k q }

/-- An operation reads semaphore k: an error there that cannot be corrected marks it, and its waiters stay queued (R502). -/
def State.readSem (s : State) (k : Nat) : State :=
  let (t, bad) := s.findsAt (.sem k)
  if bad then t.setSem k { t.sem k with mark := true } else t

/-- The largest count (R339). -/
def semMax : Nat := 0x7FFFFFFF

/-- Serving the take FIFO from its head: what is left of the count and the FIFO, and the cores served (R342). -/
def serveTakes : W32 → List (Nat × W32) → W32 × List (Nat × W32) × List Nat
  | c, [] => (c, [], [])
  | c, (n, k) :: r =>
    if k.toNat ≤ c.toNat then
      let (c', r', ns) := serveTakes (c - k) r
      (c', r', n :: ns)
    else (c, (n, k) :: r, [])

/-- The two passes of R342 after a count has changed: the semaphore and the cores whose wait ends. -/
def Sem.serve (q : Sem) : Sem × List Nat :=
  let out := (q.waits.filter (fun e => decide (e.2.toNat ≤ q.count.toNat))).map (·.1)
  let (c, f, ns) := serveTakes q.count q.fifo
  ({ q with count := c, fifo := f, waits := q.waits.filter (fun e => decide (q.count.toNat < e.2.toNat)) }, out ++ ns)

/-- Adding a cone class to one of the sums of a die: N at 3d, G at 3d + 1, K at 3d + 2 (R332). -/
def State.addSum (s : State) (k v : Nat) : State := { s with sums := put 0 s.sums k (look 0 s.sums k + v) }

/-- The cone class of the task a core runs, if it runs one. -/
def Core.coneRun (c : Core) : Option Nat := if c.dst = .task then c.task.map (fun t => t.cone) else none

/-- A core enters a clock-gated wait: its class enters G of its die (R106, R332). -/
def State.gate (s : State) (n : Nat) : State :=
  let k := (s.core n).coneRun
  let s1 := s.modCore n (fun c => { c with gated := true, gheld := k.isSome })
  match k with
  | some v => s1.addSum (3 * (n / 48) + 1) v
  | none => s1

/-- A core is woken from a clock-gated wait: its class enters K of its die (R332). -/
def State.wake (s : State) (n : Nat) : State :=
  let c := s.core n
  let s1 := s.modCore n (fun c => { c with gated := false, gheld := false })
  match c.coneRun, c.gated with
  | some v, true => s1.addSum (3 * (n / 48) + 2) v
  | _, _ => s1

/-- The wait of a core ends at the Comb, and its clock runs again: the core learns of it with COMB_ANSWER (R336, R349). -/
def State.releaseCore (s : State) (n : Nat) : State :=
  match (s.core n).hold with
  | some (.wait _ x k) => (s.wake n).modCore n (fun c => { c with hold := some (.wait true x k) })
  | _ => s

/-- Storing a changed semaphore and serving its waiters (R342). -/
def State.semStore (s : State) (k : Nat) (q : Sem) : State :=
  let (q', ns) := q.serve
  ns.foldl State.releaseCore ((s.setSem k q').over (fun x => x == .sem k))

/-- ADD v (Table 12-1): the state, or the failure. -/
def State.semAdd (s : State) (k v : Nat) : Except Cause State :=
  let q := s.sem k
  if q.mark then .error .poison
  else if v = 0 then .ok s
  else if semMax < q.count.toNat + v then .error .semOverflow
  else .ok (s.semStore k { q with count := BitVec.ofNat 32 (q.count.toNat + v) })

/-- SUB v (Table 12-1). -/
def State.semSub (s : State) (k v : Nat) : Except Cause State :=
  let q := s.sem k
  if q.mark then .error .poison
  else if v = 0 then .ok s
  else if q.count.toNat < v then .error .semUnderflow
  else .ok (s.semStore k { q with count := BitVec.ofNat 32 (q.count.toNat - v) })

/-- WAIT N by a core: the state and whether the wait ends at once (R342). -/
def State.semWait (s : State) (n k : Nat) (v : W32) : Except Cause (State × Bool) :=
  let q := s.sem k
  if semMax < v.toNat then .error .semOverflow
  else if q.mark then .error .poison
  else if v.toNat ≤ q.count.toNat then .ok (s, true)
  else .ok (s.setSem k { q with waits := q.waits ++ [(n, v)] }, false)

/-- TAKE N by a core: the state and whether it is served at once (R342). -/
def State.semTake (s : State) (n k : Nat) (v : W32) : Except Cause (State × Bool) :=
  let q := s.sem k
  if semMax < v.toNat then .error .semOverflow
  else if q.mark then .error .poison
  else if q.fifo = [] ∧ v.toNat ≤ q.count.toNat then .ok (s.semStore k { q with count := q.count - v }, true)
  else .ok (s.setSem k { q with fifo := q.fifo ++ [(n, v)] }, false)

/-- SET v (Table 12-1, R502): stores the count and clears a poison mark; the waiters are served. -/
def State.semSet (s : State) (k v : Nat) : State :=
  s.semStore k { s.sem k with count := BitVec.ofNat 32 v, mark := false }

/-- The report of a failed Scarab, COMB_HOP, Bulk Port or scrub operation (R344, R502, Table 12-9). -/
def State.semFail (s : State) (k : Nat) (c : Cause) : State :=
  match c with
  | .poison => s.err .ras 2
  | .semUnderflow => s.errWith .comb 2 (fun t => t.setReg rErrsem (BitVec.ofNat 32 k))
  | _ => s.errWith .comb 1 (fun t => t.setReg rErrsem (BitVec.ofNat 32 k))

/-- An ADD by the Scarab, COMB_HOP, a Bulk Port or the scrubber (Table 12-3). -/
def State.semSignal (s : State) (k v : Nat) : State :=
  let s := s.readSem k
  match s.semAdd k v with
  | .ok t => t
  | .error c => s.semFail k c

/-- The semaphore's ADD word in the Comb windows (Table 12-4). -/
def semAddr (k : Nat) : Nat := combBase + 16 * k

/-- An ADD on behalf of core n whose failure it takes deferred: a window store or a completion action (Table 12-3). -/
def State.semFor (s : State) (n k v : Nat) (faddr : W64) : State :=
  let s := s.readSem k
  match s.semAdd k v with
  | .ok t => t
  | .error c => s.deferAction n c faddr

/-- A store to the ADD word of semaphore k by core n (R346). -/
def State.windowAdd (s : State) (n k v : Nat) : State := s.semFor n k v (BitVec.ofNat 64 (semAddr k + 4))

/-- The completion signal of a feeder or array operation of core n: ADD 1 (Table 12-3). It has no address, and its FADDR is zero. -/
def State.signal (s : State) (n : Nat) (k : Word) : State := s.semFor n k.toNat 1 0

/-- Setting the counts of core n's task semaphores to zero; queued waiters stay queued (R352). -/
def State.clearTask (s : State) (n : Nat) : State :=
  if n < 192 then
    (List.range 16).foldl (fun s i =>
      let t := s.readSem (16 * n + i)
      t.setSem (16 * n + i) { t.sem (16 * n + i) with count := 0 }) s
  else s

/-! ## Barrier contexts -/

/-- No arrivals. -/
def Arrivals.none_ : Arrivals := { cores := 0, host := false, child := 0, refuse := false, early := [] }

/-- A barrier context after reset. -/
def Ctx.reset : Ctx :=
  { now := Arrivals.none_, next := Arrivals.none_, sent := false, own := 0, waits := [], mark := false, wr := 0 }

/-- Context b. -/
def State.ctx (s : State) (b : Nat) : Ctx := look Ctx.reset s.ctxs b

/-- The state with context b replaced. -/
def State.setCtx (s : State) (b : Nat) (c : Ctx) : State := { s with ctxs := put Ctx.reset s.ctxs b c }

/-- Clearing the arrivals of a context (R357). -/
def State.clearArrivals (s : State) (b : Nat) : State :=
  s.setCtx b { s.ctx b with now := Arrivals.none_, next := Arrivals.none_, sent := false, own := 0 }

/-- An operation reads context b: an error there that cannot be corrected clears EN, and the arrivals go; the other fields hold their stored bits (R357,
R502). -/
def State.readCtx (s : State) (b : Nat) : State :=
  let (t, bad) := s.findsAt (.ctx b)
  if bad then
    let u := (t.setFldReg (rBctl b) 31 1 0).clearArrivals b
    u.setCtx b { u.ctx b with mark := true, wr := 0 }
  else t

/-- Fields of a context's registers (Table 12-7). -/
def State.bEn (s : State) (b : Nat) : Bool := s.bitReg (rBctl b) 31
def State.bRoot (s : State) (b : Nat) : Bool := s.bitReg (rBctl b) 30
def State.bHost (s : State) (b : Nat) : Bool := s.bitReg (rBctl b) 29
def State.bArm (s : State) (b : Nat) : Bool := s.bitReg (rBctl b) 28
def State.bNchild (s : State) (b : Nat) : Nat := s.fldReg (rBctl b) 16 8
def State.bGen (s : State) (b : Nat) : Nat := s.fldReg (rBgen b) 0 16
def State.bEpoch (s : State) (b : Nat) : Nat := s.fldReg (rBgen b) 16 16
def State.bMask (s : State) (b n : Nat) : Bool := s.bitReg (rBmask b (n / 32)) (n % 32)

/-- The named cores of a context as one mask. -/
def State.bCores (s : State) (b : Nat) : BitVec 192 := bitsOf 192 (fun n => s.bMask b n)

/-- Arrivals outstanding for GEN: the host, children, cores (B_LEFT, Table 12-7). -/
def State.bLeft (s : State) (b : Nat) : W32 :=
  let a := (s.ctx b).now
  let host := if s.bHost b && !a.host then 1 else 0
  let child := s.bNchild b - a.child
  let cores := countBits (s.bCores b &&& ~~~a.cores)
  BitVec.ofNat 32 (host * 65536 + child % 256 * 256 + cores % 256)

/-- Withdrawing the Comb wait of a core: nothing is taken, and a take FIFO whose head it was is served again (R343). -/
def State.withdraw (s : State) (n : Nat) : State :=
  match (s.core n).hold with
  | some (.wait false false k) =>
    let s := s.readSem k
    let q := s.sem k
    let q' := { q with fifo := q.fifo.filter (fun e => e.1 ≠ n), waits := q.waits.filter (fun e => e.1 ≠ n) }
    ((s.wake n).modCore n (fun c => { c with hold := none })).semStore k q'
  | some (.wait false true b) =>
    let s := s.readCtx b
    let c := s.ctx b
    ((s.wake n).modCore n (fun c => { c with hold := none })).setCtx b { c with waits := c.waits.filter (fun e => e.1 ≠ n) }
  | _ => s

/-- What a 32-bit load from the Comb windows returns (Table 12-4). A load of the COUNT of a marked semaphore is no operation of Table 12-1
and reads no memory word: it returns the stored count and takes no fault (assumption log 110). -/
def State.combRead (s : State) (a : Nat) : W32 :=
  let o := a - combBase
  if o < 0x100000 then
    let q := s.sem (o / 16)
    if o % 16 = 0 then q.count
    else if o % 16 = 2 then BitVec.ofNat 32 (q.fifo.length % 256 * 256 + q.waits.length % 256) else 0
  else if o < 0x120000 then
    let b := (o - 0x100000) / 0x800
    if o % 0x800 = 0 then s.reg (rBgen b) else if o % 0x800 = 2 then s.bLeft b else 0
  else 0

/-- The read of that word finds the errors of the semaphore or context it shows (R495). -/
def State.combSees (s : State) (a : Nat) : State :=
  let o := a - combBase
  if o < 0x100000 then s.readSem (o / 16) else if o < 0x120000 then s.readCtx ((o - 0x100000) / 0x800) else s

/-- What a 32-bit store to the Comb windows by core n does (Table 12-4, R346). -/
def State.combWrite (s : State) (n a : Nat) (v : W32) : State :=
  let o := a - combBase
  if o < 0x100000 ∧ o % 16 = 4 then s.windowAdd n (o / 16) v.toNat else s

/-! ## Comb instructions -/

/-- The address a semaphore instruction names, its chip and the words of its checks (R348). -/
inductive CombTarget where
  | here (pa : W64) | remote (chip : Nat) (pa : Nat) | bad (c : Cause)
deriving DecidableEq, Repr

/-- Checks 5 and 6 of a Comb instruction: a semaphore or context address (R348). -/
def State.combTarget (s : State) (a : W64) (ctx mayRemote : Bool) : CombTarget :=
  let o := localOf a
  let base := if ctx then combBase + 0x100000 else combBase
  let step := if ctx then 0x800 else 16
  let len := if ctx then 0x20000 else 0x100000
  let here := s.isHere a
  if o < base ∨ base + len ≤ o then .bad .busError
  else if (o - base) % step ≠ 0 then .bad .misaligned
  else if here then .here a
  else if mayRemote then .remote (chipOf a) o
  else .bad .busError

/-- Holding core n for the walk of an address (R105). -/
def State.holdWalk (s : State) (n : Nat) (va : W64) (write : Bool) : State :=
  s.modCore n (fun c => { c with hold := some (.walk va write) })

/-- A Comb instruction on this chip's Comb: translation of its address (R348), then its effect on the semaphore or context
number it reaches. -/
def combHere (n : Nat) (a : W64) (ctx write : Bool) (body : Nat → State → Res) (s : State) : Res :=
  let va := localOf a
  let go (s : State) (pa : Nat) : Res :=
    let base := if ctx then combBase + 0x100000 else combBase
    let len := if ctx then 0x20000 else 0x100000
    if pa < base ∨ base + len ≤ pa then .partial_ s .busError a
    else body ((pa - base) / (if ctx then 0x800 else 16)) s
  if !s.xlOn n (s.core n).sup then go s va
  else
    let s := s.fresh n va
    match s.tlbFind n va with
    | none => .held (s.holdWalk n a write)
    | some e => match s.leafCheck e va write (.direct .comb) with
      | some c => .partial_ s c a
      | none => go s (e.pa va)

/-- A semaphore or barrier instruction: its target (R348), then its effect here, or a SEM packet to another module (R350). -/
def combInstr (n : Nat) (a : W64) (ctx write : Bool) (remoteOp : Option Nat) (v : W32) (body : Nat → State → Res)
    (s : State) : Res :=
  match s.combTarget a ctx remoteOp.isSome with
  | .bad c => .fault c a
  | .here _ => combHere n a ctx write body s
  | .remote chip pa => .done (s.postReq (.posted n a) a (reqSpec chip 5 pa (BitVec.ofNat 64 (remoteOp.getD 1 * 2 ^ 62 + v.toNat)) []))

/-- A Comb operation that is answered: the core holds until COMB_ANSWER (R349), or takes the failure in state s. -/
def combAnswered (n : Nat) (a : W64) (s : State) (r : Except Cause State) : Res :=
  match r with
  | .error c => .partial_ s c a
  | .ok t => .held (t.modCore n (fun c => { c with hold := some (.comb none 0) }))

/-- A Comb wait: it ends at once or holds the core (R106, R342), or takes the failure in state s. -/
def combWaited (n k : Nat) (ctx : Bool) (a : W64) (s : State) (r : Except Cause (State × Bool)) : Res :=
  match r with
  | .error c => .partial_ s c a
  | .ok (t, true) => .done (t.modCore n (fun c => { c with runAhead := [] }))
  | .ok (t, false) => .held ((t.gate n).modCore n (fun c => { c with hold := some (.wait false ctx k) }))

end Sys2Proof.Machine
end

