-- ==== Sys2Proof/Machine/Link.lean ====
section
/-! DEFINITION. Sys2Proof/Machine/Link.lean: link states (R364, R365), discovery (R366 to R369), flits, replay and credits
(R370 to R374), and what happens when a link goes down (R375). -/

namespace Sys2Proof.Machine

/-- Whether a cable is present on link l (Table 1-6): connector k carries links 8k to 8k + 7. -/
def State.cable (s : State) (l : Nat) : Bool := !s.pins.cblPrsntN.getLsbD (l / 8)

/-- LINK_n_STAT after a change of STATE and RATE, and of REASON if one is given (Table 13-12). -/
def statWord (old : W32) (st rate : Nat) (reason : Option Nat) : W32 :=
  let w := setFld (setFld old 28 4 st) 26 2 rate
  match reason with
  | some r => setFld w 23 3 r
  | none => w

/-- Requests held for a link that has gone down, in unacknowledged flits or queued (R375). -/
def Link.lost (k : Link) : List Packet :=
  ((((k.unacked.map (·.pkts)).flatten.dedup) ++ k.txq.map (·.pkt)).dedup).filter (fun p => p.class? == some 0)

/-- The other unicast packets queued whole for a link, which are routed again when it goes down (R375). -/
def Link.others (k : Link) : List Queued :=
  k.txq.filter (fun q => !isMc q.pkt && (q.pkt.class? == some 1 || q.pkt.class? == some 2))

/-- A queued packet takes another live candidate of its table entry, keeping its lane and HOP; without one it is dropped, and recorded as any packet
without a live candidate (R375, R383). Where the candidate drains for a rate change it waits (R365). -/
def State.requeue (s : State) (q : Queued) : State :=
  let s := s.readRoute (s.routeKey q.pkt.dst)
  let e := s.routeEntry q.pkt.dst
  match s.chooseLink e (s.liveCands e q.from_) q.pkt q.lane with
  | none => s.fabErr 1 q.pkt.dst
  | some l =>
    if (s.link l).draining then
      { s with inbox := s.inbox ++ [{ link := none, lane := q.lane, pkt := { q.pkt with hdr := setFld q.pkt.hdr 29 5 (q.pkt.hop + 1) } }] }
    else s.enqueue l q.lane q.pkt.hop q.from_ q.pkt

/-- A link leaves UP, REDUCED, HELD or HELLO: it forgets its flits and queue, every request it held is answered UNREACH, and what else was
queued is routed again (R375). What it needs for the next training stays: the PID and CHIP last accepted. -/
def State.dropLink (s : State) (l : Nat) : State :=
  let k := s.link l
  let s1 := s.modLink l (fun k => { Link.reset with lastPid := k.lastPid, full := k.full, later := k.later, out := k.out })
  (k.others.foldl State.requeue (k.lost.foldl State.unreach s1)).sendWaiting

/-- A link-local packet of a type with data (R378). -/
def localSpec (type : Nat) (tsf : W64) (data : List Word) : PktSpec :=
  { dst := 0, mc := false, type := type, tag := 0, pmask := 0, epoch := 0, addr := 0, stat := 0, tsf := tsf, data := data }

/-- Whether a link offers an image: its peer's HELLO says so, and it is UP, REDUCED or HELD (R394). -/
def State.offers (s : State) (l : Nat) : Bool := s.bitReg (rLkPeer l) 28 && decide (4 ≤ s.lk l) && decide (s.lk l ≤ 6)

/-- Whether an image is wanted from a neighbour: STRAP_BOOT 0b10, in Bisque (R62). -/
def State.wantsImage (s : State) : Bool := s.fldReg rStrap 8 2 == 2 && s.stage == 2

/-- Asking the first offering link not yet tried (R394). Where none offers, a HELLO that begins to offer later is asked at the next restart
(assumption log 130). -/
def State.imgStart (s : State) : State :=
  if !s.wantsImage || s.imgLink.isSome then s
  else match (List.range 96).find? (fun l => s.offers l && decide (l ∉ s.imgTried)) with
    | none => s
    | some l => { s with imgLink := some l }.sendLocal l (localSpec 0x23 0 [])

/-- A transfer fails: the next offering link is tried (R394). -/
def State.imgFail (s : State) : State :=
  match s.imgLink with
  | none => s
  | some l => { s with imgLink := none, imgTried := s.imgTried ++ [l] }.imgStart

/-- A link enters a state with no packets: DISABLED, NOCABLE, TRAIN or DOWN. One that was UP or REDUCED, unless it goes to TRAIN, or that enters DOWN
sets DOWNED and, for the reasons PG_ERR has codes for, records the cause (R375, R396); leaving UP or REDUCED for DISABLED or NOCABLE raises the
interrupt of source 0, which R396 keeps high only in DOWN. An image transfer on the link fails (R394). -/
def State.linkTo (s : State) (l st : Nat) (reason : Option Nat) : State :=
  let up := s.lkLive l
  let s1 := withIrq (.link l) (fun s => s.setReg (rLkStat l) (statWord (s.reg (rLkStat l)) st 0 reason)) s
  let s2 := if up && decide (st < 2) then s1.latchIrq (.link l) 1 else s1
  let s3 := (if st = 2 then s2 else s2.modLink l (fun k => { k with later := [] })).dropLink l
  let s4 := if st = 7 ∨ (up = true ∧ st ≠ 2) then
      let t := s3.setFldReg (rLkFlags l) 1 1 1
      match reason with
      | some r => if 1 ≤ r ∧ r ≤ 4 then t.err (.link l) r else t
      | none => t
    else s3
  if s4.imgLink = some l then s4.imgFail else s4

/-- A link enters TRAIN; the rate it trains at (R365). -/
def State.startTrain (s : State) (l : Nat) (full : Bool) : State :=
  (s.linkTo l 2 none).modLink l (fun k => { k with full := full })

/-- Where a link that becomes able to train goes: TRAIN with a cable, NOCABLE without (R364). -/
def State.linkStart (s : State) (l : Nat) : State := if s.cable l then s.startTrain l false else s.linkTo l 1 none

/-- The stage as HELLO carries it (R71, Table 13-2). -/
def State.stg (s : State) : Nat := if s.stage = 4 then 1 else if s.stage = 0xE then 2 else if s.stage = 0xF then 3 else 0

/-- Whether this module offers its image (R394). -/
def State.imgOffer (s : State) : Bool := s.glaze && s.bitReg rFabCtl 30

/-- The identity certificate (Table 17-9): FMT, LEN, PID, PART, KEY, ROOT_ID, zeros and SIG. -/
def certificate : List Byte :=
  bytesOfNat 2 1 ++ bytesOfNat 2 160 ++ bytesOfNat 8 Config.pid.toNat ++ bytesOfNat 4 0x0096A101 ++ (List.range 32).map Config.identityPublic ++
    (sha512 Config.deviceRootKey).take 8 ++ List.replicate 40 0 ++ (List.range 64).map Config.certificateSig

/-- Bytes i to i + n − 1 of the identity certificate. -/
def certBytes (i n : Nat) : List Byte := (certificate.drop i).take n

/-- An Ed25519 signature of a message under the identity key of the I/O die of a link, 64 bytes (R366, R492). -/
def State.identitySign (s : State) (iod : Nat) (msg : List Byte) : List Byte :=
  (List.range 64).map (Config.ed25519Byte (s.idKeys.getD iod []) msg)

/-- The data of a HELLO (Table 13-2) with the nonces given, signed with the identity key. -/
def State.helloData (s : State) (l : Nat) (own peer : W64) : List Word :=
  let chip : W32 := BitVec.ofNat 32 (s.chip + (if s.chip = 0 then 2 ^ 31 else 0))
  let info : W32 := BitVec.ofNat 32 (s.stg * 2 ^ 30 + (if s.bitReg rCfg 14 then 2 ^ 29 else 0) + (if s.imgOffer then 2 ^ 28 else 0) +
    (if (s.link l).offered then 2 ^ 27 else 0) + l * 2 ^ 20)
  let body := wordsOf64 Config.pid ++ wordsOf32 chip ++ wordsOf32 info ++ wordsOf64 own ++ wordsOf64 peer ++ List.replicate 16 0 ++
    wordsOfBytes ((List.range 32).map Config.identityPublic)
  body ++ wordsOfBytes (s.identitySign (l / 48) (bytesOfWords body))

/-- The first HELLO of a link, with a fresh nonce (R366). -/
def State.hello1 (s : State) (l : Nat) : State :=
  let x := Config.randomDraw s.rngCtr
  let s1 := { s with rngCtr := s.rngCtr + 1 }.modLink l (fun k => { k with nonce := x, hello2 := none, asked := true })
  s1.sendLocal l (localSpec 0x20 0 (s1.helloData l x 0))

/-- Lane lock and FEC lock: HELLO at the rate trained (R364, R366). -/
def State.linkLock (s : State) (l : Nat) : State :=
  if s.lk l ≠ 2 then s
  else
    let rate := if (s.link l).full then 2 else 1
    (s.setReg (rLkStat l) (statWord (s.reg (rLkStat l)) 3 rate none)).hello1 l

/-- A value of n words of a packet's data from word i. -/
def pktWords (p : Packet) (i n : Nat) : Nat := natOfWords ((p.data.drop i).take n)

/-- The rate offer of R365: a RATE packet offering the full rate, once bring-up has reached step 4; a module that has FAILED or HOLDs keeps the
Bisque rate (R67). -/
def State.offerRate (s : State) (l : Nat) : State :=
  if s.bitReg rSvc 19 && decide (s.stage ≠ 0xE) && decide (s.stage ≠ 0xF) && s.lkLive l && !(s.link l).full && !(s.link l).offered then
    (s.modLink l (fun k => { k with offered := true, draining := k.peerOff })).sendLocal l (localSpec 0x22 1 [])
  else s

/-- The state a link admitted takes: UP, or REDUCED at the Bisque rate in Glaze (R367, Table 13-1). -/
def State.admitLink (s : State) (l : Nat) : State :=
  let st := if !(s.link l).full && s.glaze then 5 else 4
  let s1 := withIrq (.link l) (fun s => s.setFldReg (rLkStat l) 28 4 st) s
  ((s1.modLink l (fun k => { k with txq := k.txq ++ k.later, later := [] })).pump l).offerRate l

/-- The checks of R367 on the peer's second HELLO and its certificate. -/
def State.certOk (s : State) (l : Nat) (p : Packet) : Bool :=
  match (s.link l).hello2 with
  | none => false
  | some h =>
    let hb := bytesOfWords h.data
    let cb := bytesOfWords p.data
    let key := (hb.drop 64).take 32
    Config.ed25519Verify key (hb.take 96) ((hb.drop 96).take 64) && decide (pktWords h 12 4 = (s.link l).nonce.toNat) &&
    decide ((cb.drop 4).take 8 = hb.take 8) && decide ((cb.drop 16).take 32 = key) &&
    Config.ed25519Verify Config.deviceRootKey (cb.take 96) ((cb.drop 96).take 64)

/-- Failure of a HELLO check: DOWN with reason AUTH, and AUTHF (R367, R368). -/
def State.authFail (s : State) (l : Nat) : State := (s.setFldReg (rLkFlags l) 2 1 1).linkTo l 7 (some 4)

/-- The peer's certificate completes the checks (R367, R368): LINK_n_PEER and PID take the HELLO accepted, and a link in HELLO is
held or admitted. -/
def State.certReceive (s : State) (l : Nat) (p : Packet) : State :=
  if !s.lkLocal l then s
  else if !s.certOk l p then s.authFail l
  else
    let h := ((s.link l).hello2).getD p
    let pid := BitVec.ofNat 64 (pktWords h 0 4)
    let chip := pktWords h 4 2 % 2 ^ 20
    let info := BitVec.ofNat 32 (pktWords h 6 2)
    let peer := (info &&& 0xF7F00000) ||| BitVec.ofNat 32 chip
    let id := (pid, BitVec.ofNat 20 chip)
    let changed := match (s.link l).lastPid with
      | some old => decide (old ≠ id)
      | none => false
    let s1 := ((s.setReg (rLkPeer l) peer).setReg (rLkPidLo l) (pid.truncate 32)).setReg (rLkPidHi l) (pid.extractLsb' 32 32)
    let s2 := s1.modLink l (fun k => { k with lastPid := some id, hello2 := none, asked := false })
    if s.lk l ≠ 3 then s2
    else if !s2.bitReg (rLkCtl l) 30 || changed then withIrq (.link l) (fun s => s.setFldReg (rLkStat l) 28 4 6) s2
    else s2.admitLink l

/-- A HELLO is received: the first is answered with a second that echoes its nonce, followed by the certificate; the second is kept
for the check (R366). A first HELLO that begins the peer's discovery round is met with a first HELLO of this side's own, with a fresh nonce, so that
the pair is complete (R368). -/
def State.helloReceive (s : State) (l : Nat) (p : Packet) : State :=
  if !s.lkLocal l then s
  else if pktWords p 12 4 = 0 then
    let echo := BitVec.ofNat 64 (pktWords p 8 4)
    let s := if (s.link l).asked then s else s.hello1 l
    let s1 := s.sendLocal l (localSpec 0x20 0 (s.helloData l (s.link l).nonce echo))
    s1.sendLocal l (localSpec 0x21 0 (wordsOfBytes (certBytes 0 160)))
  else s.modLink l (fun k => { k with hello2 := some p })

/-- A RATE packet offering the full rate: once both sides have offered, the link drains (R365). -/
def State.rateReceive (s : State) (l : Nat) (p : Packet) : State :=
  if !s.lkLive l || !p.tsf.getLsbD 0 then s
  else
    let s1 := (s.modLink l (fun k => { k with peerOff := true })).offerRate l
    s1.modLink l (fun k => { k with draining := k.offered })

/-- Every data flit acknowledged and nothing queued after both offers: TRAIN at the full rate (R365). Nothing is lost. -/
def State.rateDrainEnd (s : State) (l : Nat) : State :=
  let k := s.link l
  if s.lkLive l && k.draining && k.unacked.isEmpty && k.txq.isEmpty then s.startTrain l true else s

/-- No offer within 600 ms: REDUCED (R66, R365). -/
def State.rateOfferTimeout (s : State) (l : Nat) : State :=
  let k := s.link l
  if l < 96 ∧ s.lk l = 4 ∧ k.offered ∧ !k.peerOff ∧ !k.full then s.setFldReg (rLkStat l) 28 4 5 else s

/-- Loading CHIP from the address seed (R369). -/
def State.loadChip (s : State) : State :=
  let chip := s.fldReg rFabSeed 0 12 * 256 + s.fldReg rCfg 0 8
  s.setReg rFabId (BitVec.ofNat 32 (chip + (if chip = 0 then 2 ^ 31 else 0)))

/-- A discovery round (R368, R369): CHIP is loaded from the seed, and every link UP, REDUCED or HELD sends a new HELLO. -/
def State.discovery (s : State) : State :=
  (List.range 96).foldl (fun s l => if 4 ≤ s.lk l ∧ s.lk l ≤ 6 then s.hello1 l else s) s.loadChip

/-- LINK_CTL.EN written to 1 (R364). -/
def State.linkEnable (s : State) (l : Nat) : State :=
  let s1 := s.setFldReg (rLkCtl l) 31 1 1
  if s.lk l = 0 then s1.linkStart l else s1

/-- LINK_CTL.EN written to 0 (R364). -/
def State.linkDisable (s : State) (l : Nat) : State :=
  let s1 := s.setFldReg (rLkCtl l) 31 1 0
  if s.lk l = 0 then s1 else s1.linkTo l 0 (some 7)

/-- LINK_CTL.RETRAIN: to DOWN with reason RETRAIN (R364, R395). DISABLED and NOCABLE are left only as Table 13-1 states. -/
def State.linkRetrain (s : State) (l : Nat) : State := if s.lk l < 2 then s else s.linkTo l 7 (some 5)

/-- LINK_CTL.ADMIT (R364). -/
def State.linkAdmit (s : State) (l : Nat) : State := if s.lk l = 6 then s.admitLink l else s

/-! ## Flits -/

/-- One step of the reflected CRC-32 of IEEE 802.3, and the CRC of bytes (R371). -/
def crcBit (x : W32) : W32 := if x.getLsbD 0 then (x >>> 1) ^^^ 0xEDB88320 else x >>> 1
def crcByte (x : W32) (b : Byte) : W32 := Nat.repeat crcBit 8 (x ^^^ b.zeroExtend 32)
def crc32 (bs : List Byte) : W32 := ~~~(bs.foldl crcByte 0xFFFFFFFF)

/-- The words of units of 16 bytes. -/
def unitsToWords (us : List (BitVec 128)) : List Word := (us.map (fun u => wordsOfNat 8 u.toNat)).flatten

/-- The whole packets at the head of a list of received units, and the units left: a packet's header is two units, its LEN counts
the rest. A zero unit where a packet would begin is filling. -/
def parseUnits : Nat → List (BitVec 128) → List Packet × List (BitVec 128)
  | 0, us => ([], us)
  | _ + 1, [] => ([], [])
  | n + 1, u :: us =>
    if u = 0 then parseUnits n us
    else
      let k := 1 + fld u 24 5
      if us.length < k then ([], u :: us)
      else
        let (ps, r) := parseUnits n (us.drop k)
        ({ hdr := us.headD 0 ++ u, data := unitsToWords ((us.take k).drop 1) } :: ps, r)

/-- A whole packet received on a link goes to the router's or the link's receive buffer; a reserved TYPE is dropped and recorded
(R378). A routed packet on a link that is not UP or REDUCED does not pass (R364): it is dropped, and its units are owed back. -/
def State.received (s : State) (l : Nat) (p : Packet) : State :=
  match p.class? with
  | none => s.err (.link l) 5
  | some c =>
    let lane := 2 * c + p.subl
    if c < 3 && !s.lkLive l then s.modLink l (fun k => { k with owed := put 0 k.owed lane (look 0 k.owed lane + p.units) })
    else { s with inbox := s.inbox ++ [{ link := some l, lane := lane, pkt := p }] }

/-- The 256 bytes of a flit (Table 13-3, R371). -/
def Flit.bytes (f : Flit) : List Byte :=
  let cr (i : Nat) : Nat × Nat := f.cred.getD i (0, 0)
  let h := f.seq.toNat + f.ack.toNat * 2 ^ 12 + (if f.nak then 2 ^ 24 else 0) + f.ft % 8 * 2 ^ 25 + f.fpo % 16 * 2 ^ 28 +
    (cr 0).1 % 8 * 2 ^ 32 + (cr 0).2 % 1024 * 2 ^ 35 + (cr 1).1 % 8 * 2 ^ 45 + (cr 1).2 % 1024 * 2 ^ 48
  let body := bytesOfNat 12 h ++ ((List.range 15).map (fun i => bytesOfNat 16 (f.units.getD i 0).toNat)).flatten
  body ++ bytesOfNat 4 (crc32 body).toNat

/-- Removing the flits that an ACK names: those up to it (R372). -/
def ackTo (ack : BitVec 12) (fs : List DataFlit) : List DataFlit :=
  match fs.findIdx? (fun e => e.seq == ack) with
  | some i => fs.drop (i + 1)
  | none => fs

/-- Credits returned in a flit header (Table 13-3); a lane never holds more than 512. -/
def addCredit (cr : Store Nat) (lane n : Nat) : Store Nat :=
  let v := look 512 cr lane + n
  put 512 cr lane (if 512 < v then 512 else v)

/-- A flit is discarded, or breaks the sequence: a NAK goes out once, with ACK naming the last good flit (R372). -/
def Link.refuse (k : Link) : Link := if k.nakSent then k else { k.idle true with nakSent := true }

/-- A flit is received (R370 to R374). A good flit ends a run of missed windows unless data flits stay unacknowledged and its ACK does not
advance. -/
def State.flitReceive (s : State) (l : Nat) (bytes : List Byte) (fec : FecEvent) : State :=
  if !s.lkLocal l then s
  else
    let s := match fec with
      | .corrected n => s.countReg rLinkFec 0 32 n
      | _ => s
    let h := BitVec.ofNat 96 (natOfBytes (bytes.take 12))
    let good := decide (fec ≠ .uncorrectable) && decide (bytes.length = 256) &&
      decide (crc32 (bytes.take 252) = BitVec.ofNat 32 (natOfBytes (bytes.drop 252)))
    let ft := fld h 25 3
    if !good || 3 ≤ ft then s.modLink l Link.refuse
    else
      let k := s.link l
      let rest := ackTo (h.extractLsb' 12 12) k.unacked
      let cr := addCredit (addCredit k.credits (fld h 32 3) (fld h 35 10)) (fld h 45 3) (fld h 48 10)
      let moved := rest.isEmpty || decide (rest.length < k.unacked.length)
      let k1 := { k with unacked := rest, credits := cr, missed := if moved then 0 else k.missed
                         resends := if rest.length < k.unacked.length then 0 else k.resends }
      let s1 := s.modLink l (fun _ => k1)
      let nak := h.getLsbD 24 && !rest.isEmpty
      let s2 := if nak then
          let t := ((s1.countReg rLinkRpl 0 32 rest.length).setFldReg (rLkFlags l) 0 1 1).modLink l
            (fun k => rest.foldl (fun (k : Link) d => k.emit 0 false d) { k with resends := k.resends + 1 })
          if (t.link l).resends = 8 then t.linkTo l 7 (some 2) else t
        else s1
      if !s2.lkLocal l then s2
      else if ft ≠ 0 then s2.pump l
      else if h.extractLsb' 0 12 ≠ k.rxSeq then (s2.modLink l Link.refuse).pump l
      else
        let us := (List.range 15).map (fun i => BitVec.ofNat 128 (natOfBytes ((bytes.drop (12 + 16 * i)).take 16)))
        let us := if k.rxUnits = [] then us.drop (fld h 28 4) else us
        let (ps, left) := parseUnits 400 (k.rxUnits ++ us)
        let s3 := s2.modLink l (fun k => { k with rxUnits := left, rxSeq := k.rxSeq + 1, nakSent := false })
        (ps.foldl (fun s p => s.received l p) s3).pump l

/-- An idle flit: it carries ACK and up to two lanes' credits (R374, Table 13-3). -/
def State.idleFlit (s : State) (l : Nat) : State :=
  if !s.lkLocal l then s else (s.modLink l (fun k => k.idle false)).pump l

/-- A window of 2 µs is missed; the third in a row declares the link down (R374). -/
def State.windowMiss (s : State) (l : Nat) : State :=
  if !s.lkLocal l then s
  else
    let s1 := s.modLink l (fun k => { k with missed := k.missed + 1 })
    if (s1.link l).missed = 3 then s1.linkTo l 7 (some 1) else s1

end Sys2Proof.Machine
end

