-- ==== Sys2Proof/Machine/Scale.lean ====
section
/-! DEFINITION. Sys2Proof/Machine/Scale.lean: the scale table (R208 to R212), the CORE_NF flags (R213) and the loss-scale
register (R214 to R216). -/

namespace Sys2Proof.Machine

/-- A stored AMAX or history value as a roll and a comparison take it: a NaN and a negative value count as +0 (R211). -/
def storedMax (w : W32) : Num :=
  let x := fp32.decode w.toNat
  match x with
  | .nan => .fin false 0 0
  | .inf s => if s then .fin false 0 0 else x
  | .fin s _ _ => if s then .fin false 0 0 else x

/-- Whether a new non-negative value replaces a stored AMAX: it is larger, or the stored one is a NaN or negative (R211). -/
def maxTakes (old new : W32) : Bool :=
  let o := fp32.decode old.toNat
  let bad := match o with
    | .nan => true
    | .inf s => s
    | .fin s _ _ => s
  bad || (storedMax old).lt (fp32.decode new.toNat)

/-- Raising AMAX of entry e of core n to a non-negative value (R209, R212). -/
def State.scRaise (s : State) (n e : Nat) (v : W32) : State :=
  if maxTakes (s.reg (rScAmax n e)) v then s.setReg (rScAmax n e) v else s

/-- Setting NF or SATF of an entry (R209, Table 7-7). -/
def State.scNf (s : State) (n e : Nat) : State := s.setFldReg (rScCtl n e) 31 1 1
def State.scSatf (s : State) (n e : Nat) : State := s.setFldReg (rScCtl n e) 30 1 1

/-- EXP of an entry as a signed number (Table 7-7). -/
def State.scExp (s : State) (n e : Nat) : Int := signedOf 8 (s.fldReg (rScCtl n e) 0 8)

/-- Floor of the base-2 logarithm of a / b for positive a and b. -/
def ratioLog2 (a b : Nat) : Int :=
  let d : Int := (Nat.log2 a : Int) - Nat.log2 b
  let le := if 0 ≤ d then decide (b * 2 ^ d.toNat ≤ a) else decide (b ≤ a * 2 ^ (-d).toNat)
  if le then d else d - 1

/-- fmax of SC_CTL.FMT, none for a reserved value (Table 7-7). -/
def scFmax (k : Nat) : Option Nat := if k = 0 then some 448 else if k = 1 then some 57344 else if k = 2 then some 65504 else none

/-- The EXP a roll chooses from the history's maximum, if it chooses one (R211). -/
def rollExp (fmax : Option Nat) (margin : Nat) (m : Num) : Option Int :=
  match fmax, m with
  | none, _ => none
  | some _, .inf _ => some (-128)
  | some _, .nan => none
  | some f, .fin _ k e =>
    if k = 0 then none
    else
      let x := ratioLog2 f k - e - margin
      some (if x < -128 then -128 else if 127 < x then 127 else x)

/-- A roll of entry e of core n (R211). -/
def State.scRollOne (s : State) (n e : Nat) : State :=
  let h := s.reg (rScAmax n e) :: (List.range 7).map (fun k => s.reg (rScHist n e k))
  let s1 := h.zipIdx.foldl (fun s x => s.setReg (rScHist n e x.2) x.1) s
  let s2 := s1.setReg (rScAmax n e) 0
  let c := s2.reg (rScCtl n e)
  let m := (h.take (fld c 24 4)).foldl (fun (a : Num) w => if a.lt (storedMax w) then storedMax w else a) (.fin false 0 0)
  if c.getLsbD 23 then
    match rollExp (scFmax (fld c 16 4)) (fld c 20 3) m with
    | some x => s2.setFldReg (rScCtl n e) 0 8 (x % 256).toNat
    | none => s2
  else s2

/-- The rolls of one write of SCROLL, in ascending entry order (Table 7-8). -/
def State.scRoll (s : State) (n : Nat) (hi : Bool) (w : W32) : State :=
  (List.range 32).foldl (fun s i => if w.getLsbD i then s.scRollOne n (i + (if hi then 32 else 0)) else s) s

/-- A write of SC_AMAXW (R212): a NaN or an infinity sets NF, a negative value has no effect. -/
def State.scAmaxw (s : State) (n e : Nat) (v : W32) : State :=
  match fp32.decode v.toNat with
  | .nan => s.scNf n e
  | .inf _ => s.scNf n e
  | .fin neg _ _ => if neg then s else s.scRaise n e v

/-- Setting CORE_NF bits of a core (R213). -/
def State.coreNf (s : State) (n : Nat) (m : W32) : State := s.setReg (rNf n) (s.reg (rNf n) ||| m)

/-- EXP of the loss-scale register changed by a write or an armed release: a change of value clears CLEAN (R215). -/
def State.lossExp (s : State) (v : Nat) : State :=
  if s.fldReg rLsCur 0 6 = v then s else (s.setFldReg rLsCur 0 6 v).setFldReg rLsCur 16 16 0

/-- NF of the loss-scale register (R214). -/
def State.lossNf (s : State) : Bool := s.bitReg rLsCur 15

/-- The update at a step resolution (R215). -/
def State.lossUpdate (s : State) (nf : Bool) : State :=
  let pol := s.reg rLsPol
  let exp := s.fldReg rLsCur 0 6
  let clean := satAdd 16 1 (s.fldReg rLsCur 16 16)
  let s0 := s.setFldReg rLsCur 15 1 0
  if !pol.getLsbD 31 then s0
  else if nf then
    let e := if exp - 1 < fld pol 16 6 ∨ exp = 0 then fld pol 16 6 else exp - 1
    ((s0.setFldReg rLsCur 0 6 e).setFldReg rLsCur 16 16 0).countReg rLsSkip 0 32 1
  else if fld pol 0 16 ≠ 0 ∧ fld pol 0 16 ≤ clean ∧ exp < fld pol 24 6 then
    (s0.setFldReg rLsCur 0 6 (exp + 1)).setFldReg rLsCur 16 16 0
  else s0.setFldReg rLsCur 16 16 clean

/-- The loss-scale settings staged for an armed release become live (R359). -/
def State.lossLive (s : State) : State := (s.setReg rLsPol (s.reg rLsPolStg)).lossExp (s.fldReg rLsCurStg 0 6)

end Sys2Proof.Machine
end

