-- ==== Sys2Proof/Machine/Mould.lean ====
section
/-! DEFINITION. Sys2Proof/Machine/Mould.lean: snapshots and the step shadow (R308 to R312), step resolution (R437 to R442), the
device-state record and restore (R443, R447, R448). -/

namespace Sys2Proof.Machine

/-- CRC-32C over bytes in byte-address order (R443). -/
def crcCBit (x : W32) : W32 := if x.getLsbD 0 then (x >>> 1) ^^^ 0x82F63B78 else x >>> 1
def crcCByte (x : W32) (b : Byte) : W32 := Nat.repeat crcCBit 8 (x ^^^ b.zeroExtend 32)
def crc32c (bs : List Byte) : W32 := ~~~(bs.foldl crcCByte 0xFFFFFFFF)

/-- Whether every word of a run may hold tables, logs and records (R312, Table 15-8). -/
def State.runOk (s : State) (a n : Nat) : Bool := (addrs a n).all s.tableOk

/-! ## Page copies -/

/-- Capacity and base of the shadow log (R312). -/
def State.slogCap (s : State) : Nat := 2 ^ s.fldReg rSlogLo 0 5
def State.slogBase (s : State) : Nat := s.fldReg rSlogHi 0 12 * 2 ^ 32 + s.fldReg rSlogLo 13 19 * 2 ^ 13
def State.slogCnt (s : State) : Nat := s.fldReg rStep 0 25

/-- Whether the shadow log has room for one more leaf, copies in progress counted. -/
def State.slogRoom (s : State) : Bool :=
  decide (s.slogCnt + (s.copies.filter (fun c => c.shadow)).length < s.slogCap)

/-- A page copy in progress. -/
def State.startCopy (s : State) (c : PageCopy) : State := { s with copies := s.copies ++ [c] }

/-- The leaf entry by which a write that waits on a leaf was translated: one of a remote module, a Pugmill or expert dispatch, or a placed
block of a core (R308). -/
def State.waitsOn (s : State) (leaf : Nat) : Option (BitVec 128) :=
  let ofRun (r : Run) : Option (BitVec 128) := r.leaf.bind (fun x => if x.at_ = leaf ∧ s.guards x.entry then some x.entry else none)
  match s.touchWait.find? (fun w => w.1 == leaf && s.guards w.2) with
  | some w => some w.2
  | none => s.cores.findSome? (fun c => c.2.blocks.findSome? (fun b => b.dsts.findSome? ofRun))

/-- The first write to a protected page starts its copy (R309, R310); at most 8 run at once (R311). Without a translated write that waits on
the leaf nothing starts (R308), nor for a shadow page while a step command holds every access to it (R310). A shadow page for which the log is
full is not copied, and PG_ERR records SLOG_FULL. -/
def State.firstTouch (s : State) (leaf : Nat) (shadow : Bool) : State :=
  match s.waitsOn leaf with
  | none => s
  | some e =>
    if entSm e ≠ shadow || s.stepHolds e || s.copies.any (fun c => c.leaf == leaf) || 8 ≤ s.copies.length then s
    else if shadow && !s.slogRoom then s.err .mould 3
    else s.startCopy { leaf := leaf, shadow := shadow, src := entPa e, dst := entAux e, entry := e }

/-- Copying a page with its poison marks (R309). -/
def State.copyPage (s : State) (src dst : Nat) : State :=
  let s1 := s.touchAll (addrs src 65536)
  s1.writeMarked (runMarked dst (s1.readRun src 65536))

/-- A page copy completes (R309 to R311): the leaf is updated, and invalidated in every TLB. It waits for the host's lines (R470). Where memory no
longer holds the entry by which the page was copied, only the accesses that use that entry see the change (R307). -/
def State.copyDone (s : State) (leaf : Nat) : State :=
  match s.copies.find? (fun c => c.leaf == leaf) with
  | none => s
  | some c =>
    let held (l : Nat) : Bool := inRun c.src 65536 l || inRun c.dst 65536 l || inRun leaf 8 l ||
      (c.shadow && inRun (s.slogBase + 4 * s.slogCnt) 4 l)
    if s.biHeld held then s.biAsk held else
    let s1 := { s with copies := s.copies.filter (fun x => x.leaf ≠ leaf) }.copyPage c.src c.dst
    let s2 := s1.touchEntry leaf
    let f (e : BitVec 128) : BitVec 128 := if c.shadow then setBit e 57 true else setFld e 112 16 (s1.fldReg rSnap 0 16)
    if s2.entryAt leaf ≠ c.entry then s2.mouldStale leaf c.entry f
    else if c.shadow then
      let s3 := s1.mouldEntry leaf f
      let s4 := s3.writeRun (s3.slogBase + 4 * s3.slogCnt) (wordsOf64 (BitVec.ofNat 64 leaf))
      s4.setFldReg rStep 0 25 (s4.slogCnt + 1)
    else s1.mouldEntry leaf f

/-- Whether an entry names a table that can be read (R302, R303). -/
def State.namesTable (s : State) (e : BitVec 128) : Bool :=
  e.getLsbD 63 && !e.getLsbD 62 && fld e 108 4 == 0 && fld e 44 13 == 0 && entPa e % 4096 == 0 && tableTier (entPa e) && s.tableOk (entPa e)

/-- The entries of the tables that entries name. -/
def State.tableEntries (s : State) (l : List Nat) : List Nat :=
  (l.filter (fun a => s.namesTable (s.entryAt a))).flatMap (fun a => (List.range 512).map (fun i => entPa (s.entryAt a) + 8 * i))

/-- The entries of the job tables at each level. -/
def State.jobEntries (s : State) : List Nat × List Nat × List Nat :=
  let l1 := if tableTier s.jroot && s.tableOk s.jroot then (List.range 1024).map (fun i => s.jroot + 8 * i) else []
  let l2 := s.tableEntries l1
  (l1, l2, s.tableEntries l2)

/-- Leaf entries of the job tables that map a snapshot page still protected (R309). -/
def State.jobSnapLeaves (s : State) : List Nat :=
  s.jobEntries.2.2.filter (fun a => let e := s.entryAt a
    e.getLsbD 63 && e.getLsbD 62 && fld e 108 4 == 0 && fld e 44 13 == 0 && leafOk e false && entPr e && !entSm e && s.protects a)

/-- Every entry that a sweep reads. -/
def State.sweepReads (s : State) : List Nat := let l := s.jobEntries; l.1 ++ l.2.1 ++ l.2.2

/-- The words of the device-state record (Table 15-4). -/
def State.deviceRecord (s : State) (sgen : Nat) : List Word :=
  let r (off : Nat) : List Word := wordsOf32 (s.reg off)
  let head := r rStepn ++ wordsOf32 (BitVec.ofNat 32 sgen) ++ r rLsPol ++ wordsOf32 (setBit (s.reg rLsCur) 15 false) ++ r rLsSkip ++
    r rLsPolStg ++ r rLsCurStg ++ List.replicate 50 0
  let entry (n e : Nat) : List Word := r (rScCtl n e) ++ r (rScAmax n e) ++ ((List.range 8).map (fun k => r (rScHist n e k))).flatten
  let cores := ((List.range 192).map (fun n => ((List.range 64).map (fun e => entry n e)).flatten)).flatten
  let body := head ++ cores ++ List.replicate 16318 0
  body ++ wordsOf32 (crc32c (bytesOfWords body))

/-- The device-state record area (Table 15-8). -/
def State.drecBase (s : State) : Nat := s.fldReg rDrecHi 0 12 * 2 ^ 32 + s.fldReg rDrecLo 19 13 * 2 ^ 19

/-- The device-state record that a TAKE writes, once no line of it waits for the host's answer (R443, R470). -/
def State.drecWrite (s : State) : State :=
  match s.drecWait with
  | none => s
  | some (a, ws) => if s.biHeld (inRun a ws.length) then s.biAsk (inRun a ws.length) else { s.writeRun a ws with drecWait := none }

/-- MOULD_SNAP.TAKE (R309, R443). -/
def State.take (s : State) : State :=
  if s.bitReg rSnap 30 then s.err .mould 1
  else
    let g := (s.fldReg rSnap 0 16 + 1) % 65536
    let base := s.drecBase + 262144 * (g % 2)
    let s1 : State := if s.bitReg rDrecLo 0 ∧ s.runOk base 262144 then { s with drecWait := some (base, s.deviceRecord g) }.drecWrite else s
    let s2 := withIrq .mould (fun s => (s.setFldReg rSnap 0 16 g).setFldReg rSnap 30 1 1) s1
    if s.bitReg rJrootLo 0 || s2.drecWait.isSome then s2 else withIrq .mould (fun s => s.setFldReg rSnap 30 1 0) s2

/-- One page of the sweep (R309): a copy that the host's lines hold up stays in progress (R470). -/
def State.sweepPage (s : State) (a : Nat) : State :=
  if 8 ≤ s.copies.length then s
  else (s.startCopy { leaf := a, shadow := false, src := entPa (s.entryAt a), dst := entAux (s.entryAt a), entry := s.entryAt a }).copyDone a

/-- The sweep ends: every snapshot page of the job tables still protected is copied in the same way, and BUSY clears once none is left
(R309). It waits for the copies in progress, for the device-state record, and for the host's lines (R443, R470). -/
def State.sweepEnd (s : State) : State :=
  if !s.bitReg rSnap 30 || s.copies.any (fun c => !c.shadow) then s
  else
    let s0 := s.drecWrite
    if s0.drecWait.isSome then s0
    else if s0.bitReg rJrootLo 0 && s0.biHeld (inList s0.sweepReads) then s0.biAsk (inList s0.sweepReads)
    else
      let s1 : State := if s0.bitReg rJrootLo 0 then
          let t := s0.sweepReads.foldl State.touchEntry s0
          t.jobSnapLeaves.foldl State.sweepPage t
        else s0
      if s1.copies.any (fun c => !c.shadow) || (s1.bitReg rJrootLo 0 && !s1.jobSnapLeaves.isEmpty) then s1 else withIrq .mould (fun s => s.setFldReg rSnap 30 1 0) s1

/-! ## Step commands and resolution -/

/-- Starting COMMIT or ROLLBACK (R310). -/
def State.stepStart (s : State) (commit : Bool) : State :=
  withIrq .mould (fun s => { s.setFldReg rStep 29 1 1 with stepCmd := some commit }) s

/-- A step command written by hand (R310). -/
def State.stepCommand (s : State) (commit : Bool) : State := if s.bitReg rStep 29 then s.err .mould 2 else s.stepStart commit

/-- What a step command does to one logged leaf (R310, R503). -/
def State.stepLeaf (s : State) (commit : Bool) (i : Nat) : State :=
  let a := s.slogBase + 4 * i
  let s := s.touch a
  if s.poisoned a then s.err .mould 5
  else
    s.mouldEntry (natOfWords (s.words a 4)) (fun e =>
      setBit (if commit then setFld (setFld e 0 44 (entAux e)) 64 44 (entPa e) else e) 57 false)

/-- The end of a step command: the log is processed, the count and PSN clear, and BUSY clears (R310). -/
def State.stepFinish (s : State) : State :=
  match s.stepCmd with
  | none => s
  | some commit =>
    let s1 := (List.range s.slogCnt).foldl (fun s i => s.stepLeaf commit i) s
    withIrq .mould (fun s => { ((s.setFldReg rStep 0 25 0).setFldReg rStep 28 1 0).setFldReg rStep 29 1 0 with stepCmd := none }) s1

/-- The words of the log and of its leaves that a step command reads and writes. -/
def State.stepReads (s : State) : List Nat :=
  if s.stepCmd.isNone then []
  else (List.range s.slogCnt).flatMap (fun i => let a := s.slogBase + 4 * i; [a, natOfWords (s.words a 4)])

/-- PSN, CF and REFUSE as a completed generation or a write of MOULD_SRSV captures them (Table 15-8). -/
def State.stepBits (s : State) : BitVec 3 :=
  BitVec.ofNat 3 ((if s.bitReg rStep 28 then 4 else 0) + (if s.bitReg rSctl 29 then 2 else 0) + (if s.bitReg rSctl 30 then 1 else 0))

/-- This module's own refusal (R439): REFUSE, PSN, CF and NF. -/
def State.ownRefuse (s : State) : Bool := s.bitReg rSctl 30 || s.bitReg rStep 28 || s.bitReg rSctl 29 || s.lossNf

/-- The outcome of a resolution, fixed at the release or by the write: 1 COMMIT, 2 SKIP, 3 REFUSED, 4 ABANDONED (R440, R441, Table 15-8). -/
def Resolving.outcome (r : Resolving) : Nat :=
  match r.ctx with
  | none => r.op
  | some _ => if r.nf then 2 else if r.refuse then 3 else 1

/-- The job context record's address (Table 15-8). -/
def State.jctxBase (s : State) : Nat := s.fldReg rJctxHi 0 12 * 2 ^ 32 + s.fldReg rJctxLo 6 26 * 2 ^ 6

/-- Words 0 to 15 of the job context record (Table 15-3). -/
def State.jctxWords (s : State) (cnt : Nat) : List Word :=
  wordsOf32 (s.reg rStepn) ++ wordsOf32 (s.reg rSlast) ++ wordsOf64 s.stepCyc ++ wordsOf32 (BitVec.ofNat 32 cnt) ++
  wordsOf32 (BitVec.ofNat 32 (s.fldReg rSnap 0 16)) ++ List.replicate 4 0

/-- Whether a resolution writes the job context record (R440). -/
def State.jctxOn (s : State) : Bool := s.bitReg rJctxLo 0 && s.runOk s.jctxBase 16

/-- Whether a resolution waits: for MOULD_STEP.BUSY, behind others, or for a host's line of the job context record (R440, R470). -/
def State.jctxHeld (s : State) : Bool := s.jctxOn && s.biHeld (inRun s.jctxBase 16)
def State.resolveWaits (s : State) : Bool := s.bitReg rStep 29 || !s.resolving.isEmpty || s.jctxHeld

/-- A resolution that waits. -/
def State.awaitResolve (s : State) (r : Resolving) : State :=
  let t := if s.jctxHeld then s.biAsk (inRun s.jctxBase 16) else s
  { t with resolving := t.resolving ++ [r] }

/-- resolve (R440): the command is written, the loss-scale register is updated, STEPN advances, and SLAST and the job context
record are written. It runs only while MOULD_STEP.BUSY is 0. -/
def State.resolve (s : State) (r : Resolving) : State :=
  let out := r.outcome
  let cnt := s.slogCnt
  let s1 := s.stepStart (out == 1)
  let s2 := if out = 4 then s1.setFldReg rLsCur 15 1 0 else s1.lossUpdate (out == 2)
  let s3 := if out = 1 ∨ out = 2 then s2.setReg rStepn (s2.reg rStepn + 1) else s2
  let last := out * 2 ^ 29 + (if r.nf then 2 ^ 28 else 0) + r.bits.toNat * 2 ^ 25 + (if r.refuse then 2 ^ 24 else 0)
  let s4 := s3.setReg rSlast (BitVec.ofNat 32 last)
  let s5 := if s4.jctxOn then s4.writeRun s4.jctxBase (s4.jctxWords cnt) else s4
  { (s5.setFldReg rSctl 30 1 0).setFldReg rSctl 29 1 0 with stepCyc := 0 }

/-! ## Restore -/

/-- The restore record's address (Table 15-8). -/
def State.rrecBase (s : State) : Nat := s.fldReg rRrecHi 0 12 * 2 ^ 32 + s.fldReg rRrecLo 5 27 * 2 ^ 5

/-- A 32-bit field of a record at a word offset. -/
def rec32 (ws : List Word) (i : Nat) : W32 := BitVec.ofNat 32 (natOfWords ((ws.drop i).take 2))

/-- Whether a list of words is all zero. -/
def allZero (ws : List Word) : Bool := ws.all (fun w => w == 0)

/-- The checks of R448 in order: the STATUS code of the first that fails, or the two records. -/
def State.restoreCheck (s : State) : Except Nat (List Word × List Word) :=
  if s.bitReg rSctl 31 || s.bitReg rSnap 30 || s.bitReg rStep 29 then .error 3
  else if !s.bitReg rJctxLo 0 then .error 6
  else if !s.runOk s.rrecBase 32 then .error 5
  else
    let rr := s.words s.rrecBase 32
    let d := natOfWords ((rr.drop 4).take 4)
    if !s.runOk d 262144 then .error 5
    else if s.anyMark s.rrecBase 32 || s.anyMark d 262144 then .error 4
    else
      let dr := s.words d 262144
      let okR := decide (rec32 rr 0 = 0x5C0E0020) && allZero ((rr.drop 24).take 6) &&
        decide (rec32 rr 30 = crc32c (bytesOfWords (rr.take 30)))
      let okD := allZero ((dr.drop 14).take 50) && allZero ((dr.drop 245824).take 16318) &&
        decide (rec32 dr 262142 = crc32c (bytesOfWords (dr.take 262142)))
      if !okR || !okD then .error 2
      else
        let n := rec32 rr 2
        if rec32 rr 8 ≠ n ∨ rec32 rr 14 ≠ n ∨ rec32 dr 0 ≠ n then .error 1 else .ok (rr, dr)

/-- Whether a restore reads its records: the checks before have passed (R448). -/
def State.restoreReads (s : State) : Bool :=
  !(s.bitReg rSctl 31 || s.bitReg rSnap 30 || s.bitReg rStep 29 || !s.bitReg rJctxLo 0 || !s.runOk s.rrecBase 32)

/-- The lines of the words that a restore reads and writes. -/
def State.restoreLines (s : State) (l : Nat) : Bool :=
  inRun s.rrecBase 32 l || inRun (natOfWords (s.words (s.rrecBase + 4) 4)) 262144 l || inRun (s.jctxBase + 16) 16 l

/-- What reading the two records does to the codewords they lie in (R448, R496). -/
def State.restoreRead (s : State) : State :=
  let cws (a k : Nat) : List Nat := (List.range k).map (fun i => a + 4 * i)
  if !s.restoreReads then s
  else
    let t := s.touchAll (cws s.rrecBase 8)
    let d := natOfWords ((t.words (t.rrecBase + 4) 4))
    if t.runOk d 262144 then t.touchAll (cws d 65536) else t

/-- The RWS fields, NF and SATF of SC_CTL (Table 7-7). -/
def scCtlMask : W32 := 0xCFFF00FF

/-- Applying the records (R448): reserved bits stay zero (R20). A reserved HLEN, FMT, MAX, MIN or EXP in a record whose CRC is valid is restored as it
stands, as the record shows what the register held (R21; assumption log 151). -/
def State.restoreApply (s : State) (rr dr : List Word) : State :=
  let entry (s : State) (n e : Nat) : State :=
    let o := 64 + 1280 * n + 20 * e
    let s1 := (s.setReg (rScCtl n e) (rec32 dr o &&& scCtlMask)).setReg (rScAmax n e) (rec32 dr (o + 2))
    (List.range 8).foldl (fun s k => s.setReg (rScHist n e k) (rec32 dr (o + 4 + 2 * k))) s1
  let s1 := (List.range 192).foldl (fun s n => (List.range 64).foldl (fun s e => entry s n e) s) s
  let s2 := (((s1.setReg rLsPol (rec32 dr 4 &&& 0xBF3FFFFF)).setReg rLsCur (rec32 dr 6 &&& 0xFFFF003F)).setReg rLsSkip (rec32 dr 8))
  let s3 := (s2.setReg rLsPolStg (rec32 dr 10 &&& 0xBF3FFFFF)).setReg rLsCurStg (rec32 dr 12 &&& 0x3F)
  let s4 := (s3.setReg rStepn (rec32 rr 2)).setFldReg rSlast 29 3 0
  if s4.runOk (s4.jctxBase + 16) 16 then s4.writeRun (s4.jctxBase + 16) ((rr.drop 8).take 16) else s4

/-- The checks of a restore and its records (R448): a failed check changes nothing except STATUS; on success the records are applied, and BUSY
stays until RESTORE_COMPLETE. A line that the host holds is awaited first, with BUSY set (R470). -/
def State.restoreRun (s : State) : State :=
  if s.restoreReads && s.biHeld s.restoreLines then { (s.biAsk s.restoreLines).setFldReg rRcmd 30 1 1 with restWait := true }
  else match s.restoreRead.restoreCheck with
    | .error k => s.restoreRead.setFldReg rRcmd 20 4 k
    | .ok (rr, dr) => (s.restoreRead.restoreApply rr dr).setFldReg rRcmd 30 1 1

/-- MOULD_RCMD.GO (R448, R456). -/
def State.restoreGo (s : State) : State := if s.bitReg rRcmd 30 then s else s.restoreRun

/-- The Mould finishes the restore: STATUS OK, and BUSY clears (R448). One that waited for the host's lines is tried again. -/
def State.restoreDone (s : State) : State :=
  if !s.bitReg rRcmd 30 then s
  else if s.restWait then ({ s with restWait := false }.setFldReg rRcmd 30 1 0).restoreRun
  else (s.setFldReg rRcmd 20 4 0).setFldReg rRcmd 30 1 0

end Sys2Proof.Machine
end

