-- ==== Sys2Proof/Machine/JobMem.lean ====
section
/-! DEFINITION. Sys2Proof/Machine/JobMem.lean: accesses that the job tables translate (R301): remote reads and writes, and the
Pugmill's and the Swarm's own. -/

namespace Sys2Proof.Machine

/-- The outcome of an access: done, held while a page copy, a step command or a back-invalidate snoop runs (R309, R310, R470), or refused by a cause at an
address (R304). -/
inductive Out (α : Type) where
  | ok (s : State) (v : α) | wait (s : State) | bad (s : State) (c : Cause) (a : Nat)

/-- The physical places of words with the leaves used, or the first failure with its address. -/
def State.jobPlaces (s : State) (write sup : Bool) : List Nat → State × Except (Cause × Nat) (List (Nat × Option TlbEntry))
  | [] => (s, .ok [])
  | a :: r =>
    match s.jobXlate a write sup with
    | (t, .error c) => (t, .error (c, a))
    | (t, .ok (p, e)) =>
      match t.jobPlaces write sup r with
      | (u, .error x) => (u, .error x)
      | (u, .ok l) => (u, .ok ((p, e) :: l))

/-- JOB_FAULT records a failed job translation (Table 10-11): an access whose local part is physical makes none (R301). -/
def State.jobFault (s : State) (sup : Bool) : State := if sup || !s.bitReg rJrootLo 0 then s else s.err .mould 4

/-- The leaves used, once each. -/
def leavesOf (l : List (Nat × Option TlbEntry)) : List TlbEntry := (l.filterMap (fun x => x.2)).dedup

/-- Reading n words through the job tables, with their marks. -/
def State.jobRead (s : State) (a n : Nat) (sup : Bool) : Out (List (Word × Bool)) :=
  let w := s.jobReads sup (addrs a n)
  if s.biHeld (inList w) then .wait (s.biAsk (inList w)) else
  match (s.jobFresh sup (addrs a n)).jobPlaces false sup (addrs a n) with
  | (t, .error (c, x)) => .bad t c x
  | (t, .ok l) =>
    if t.biHeld (inList (l.map (·.1))) then .wait (t.biAsk (inList (l.map (·.1))))
    else if (leavesOf l).any (fun e => t.stepHolds e.entry) then .wait t
    else
      let u := t.touchAll (l.map (·.1))
      .ok u (l.map (fun p => (u.word p.1, u.poisoned p.1)))

/-- Whether a first write of a shadow page finds the log full (R310). -/
def State.logFull (s : State) (leaf : Nat) (e : BitVec 128) : Bool :=
  s.guards e && entSm e && !s.copies.any (fun c => c.leaf == leaf) && !s.slogRoom

/-- A write waits on protected pages: the Mould copies them (R308). -/
def State.awaitCopies (s : State) (l : List TlbEntry) : State :=
  { s with touchWait := (s.touchWait ++ (l.filter (fun e => s.guards e.entry)).map (fun e => (e.leaf, e.entry))).dedup }

/-- A write through some leaves is over: none of it waits for their pages any more. -/
def State.endWaits (s : State) (l : List TlbEntry) : State :=
  { s with touchWait := s.touchWait.filter (fun w => !l.any (fun e => e.leaf == w.1)) }

/-- Writing words with marks through the job tables: a write holds while a step command runs, and one into a protected page waits for its copy; a
marked word into a page with PR = 1 sets MOULD_STEP.PSN (R308 to R312). -/
def State.jobWrite (s : State) (sup : Bool) (ws : List (Nat × Word × Bool)) : Out Unit :=
  let w := s.jobReads sup (ws.map (·.1))
  if s.biHeld (inList w) then .wait (s.biAsk (inList w)) else
  match (s.jobFresh sup (ws.map (·.1))).jobPlaces true sup (ws.map (·.1)) with
  | (t, .error (c, x)) => .bad t c x
  | (t, .ok l) =>
    if (leavesOf l).any (fun x => t.stepHolds x.entry) then .wait t else
    match (l.zip ws).find? (fun e => e.1.2.any (fun x => t.logFull x.leaf x.entry)) with
    | some e => .bad ((t.endWaits (leavesOf l)).err .mould 3) .protection e.2.1
    | none =>
    if t.biHeld (inList (l.map (·.1))) then .wait (t.biAsk (inList (l.map (·.1))))
    else if (leavesOf l).any (fun x => t.guards x.entry) then .wait (t.awaitCopies (leavesOf l))
    else
      let psn := (l.zip ws).any (fun e => e.2.2.2 && e.1.2.any (fun x => entPr x.entry))
      let u := (t.endWaits (leavesOf l)).writeMarked ((l.zip ws).map (fun e => (e.1.1, e.2.2)))
      .ok (if psn then u.setFldReg rStep 28 1 1 else u) ()

end Sys2Proof.Machine
end

