-- ==== Sys2Proof/Machine/Pugmill.lean ====
section
/-! DEFINITION. Sys2Proof/Machine/Pugmill.lean: reduction jobs (R398 to R402), the leaf stage (R403 to R406), wire values and
packets (R407 to R410), the canonical tree (R411 to R414), checksums (R415 to R418), results (R420 to R422), epochs and staging
(R423, R424) and node slots (R426). -/

namespace Sys2Proof

open Sys2Proof.Machine (fld)

/-- Fields of a reduction packet (Table 14-2). -/
def Packet.rNode (p : Packet) : Nat := fld p.hdr 64 20
def Packet.rNf (p : Packet) : Bool := p.hdr.getLsbD 84
def Packet.rCf (p : Packet) : Bool := p.hdr.getLsbD 85
def Packet.rRp (p : Packet) : Bool := p.hdr.getLsbD 86
def Packet.rForm (p : Packet) : Bool := p.hdr.getLsbD 87
def Packet.rCnt (p : Packet) : Nat := fld p.hdr 88 7
def Packet.rJob (p : Packet) : Nat := fld p.hdr 128 12
def Packet.rTile (p : Packet) : Nat := fld p.hdr 140 16
def Packet.rPkt (p : Packet) : Nat := fld p.hdr 156 5
def Packet.rPs (p : Packet) : Int := Sys2Proof.Machine.signedOf 8 (fld p.hdr 184 8)

end Sys2Proof

namespace Sys2Proof.Machine

/-! ## The job table -/

/-- Reset values of JE0 to JE13 (Table 14-1). -/
def jeReset (i : Nat) : W32 := if i = 4 then 0x1FE00014 else 0

/-- A job after cold reset. -/
def Job.reset : Job :=
  { live := [], staged := [], fixed := [], nodes := [], leafPar := [], leafBusy := [], nodePar := [], dlvPar := [], held := [],
    dlv := [], dlvCf := [], dlvNf := [], dlvBad := [], mid := [], und := false, mark := false, wr := 0 }

/-- Job j. -/
def State.job (s : State) (j : Nat) : Job := look Job.reset s.jobs j

/-- The state with job j changed. -/
def State.modJob (s : State) (j : Nat) (f : Job → Job) : State := { s with jobs := put Job.reset s.jobs j (f (s.job j)) }

/-- JEi of a job: the live mode words and the fixed ones. -/
def Job.je (q : Job) (i : Nat) : W32 := if i < 4 then look 0 q.live i else look (jeReset i) q.fixed i

/-- Fields of a job (Table 14-1). -/
def Job.open_ (q : Job) : Bool := (q.je 4).getLsbD 31
def Job.lst (q : Job) : Bool := (q.je 0).getLsbD 31
def Job.res (q : Job) : Bool := (q.je 0).getLsbD 30
def Job.wire (q : Job) : Bool := (q.je 0).getLsbD 29
def Job.think (q : Job) : Nat := fld (q.je 0) 26 3
def Job.leavesPer (q : Job) : Nat := 2 ^ fld (q.je 0) 24 2
def Job.leaves (q : Job) : Nat := (fld (q.je 1) 0 17 + 1) * q.leavesPer
def Job.rank (q : Job) : Nat :=
  if fld (q.je 2) 0 17 ≤ fld (q.je 1) 0 17 then fld (q.je 2) 0 17 else Config.wildRank (fld (q.je 2) 0 17) (fld (q.je 1) 0 17)
def Job.mcg (q : Job) : Nat := fld (q.je 3) 0 16
def Job.dmode (q : Job) : Nat := fld (q.je 4) 29 2
def Job.fcore (q : Job) : Nat := fld (q.je 4) 21 8
def Job.rsem (q : Job) : Nat := fld (q.je 5) 16 16
def Job.ntile (q : Job) : Nat := fld (q.je 5) 0 16
def Job.rmap (q : Job) : Nat := fld (q.je 7) 0 12 * 2 ^ 32 + fld (q.je 6) 1 31 * 2
def Job.resb (q : Job) : Nat := fld (q.je 9) 0 12 * 2 ^ 32 + fld (q.je 8) 11 21 * 2 ^ 11
def Job.rbuf (q : Job) : Nat := fld (q.je 11) 0 12 * 2 ^ 32 + fld (q.je 10) 11 21 * 2 ^ 11
def Job.ctx (q : Job) : Nat := fld (q.je 12) 0 6

/-- The page of the Pugmill that serves a job (R398). -/
def jobPage (j : Nat) : Page := .pugmill (if j < 2048 then 0 else 1)

/-- Recording an error of a job in PG_ERR and ERRJOB (Tables 14-7, 14-8). -/
def State.jobErr (s : State) (j code : Nat) : State :=
  s.errWith (jobPage j) code (fun t => t.setReg (rErrjob (if j < 2048 then 0 else 1)) (BitVec.ofNat 32 (j % 4096)))

/-- Setting sticky bits of JE13. -/
def State.jobSticky (s : State) (j : Nat) (m : W32) : State :=
  s.modJob j (fun q => { q with fixed := put 0 q.fixed 13 (look 0 q.fixed 13 ||| m) })

/-- A failed access of a job: XF, XLATE, and JOB_FAULT of the MOULD page (R422). -/
def State.jobXf (s : State) (j : Nat) : State := ((s.jobSticky j 0x10000000).jobErr j 9).jobFault false

/-- Node state, held packets and delivery progress discarded; parities at 0 (R400). -/
def Job.clear (q : Job) : Job :=
  { q with nodes := [], leafPar := [], leafBusy := [], nodePar := [], dlvPar := [], held := [], dlv := [], dlvCf := [], dlvNf := [],
           dlvBad := [], mid := [], und := false }

/-- The bits of JE0 to JE13 that a write can set (Table 14-1); EN and the W1C flags are apart. -/
def jeMask (i : Nat) : W32 :=
  if i = 0 then 0xFF000000 else if i = 1 ∨ i = 2 then 0x1FFFF else if i = 3 then 0xFFFF else if i = 4 then 0x7FE1FFFF
  else if i = 5 then 0xFFFFFFFF else if i = 6 then 0xFFFFFFFE else if i = 7 ∨ i = 9 ∨ i = 11 then 0xFFF
  else if i = 8 ∨ i = 10 then 0xFFFFF800 else if i = 12 then 0x3F else 0

/-- A live mode word of a job takes a free value. -/
def State.freeMode (s : State) (j i : Nat) : State :=
  let (x, t) := s.free
  t.modJob j (fun q => { q with live := put 0 q.live i (x.truncate 32 &&& jeMask i) })

/-- The job's reduction results and mode state become undefined (R360): the live mode words are free values, its results will be, and the inputs its
nodes hold are given up, so that no adder combines packets of two epochs (R424). -/
def State.jobUnd (s : State) (j : Nat) : State :=
  ((List.range 4).foldl (fun (s : State) i => s.freeMode j i) s).modJob j (fun q =>
    { q with nodes := [], leafBusy := [], mid := [], und := true })

/-- Whether a round of the job is under way here: a node holds an input, a leaf has contributed, or part of a result has been delivered. -/
def Job.midRound (q : Job) : Bool := !q.nodes.isEmpty || !q.mid.isEmpty || !q.dlv.isEmpty

/-- The epoch of a job's context changes: a round that has not ended leaves the job undefined (R360). -/
def State.newEpoch (s : State) (j : Nat) : State := if (s.job j).midRound then s.jobUnd j else s

/-- CLOSE: EN clears, node state and staged packets go (R400). -/
def State.jobClose (s : State) (j : Nat) : State :=
  s.modJob j (fun q => { q.clear with fixed := put (jeReset 4) q.fixed 4 (setBit (q.je 4) 31 false) })

/-- OPEN (R400). -/
def State.jobOpen (s : State) (j : Nat) : State :=
  let q := s.job j
  if !s.glaze then s.jobErr j 1
  else if 65536 < q.ntile * q.leavesPer then s.jobErr j 4
  else s.modJob j (fun q => { q.clear with fixed := put (jeReset 4) q.fixed 4 (setBit (q.je 4) 31 true) })

/-! ## Wire values -/

/-- The wire format: BF16, or FP16 (Table 14-1). -/
def wireFmt (h : Bool) : Fmt := if h then fp16 else bf16

/-- The largest finite magnitude of a list. -/
def maxFinite (xs : List Num) : Num :=
  xs.foldl (fun m x => if x.isFin && m.lt x.abs then x.abs else m) (.fin false 0 0)

/-- PS of an FP16 packet (R408). -/
def packetScale (xs : List Num) : Int :=
  match maxFinite xs with
  | .fin _ 0 _ => 0
  | m => let k := m.flog2 - 14; if k < -128 then -128 else if 127 < k then 127 else k

/-- w() over the elements of a packet: the wire codes and PS; every zero is +0 (R408). -/
def toWire (h : Bool) (xs : List Num) : List Nat × Int :=
  let f := wireFmt h
  let ps := if h then packetScale xs else 0
  (xs.map (fun x =>
    let c := (f.convert false (x.scale (-ps))).1
    if f.mag c = 0 then 0 else c), ps)

/-- The value of a wire code (R407). -/
def wireVal (h : Bool) (ps : Int) (c : Nat) : Num := ((wireFmt h).decode c).scale ps

/-- Whether a wire code is an infinity or a NaN. -/
def wireNf (h : Bool) (c : Nat) : Bool := decide ((wireFmt h).top ≤ (wireFmt h).mag c)

/-- CE: the largest exponent field among finite non-zero values (R415). -/
def wireCe (h : Bool) (cs : List Nat) : Nat :=
  cs.foldl (fun m c =>
    let e := (wireFmt h).mag c / 2 ^ (wireFmt h).mb
    if wireNf h c || (wireFmt h).mag c == 0 || decide (e ≤ m) then m else e) 0

/-- u of R415. -/
def wireU (h : Bool) (ce : Nat) : Int := (if ce = 0 then 1 else ce : Nat) - (wireFmt h).bias

/-- A finite value times 2^k, truncated toward zero. -/
def truncScaled (x : Num) (k : Int) : Int :=
  match x with
  | .fin s m e =>
    let t : Nat := if 0 ≤ e + k then m * 2 ^ (e + k).toNat else m / 2 ^ (-(e + k)).toNat
    if s then -(t : Int) else t
  | _ => 0

/-- CSUM (R415); a value of zero adds nothing, so listed values and all values give one sum. -/
def wireCsum (h : Bool) (cs : List Nat) : W64 :=
  let u := wireU h (wireCe h cs)
  BitVec.ofInt 64 (cs.foldl (fun a c => a + truncScaled ((wireFmt h).decode c) (54 - u)) 0)

/-- What the header of a reduction packet names beside its values. -/
structure RedHead where
  node : Nat
  nf   : Bool
  cf   : Bool
  rp   : Bool
  job  : Nat
  tile : Nat
  pkt  : Nat
deriving DecidableEq, Repr

/-- Words 0 on of a thinned packet: the values, then their positions two to a word (R409). -/
def thinWords (cs : List Nat) : List Word :=
  let nz := cs.zipIdx.filter (fun e => decide (e.1 ≠ 0))
  let vals := nz.map (fun e => BitVec.ofNat 16 e.1)
  let pos := nz.map (fun e => e.2)
  vals ++ (List.range ((pos.length + 1) / 2)).map (fun i =>
    BitVec.ofNat 16 (pos.getD (2 * i) 0 + 256 * pos.getD (2 * i + 1) 0))

/-- A reduction packet of 128 wire codes (R409, R410): type, destination, epoch, PS and PMASK. -/
def redSpec (h : Bool) (type dst : Nat) (epoch : Nat) (hd : RedHead) (cs : List Nat) (ps : Int) (pm : Nat) : PktSpec :=
  let c := (cs.filter (fun v => decide (v ≠ 0))).length
  let thin := pm == 0 && decide (c ≤ 64)
  let b (x : Bool) (i : Nat) : Nat := if x then 2 ^ i else 0
  { dst := dst, mc := false, type := type, pmask := pm, epoch := epoch, stat := 0, tsf := wireCsum h cs,
    tag := hd.node + b hd.nf 20 + b hd.cf 21 + b hd.rp 22 + b thin 23 + (if thin then c else 0) * 2 ^ 24,
    addr := hd.job + hd.tile * 2 ^ 12 + hd.pkt * 2 ^ 28 + wireCe h cs * 2 ^ 48 + (ps % 256).toNat * 2 ^ 56,
    data := if thin then thinWords cs else cs.map (fun v => BitVec.ofNat 16 v) }

/-- The 128 wire codes of a packet, a thinned one expanded (R409). -/
def Packet.codes (p : Packet) : List Nat :=
  if p.rForm then
    let c := p.rCnt
    let pos (i : Nat) : Nat := fld (p.data.getD (c + i / 2) 0) (8 * (i % 2)) 7
    (List.range 128).map (fun e => match (List.range c).find? (fun i => pos i == e) with
      | some i => (p.data.getD i 0).toNat
      | none => 0)
  else (List.range 128).map (fun e => (p.data.getD e 0).toNat)

/-- The element values of a packet. -/
def Packet.values (p : Packet) (h : Bool) : List Num := (Packet.codes p).map (wireVal h p.rPs)

/-- The hop check (R416). -/
def Packet.hopOk (p : Packet) (h : Bool) : Bool := wireCsum h (Packet.codes p) == p.tsf

/-- A packet with CF set (R418). -/
def Packet.failed (p : Packet) : Packet := { p with hdr := setBit p.hdr 85 true }

/-- val of a packet: its checksum in element terms, and u + PS (R415, R417). -/
def Packet.val (h : Bool) (cs : List Nat) (ps : Int) : Num × Int :=
  let u := wireU h (wireCe h cs) + ps
  ((Num.ofInt (wireCsum h cs).toInt).scale (u - 54), u)

/-- The spacing of the wire format at a code, in element terms, as 2h of R417. -/
def wireSpacing (h : Bool) (ps : Int) (c : Nat) : Num :=
  let f := wireFmt h
  let e := f.mag c / 2 ^ f.mb
  .fin false 1 ((if e = 0 then 1 else e : Nat) - f.bias - f.mb + ps)

/-- The adder check of an output packet (R417). -/
def adderOk (h : Bool) (l r : Packet) (cs : List Nat) (ps : Int) : Bool :=
  let o := Packet.val h cs ps
  let a := Packet.val h (Packet.codes l) l.rPs
  let b := Packet.val h (Packet.codes r) r.rPs
  let d := ((o.1.add a.1.negate).add b.1.negate).abs
  let em := [o.2, a.2, b.2].foldl (fun m x => if m < x then x else m) o.2
  let lim := cs.foldl (fun (m : Num) c => m.add (wireSpacing h ps c)) (Num.fin false 1 (em - 45))
  !lim.lt d

/-- Rounding to FP32, as every accumulation does (R253). -/
def round32 (x : Num) : Num := fp32.decode (fp32.round x)

/-! ## The canonical tree -/

/-- The node whose child is the node of n leaves from lo, and whether it is the right child (R411). -/
def treeParent : Nat → Nat → Nat → Nat → Nat → Option (Nat × Nat × Bool)
  | 0, _, _, _, _ => none
  | k + 1, plo, pn, lo, n =>
    if pn ≤ 1 then none
    else
      let h := (pn + 1) / 2
      if lo = plo ∧ n = h then some (plo, pn, false)
      else if lo = plo + h ∧ n = pn - h then some (plo, pn, true)
      else if lo < plo + h then treeParent k plo h lo n
      else treeParent k (plo + h) (pn - h) lo n

/-- The node whose right child starts at leaf x (R411). -/
def rightParent : Nat → Nat → Nat → Nat → Option (Nat × Nat)
  | 0, _, _, _ => none
  | k + 1, plo, pn, x =>
    if pn ≤ 1 then none
    else
      let h := (pn + 1) / 2
      if x = plo + h then some (plo, pn)
      else if x < plo + h then rightParent k plo h x
      else rightParent k (plo + h) (pn - h) x

/-- Parity keys: a leaf slot and tile; a node and tile. -/
def leafKey (slot t : Nat) : Nat := slot * 65536 + t
def nodeKey (lo n t : Nat) : Nat := (lo * 2 ^ 21 + n) * 65536 + t

/-- The nodes of the jobs of one Pugmill that hold a slot, and the bucket tags in use (R426). -/
def State.slotsOf (s : State) (pg : Nat) : Nat :=
  ((s.jobs.filter (fun e => e.1 / 2048 == pg)).map (fun e => (e.2.nodes.filter (fun (x : Node) => x.tag.isNone)).length)).sum
def State.tagsUsed (s : State) : List Nat := (s.jobs.map (fun e => e.2.nodes.filterMap (fun (x : Node) => x.tag))).flatten

/-- The bucket-tag area (Table 14-7). -/
def State.fbBase (s : State) : Nat := s.fldReg rFbHi 0 12 * 2 ^ 32 + s.fldReg rFbLo 13 19 * 2 ^ 13

/-- n free values as words. -/
def State.freeWords (s : State) (n : Nat) : State × List Word :=
  ({ s with freeCtr := s.freeCtr + n }, (List.range n).map (fun i => (Config.freeValue (s.freeCtr + i)).truncate 16))

/-- A node's slot or bucket tag for a tile round (R426), none while there is none. What a node on a tag leaves in the tag's
region of memory is not stated: the region then holds free values. A word in error there, or one that carries a mark when the node reads its packets, is one
of the packet that its offset names: 128 words each, those of the left input first (assumption log 145). -/
def State.takeNode (s : State) (j lo n t : Nat) : Option State :=
  let q := s.job j
  if q.nodes.any (fun x => x.lo == lo && x.size == n && x.tile == t) then some s
  else
    let node (tag : Option Nat) : Node :=
      { lo := lo, size := n, tile := t, left := { pkts := [] }, right := { pkts := [] }, tag := tag, tout := false }
    let add (s : State) (tag : Option Nat) : State := s.modJob j (fun q => { q with nodes := q.nodes ++ [node tag] })
    if s.slotsOf (j / 2048) < 2048 then some (add s none)
    else if !s.bitReg rFbLo 0 then none
    else match (List.range 65536).find? (fun g => g ∉ s.tagsUsed) with
      | none => none
      | some g =>
        let (s1, ws) := s.freeWords 8192
        some (add (s1.writeRun (s.fbBase + 8192 * g) ws) (some g))

/-- A packet with every data unit marked (R502). -/
def Packet.allMarked (p : Packet) : Packet := { p with hdr := p.hdr ||| (BitVec.ofNat 256 (2 ^ ((p.data.length + 7) / 8) - 1) <<< 96) }

/-- An input of a node with some of its packets marked. -/
def NodeIn.marked (x : NodeIn) (bad : Nat → Bool) : NodeIn :=
  { x with pkts := x.pkts.map (fun e => if bad e.1 then (e.1, Packet.allMarked e.2) else e) }

/-- The packets of a node are read: those that lie in error, or in a bucket-tag region whose words do, have every data unit marked (R502). -/
def State.readNode (s : State) (j : Nat) (x : Node) : State × Node :=
  let (s1, l) := s.finds (fun y => match y with
    | .node k lo n t _ _ => k == j && lo == x.lo && n == x.size && t == x.tile
    | _ => false)
  let at_ (g : Nat) (r : Bool) (k : Nat) : Nat := s.fbBase + 8192 * g + 128 * (k + if r then 32 else 0)
  let s2 := match x.tag with
    | some g => s1.touchAll (addrs (s.fbBase + 8192 * g) 8192)
    | none => s1
  let bad (r : Bool) (k : Nat) : Bool := l.contains (.node j x.lo x.size x.tile r k) || (match x.tag with
    | some g => s2.anyMark (at_ g r k) 128
    | none => false)
  let y : Node := { x with left := x.left.marked (bad false), right := x.right.marked (bad true) }
  (if y = x then s2 else s2.modJob j (fun q => { q with nodes := q.nodes.map (fun z =>
    if z.lo = x.lo ∧ z.size = x.size ∧ z.tile = x.tile then y else z) }), y)

/-- The input of a node by side. -/
def Node.side (x : Node) (right : Bool) : NodeIn := if right then x.right else x.left

/-- A node with a packet added to an input. -/
def Node.add (x : Node) (right : Bool) (p : Packet) : Node :=
  let i : NodeIn := { pkts := insertKey p.rPkt p (eraseKey p.rPkt (x.side right).pkts) }
  if right then { x with right := i } else { x with left := i }

/-- Whether an input holds nothing yet for a packet number. -/
def State.inputFree (s : State) (j lo n t : Nat) (right : Bool) (q : Nat) : Bool :=
  match (s.job j).nodes.find? (fun x => x.lo == lo && x.size == n && x.tile == t) with
  | none => true
  | some x => !(x.side right).pkts.any (fun e => e.1 == q)

/-- A packet enters an input of a node, hop-checked (R414, R416). -/
def State.nodeTake (s : State) (j lo n t : Nat) (right : Bool) (p : Packet) : State :=
  let ok := Packet.hopOk p (s.job j).wire
  let s1 := (if ok then s else s.jobErr j 5).over (fun x => x == .node j lo n t right p.rPkt)
  s1.modJob j (fun q => { q with nodes := q.nodes.map (fun x =>
    if x.lo = lo ∧ x.size = n ∧ x.tile = t then x.add right (if ok then p else Packet.failed p) else x) })

/-- The 32 packets of one child enter an input of a node here, if the node can be had and the input is empty. -/
def State.nodeTakeAll (s : State) (j lo n t : Nat) (right : Bool) (ps : List Packet) : Option State :=
  if !(List.range 32).all (s.inputFree j lo n t right) then none
  else match s.takeNode j lo n t with
    | none => none
    | some u => some (ps.foldl (fun (s : State) p => s.nodeTake j lo n t right p) u)

/-- The chip of a rank, from the rank map (Table 14-1, R503). -/
def State.rankChip (s : State) (j r : Nat) : Out (Nat × Bool) :=
  match s.jobRead ((s.job j).rmap + 2 * r) 2 false with
  | .bad t c a => .bad t c a
  | .wait t => .wait t
  | .ok t ws => .ok t (natOfWords (ws.map (·.1)) % 2 ^ 20, ws.any (·.2))

/-- Handing the 32 packets of a node or leaf to the tree (R411): the root's result goes out on MCG, an input of a node here is
filled, or RSUMs go to the module of the parent's first leaf. An error is the state in which they wait. A rank map that fails translation
loses them, as a lost packet. -/
def State.handUp (s : State) (j lo n t : Nat) (mk : Nat → Nat → List PktSpec) : Except State State :=
  let q := s.job j
  if lo = 0 ∧ n = q.leaves then .ok ((mk 0x11 q.mcg).foldl (fun (s : State) k => s.originateMc k) s)
  else match treeParent 64 0 q.leaves lo n with
    | none => .ok s
    | some (plo, pn, right) =>
      if plo / q.leavesPer = q.rank then
        match s.nodeTakeAll j plo pn t right ((mk 0x10 s.chip).map (fun k => mkPacket s.chip 0 k)) with
        | some u => .ok u
        | none => .error s
      else match s.rankChip j (plo / q.leavesPer) with
        | .wait u => .error u
        | .bad u _ _ => .ok (u.jobXf j)
        | .ok u (_, true) => .ok (((u.jobClose j).jobSticky j 0x10000000).jobErr j 10)
        | .ok u (chip, false) => .ok ((mk 0x10 chip).foldl (fun (s : State) k => s.originate k) u)

/-- One output packet of a node (R411, R417, R418), and whether its adder check failed. -/
def nodeOut (h : Bool) (epoch : Nat) (hd : RedHead) (l r : Packet) (type dst : Nat) : PktSpec × Bool :=
  let xs := ((Packet.values l h).zip (Packet.values r h)).map (fun e => round32 (e.1.add e.2))
  let (cs, ps) := toWire h xs
  let nf := l.rNf || r.rNf || cs.any (wireNf h)
  let bad := !nf && !adderOk h l r cs ps
  let pm := (l.pmask ||| r.pmask).toNat
  (redSpec h type dst epoch { hd with nf := nf, cf := l.rCf || r.rCf || bad } cs ps pm, bad)

/-- A packet of a node's input; every one is present when the node sends. -/
def NodeIn.pkt (i : NodeIn) (q : Nat) : Packet := look { hdr := 0, data := [] } i.pkts q

/-- Whether both inputs have arrived. -/
def Node.ready (x : Node) : Bool := decide (x.left.pkts.length = 32) && decide (x.right.pkts.length = 32)

/-- A contribution that a node held has been consumed: its leaf's parity inverts and the leaf is free (R402). -/
def Job.leafDone (q : Job) (lo n t : Nat) : Job :=
  let h := (n + 1) / 2
  let one (q : Job) (leaf : Nat) (is : Bool) : Job :=
    if is && leaf / q.leavesPer == q.rank then
      let k := leafKey (leaf - q.rank * q.leavesPer) t
      { q with leafBusy := put false q.leafBusy k false, leafPar := put false q.leafPar k (!look false q.leafPar k) }
    else q
  one (one q lo (h == 1)) (lo + h) (n - h == 1)

/-- A ready node sends its output and frees its slot (R411, R426); an error is the state in which it waits. -/
def State.nodeSend (s : State) (j : Nat) (x : Node) : Except State State :=
  let (s, x) := s.readNode j x
  let q := s.job j
  let key := nodeKey x.lo x.size x.tile
  let rp := look false q.nodePar key
  let outs (type dst : Nat) : List (PktSpec × Bool) := (List.range 32).map (fun i =>
    let node := if type = 0x11 then 0 else x.lo
    nodeOut q.wire (s.bEpoch q.ctx) { node := node, nf := false, cf := false, rp := rp, job := j, tile := x.tile, pkt := i }
      (x.left.pkt i) (x.right.pkt i) type dst)
  match s.handUp j x.lo x.size x.tile (fun ty d => (outs ty d).map (·.1)) with
  | .error t => .error t
  | .ok t =>
    let t := if (outs 0x10 0).any (·.2) then t.jobErr j 6 else t
    if !(t.job j).open_ then .ok t
    else .ok (t.modJob j (fun q =>
      { (q.leafDone x.lo x.size x.tile) with
        nodes := q.nodes.filter (fun y => !(y.lo == x.lo && y.size == x.size && y.tile == x.tile)),
        nodePar := put false q.nodePar key (!rp) }))

/-! ## Results -/

/-- Whether a job's results are free values: DMODE 3 is reserved (Table 14-1), or they are undefined (R360). -/
def Job.wild (q : Job) : Bool := q.dmode == 3 || q.und

/-- The words that one result packet writes: address, word, mark (Table 14-5). -/
def State.resultWords (s : State) (q : Job) (p : Packet) : List (Nat × Word × Bool) :=
  let h := q.wire
  let t := p.rTile
  let vs := Packet.values p h
  let exp : Int := s.fldReg rLsCur 0 6
  let mark (e : Nat) : Bool := p.pmask.getLsbD (e / 8)
  if q.dmode = 0 then
    let base := q.resb + 4096 * t + 128 * p.rPkt
    vs.zipIdx.map (fun e => (base + e.2, if q.wild then (Config.freeValue (s.freeCtr + e.2)).truncate 16
      else BitVec.ofNat 16 (bf16.convert false e.1).1, mark e.2))
  else
    let base := q.resb + 8192 * t + 256 * p.rPkt
    let k : Int := if q.dmode = 2 then -exp else 0
    ((vs.zipIdx.map (fun e =>
      let v : W32 := if q.wild then (Config.freeValue (s.freeCtr + e.2)).truncate 32
        else BitVec.ofNat 32 (fp32.convert false (e.1.scale k)).1
      [(base + 2 * e.2, v.extractLsb' 0 16, mark e.2), (base + 2 * e.2 + 1, v.extractLsb' 16 16, mark e.2)]))).flatten

/-- The first word of a result tile (Table 14-5). -/
def Job.resultAddr (q : Job) (t : Nat) : Nat := q.resb + (if q.dmode = 0 then 4096 else 8192) * t

/-- A result packet is checked and written (R416, R420); an error is the state in which it waits for a word it writes. The flags of an undefined
result are free too (R360). -/
def State.resultTake (s : State) (j : Nat) (p : Packet) : Except State State :=
  let q := s.job j
  let t := p.rTile
  let ok := Packet.hopOk p q.wire
  let flag (i : Nat) : Bool := (Config.freeValue (s.freeCtr + i)).getLsbD 0
  let note (s : State) (bad : Bool) : State :=
    (if ok then s else s.jobErr j 5).modJob j (fun q => { q with
      dlv := put 0 q.dlv t (setBit (look 0 q.dlv t) p.rPkt true),
      dlvNf := put false q.dlvNf t (if q.und then flag 128 else look false q.dlvNf t || p.rNf),
      dlvCf := put false q.dlvCf t (if q.und then flag 129 else look false q.dlvCf t || p.rCf || !ok),
      dlvBad := put false q.dlvBad t (look false q.dlvBad t || bad) })
  let s0 := if q.wild then { s with freeCtr := s.freeCtr + 130 } else s
  match s0.jobWrite false (s.resultWords q p) with
  | .wait u => .error u
  | .bad u _ _ => .ok (note (u.jobXf j) true)
  | .ok u _ => .ok (note u false)

/-! ## Held packets -/

/-- The difference of a packet's epoch from this module's, modulo 2^16 (R423). -/
def State.epochDiff (s : State) (ctx : Nat) (p : Packet) : Nat := (p.epoch + 65536 - s.bEpoch ctx) % 65536

/-- Bytes of packets in staging. -/
def stagedBytes (ps : List Packet) : Nat := (ps.map (fun p => 16 * p.units)).sum

/-- Bytes staged at one Pugmill (R423). -/
def State.poolBytes (s : State) (pg : Nat) : Nat :=
  ((s.jobs.filter (fun e => e.1 / 2048 == pg)).map (fun e => stagedBytes e.2.held)).sum +
  ((s.swarms.filter (fun e => e.1 / 64 == pg)).map (fun e => stagedBytes e.2.held)).sum

/-- Whether a job or entry with given held packets may hold one more (R423). -/
def State.stageRoom (s : State) (pg : Nat) (held : List Packet) (p : Packet) : Bool :=
  decide (stagedBytes held + 16 * p.units ≤ 65536) && decide (s.poolBytes pg + 16 * p.units ≤ 8388608)

/-- What becomes of a reduction packet of the current epoch: it is taken, it belongs to the next round, or it waits in a state. -/
inductive Take where
  | taken (s : State) | later | stuck (s : State)

/-- Taking a reduction packet of the current epoch: an RSUM into its node, a result into memory. A packet of the next round is held;
one that finds no slot or a held page waits (R414, R420, R426). A packet that names no node of this job is dropped. -/
def State.redTake (s : State) (j : Nat) (p : Packet) : Take :=
  let q := s.job j
  if p.type = 0x11 then
    if p.rRp ≠ look false q.dlvPar p.rTile || (look 0 q.dlv p.rTile).getLsbD p.rPkt then .later
    else match s.resultTake j p with
      | .ok t => .taken t
      | .error t => .stuck t
  else match rightParent 64 0 q.leaves p.rNode with
    | none => .taken s
    | some (lo, n) =>
      if lo / q.leavesPer ≠ q.rank then .taken s
      else if p.rRp ≠ look false q.nodePar (nodeKey lo n p.rTile) || !s.inputFree j lo n p.rTile true p.rPkt then .later
      else match s.takeNode j lo n p.rTile with
        | none => .stuck s
        | some t => .taken (t.nodeTake j lo n p.rTile true p)

/-- The first of a list that can be done; an error is the state in which all of them wait. -/
def firstDone {α : Type} (f : State → α → Except State State) : List α → State → Except State State
  | [], s => .error s
  | x :: r, s =>
    match f s x with
    | .ok t => .ok t
    | .error t => firstDone f r t

/-- The first ready node of a job that can send. -/
def State.trySend (s : State) (j : Nat) : Except State State :=
  firstDone (fun (s : State) x => s.nodeSend j x) ((s.job j).nodes.filter (fun x => x.ready)) s

/-- A packet that a job holds is read: one in error has every data unit marked (R502). -/
def State.readHeld (s : State) (j : Nat) (p : Packet) : State × Packet :=
  let (t, bad) := s.findsAt (.held j p)
  if bad then (t.modJob j (fun q => { q with held := q.held.map (fun x => if x = p then Packet.allMarked p else x) }), Packet.allMarked p) else (t, p)

/-- The first held packet of a job of the current epoch that can be taken. -/
def State.tryHeld (s : State) (j : Nat) : Except State State :=
  let q := s.job j
  firstDone (fun (s : State) p0 =>
    let (s, p) := s.readHeld j p0
    match s.redTake j p with
    | .taken t => .ok (t.modJob j (fun q => { q with held := q.held.erase p }))
    | .later => .error s
    | .stuck t => .error t) (q.held.filter (fun p => s.epochDiff q.ctx p == 0)) s

/-- A job sends a node or takes a held packet. -/
def State.tryJob (s : State) (j : Nat) : Except State State :=
  if !(s.job j).open_ then .error s
  else match s.trySend j with
    | .ok t => .ok t
    | .error t => t.tryHeld j

/-- Running the jobs until no node can send and no held packet can be taken: one job's node can free the slot that another's waits for (R426). -/
def pugRun : Nat → State → State
  | 0, s => s
  | k + 1, s =>
    match firstDone State.tryJob (s.jobs.map (·.1)) s with
    | .ok t => pugRun k t
    | .error t => t

/-- Running the jobs; each turn sends a node, whose parents number at most 64, or takes a held packet. -/
def State.runJobs (s : State) : State :=
  pugRun ((s.jobs.map (fun e => 64 * (e.2.nodes.length + e.2.held.length + 1))).sum) s

/-- The entry of job j is read: an error there that cannot be corrected closes it as CLOSE does (R502). -/
def State.readJob (s : State) (j : Nat) : State :=
  let (t, bad) := s.findsAt (.job j)
  if bad then ((t.jobClose j).modJob j (fun x => { x with mark := true, wr := 0 })).runJobs else t

/-- A reduction packet arrives (R400, R414, R420, R423). An error is the state in which it waits in its sub-lane. -/
def State.redArrive (s : State) (p : Packet) : Except State State :=
  let j := p.rJob
  let s := s.readJob j
  let q := s.job j
  let d := s.epochDiff q.ctx p
  let hold (s : State) : Except State State :=
    if s.stageRoom (j / 2048) q.held p then .ok ((s.over (fun x => x == .held j p)).modJob j (fun q => { q with held := q.held ++ [p] }))
    else .error s
  if !q.open_ then .ok (s.jobErr j 3)
  else if 0x7FFF < d then .ok (s.jobErr j 8)
  else if d ≠ 0 then hold s
  else match s.redTake j p with
    | .taken t => .ok t.runJobs
    | .later => hold s
    | .stuck t => .error t

/-- All 32 packets of a result tile have been performed (R418, R421, R422). The delivery parity inverts also where a write failed, so
that the next round can be delivered. -/
def State.delivered (s : State) (j t : Nat) : State :=
  let s := s.readJob j
  let q := s.job j
  if !q.open_ || look 0 q.dlv t ≠ BitVec.allOnes 32 then s
  else
    let nf := look false q.dlvNf t
    let cf := look false q.dlvCf t
    let s1 := if nf then s.jobSticky j 0x80000000 else s
    let s2 := if nf && q.lst then s1.setFldReg rLsCur 15 1 1 else s1
    let s3 : State := if cf then
        let u := s2.jobSticky j 0x40000000
        let u := if q.lst then u.setFldReg rSctl 29 1 1 else u
        if q.fcore < 192 then
          let d : Deferred := { cause := .reduceCsum, faddr := BitVec.ofNat 64 (s.chip * 2 ^ 44 + q.resultAddr t), op := 0, susp := none }
          u.modCore q.fcore (fun c => { c with deferred := c.deferred ++ [d] })
        else u
      else s2
    let s4 := if look false q.dlvBad t then s3 else s3.semSignal q.rsem 1
    let s5 := s4.modJob j (fun q => { q with
      dlv := put 0 q.dlv t 0, dlvNf := put false q.dlvNf t false, dlvCf := put false q.dlvCf t false,
      dlvBad := put false q.dlvBad t false, mid := put false q.mid t false, dlvPar := put false q.dlvPar t (!look false q.dlvPar t) })
    s5.runJobs

/-- A participant window expires (R419): the first waiting node of the job that starts at a leaf, for a tile. -/
def State.participant (s : State) (j lo t : Nat) : State :=
  let s := s.readJob j
  let q := s.job j
  match q.nodes.find? (fun x => x.lo == lo && x.tile == t && !x.ready && !x.tout) with
  | none => s
  | some x =>
    let s1 := s.modJob j (fun q => { q with nodes := q.nodes.map (fun y =>
      if y.lo = x.lo ∧ y.size = x.size ∧ y.tile = x.tile then { y with tout := true } else y) })
    (s1.jobSticky j 0x20000000).jobErr j 7

/-! ## The leaf stage -/

/-- How the leaf stage answers a drain (R406): taken, with whether w() made an infinity of a finite value in a row without a mark, held, or
failed with a cause and FADDR. -/
inductive LeafOut where
  | done (s : State) (ovf : Bool) | wait (s : State) | fail (s : State) (c : Cause) (faddr : W64)

/-- The rank of an element among its block for thinning: its magnitude, with every NaN as an infinity (R404). -/
def thinRank (x : Num) : Nat :=
  let m := fp32.mag (fp32.round x)
  if fp32.top < m then fp32.top else m

/-- Which elements of a block of 256 are kept: the k that rank highest, equal ones in index order (R404). -/
def thinKeep (k : Nat) (xs : List Num) : List Bool :=
  let rs := xs.map thinRank
  rs.zipIdx.map (fun e => decide (rs.zipIdx.countP (fun f => decide (e.1 < f.1) || (f.1 == e.1 && decide (f.2 < e.2))) < k))

/-- Lists of n elements of a list. -/
def blocksOf {α : Type} (n : Nat) (l : List α) : List (List α) := l.toChunks n

/-- FP32 elements as words. -/
def words32 (xs : List Nat) : List Word := (xs.map (fun x => wordsOf32 (BitVec.ofNat 32 x))).flatten

/-- The new residual of an element (R405). -/
def newResidual (x v : Num) (kept : Bool) : Nat :=
  if !x.isFin || !v.isFin then 0 else fp32.round (if kept then x.add v.negate else x)

/-- The arrivals of a generation, with a job of which a round is under way though a core or the host of this module has arrived (R358, R360). -/
def Arrivals.lateFor (a : Arrivals) (j : Nat) : Arrivals :=
  if (a.cores ≠ 0 ∨ a.host) ∧ !a.early.contains j then { a with early := a.early ++ [j] } else a

/-- A leaf of a job enters a round: what has arrived at the job's context has arrived before its results (R360; assumption log 148). -/
def State.lateRound (s : State) (j : Nat) : State :=
  let b := (s.job j).ctx
  let c := s.ctx b
  let x := { c with now := c.now.lateFor j, next := c.next.lateFor j }
  if x = c then s else s.setCtx b x

/-- leaf(a, j, b) of R403, for a tile of 4,096 FP32 elements with row marks. A marked word of the old residual marks the row in what is sent and
written, but thinning and NF look at the row marks of the tile alone. -/
def State.leafStage (s : State) (j b : Nat) (a : List Num) (marks : W64) : LeafOut :=
  let s := s.readJob j
  let q := s.job j
  if !q.open_ then .fail (s.jobErr j 3) .busError 0
  else if q.ntile * q.leavesPer ≤ b then .fail (s.jobErr j 4) .busError 0
  else
    let slot := b / q.ntile
    let t := b % q.ntile
    let leaf := q.rank * q.leavesPer + slot
    let key := leafKey slot t
    if look false q.leafBusy key then .wait s
    else
      let ra := q.rbuf + 8192 * b
      match (if q.res then s.jobRead ra 8192 false else .ok s []) with
      | .wait u => .wait u
      | .bad u c x => .fail (u.jobXf j) c (BitVec.ofNat 64 (s.chip * 2 ^ 44 + x))
      | .ok s1 rw =>
        let out := bitsOf 64 (fun i => marks.getLsbD i || ((rw.drop (128 * i)).take 128).any (·.2))
        let xs := if q.res then
            (a.zip (blocksOf 2 (rw.map (·.1)))).map (fun e => round32 (e.1.add (fp32.decode (natOfWords e.2))))
          else a
        let keep := if q.think ≠ 0 ∧ marks = 0 then ((blocksOf 256 xs).map (thinKeep (2 ^ (q.think - 1)))).flatten
          else xs.map (fun _ => true)
        let wires := (blocksOf 128 (xs.zip keep)).map (fun bl => toWire q.wire (bl.map (fun e => if e.2 then e.1 else .fin false 0 0)))
        let vals := (wires.map (fun w => w.1.map (wireVal q.wire w.2))).flatten
        let nf := (xs.zipIdx.any (fun e => !e.1.isFin && !marks.getLsbD (e.2 / 64))) || wires.any (fun w => w.1.any (wireNf q.wire))
        let ovf := ((xs.zip vals).zip keep).zipIdx.any (fun e => e.1.2 && e.1.1.1.isFin && !e.1.1.2.isFin && !out.getLsbD (e.2 / 64))
        let specs (type dst : Nat) : List PktSpec := wires.zipIdx.map (fun w =>
          let pm := (if out.getLsbD (2 * w.2) then 0xFF else 0) + (if out.getLsbD (2 * w.2 + 1) then 0xFF00 else 0)
          let node := if type = 0x11 then 0 else leaf
          let hd : RedHead := { node := node, nf := nf, cf := false, rp := look false q.leafPar key, job := j, tile := t, pkt := w.2 }
          redSpec q.wire type dst (s.bEpoch q.ctx) hd w.1.1 w.1.2 pm)
        let resid := words32 (((xs.zip vals).zip keep).map (fun e => newResidual e.1.1 e.1.2 e.2))
        let rws := resid.zipIdx.map (fun e => (ra + e.2, e.1, out.getLsbD (e.2 / 128)))
        match (if q.res then s1.jobWrite false rws else .ok s1 ()) with
        | .wait u => .wait u
        | .bad u c x => .fail (u.jobXf j) c (BitVec.ofNat 64 (s.chip * 2 ^ 44 + x))
        | .ok s2 _ =>
          match s2.handUp j leaf 1 t specs with
          | .error u => .wait { s1 with biWait := u.biWait, touchWait := u.touchWait }
          | .ok s3 =>
            let kept := (s3.job j).nodes.any (fun x => x.tile == t &&
              ((x.lo == leaf && (x.size + 1) / 2 == 1) || (x.lo + (x.size + 1) / 2 == leaf && x.size - (x.size + 1) / 2 == 1)))
            let s4 := s3.modJob j (fun q =>
              if !q.open_ then q
              else if kept then { q with leafBusy := put false q.leafBusy key true, mid := put false q.mid t true }
              else { q with leafPar := put false q.leafPar key (!look false q.leafPar key), mid := put false q.mid t true })
            .done (s4.lateRound j).runJobs ovf

/-! ## The armed release -/

/-- The staged modes of a job become live; an LSL that would break the range of R401 stays as it was, and RANGE is recorded. -/
def State.jobLive (s : State) (j : Nat) : State :=
  let s := s.readJob j
  let q := s.job j
  let lsl := fld (look 0 q.staged 0) 24 2
  let bad := decide (65536 < q.ntile * 2 ^ lsl)
  let je0 := if bad then setFld (look 0 q.staged 0) 24 2 (fld (q.je 0) 24 2) else look 0 q.staged 0
  let s1 := s.modJob j (fun q => { q with live := put 0 q.staged 0 je0 })
  if bad then s1.jobErr j 4 else s1

/-- The jobs whose staged modes are bound to a context (R398): a job whose JE12 was never written is bound to context 0. -/
def State.jobsOf (s : State) (b : Nat) : List Nat :=
  (s.jobs.map (·.1)).filter (fun j => (s.job j).ctx == b)

/-- The multicast groups bound to a context (R389). -/
def State.groupsOf (s : State) (b : Nat) : List Nat :=
  (s.mcast.map (·.1)).filter (fun g => (s.mcEntry g).attr.getLsbD 29 && fld (s.mcEntry g).attr 0 6 == b)

/-- The loss-scale settings take free values. -/
def State.lossUnd (s : State) : State :=
  let (v, t) := s.free
  (t.setReg rLsPol (v.truncate 32 &&& 0xBF3FFFFF)).lossExp (fld v 32 6)

/-- The live entry of a group takes free values. -/
def State.groupUnd (s : State) (g : Nat) : State :=
  let (v, t) := s.free
  let (w, u) := t.free
  let e : McEntry := { u.mcEntry g with links := (v ++ w).truncate 96, attr := v.extractLsb' 32 32 &&& 0xE000003F }
  { u with mcast := put McEntry.none_ u.mcast g e }

/-- What R360 leaves undefined of jobs whose modes are bound to a context: their reduction results, and the mode state, theirs and that of the
context's loss-scale settings and groups (assumption log 64). -/
def State.ctxUnd (s : State) (b : Nat) (js : List Nat) : State :=
  let s1 := js.foldl State.jobUnd s
  let s2 := if s1.fldReg rLsctx 0 6 = b then s1.lossUnd else s1
  (s2.groupsOf b).foldl State.groupUnd s2

/-- The jobs of a context that are in the middle of a round here. -/
def State.midJobs (s : State) (b : Nat) : List Nat := (s.jobsOf b).filter (fun j => (s.job j).midRound)

/-- Jobs whose old epoch's results were to be delivered before an arrival, or a release, become undefined (R360). -/
def State.earlyJobs (s : State) (b : Nat) (js : List Nat) : State := if js.isEmpty then s else s.ctxUnd b js

/-- A release that makes modes live leaves undefined the jobs in the middle of a round, and those of which a participant arrived early, be that
round over or not (R358, R360; assumption log 148). -/
def State.early (s : State) (b : Nat) : State :=
  let js := s.midJobs b
  s.earlyJobs b (js ++ (s.ctx b).now.early.filter (fun j => !js.contains j && (s.jobsOf b).contains j))

end Sys2Proof.Machine
end

