-- ==== Sys2Proof/Machine/Swarm.lean ====
section
/-! DEFINITION. Sys2Proof/Machine/Swarm.lean: expert dispatch (R427 to R431) and what an engine does with marked control data
(R503). -/

namespace Sys2Proof

open Sys2Proof.Machine (fld)

/-- Fields of a dispatch packet (R428). -/
def Packet.xTok (p : Packet) : Nat := fld p.hdr 64 24
def Packet.xChoice (p : Packet) : Nat := fld p.hdr 88 3
def Packet.xEx (p : Packet) : Nat := fld p.hdr 128 12
def Packet.xEnt (p : Packet) : Nat := fld p.hdr 140 7
def Packet.xRank (p : Packet) : Nat := fld p.tsf 0 17
def Packet.xRow (p : Packet) : Nat := fld p.tsf 17 16
def Packet.xPart (p : Packet) : Nat := fld p.tsf 33 9

end Sys2Proof

namespace Sys2Proof.Machine

/-- A Swarm entry after cold reset. -/
def Swarm.reset : Swarm := { xe := [], rows := [], cnts := [], pendRet := 0, held := [], work := [], mark := false, wr := 0 }

/-- Swarm entry e. -/
def State.swarm (s : State) (e : Nat) : Swarm := look Swarm.reset s.swarms e

/-- The state with Swarm entry e changed. -/
def State.modSwarm (s : State) (e : Nat) (f : Swarm → Swarm) : State :=
  { s with swarms := put Swarm.reset s.swarms e (f (s.swarm e)) }

/-- XEi of an entry, and its fields (Table 14-6). -/
def Swarm.x (q : Swarm) (i : Nat) : W32 := look 0 q.xe i
def Swarm.en (q : Swarm) : Bool := (q.x 0).getLsbD 31
def Swarm.k (q : Swarm) : Nat := fld (q.x 0) 28 3 + 1
def Swarm.ctx (q : Swarm) : Nat := fld (q.x 0) 22 6
def Swarm.rank (q : Swarm) : Nat := fld (q.x 0) 0 17
def Swarm.nsrc (q : Swarm) : Nat := fld (q.x 1) 0 17 + 1
def Swarm.qr (q : Swarm) : Nat := fld (q.x 2) 16 16
def Swarm.rlen (q : Swarm) : Nat := fld (q.x 2) 0 16
def Swarm.rsem (q : Swarm) : Nat := fld (q.x 3) 16 16
def Swarm.ssem (q : Swarm) : Nat := fld (q.x 3) 0 16
def Swarm.nloc (q : Swarm) : Nat := fld (q.x 4) 16 12
def Swarm.nexp (q : Swarm) : Nat := fld (q.x 4) 0 16
def Swarm.emap (q : Swarm) : Nat := fld (q.x 6) 0 12 * 2 ^ 32 + fld (q.x 5) 1 31 * 2
def Swarm.rxb (q : Swarm) : Nat := fld (q.x 8) 0 12 * 2 ^ 32 + fld (q.x 7) 11 21 * 2 ^ 11
def Swarm.tgb (q : Swarm) : Nat := fld (q.x 10) 0 12 * 2 ^ 32 + fld (q.x 9) 4 28 * 2 ^ 4
def Swarm.retb (q : Swarm) : Nat := fld (q.x 12) 0 12 * 2 ^ 32 + fld (q.x 11) 11 21 * 2 ^ 11
def Swarm.list (q : Swarm) : Nat := fld (q.x 14) 0 12 * 2 ^ 32 + fld (q.x 13) 4 28 * 2 ^ 4

/-- The packets of a row (R428). -/
def Swarm.parts (q : Swarm) : Nat := cdiv q.rlen 128

/-- Words of a part of a row. -/
def Swarm.partLen (q : Swarm) (i : Nat) : Nat := if q.rlen - 128 * i < 128 then q.rlen - 128 * i else 128

/-- The number of a receive slot (R429), and of a count's pair of an expert and a source. -/
def Swarm.pair (q : Swarm) (x r : Nat) : Nat := x * q.nsrc + r
def Swarm.slot (q : Swarm) (x r j : Nat) : Nat := q.pair x r * q.qr + j
def Swarm.cntAddr (q : Swarm) (x r : Nat) : Nat := q.tgb + 4 * (q.nloc + 1) * q.nsrc * q.qr + 2 * q.pair x r

/-- Recording an error of a Swarm entry (Tables 14-7, 14-8). -/
def State.swarmErr (s : State) (e code : Nat) : State :=
  let pg : Fin 2 := if e < 64 then 0 else 1
  s.errWith (.pugmill pg) code (fun t => t.setReg (rErrjob pg.val) (BitVec.ofNat 32 (4096 + e)))

/-- A failed access of a Swarm entry. -/
def State.swarmXf (s : State) (e : Nat) : State := (s.swarmErr e 9).jobFault false

/-- ENABLE and DISABLE (R431): ENABLE starts with no round in progress and XDROP at 0; before Glaze expert dispatch is absent (R68), and ENABLE is
refused as a job's OPEN is. -/
def State.swarmEnable (s : State) (e : Nat) : State :=
  if !s.glaze then s.swarmErr e 1
  else s.modSwarm e (fun q => { q with rows := [], cnts := [], pendRet := 0, held := [], work := [],
                                       xe := put 0 (put 0 q.xe 0 (setBit (q.x 0) 31 true)) 15 0 })
def State.swarmDisable (s : State) (e : Nat) : State :=
  s.modSwarm e (fun q => { q with rows := [], cnts := [], pendRet := 0, held := [], work := [],
                                  xe := put 0 q.xe 0 (setBit (q.x 0) 31 false) })

/-- Entry e is read: an error there that cannot be corrected closes it as DISABLE does (R502). -/
def State.readSwarm (s : State) (e : Nat) : State :=
  let (t, bad) := s.findsAt (.swarm e)
  if bad then (t.swarmDisable e).modSwarm e (fun x => { x with mark := true, wr := 0 }) else t

/-- A row that an entry holds is read: one in error has every data unit marked (R502). -/
def State.readRow (s : State) (e : Nat) (p : Packet) : State × Packet :=
  let (t, bad) := s.findsAt (.heldRow e p)
  if bad then (t.modSwarm e (fun q => { q with held := q.held.map (fun x => if x = p then Packet.allMarked p else x) }), Packet.allMarked p) else (t, p)

/-- A dispatch packet (R428). -/
def swarmSpec (type dst epoch tok choice x e : Nat) (rank j part : Nat) (ws : List (Word × Bool)) : PktSpec :=
  { dst := dst, mc := false, type := type, tag := tok + choice * 2 ^ 24, pmask := pmaskOf (ws.map (·.2)), epoch := epoch,
    addr := x + e * 2 ^ 12, stat := 0, tsf := BitVec.ofNat 64 (rank + j * 2 ^ 17 + part * 2 ^ 33), data := ws.map (·.1) }

/-- The packets of a row. -/
def rowSpecs (type dst epoch tok choice x e rank j : Nat) (ws : List (Word × Bool)) : List PktSpec :=
  (blocksOf 128 ws).zipIdx.map (fun b => swarmSpec type dst epoch tok choice x e rank j b.2 b.1)

/-- Reading through the job tables for a command: none where the access fails, which is recorded. An error is the state in which it waits for a
step command or a snoop (R310, R470). -/
def State.swarmRead (s : State) (e a n : Nat) : Except State (State × Option (List (Word × Bool))) :=
  match s.jobRead a n false with
  | .ok t ws => .ok (t, some ws)
  | .wait t => .error t
  | .bad t _ _ => .ok (t.swarmXf e, none)

/-- Writing through the job tables for a command; an error is the state in which it waits (R310, R311, R470). -/
def State.swarmWrite (s : State) (e : Nat) (ws : List (Nat × Word × Bool)) : Except State State :=
  match s.jobWrite false ws with
  | .ok t _ => .ok t
  | .wait t => .error t
  | .bad t _ _ => .ok (t.swarmXf e)

/-- Where an expert lives: chip and local index, from the expert map; none for a marked or unreadable entry, which is recorded
(R503). -/
def State.expert (s : State) (e x : Nat) : Except State (State × Option (Nat × Nat)) :=
  match s.swarmRead e ((s.swarm e).emap + 2 * x) 2 with
  | .error t => .error t
  | .ok (t, none) => .ok (t, none)
  | .ok (t, some ws) =>
    if ws.any (·.2) then .ok (t.swarmErr e 10, none)
    else let v := natOfWords (ws.map (·.1)); .ok (t, some (v % 2 ^ 20, v / 2 ^ 20))

/-- What SEND has done so far: the state, rows used by expert, rows dropped for quota, rows sent, the packets to send. -/
structure SendAcc where
  s     : State
  used  : Store Nat
  drop  : Nat
  rows  : Nat
  out   : List PktSpec

/-- One choice of one token (R428): the accumulator and whether the choice was dropped. -/
def sendChoice (e t c x : Nat) (row : Option (List (Word × Bool))) (a : SendAcc) : Except State (SendAcc × Bool) :=
  let q := a.s.swarm e
  if x = 0xFFFF then .ok (a, false)
  else if q.nexp ≤ x then .ok (a, true)
  else match a.s.expert e x with
    | .error u => .error u
    | .ok (s1, none) => .ok ({ a with s := s1 }, true)
    | .ok (s1, some (chip, lx)) =>
      let j := look 0 a.used x
      if q.qr ≤ j then .ok ({ a with s := s1, drop := a.drop + 1 }, true)
      else
        let pk := match row with
          | some ws => rowSpecs 0x18 chip (s1.bEpoch q.ctx) t c lx e q.rank j ws
          | none => []
        .ok ({ a with s := s1, used := put 0 a.used x (j + 1), rows := a.rows + 1, out := a.out ++ pk }, false)

/-- One entry of the dispatch list (R428, R503). A row that is not on this module, or that fails translation, is not sent, as a lost
packet. -/
def sendToken (e : Nat) (a : SendAcc) (t : Nat) : Except State SendAcc := do
  let q := a.s.swarm e
  let status (s : State) (v : Nat) : Except State State :=
    s.swarmWrite e [(q.list + 16 * t + 12, BitVec.ofNat 16 v, false), (q.list + 16 * t + 13, 0, false)]
  match ← a.s.swarmRead e (q.list + 16 * t) 16 with
  | (s1, none) => pure { a with s := s1 }
  | (s1, some ws) =>
    if ws.any (·.2) then
      let s2 ← status (s1.swarmErr e 10) (2 ^ q.k - 1)
      pure { a with s := s2 }
    else
      let addr : W64 := BitVec.ofNat 64 (natOfWords ((ws.take 4).map (·.1)))
      let (s2, row) ← if s1.isHere addr then s1.swarmRead e (localOf addr) q.rlen else .ok (s1.swarmXf e, none)
      let (b, st) ← (List.range q.k).foldlM (fun (r : SendAcc × Nat) c => do
        let (a', d) ← sendChoice e t c ((ws.map (·.1)).getD (4 + c) 0).toNat row r.1
        pure (a', if d then r.2 + 2 ^ c else r.2)) ({ a with s := s2 }, 0)
      let s3 ← status b.s st
      pure { b with s := s3 }

/-- One XCNT of a round (R428). -/
def sendCount (e : Nat) (used : Store Nat) (r : State × List PktSpec) (x : Nat) : Except State (State × List PktSpec) :=
  let q := r.1.swarm e
  match r.1.expert e x with
  | .error t => .error t
  | .ok (t, none) => .ok (t, r.2)
  | .ok (t, some (chip, lx)) => .ok (t, r.2 ++ [swarmSpec 0x19 chip (t.bEpoch q.ctx) 0 0 lx e q.rank (look 0 used x) 0 []])

/-- SEND (R428): STATUS is written for every token before any packet leaves. A round that sends no part of a row has all its returns at once (R6).
An error is a state in which a word it reads or writes is held. -/
def State.swarmSend (s : State) (e n : Nat) : Except State State := do
  let q := s.swarm e
  let a ← (List.range n).foldlM (sendToken e) { s := s, used := [], drop := 0, rows := 0, out := [] }
  let (s1, cnts) ← (List.range q.nexp).foldlM (sendCount e a.used) (a.s, [])
  let s2 := s1.modSwarm e (fun q => { q with
    pendRet := q.pendRet + a.rows * q.parts, xe := put 0 q.xe 15 (BitVec.ofNat 32 (satAdd 32 a.drop (q.x 15).toNat)) })
  let s3 := if a.rows * q.parts = 0 then s2.semSignal q.ssem 1 else s2
  pure ((a.out ++ cnts).foldl (fun (s : State) k => s.originate k) s3)

/-- Sending one counted row back (R430). -/
def State.returnRow (e x r : Nat) (s : State) (j : Nat) : Except State State :=
  let q := s.swarm e
  match s.swarmRead e (q.tgb + 4 * q.slot x r j) 4 with
  | .error t => .error t
  | .ok (t, none) => .ok t
  | .ok (t, some tw) =>
    match t.swarmRead e (q.rxb + q.slot x r j * q.rlen) q.rlen with
    | .error u => .error u
    | .ok (u, none) => .ok u
    | .ok (u, some ws) =>
      let tag := natOfWords (tw.map (·.1))
      .ok ((rowSpecs 0x1A (tag % 2 ^ 20) (u.bEpoch q.ctx) (tag / 2 ^ 20 % 2 ^ 24) (tag / 2 ^ 44 % 8) x e r j ws).foldl
        (fun (s : State) k => s.originate k) u)

/-- The counted rows of one expert and source. -/
def State.returnPair (e : Nat) (s : State) (i : Nat) : Except State State :=
  let q := s.swarm e
  match s.swarmRead e (q.cntAddr (i / q.nsrc) (i % q.nsrc)) 2 with
  | .error t => .error t
  | .ok (t, none) => .ok t
  | .ok (t, some ws) => (List.range (natOfWords (ws.map (·.1)))).foldlM (State.returnRow e (i / q.nsrc) (i % q.nsrc)) t

/-- RETURN (R430): every row that the counts in memory name. An error is a state in which a word it reads is held. -/
def State.swarmReturn (s : State) (e : Nat) : Except State State :=
  (List.range ((s.swarm e).nloc * (s.swarm e).nsrc)).foldlM (State.returnPair e) s

/-- Doing the first command that an entry holds. One that meets a held word has done nothing yet but ask for the word (R310, R311, R470). -/
def State.swarmWork (s : State) (e : Nat) : Except State State :=
  let s := s.readSwarm e
  match (s.swarm e).work with
  | [] => .error s
  | w :: r =>
    match (match w with
      | .send n => s.swarmSend e n
      | .ret => s.swarmReturn e) with
    | .ok t => .ok (t.modSwarm e (fun q => { q with work := r }))
    | .error t => .error { s with biWait := t.biWait, touchWait := t.touchWait }

/-- Doing the commands that an entry holds, in order. -/
def swarmRun : Nat → State → Nat → State
  | 0, s, _ => s
  | k + 1, s, e =>
    match s.swarmWork e with
    | .ok t => swarmRun k t e
    | .error t => t

/-- SEND or RETURN written to XGO (R428, R430): ignored while EN is 0 (R431). -/
def State.swarmGo (s : State) (e : Nat) (w : XWork) : State :=
  let s := s.readSwarm e
  if !(s.swarm e).en then s.swarmErr e 3
  else
    let t := s.modSwarm e (fun q => { q with work := q.work ++ [w] })
    swarmRun (t.swarm e).work.length t e

/-- When every count of the round has arrived and every row counted has been performed, RSEM takes an add (R429). -/
def State.roundCheck (s : State) (e : Nat) : State :=
  let q := s.swarm e
  let pairs := List.range (q.nloc * q.nsrc)
  if pairs ≠ [] ∧ pairs.all (fun i => decide (look 0 q.cnts i ≠ 0) && decide ((look 0 q.cnts i - 1) * q.parts ≤ look 0 q.rows i)) then
    (s.modSwarm e (fun q => { q with cnts := [], rows := pairs.foldl (fun (m : Store Nat) i =>
        put 0 m i (look 0 m i - (look 0 q.cnts i - 1) * q.parts)) q.rows })).semSignal q.rsem 1
  else s

/-- What becomes of a dispatch packet of the current epoch; an error is the state in which it waits for a word it writes (R429, R430). -/
def State.swarmTake (s : State) (e : Nat) (p : Packet) : Except State State :=
  let q := s.swarm e
  let part := p.xPart
  let put_ (a : Nat) : List (Nat × Word × Bool) := runMarked (a + 128 * part) (p.marked (q.partLen part))
  if p.type = 0x18 then
    let i := q.slot p.xEx p.xRank p.xRow
    let tag := wordsOfNat 4 (p.src + p.xTok * 2 ^ 20 + p.xChoice * 2 ^ 44)
    match s.jobWrite false (put_ (q.rxb + i * q.rlen) ++ runOf (q.tgb + 4 * i) tag false) with
    | .wait t => .error t
    | .bad t _ _ => .ok (t.swarmXf e)
    | .ok t _ => .ok ((t.modSwarm e (fun q =>
        let k := q.pair p.xEx p.xRank
        { q with rows := put 0 q.rows k (look 0 q.rows k + 1) })).roundCheck e)
  else if p.type = 0x19 then
    match s.jobWrite false (runOf (q.cntAddr p.xEx p.xRank) (wordsOfNat 2 p.xRow) false) with
    | .wait t => .error t
    | .bad t _ _ => .ok (t.swarmXf e)
    | .ok t _ => .ok ((t.modSwarm e (fun q => { q with cnts := put 0 q.cnts (q.pair p.xEx p.xRank) (p.xRow + 1) })).roundCheck e)
  else
    match s.jobWrite false (put_ (q.retb + (p.xTok * q.k + p.xChoice) * q.rlen)) with
    | .wait t => .error t
    | .bad t _ _ => .ok (t.swarmXf e)
    | .ok t _ =>
      let u := t.modSwarm e (fun q => { q with pendRet := q.pendRet - 1 })
      .ok (if q.pendRet = 1 then u.semSignal q.ssem 1 else u)

/-- A dispatch packet arrives (R423, R427, R431). An error is the state in which it must wait. -/
def State.swarmArrive (s : State) (p : Packet) : Except State State :=
  let e := p.xEnt
  let s := s.readSwarm e
  let q := s.swarm e
  let d := s.epochDiff q.ctx p
  if !q.en then .ok (s.swarmErr e 3)
  else if 0x7FFF < d then .ok (s.swarmErr e 8)
  else if d ≠ 0 then
    if s.stageRoom (e / 64) q.held p then .ok ((s.over (fun x => x == .heldRow e p)).modSwarm e (fun q => { q with held := q.held ++ [p] }))
    else .error s
  else s.swarmTake e p

/-- Taking the held packets whose epoch has become current, in arrival order (R424); one that must wait stays held. -/
def State.swarmHeld (s : State) (e : Nat) : State :=
  let q := s.swarm e
  q.held.foldl (fun (s : State) p0 =>
    if s.epochDiff q.ctx p0 = 0 then
      let (s, p) := s.readRow e p0
      match s.swarmTake e p with
      | .ok t => t.modSwarm e (fun q => { q with held := q.held.erase p })
      | .error t => t
    else s) s

/-- Everything that waited at the Pugmills and the Swarm is tried again: nodes, held packets and held commands (R310, R311, R424, R426, R470). -/
def State.retryPug (s : State) : State :=
  let t := s.runJobs
  (t.swarms.map (·.1)).foldl (fun (s : State) e => swarmRun (s.swarm e).work.length (s.swarmHeld e) e) t

/-- A packet of the inbox reaches a Pugmill: it is handled and its buffer freed, or it waits in its sub-lane, which then gives up no later
packet (R423). -/
def State.pugPacket (s : State) (p : Packet) : State :=
  if !s.pugTurn p then s.keep p
  else match (if p.type = 0x10 ∨ p.type = 0x11 then s.redArrive p else s.swarmArrive p) with
    | .ok t => t.consume p
    | .error t => t.keep p

end Sys2Proof.Machine
end

