-- ==== Sys2Proof/Machine/Barrier.lean ====
section
/-! DEFINITION. Sys2Proof/Machine/Barrier.lean: barrier arrivals, completion and release (R353 to R359), the commit barrier (R437 to
R440), and writes of a context's registers (R357). -/

namespace Sys2Proof.Machine

/-- Recording a barrier error with its context (Table 12-9). -/
def State.barErr (s : State) (b code : Nat) : State := s.errWith .comb code (fun t => t.setReg rErrsem (BitVec.ofNat 32 b))

/-- Whether every participant has arrived for a generation (R353). -/
def State.allHere (s : State) (b : Nat) (a : Arrivals) : Bool :=
  decide (s.bCores b &&& ~~~a.cores = 0) && (!s.bHost b || a.host) && decide (s.bNchild b ≤ a.child)

/-- Whether a context is the step context (R437). -/
def State.isStep (s : State) (b : Nat) : Bool := s.bitReg rSctl 31 && s.fldReg rSctl 0 6 == b

/-- A BARR or BREL for a generation, with a refusal (Table 13-6, R439). -/
def barSpec (type dst b g : Nat) (refuse : Bool) : PktSpec :=
  { dst := dst, mc := false, type := type, tag := 0, pmask := 0, epoch := 0, addr := 0, stat := 0,
    tsf := BitVec.ofNat 64 (b * 65536 + g + (if refuse then 2 ^ 32 else 0)), data := [] }

/-- Every staged copy bound to a context becomes live, EPOCH takes EPOCH_NEXT, ARM clears, and packets held for the new epoch are
taken (R359 step 2, R389, R424). A job in the middle of a round is left undefined (R360). -/
def State.applyArm (s : State) (b : Nat) : State :=
  let s1 := (s.jobsOf b).foldl (fun (s : State) j => s.jobLive j) s
  let s2 := if s1.fldReg rLsctx 0 6 = b then s1.lossLive else s1
  let s3 := (s2.groupsOf b).foldl (fun (s : State) g =>
    let t := (s.readMcast g true).over (fun x => x == .mcast g false)
    { t with mcast := put McEntry.none_ t.mcast g (look McEntry.none_ t.mcastStg g) }) s2
  let s4 := (s3.setFldReg (rBgen b) 16 16 (s3.fldReg (rBnext b) 0 16)).setFldReg (rBctl b) 28 1 0
  (s4.early b).retryPug

/-- Whether a bar.wait for generation d ends at generation g (R355). -/
def barOver (g : Nat) (d : Word) : Bool :=
  let x := (g + 65536 - d.toNat) % 65536
  decide (1 ≤ x) && decide (x ≤ 0x7FFF)

/-- The release after its resolution: ARM, GEN and the waiters (R359 steps 2 and 3). -/
def State.releaseRest (s : State) (b : Nat) : State :=
  let s1 := if s.bArm b then s.applyArm b else s
  let g := (s1.bGen b + 1) % 65536
  let s2 := s1.setFldReg (rBgen b) 0 16 g
  let c := s2.ctx b
  let out := c.waits.filter (fun w => barOver g w.2)
  let s3 := s2.setCtx b { c with now := c.next, next := Arrivals.none_, sent := false, own := 0,
                                 waits := c.waits.filter (fun w => !barOver g w.2) }
  out.foldl (fun (s : State) w => s.releaseCore w.1) s3

/-- What a module does when it releases GEN, with the refusal the release carries. A resolution may wait, and the rest of the release with it
(R440). The answer says whether the release has been made. -/
def State.release (s : State) (b : Nat) (refuse : Bool) : State × Bool :=
  if s.isStep b then
    let r : Resolving := { ctx := some b, op := 0, refuse := refuse, bits := (s.ctx b).own, nf := s.lossNf }
    if s.resolveWaits then (s.awaitResolve r, false)
    else ((s.resolve r).releaseRest b, true)
  else (s.releaseRest b, true)

/-- Testing GEN of a context for completion (R353): a root releases it and sends the release, another sends one arrival to its
parent. A release lets the next generation be tested, which can complete at most once more. -/
def barTest : Nat → State → Nat → State
  | 0, s, _ => s
  | k + 1, s, b =>
    let c := s.ctx b
    if !s.bEn b || c.sent || !s.allHere b c.now then s
    else
      let refuse := s.isStep b && (s.ownRefuse || c.now.refuse)
      let s1 := s.setCtx b { c with sent := true, own := s.stepBits }
      if s.bRoot b then
        let s2 := s1.originateMc (barSpec 0xA (s.fldReg (rBctl b) 0 16) b (s.bGen b) refuse)
        match s2.release b refuse with
        | (t, true) => barTest k t b
        | (t, false) => t
      else s1.post (barSpec 9 (s.fldReg (rBparent b) 0 20) b (s.bGen b) refuse)

/-- Testing for completion. -/
def State.barTestAll (s : State) (b : Nat) : State := barTest 4 s b

/-- An arrival at a context that is armed for a change of epoch (R360). -/
def State.arriving (s : State) (b : Nat) : State := if s.bArm b then s.earlyJobs b (s.midJobs b) else s

/-- The arrivals of a generation as a core or the host arrives, with the jobs of which it arrives early: whether the context comes to carry a change
of epoch is seen at its release (R358, R360). -/
def State.late (s : State) (b : Nat) (a : Arrivals) : Arrivals :=
  { a with early := a.early ++ (s.midJobs b).filter (fun j => !a.early.contains j) }

/-- The arrival of a core or the host (R354): the state and the generation it returns. -/
def State.arrive (s : State) (b : Nat) (core : Option Nat) : State × Nat :=
  let s := s.readCtx b
  let g := s.bGen b
  let g1 := (g + 1) % 65536
  let named := match core with
    | some n => s.bMask b n
    | none => s.bHost b
  let in_ (a : Arrivals) : Bool := match core with
    | some n => a.cores.getLsbD n
    | none => a.host
  let count (a : Arrivals) : Arrivals := match core with
    | some n => { a with cores := setBit a.cores n true }
    | none => { a with host := true }
  let c := s.ctx b
  if !s.bEn b then (s.barErr b 7, g)
  else if !named then (s.barErr b 4, g)
  else if !in_ c.now then (((s.arriving b).setCtx b { c with now := s.late b (count c.now) }).barTestAll b, g)
  else if !in_ c.next then (((s.arriving b).setCtx b { c with next := s.late b (count c.next) }).barTestAll b, g1)
  else (s.barErr b 5, g1)

/-- A child's arrival for a generation, with its refusal (R353, R354, R439). -/
def State.childArrive (s : State) (b g : Nat) (refuse : Bool) : State :=
  let s := s.readCtx b
  let c := s.ctx b
  let count (a : Arrivals) : Arrivals := { a with child := a.child + 1, refuse := a.refuse || refuse }
  if !s.bEn b then s.barErr b 7
  else if g = s.bGen b then (s.setCtx b { c with now := count c.now }).barTestAll b
  else if g = (s.bGen b + 1) % 65536 then (s.setCtx b { c with next := count c.next }).barTestAll b
  else s.barErr b 5

/-- A release reaches a context that is not the root, for the generation now filling (R353). -/
def State.relReceive (s : State) (b g : Nat) (refuse : Bool) : State :=
  let s := s.readCtx b
  if !s.bEn b || s.bRoot b || g ≠ s.bGen b then s
  else match s.release b refuse with
    | (t, true) => t.barTestAll b
    | (t, false) => t

/-- Resolutions that waited: the first runs, and the release it belongs to is finished (R440). -/
def State.resolveNext (s : State) : State :=
  match s.resolving with
  | [] => s
  | r :: rest =>
    if s.bitReg rStep 29 then s
    else if s.jctxHeld then s.biAsk (inRun s.jctxBase 16)
    else
      let s1 := { s with resolving := rest }.resolve r
      match r.ctx with
      | some b => (s1.releaseRest b).barTestAll b
      | none => s1

/-- The end of a step command (R310), and what waited for it. It waits for the host's lines itself (R470). -/
def State.stepEnd (s : State) : State :=
  if s.biHeld (inList s.stepReads) then s.biAsk (inList s.stepReads) else s.stepFinish.resolveNext.retryPug

/-- A write of MOULD_SRSV (R441); user-level stores of a core are ignored. -/
def State.srsv (s : State) (src : Src) (op : Nat) : State :=
  let user := match src with
    | .core _ sup => !sup
    | _ => false
  if user then s
  else
    let r : Resolving := { ctx := none, op := op, refuse := false, bits := s.stepBits, nf := s.lossNf }
    if s.resolveWaits then s.awaitResolve r else s.resolve r

/-! ## Context registers -/

/-- A register of a context has been written: once all have, a poison mark clears (R502). -/
def State.ctxWrote (s : State) (b i : Nat) : State :=
  let c := s.ctx b
  let wr := setBit c.wr i true
  s.setCtx b (if c.mark && wr == 0x1FF then { c with mark := false, wr := 0 } else if c.mark then { c with wr := wr } else c)


/-- A write of B_CTL (R357). -/
def State.bCtlWrite (s : State) (b : Nat) (w : W32) : State :=
  let s := s.readCtx b
  let old := s.reg (rBctl b)
  let new := w &&& 0xF0FFFFFF
  if old.getLsbD 31 then
    if (old ^^^ new) &&& 0x60FFFFFF ≠ 0 then s.barErr b 6
    else
      let s1 := s.setReg (rBctl b) new
      (if new.getLsbD 31 then s1 else s1.clearArrivals b).ctxWrote b 0
  else
    let s1 := s.setReg (rBctl b) new
    (if new.getLsbD 31 then (s1.clearArrivals b).setFldReg (rBgen b) 0 16 0 else s1).ctxWrote b 0

/-- A write of B_NEXT: while EN is 0 it also sets EPOCH (Table 12-7). -/
def State.bNextWrite (s : State) (b : Nat) (w : W32) : State :=
  let s := s.readCtx b
  let v := fld w 0 16
  let s1 := s.setReg (rBnext b) (BitVec.ofNat 32 v)
  (if s.bEn b then s1
   else
    let s2 := if s.bEpoch b = v then s1 else (s1.jobsOf b).foldl (fun (s : State) j => s.newEpoch j) s1
    (s2.setFldReg (rBgen b) 16 16 v).retryPug).ctxWrote b 2

/-- A write of B_PARENT or B_MASK (R357). -/
def State.bCtxWrite (s : State) (b : Nat) (reg : CtxReg) (w : W32) : State :=
  let s := s.readCtx b
  if s.bEn b then s.barErr b 6
  else match reg with
    | .parent => (s.setReg (rBparent b) (w &&& 0xFFFFF)).ctxWrote b 1
    | .mask k => (s.setReg (rBmask b k.val) w).ctxWrote b (3 + k.val)

end Sys2Proof.Machine
end

