-- ==== Sys2Proof/Machine/CombCmd.lean ====
section
/-! DEFINITION. Sys2Proof/Machine/CombCmd.lean: the Comb instructions (R347 to R351), window stores (R346), COMB_HOP and COMB_TCLR
(Table 12-7), the packets of the Comb (R350, R353) and the writes of a barrier context (R357). -/

namespace Sys2Proof.Machine

/-- sem.add, sem.sub and their long forms: ADD or SUB of v here, or a SEM packet to another module (R347, R350). -/
def semOp (n : Nat) (add : Bool) (an : Fin 8) (v : Core → W32) (s : State) : Res :=
  let a := (s.core n).areg an.val
  let x := v (s.core n)
  combInstr n a false true (some (if add then 1 else 2)) x
    (fun k s =>
      let t := s.readSem k
      combAnswered n a t (if add then t.semAdd k x.toNat else t.semSub k x.toNat)) s

/-- sem.wait and sem.take and their long forms (R342, R348). -/
def semHold (n : Nat) (take : Bool) (an : Fin 8) (v : Core → W32) (s : State) : Res :=
  let a := (s.core n).areg an.val
  let x := v (s.core n)
  combInstr n a false take none x
    (fun k s =>
      let t := s.readSem k
      combWaited n k false a t (if take then t.semTake n k x else t.semWait n k x)) s

/-- SEM_ADD (R340, R347). -/
def execSemAdd (n : Nat) (c : Cond) (an : Fin 8) (dn : Fin 16) (s : State) : Host.Outcome State Fault Refusal :=
  issue n c 2 (fun _ => evenReg dn.val) [] (semOp n true an (fun k => k.dpair dn.val)) s

/-- SEM_SUB (R340, R347). -/
def execSemSub (n : Nat) (c : Cond) (an : Fin 8) (dn : Fin 16) (s : State) : Host.Outcome State Fault Refusal :=
  issue n c 2 (fun _ => evenReg dn.val) [] (semOp n false an (fun k => k.dpair dn.val)) s

/-- SEM_WAIT (R342, R347). -/
def execSemWait (n : Nat) (c : Cond) (an : Fin 8) (dn : Fin 16) (s : State) : Host.Outcome State Fault Refusal :=
  issue n c 2 (fun _ => evenReg dn.val) [] (semHold n false an (fun k => k.dpair dn.val)) s

/-- SEM_TAKE (R342, R347). -/
def execSemTake (n : Nat) (c : Cond) (an : Fin 8) (dn : Fin 16) (s : State) : Host.Outcome State Fault Refusal :=
  issue n c 2 (fun _ => evenReg dn.val) [] (semHold n true an (fun k => k.dpair dn.val)) s

/-- SEM_ADDI (Table 12-6). -/
def execSemAddi (n : Nat) (c : Cond) (an : Fin 8) (imm : BitVec 32) (s : State) : Host.Outcome State Fault Refusal :=
  issue n c 4 (fun _ => true) [] (semOp n true an (fun _ => imm)) s

/-- SEM_SUBI (Table 12-6). -/
def execSemSubi (n : Nat) (c : Cond) (an : Fin 8) (imm : BitVec 32) (s : State) : Host.Outcome State Fault Refusal :=
  issue n c 4 (fun _ => true) [] (semOp n false an (fun _ => imm)) s

/-- SEM_WAITI (Table 12-6). -/
def execSemWaiti (n : Nat) (c : Cond) (an : Fin 8) (imm : BitVec 32) (s : State) : Host.Outcome State Fault Refusal :=
  issue n c 4 (fun _ => true) [] (semHold n false an (fun _ => imm)) s

/-- SEM_TAKEI (Table 12-6). -/
def execSemTakei (n : Nat) (c : Cond) (an : Fin 8) (imm : BitVec 32) (s : State) : Host.Outcome State Fault Refusal :=
  issue n c 4 (fun _ => true) [] (semHold n true an (fun _ => imm)) s

/-- The effect of bar.arr on this chip's Comb: the arrival is counted, and the core holds for the generation (R349, R354). -/
def barArrEffect (n : Nat) (dn : Fin 16) (b : Nat) (s : State) : Res :=
  let (t, g) := s.arrive b (some n)
  .held (t.modCore n (fun c => { c with hold := some (.comb (some dn.val) (BitVec.ofNat 16 g)) }))

/-- BAR_ARR (R354). -/
def execBarArr (n : Nat) (c : Cond) (dn : Fin 16) (an : Fin 8) (s : State) : Host.Outcome State Fault Refusal :=
  issue n c 2 (fun _ => true) [] (fun s => combInstr n ((s.core n).areg an.val) true true none 0 (barArrEffect n dn) s) s

/-- The effect of bar.wait for the generation in Dn (R355). -/
def barWaitEffect (n : Nat) (a : W64) (d : Word) (b : Nat) (s : State) : Res :=
  let s := s.readCtx b
  let c := s.ctx b
  combWaited n b true a s (.ok (if barOver (s.bGen b) d then (s, true) else (s.setCtx b { c with waits := c.waits ++ [(n, d)] }, false)))

/-- BAR_WAIT (R355). -/
def execBarWait (n : Nat) (c : Cond) (an : Fin 8) (dn : Fin 16) (s : State) : Host.Outcome State Fault Refusal :=
  issue n c 2 (fun _ => true) [] (fun s =>
    let a := (s.core n).areg an.val
    combInstr n a true false none 0 (barWaitEffect n a ((s.core n).dreg dn.val)) s) s

/-- COMB_ANSWER (R349, R355): the Comb has answered, or has released the wait; the instruction completes, bar.arr delivers Dn at
distance 1, and the end of a wait discards run-ahead (R295). -/
def combAnswer (n : Nat) (s : State) : State :=
  let c := s.core n
  match c.hold with
  | some (.comb dst v) =>
    s.setCore n ((match dst with
      | some i => { c with hold := none }.sendD 1 i v
      | none => { c with hold := none }).retire c.hlen)
  | some (.wait true _ _) => s.setCore n ({ c with hold := none, runAhead := [] }.retire c.hlen)
  | _ => s

/-- COMB_ANSWER. -/
def execCombAnswer (n : Nat) (s : State) : Host.Outcome State Fault Refusal := command (combAnswer n) s

/-- COMB_WINDOW_ADD (R346). -/
def execCombWindowAdd (n : Nat) (sv : BitVec 16) (v : BitVec 32) (s : State) : Host.Outcome State Fault Refusal :=
  command (fun s => s.windowAdd n sv.toNat v.toNat) s

/-- The value COMB_HOP uses. -/
def State.hopv (s : State) : Nat := (s.reg rHopv).toNat

/-- HOP_ADD (Table 12-3, Table 12-7). -/
def execHopAdd (src : Src) (k : BitVec 16) (s : State) : Host.Outcome State Fault Refusal :=
  command (fun s => s.inTurn src (.hopAdd k) (fun s => s.semSignal k.toNat s.hopv)) s

/-- A SUB through COMB_HOP. -/
def State.hopSub (s : State) (k : Nat) : State :=
  let s := s.readSem k
  match s.semSub k s.hopv with
  | .ok t => t
  | .error c => s.semFail k c

/-- HOP_SUB. -/
def execHopSub (src : Src) (k : BitVec 16) (s : State) : Host.Outcome State Fault Refusal :=
  command (fun s => s.inTurn src (.hopSub k) (fun s => s.hopSub k.toNat)) s

/-- A SET through COMB_HOP: for the host and management only; a value out of range is ignored and recorded (Table 12-1). -/
def State.hopSet (s : State) (src : Src) (k : Nat) : State :=
  match src with
  | .core _ _ => s
  | _ =>
    if semMax < s.hopv then s.errWith .comb 3 (fun t => t.setReg rErrsem (BitVec.ofNat 32 k)) else s.semSet k s.hopv

/-- HOP_SET. -/
def execHopSet (src : Src) (k : BitVec 16) (s : State) : Host.Outcome State Fault Refusal :=
  command (fun s => s.inTurn src (.hopSet k) (fun s => s.hopSet src k.toNat)) s

/-- HOP_ARRIVE: the host arrives at the context in TARGET[5:0] (R354). -/
def execHopArrive (src : Src) (k : BitVec 16) (s : State) : Host.Outcome State Fault Refusal :=
  command (fun s => s.inTurn src (.hopArrive k) (fun s => (s.arrive (k.toNat % 64) none).1)) s

/-- TCLR (R352). -/
def execTclr (src : Src) (w : BitVec 32) (s : State) : Host.Outcome State Fault Refusal :=
  command (fun s => s.inTurn src (.tclr w) (fun s => s.clearTask (fld w 0 8))) s

/-- The answer status of a failed semaphore operation (Table 13-7). -/
def semStat (c : Cause) : Nat := if c = .semUnderflow then 5 else if c = .semOverflow then 6 else 7

/-- The answer status of a failed translation or address (Table 13-7). -/
def xlateStat (c : Cause) : Nat := if c = .pageFault then 2 else if c = .protection then 3 else if c = .poison then 7 else 4

/-- Translating the address of a SEM packet at its target (R350): through the job tables when JROOT.EN is 1, to a leaf that maps a Comb
window with WR and grants the sub-page. -/
def State.semXlate (s : State) (va : Nat) : State × Except Cause Nat :=
  if !s.bitReg rJrootLo 0 then (s, .ok va)
  else
    match (s.jobFresh false [va]).jobWalk va with
    | (t, .error c) => (t, .error c)
    | (t, .ok e) => match t.leafCheck e va true (.direct .comb) with
      | some c => (t, .error c)
      | none => (t, .ok (e.pa va))

/-- A SEM packet at its target (R350): the operation is applied and answered. A failed translation is recorded as JOB_FAULT (R304), and
a physical address that is no semaphore is none. An OP that Table 13-6 does not list is no operation and is answered OK (assumption log 150). -/
def State.semPacket (s : State) (p : Packet) : State :=
  let s0 := s.consume p
  let reply (s : State) (st : Nat) : State := s.originate (answerSpec p st [])
  match s0.semXlate p.addr with
  | (t, .error c) => reply (t.jobFault false) (xlateStat c)
  | (t, .ok pa) =>
    if pa < combBase ∨ combBase + 0x100000 ≤ pa ∨ pa % 16 ≠ 0 then reply (t.jobFault false) 4
    else
      let k := (pa - combBase) / 16
      let v := fld p.tsf 0 32
      let op := fld p.tsf 62 2
      let t := t.readSem k
      match (if op = 1 then t.semAdd k v else if op = 2 then t.semSub k v else .ok t) with
      | .ok u => reply u 0
      | .error c => reply t (semStat c)

/-- SEM_PACKET. -/
def execSemPacket (p : Packet) (s : State) : Host.Outcome State Fault Refusal := command (fun s => s.semPacket p) s

/-- Context, generation and refusal of a BARR or BREL (Table 13-6, R439). -/
def barCtx (p : Packet) : Nat := fld p.tsf 16 6
def barGen (p : Packet) : Nat := fld p.tsf 0 16
def barRefuse (p : Packet) : Bool := p.tsf.getLsbD 32

/-- BARR_RECEIVE (R353, R354). -/
def execBarrReceive (p : Packet) (s : State) : Host.Outcome State Fault Refusal :=
  command (fun s => (s.consume p).childArrive (barCtx p) (barGen p) (barRefuse p)) s

/-- A release is received (R353, R359). One that still waits to be forwarded is forwarded on the live entry first, behind the earlier copies of its
root and group (R388); only then is it applied (R389). -/
def State.brel (s : State) (p : Packet) : State :=
  match s.inbox.find? (fun r => r.pkt == p && !r.copy) with
  | some r =>
    let t := if s.mayLeave p then s.mcForward r.link p else s
    if t.inbox.any (fun r => r.pkt == p && r.copy) then (t.consume p).relReceive (barCtx p) (barGen p) (barRefuse p) else t
  | none => (s.consume p).relReceive (barCtx p) (barGen p) (barRefuse p)

/-- BREL_RECEIVE (R353, R359). -/
def execBrelReceive (p : Packet) (s : State) : Host.Outcome State Fault Refusal := command (fun s => s.brel p) s

/-- B_CTL_WRITE (R357). -/
def execBCtlWrite (src : Src) (b : Fin 64) (w : BitVec 32) (s : State) : Host.Outcome State Fault Refusal :=
  command (fun s => s.inTurn src (.bCtlWrite b w) (fun s => s.bCtlWrite b.val w)) s

/-- B_NEXT_WRITE (Table 12-7). -/
def execBNextWrite (src : Src) (b : Fin 64) (w : BitVec 32) (s : State) : Host.Outcome State Fault Refusal :=
  command (fun s => s.inTurn src (.bNextWrite b w) (fun s => s.bNextWrite b.val w)) s

/-- B_CTX_WRITE (R357). -/
def execBCtxWrite (src : Src) (b : Fin 64) (reg : CtxReg) (w : BitVec 32) (s : State) : Host.Outcome State Fault Refusal :=
  command (fun s => s.inTurn src (.bCtxWrite b reg w) (fun s => s.bCtxWrite b.val reg w)) s

end Sys2Proof.Machine
end

