-- ==== Sys2Proof/Machine/MouldCmd.lean ====
section
/-! DEFINITION. Sys2Proof/Machine/MouldCmd.lean: the commands and events of the Mould (R305, R309 to R312), of step resolution and
restore (R437, R441, R448), and of the scale table and the loss-scale register (R211, R212, R215, R216). -/

namespace Sys2Proof.Machine

/-- A store made by a core at user level. -/
def Src.user : Src → Bool
  | .core _ sup => !sup
  | _ => false

/-- A field of len bits that the spec leaves undefined after a write: a free value (assumption log 3). -/
def State.freeFld (s : State) (len : Nat) : State × Nat :=
  let (v, t) := s.free
  (t, v.toNat % 2 ^ len)

/-- A word whose field holds a reserved encoding, or one above a limit, with a free value in that field (R8, R21). -/
def State.reserve (s : State) (w : W32) (lo len max : Nat) : State × W32 :=
  if fld w lo len ≤ max then (s, w)
  else
    let (t, v) := s.freeFld len
    (t, setFld w lo len v)

/-- SNAPSHOT_FIRST_TOUCH (R309). -/
def execSnapshotFirstTouch (leaf : BitVec 44) (s : State) : Host.Outcome State Fault Refusal :=
  command (fun s => s.firstTouch leaf.toNat false) s

/-- SHADOW_FIRST_TOUCH (R310). -/
def execShadowFirstTouch (leaf : BitVec 44) (s : State) : Host.Outcome State Fault Refusal :=
  command (fun s => s.firstTouch leaf.toNat true) s

/-- PAGE_COPY_COMPLETE (R311). -/
def execPageCopyComplete (leaf : BitVec 44) (s : State) : Host.Outcome State Fault Refusal :=
  command (fun s => (s.copyDone leaf.toNat).retryPug) s

/-- MOULD_TAKE (R309, R443). -/
def execMouldTake (src : Src) (s : State) : Host.Outcome State Fault Refusal :=
  command (fun s => s.inTurn src .mouldTake State.take) s

/-- SNAP_SWEEP_END (R309). -/
def execSnapSweepEnd (s : State) : Host.Outcome State Fault Refusal := command (fun s => s.sweepEnd.retryPug) s

/-- STEP_COMMIT (R310). -/
def execStepCommit (src : Src) (s : State) : Host.Outcome State Fault Refusal :=
  command (fun s => s.inTurn src .stepCommit (fun s => if Src.user src then s else s.stepCommand true)) s

/-- STEP_ROLLBACK (R310). -/
def execStepRollback (src : Src) (s : State) : Host.Outcome State Fault Refusal :=
  command (fun s => s.inTurn src .stepRollback (fun s => if Src.user src then s else s.stepCommand false)) s

/-- STEP_CMD_END (R310, R440). -/
def execStepCmdEnd (s : State) : Host.Outcome State Fault Refusal := command State.stepEnd s

/-- A write of MOULD_SLOG_LO or HI (R8, R312). -/
def State.slogWrite (s : State) (hi : Bool) (w : W32) : State :=
  if s.slogCnt ≠ 0 then s.err .mould 6
  else if hi then s.setReg rSlogHi (w &&& 0xFFF)
  else
    let (t, v) := s.reserve (w &&& 0xFFFFE01F) 0 5 24
    t.setReg rSlogLo v

/-- SLOG_WRITE (R312). -/
def execSlogWrite (src : Src) (hi : Bool) (w : BitVec 32) (s : State) : Host.Outcome State Fault Refusal :=
  command (fun s => s.inTurn src (.slogWrite hi w) (fun s => s.slogWrite hi w)) s

/-- A write of XROOT_LO (R305): the held high part comes into use, and the TLB is invalidated. -/
def State.xrootLo (s : State) (n : Nat) (w : W32) : State :=
  let s1 := s.setReg (rXrootLo n) (w &&& 0xFFFFE001)
  s1.modCore n (fun c => { c with rootUse := (s1.reg (rXrootHi n)).truncate 12, tlb := [], runAhead := [] })

/-- XROOT_LO_WRITE (R305). -/
def execXrootLoWrite (src : Src) (n : Nat) (w : BitVec 32) (s : State) : Host.Outcome State Fault Refusal :=
  command (fun s => s.inTurn src (.xrootLoWrite n w) (fun s => s.xrootLo n w)) s

/-- XROOT_HI_WRITE (R305). -/
def execXrootHiWrite (src : Src) (n : Nat) (w : BitVec 32) (s : State) : Host.Outcome State Fault Refusal :=
  command (fun s => s.inTurn src (.xrootHiWrite n w) (fun s => s.setReg (rXrootHi n) (w &&& 0xFFF))) s

/-- A write of MOULD_JROOT_LO (R305, R312). -/
def State.jrootLo (s : State) (w : W32) : State :=
  let s1 := s.setReg rJrootLo (w &&& 0xFFFFE001)
  { s1 with jrootUse := (s1.reg rJrootHi).truncate 12, jtlb := [] }

/-- JROOT_LO_WRITE (R305). -/
def execJrootLoWrite (src : Src) (w : BitVec 32) (s : State) : Host.Outcome State Fault Refusal :=
  command (fun s => s.inTurn src (.jrootLoWrite w) (fun s => s.jrootLo w)) s

/-- JROOT_HI_WRITE (R305). -/
def execJrootHiWrite (src : Src) (w : BitVec 32) (s : State) : Host.Outcome State Fault Refusal :=
  command (fun s => s.inTurn src (.jrootHiWrite w) (fun s => s.setReg rJrootHi (w &&& 0xFFF))) s

/-! ## Steps -/

/-- SRSV_COMMIT (R441). -/
def execSrsvCommit (src : Src) (s : State) : Host.Outcome State Fault Refusal :=
  command (fun s => s.inTurn src .srsvCommit (fun s => s.srsv src 1)) s

/-- SRSV_SKIP (R441). -/
def execSrsvSkip (src : Src) (s : State) : Host.Outcome State Fault Refusal :=
  command (fun s => s.inTurn src .srsvSkip (fun s => s.srsv src 2)) s

/-- SRSV_REFUSED (R441). -/
def execSrsvRefused (src : Src) (s : State) : Host.Outcome State Fault Refusal :=
  command (fun s => s.inTurn src .srsvRefused (fun s => s.srsv src 3)) s

/-- SRSV_ABANDONED (R441). -/
def execSrsvAbandoned (src : Src) (s : State) : Host.Outcome State Fault Refusal :=
  command (fun s => s.inTurn src .srsvAbandoned (fun s => s.srsv src 4)) s

/-- RESTORE_GO (R448). -/
def execRestoreGo (src : Src) (s : State) : Host.Outcome State Fault Refusal :=
  command (fun s => s.inTurn src .restoreGo State.restoreGo) s

/-- RESTORE_COMPLETE (R448). -/
def execRestoreComplete (s : State) : Host.Outcome State Fault Refusal := command State.restoreDone s

/-- A write of MOULD_SCTL (R437): EN and CTX keep their values while the step context's B_CTL.EN is 1. -/
def State.sctlWrite (s : State) (w : W32) : State :=
  let old := s.reg rSctl
  let active := s.bitReg rSctl 31 && s.bEn (s.fldReg rSctl 0 6)
  let s1 := s.setFldReg rSctl 30 1 (fld w 30 1)
  if active then s1 else s1.setReg rSctl ((w &&& 0xC000003F) ||| (old &&& 0x20000000))

/-- SCTL_WRITE (R437). -/
def execSctlWrite (src : Src) (w : BitVec 32) (s : State) : Host.Outcome State Fault Refusal :=
  command (fun s => s.inTurn src (.sctlWrite w) (fun s => s.sctlWrite w)) s

/-- STEPN_WRITE (Table 15-8). -/
def execStepnWrite (src : Src) (w : BitVec 32) (s : State) : Host.Outcome State Fault Refusal :=
  command (fun s => s.inTurn src (.stepnWrite w) (fun s => if s.bitReg rSctl 31 then s else s.setReg rStepn w)) s

/-! ## Scales -/

/-- SCALE_ROLL (R211). -/
def execScaleRoll (src : Src) (n : Nat) (hi : Bool) (w : BitVec 32) (s : State) : Host.Outcome State Fault Refusal :=
  command (fun s => s.inTurn src (.scaleRoll n hi w) (fun s => s.scRoll n hi w)) s

/-- SC_AMAXW_WRITE (R212). -/
def execScAmaxwWrite (src : Src) (n : Nat) (e : Fin 64) (w : BitVec 32) (s : State) : Host.Outcome State Fault Refusal :=
  command (fun s => s.inTurn src (.scAmaxwWrite n e w) (fun s => s.scAmaxw n e.val w)) s

/-- Whether the context bound to the loss-scale settings is enabled: a write of a live setting is then undefined (R216, R360). -/
def State.lossActive (s : State) : Bool := s.bEn (s.fldReg rLsctx 0 6)

/-- The context of the loss-scale settings, with its jobs, is left undefined by a live write while it is active (R360). -/
def State.lossAbused (s : State) : State := let b := s.fldReg rLsctx 0 6; s.ctxUnd b (s.jobsOf b)

/-- A write of LOSS_SCALE_CUR (R215, R216): EXP takes the value, or a free value where it is reserved or the write is undefined. -/
def State.lossCurWrite (s : State) (w : W32) : State :=
  if s.lossActive then s.lossAbused
  else if 40 < fld w 0 6 then
    let (t, v) := s.freeFld 6
    t.lossExp v
  else s.lossExp (fld w 0 6)

/-- LOSS_SCALE_CUR_WRITE (R215). -/
def execLossScaleCurWrite (src : Src) (w : BitVec 32) (s : State) : Host.Outcome State Fault Refusal :=
  command (fun s => s.inTurn src (.lossScaleCurWrite w) (fun s => s.lossCurWrite w)) s

/-- A write of LOSS_SCALE_POL, live or staged (Table 7-12): reserved values leave free values, and a live write while the job is active leaves the
job undefined (R360). -/
def State.lossPolWrite (s : State) (staged : Bool) (w : W32) : State :=
  if !staged && s.lossActive then s.lossAbused
  else
    let (t, x) := s.reserve (w &&& 0xBF3FFFFF) 24 6 40
    let (u, y) := t.reserve x 16 6 40
    u.setReg (if staged then rLsPolStg else rLsPol) y

end Sys2Proof.Machine
end

