-- ==== Sys2Proof/Machine/PugmillCmd.lean ====
section
/-! DEFINITION. Sys2Proof/Machine/PugmillCmd.lean: the commands and packets of the Pugmills and the Swarm (R399, R400, R414, R419 to R422,
R427 to R431). -/

namespace Sys2Proof.Machine

/-- The job that an index of a page names (Table 14-7), and the Swarm entry that XSEL names. -/
def jobOf (pg : Fin 2) (idx : Nat) : Nat := 2048 * pg.val + idx
def State.xsel (s : State) (pg : Fin 2) : Nat := 64 * pg.val + s.fldReg (rXsel pg.val) 0 6

/-- JCMD_OPEN (R400). -/
def execJcmdOpen (src : Src) (pg : Fin 2) (idx : BitVec 11) (s : State) : Host.Outcome State Fault Refusal :=
  command (fun s => s.inTurn src (.jcmdOpen pg idx) (fun s => (s.readJob (jobOf pg idx.toNat)).jobOpen (jobOf pg idx.toNat))) s

/-- JCMD_CLOSE (R400). -/
def execJcmdClose (src : Src) (pg : Fin 2) (idx : BitVec 11) (s : State) : Host.Outcome State Fault Refusal :=
  command (fun s => s.inTurn src (.jcmdClose pg idx) (fun s => ((s.readJob (jobOf pg idx.toNat)).jobClose (jobOf pg idx.toNat)).retryPug)) s


/-- A register of a job's entry has been written: once all fourteen have, a poison mark clears (R502). -/
def Job.wrote (q : Job) (i : Nat) : Job :=
  let wr := setBit q.wr i true
  if !q.mark then q else if wr = BitVec.allOnes 14 then { q with mark := false, wr := 0 } else { q with wr := wr }

/-- A write of JEi of a job (R399, R360): a mode word of the staged copy at any time, of the live copy while the job is not active (the job's
results and mode state are undefined otherwise), a fixed field only while EN is 0. -/
def State.jeWrite (s : State) (j : Nat) (stg : Bool) (i : Nat) (w : W32) : State :=
  let s := s.readJob j
  let q := s.job j
  let v := w &&& jeMask i
  if i < 4 then
    if stg then s.modJob j (fun q => { q with staged := put 0 q.staged i v }.wrote i)
    else if s.bEn q.ctx then (s.ctxUnd q.ctx [j]).modJob j (fun q => q.wrote i)
    else s.modJob j (fun q => { q with live := put 0 q.live i v }.wrote i)
  else if i = 13 then s.modJob j (fun q => { q with fixed := put 0 q.fixed 13 (q.je 13 &&& ~~~(w &&& 0xF0000000)) }.wrote i)
  else if q.open_ then s.jobErr j 2
  else
    let (t, x) := if i = 4 then s.reserve v 29 2 2 else (s, v)
    t.modJob j (fun q => { q with fixed := put (jeReset i) q.fixed i x }.wrote i)

/-- JE_WRITE: the entry and copy that JSEL names (R399). -/
def execJeWrite (src : Src) (pg : Fin 2) (i : Fin 14) (w : BitVec 32) (s : State) : Host.Outcome State Fault Refusal :=
  command (fun s => s.inTurn src (.jeWrite pg i w)
    (fun s => s.jeWrite (jobOf pg (s.fldReg (rJsel pg.val) 0 11)) (s.bitReg (rJsel pg.val) 31) i.val w)) s

/-- RSUM_RECEIVE (R414). -/
def execRsumReceive (p : Packet) (s : State) : Host.Outcome State Fault Refusal := command (fun s => s.pugPacket p) s

/-- RRES_RECEIVE (R420). -/
def execRresReceive (p : Packet) (s : State) : Host.Outcome State Fault Refusal := command (fun s => s.pugPacket p) s

/-- RESULT_DELIVERED (R422). -/
def execResultDelivered (job tile : Nat) (s : State) : Host.Outcome State Fault Refusal := command (fun s => s.delivered job tile) s

/-- PARTICIPANT_TIMEOUT (R419). -/
def execParticipantTimeout (job node tile : Nat) (s : State) : Host.Outcome State Fault Refusal :=
  command (fun s => s.participant job node tile) s

/-- XGO_ENABLE (R431). -/
def execXgoEnable (src : Src) (pg : Fin 2) (s : State) : Host.Outcome State Fault Refusal :=
  command (fun s => s.inTurn src (.xgoEnable pg) (fun s => (s.readSwarm (s.xsel pg)).swarmEnable (s.xsel pg))) s

/-- XGO_DISABLE (R431). -/
def execXgoDisable (src : Src) (pg : Fin 2) (s : State) : Host.Outcome State Fault Refusal :=
  command (fun s => s.inTurn src (.xgoDisable pg) (fun s => (s.readSwarm (s.xsel pg)).swarmDisable (s.xsel pg))) s

/-- XGO_SEND (R428). -/
def execXgoSend (src : Src) (pg : Fin 2) (count : BitVec 24) (s : State) : Host.Outcome State Fault Refusal :=
  command (fun s => s.inTurn src (.xgoSend pg count) (fun s => s.swarmGo (s.xsel pg) (.send count.toNat))) s

/-- XGO_RETURN (R430). -/
def execXgoReturn (src : Src) (pg : Fin 2) (s : State) : Host.Outcome State Fault Refusal :=
  command (fun s => s.inTurn src (.xgoReturn pg) (fun s => s.swarmGo (s.xsel pg) .ret)) s

/-- The bits of XE0 to XE15 that a write can set (Table 14-6). -/
def xeMask (i : Nat) : W32 :=
  if i = 0 then 0x7FC1FFFF else if i = 1 then 0x1FFFF else if i = 2 ∨ i = 3 then 0xFFFFFFFF else if i = 4 then 0x0FFFFFFF
  else if i = 5 then 0xFFFFFFFE else if i = 6 ∨ i = 8 ∨ i = 10 ∨ i = 12 ∨ i = 14 then 0xFFF
  else if i = 7 ∨ i = 11 then 0xFFFFF800 else if i = 9 ∨ i = 13 then 0xFFFFFFF0 else 0

/-- A register of a Swarm entry has been written (R502). -/
def Swarm.wrote (q : Swarm) (i : Nat) : Swarm :=
  let wr := setBit q.wr i true
  if !q.mark then q else if wr = BitVec.allOnes 16 then { q with mark := false, wr := 0 } else { q with wr := wr }

/-- A write of XEi (R427); XE15 is read only, and an NEXP above 4,096, which is reserved (Table 14-6), leaves a free value (R21). -/
def State.xeWrite (s : State) (e i : Nat) (w : W32) : State :=
  let s := s.readSwarm e
  let q := s.swarm e
  if q.en then s.swarmErr e 2
  else
    let (t, v) := if i = 4 then s.reserve (w &&& xeMask 4) 0 16 4096 else (s, w &&& xeMask i)
    t.modSwarm e (fun q => { q with xe := put 0 q.xe i (if i = 15 then q.x 15 else v) }.wrote i)

/-- XE_WRITE (R427). -/
def execXeWrite (src : Src) (pg : Fin 2) (i : Fin 16) (w : BitVec 32) (s : State) : Host.Outcome State Fault Refusal :=
  command (fun s => s.inTurn src (.xeWrite pg i w) (fun s => s.xeWrite (s.xsel pg) i.val w)) s

/-- XROW_RECEIVE (R429). -/
def execXrowReceive (p : Packet) (s : State) : Host.Outcome State Fault Refusal := command (fun s => s.pugPacket p) s

/-- XCNT_RECEIVE (R429). -/
def execXcntReceive (p : Packet) (s : State) : Host.Outcome State Fault Refusal := command (fun s => s.pugPacket p) s

/-- XRET_RECEIVE (R430). -/
def execXretReceive (p : Packet) (s : State) : Host.Outcome State Fault Refusal := command (fun s => s.pugPacket p) s

end Sys2Proof.Machine
end

