-- ==== Sys2Proof/Machine/LinkCmd.lean ====
section
/-! DEFINITION. Sys2Proof/Machine/LinkCmd.lean: the commands and events of a fabric link (R364 to R374, R395). -/

namespace Sys2Proof.Machine

/-- A command of a link that exists, while the module runs. -/
def linkCmd (l : Nat) (f : State → State) (s : State) : Host.Outcome State Fault Refusal :=
  command (fun s => if l < 96 then f s else s) s

/-- LINK_ENABLE (R364). -/
def execLinkEnable (src : Src) (l : Nat) (s : State) : Host.Outcome State Fault Refusal :=
  command (fun s => s.inTurn src (.linkEnable l) (fun s => if l < 96 then s.linkEnable l else s)) s

/-- LINK_DISABLE (R364). -/
def execLinkDisable (src : Src) (l : Nat) (s : State) : Host.Outcome State Fault Refusal :=
  command (fun s => s.inTurn src (.linkDisable l) (fun s => if l < 96 then s.linkDisable l else s)) s

/-- LINK_RETRAIN (R395). -/
def execLinkRetrain (src : Src) (l : Nat) (s : State) : Host.Outcome State Fault Refusal :=
  command (fun s => s.inTurn src (.linkRetrain l) (fun s => if l < 96 then s.linkRetrain l else s)) s

/-- LINK_ADMIT (R364). -/
def execLinkAdmit (src : Src) (l : Nat) (s : State) : Host.Outcome State Fault Refusal :=
  command (fun s => s.inTurn src (.linkAdmit l) (fun s => if l < 96 then s.linkAdmit l else s)) s

/-- LINK_LOCK (R364). -/
def execLinkLock (l : Nat) (s : State) : Host.Outcome State Fault Refusal := linkCmd l (fun s => s.linkLock l) s

/-- 100 ms of training without lock (R364, Table 13-1). -/
def State.trainTimeout (s : State) (l : Nat) : State := if s.lk l = 2 then s.linkTo l 7 (some 3) else s

/-- TRAIN_TIMEOUT. -/
def execTrainTimeout (l : Nat) (s : State) : Host.Outcome State Fault Refusal := linkCmd l (fun s => s.trainTimeout l) s

/-- The end of the hold in DOWN: TRAIN, at the full rate when both modules are in Glaze (R364, R365). -/
def State.downHoldEnd (s : State) (l : Nat) : State :=
  if s.lk l = 7 then s.startTrain l (s.glaze && s.fldReg (rLkPeer l) 30 2 == 1) else s

/-- DOWN_HOLD_END. -/
def execDownHoldEnd (l : Nat) (s : State) : Host.Outcome State Fault Refusal := linkCmd l (fun s => s.downHoldEnd l) s

/-- HELLO_RECEIVE (R366). -/
def execHelloReceive (l : Nat) (p : Packet) (s : State) : Host.Outcome State Fault Refusal :=
  linkCmd l (fun s => (s.consume p).helloReceive l p) s

/-- CERT_RECEIVE (R367). -/
def execCertReceive (l : Nat) (p : Packet) (s : State) : Host.Outcome State Fault Refusal :=
  linkCmd l (fun s => (s.consume p).certReceive l p) s

/-- RATE_RECEIVE (R365). -/
def execRateReceive (l : Nat) (p : Packet) (s : State) : Host.Outcome State Fault Refusal :=
  linkCmd l (fun s => (s.consume p).rateReceive l p) s

/-- RATE_OFFER_TIMEOUT (R66). -/
def execRateOfferTimeout (l : Nat) (s : State) : Host.Outcome State Fault Refusal := linkCmd l (fun s => s.rateOfferTimeout l) s

/-- RATE_DRAIN_END (R365). -/
def execRateDrainEnd (l : Nat) (s : State) : Host.Outcome State Fault Refusal := linkCmd l (fun s => s.rateDrainEnd l) s

/-- DISCOVERY_ROUND (R368). -/
def execDiscoveryRound (src : Src) (s : State) : Host.Outcome State Fault Refusal :=
  command (fun s => s.inTurn src .discoveryRound State.discovery) s

/-- FLIT_RECEIVE (R372). -/
def execFlitReceive (l : Nat) (bytes : List (BitVec 8)) (fec : FecEvent) (s : State) : Host.Outcome State Fault Refusal :=
  linkCmd l (fun s => s.flitReceive l bytes fec) s

/-- IDLE_FLIT (R374). -/
def execIdleFlit (l : Nat) (s : State) : Host.Outcome State Fault Refusal := linkCmd l (fun s => s.idleFlit l) s

/-- WINDOW_MISS (R374). -/
def execWindowMiss (l : Nat) (s : State) : Host.Outcome State Fault Refusal := linkCmd l (fun s => s.windowMiss l) s

end Sys2Proof.Machine
end

