-- ==== Sys2Proof/Machine/Pyro.lean ====
section
/-! DEFINITION. Sys2Proof/Machine/Pyro.lean: the Pyrometer (R330 to R338): island clocks and counters (R27), budgets and headroom
(R331, R332), clock steps and the array throttle (R333 to R335), and its interrupts. Powers are in units of 0.1 W. -/

namespace Sys2Proof.Machine

/-! ## Island clocks -/


/-- Noting a core's counter before its clock changes. -/
def State.rebase (s : State) (n : Nat) : State :=
  let x := s.cycles n
  s.modCore n (fun c => { c with cycBase := x, cycAt := s.usec })

/-- Setting a latched interrupt of core n: bit i of IPEND (R144). -/
def State.pend (s : State) (n i : Nat) : State := s.modCore n (fun c => { c with ipend := setBit c.ipend i true })

/-- The clock step of a core changes: IPEND.PYRO sets (R337). -/
def State.setStep (s : State) (n k : Nat) : State :=
  if (s.core n).step = k then s else ((s.rebase n).modCore n (fun c => { c with step := k })).pend n 4

/-- Busy: in TASK or RUN and not clock-gated (R333). -/
def Core.busy (c : Core) : Bool := (c.dst == .task || c.dst == .run) && !c.gated && !c.waitsReset

/-- Island clock-gated: a Comb wait, a tend until the next dispatch, or the wait for a held compute reset (R58, R336). -/
def Core.gatedNow (c : Core) : Bool := c.gated || c.tended || c.waitsReset

/-! ## What ends without a command -/

/-- A task with its ELAPSED as read now (R320). One of which no instruction issued has no first reading: its ELAPSED is a free value (assumption
log 112). -/
def State.timed (s : State) (n : Nat) (t : Task) : State × Task := match t.cyc0 with
  | some x => (s, { t with elapsed := some (BitVec.ofNat 64 (s.cycles n + 2 ^ 64 - x)) })
  | none => (s.free.2, { t with elapsed := some s.free.1 })

/-- ELAPSED of a task that has ended is taken once its last operation has completed (R320). -/
def State.closeTask (s : State) (n : Nat) : State :=
  match (s.core n).task with
  | none => s
  | some t =>
    if t.endAs.isNone || t.elapsed.isSome || !(s.core n).opsDone then s
    else (s.timed n t).1.modCore n (fun c => { c with task := some (s.timed n t).2 })

/-- ELAPSED of the tasks that a core reset ended is taken once, as RESETTING ends (R320). -/
def State.closeEnded (s : State) (n : Nat) : State :=
  if (s.core n).resetting || (s.core n).ended.all (fun t => t.elapsed.isSome) then s
  else
    let one (p : State × List Task) (t : Task) : State × List Task :=
      if t.elapsed.isSome then (p.1, p.2 ++ [t]) else ((p.1.timed n t).1, p.2 ++ [(p.1.timed n t).2])
    let r := (s.core n).ended.foldl one (s, [])
    r.1.modCore n (fun c => { c with ended := r.2 })

/-- What follows of itself on core n when its last operation completes: ELAPSED is taken (R320), and a core that waits for a compute reset
gates, its class entering G (R58, R332). -/
def State.settleCore (s : State) (n : Nat) : State :=
  let t := (s.closeTask n).closeEnded n
  if (t.core n).waitsReset && !(t.core n).gated then t.gate n else t

/-- The same for every core: done before time passes and before a sum of cone classes is used, which is as soon as it can be seen. -/
def State.settle (s : State) : State := (s.cores.map (·.1)).foldl State.settleCore s

/-- The cores of a die. -/
def dieCores (d : Nat) : List Nat := (List.range 48).map (fun i => 48 * d + i)

/-! ## Budgets and headroom -/

/-- What R331 works out for the four dies: cap and a in 0.1 W, and E_d as fractions. -/
def State.capOf (s : State) (volt : Nat) : Nat := if s.glaze then min (min (10 * s.fldReg rPyCap 16 16) 28000) (6 * volt) else 4000

/-- f[d] in tenths. -/
def derate (t : Nat) : Nat := if t < 95 then 10 else if 105 ≤ t then 0 else 105 - t

/-- E_d from the budget of die d, the sum of the budgets, a and T_d (R331). -/
def budgetOf (bud sum : Nat) (a : Int) (t : Nat) : Int × Nat :=
  if sum = 0 then (0, 1)
  else if a < 10 * (sum : Int) then ((bud : Int) * a * derate t, 10 * sum)
  else ((bud : Int) * 10 * derate t, 10)

/-- A field that shows a power shows 0 for a value below zero (R331); a value above the field shows all ones. -/
def showPower (x : Int) : Nat := min x.toNat 65535

/-- E_d of die d, P_d of die d. -/
def State.eOf (s : State) (d : Nat) : Int × Nat := look (0, 1) s.ebud d
def State.pOf (s : State) (d : Nat) : Int := look 0 s.pdie d

/-- H_d (R332). -/
def State.headroom (s : State) (d : Nat) : Int :=
  let (e, k) := s.eOf d
  let h := (e - s.pOf d * k) / (5 * k : Int) - look 0 s.sums (3 * d) + look 0 s.sums (3 * d + 1) - look 0 s.sums (3 * d + 2)
  max (-128) (min 127 h)

/-- T_d: the hottest reading of die d and of the dies associated with it (R330). -/
def State.dieTemp (s : State) (d : Nat) : Nat :=
  let x (i : Nat) : Nat := s.sensors.dies.getD i 0
  let mine := [x d, x (4 + 2 * d), x (4 + 2 * d + 1), x (12 + d % 2)] ++ (List.range 4).map (fun c => s.sensors.clusters.getD (4 * d + c) 0)
  mine.foldl max 0

/-! ## The interval -/

/-- The clock step a core of die d takes (R333), given P_d and whether input power exceeded the cap. -/
def State.stepOf (s : State) (n : Nat) (p : Int) (high : Bool) : Nat :=
  let c := s.core n
  let (e, k) := s.eOf (n / 48)
  let floor := s.fldReg rPyDvfs 0 5
  let ceil := s.fldReg rPyDvfs 5 5
  if 105 ≤ s.dieTemp (n / 48) then 0
  else if !c.busy then c.step
  else if high then c.step - 1
  else if e < p * k then (if floor < c.step then c.step - 1 else c.step)
  else if 20 * p * k ≤ 19 * e then (if c.step < ceil then c.step + 1 else c.step)
  else c.step

/-- Whether rule 2 of R333 finds a busy core to lower. -/
def State.canLower (s : State) : Bool := s.glaze && (List.range 192).any (fun n => (s.core n).busy && decide (0 < (s.core n).step))

/-- The throttle gap G of the next interval (R334): a throttle that has begun goes on, and doubles, until input power is low. -/
def State.nextGap (s : State) (high low : Bool) : Nat :=
  if low then 0
  else if s.throttle = 0 then (if high ∧ !s.canLower then 128 else 0)
  else min (2 * s.throttle) 8192

/-- The clocks at an interval close (R333, R335): in Bisque only the thermal hold moves them. -/
def State.clocks (s : State) (t : Telemetry) (high : Bool) : State :=
  if s.glaze then
    let ks := (List.range 192).map (fun n => s.stepOf n (t.dies.getD (n / 48) 0) high)
    ks.zipIdx.foldl (fun (s : State) x => s.setStep x.2 x.1) s
  else if s.bisqMhz = 150 then s
  else
    (List.range 4).foldl (fun (s : State) d =>
      if decide (105 ≤ s.dieTemp d) == s.dieHold d then s
      else (dieCores d).foldl (fun (s : State) n => (s.rebase n).pend n 4) s) s

/-- E_d and its reference after an interval (R331, R337): a move of 5 W or more from the reference sets IPEND.PYRO of the die's
cores; the first E_d becomes the reference and sets nothing. -/
def State.takeBudget (s : State) (d : Nat) (e : Int × Nat) : State :=
  let s1 := { s with ebud := put (0, 1) s.ebud d e }
  match look none s.eref d with
  | none => { s1 with eref := put none s1.eref d (some e) }
  | some r =>
    if 50 * (e.2 : Int) * r.2 ≤ |e.1 * r.2 - r.1 * e.2| then
      (dieCores d).foldl (fun (s : State) n => s.pend n 4) { s1 with eref := put none s1.eref d (some e) }
    else s1

/-- The readings of an interval become visible together (R330). -/
def State.showReadings (s : State) (t : Telemetry) (cap : Nat) (other : Int) (avg : Nat) : State :=
  let s1 := s.setReg rPyIn (BitVec.ofNat 32 (t.volt.toNat * 65536 + min t.pwr 65535))
  let s2 := s1.setFldReg rPyCap 0 16 (cap / 10)
  let s3 := s2.setReg rPyAvg (BitVec.ofNat 32 (showPower (other / 10) * 65536 + min avg 65535))
  let s4 := (List.range 4).foldl (fun (s : State) d =>
    let x := s.dieTemp d
    let eff := showPower ((s.eOf d).1 / ((s.eOf d).2 : Int))
    (s.setReg (rPyPwr d) (BitVec.ofNat 32 (eff * 65536 + min (t.dies.getD d 0) 65535))).setReg (rPyTemp d)
      (BitVec.ofNat 32 ((if 105 ≤ x then 512 else 0) + (if 95 ≤ x then 256 else 0) + min x 255))) s3
  (List.range 192).foldl (fun (s : State) n => s.modCore n (fun c =>
    { c with pwr := BitVec.ofNat 16 (min (t.cores.getD n 0) 65535), gheld := false })) s4

/-- An interval closes (R330 to R337). -/
def State.pyroClose (s : State) (t : Telemetry) : State :=
  let cap := s.capOf t.volt.toNat
  let sum := (List.range 4).foldl (fun a d => a + t.dies.getD d 0) 0
  let other : Int := 10 * (t.pwr : Int) - sum
  let high := decide (cap < 10 * t.pwr)
  let gap := s.nextGap high (decide (200 * t.pwr ≤ 19 * cap))
  let s1 := s.clocks t high
  let buds := (List.range 4).map (fun d => s.fldReg (rPyBud d) 0 16)
  let total := buds.foldl (fun a b => a + b) 0
  let s2 := (List.range 4).foldl (fun (s : State) d =>
    s.takeBudget d (budgetOf (buds.getD d 0) total ((cap : Int) - other) (s.dieTemp d))) s1
  let hist := (t.pwr :: s2.phist).take 1000
  let pd := (List.range 4).foldl (fun m d => put 0 m d (t.dies.getD d 0 : Int)) s2.pdie
  let s3 : State := { s2 with pdie := pd, phist := hist, sums := [], throttle := gap, closed := s2.sensors }
  withIrq .pyro (fun (s : State) =>
    { s.showReadings t cap other (hist.foldl (fun a x => a + x) 0 / hist.length) with overCap := high }) s3

/-- PYRO_INTERVAL (R330). -/
def execPyroInterval (t : Telemetry) (s : State) : Host.Outcome State Fault Refusal := command (fun s => s.settle.pyroClose t) s

/-- A write of PYRO_DVFS (R338). -/
def State.dvfsWrite (s : State) (w : W32) : State :=
  if fld w 5 5 < fld w 0 5 ∨ 18 < fld w 5 5 ∨ 18 < fld w 0 5 then s.err .pyro 1 else s.setReg rPyDvfs (w &&& 0x3FF)

/-- DVFS_WRITE (R338). -/
def execDvfsWrite (src : Src) (w : BitVec 32) (s : State) : Host.Outcome State Fault Refusal :=
  command (fun s => s.inTurn src (.dvfsWrite w) (fun s => s.dvfsWrite w)) s

end Sys2Proof.Machine
end

