-- ==== Sys2Proof/Machine/Scarab.lean ====
section
/-! DEFINITION. Sys2Proof/Machine/Scarab.lean: the queue engine: the queue table (R314 to R317), descriptors (R318), doorbells
(R321, R322), candidates and dispatch (R324 to R327), preemption (R328) and completion records (R319, R320). -/

namespace Sys2Proof.Machine

/-- A queue table entry after a cold reset (R314). -/
def Queue.reset : Queue := { qe0 := 0, qe1 := 0, qe2 := 0, qe3 := 0, desc := none, ready := 0, mark := false, wr := 0 }

/-- Queue q. -/
def State.queue (s : State) (q : Nat) : Queue := look Queue.reset s.queues q

/-- Fields of a queue table entry (Table 11-1). -/
def Queue.en (e : Queue) : Bool := e.qe1.getLsbD 13
def Queue.host (e : Queue) : Bool := e.qe1.getLsbD 12
def Queue.base (e : Queue) : Nat := fld e.qe1 0 12 * 2 ^ 32 + e.qe0.toNat
def Queue.ring (e : Queue) : Nat := 2 ^ fld e.qe1 22 5
def Queue.prio (e : Queue) : Nat := fld e.qe1 15 3
def Queue.tail (e : Queue) : Nat := fld e.qe2 0 24
def Queue.head (e : Queue) : Nat := fld e.qe3 0 24
def Queue.infl (e : Queue) : Bool := e.qe3.getLsbD 27

/-- The pending count (R315). -/
def Queue.count (e : Queue) : Nat := (e.tail + 2 ^ 24 - e.head) % 2 ^ 24

/-- A candidate (R324). -/
def Queue.cand (e : Queue) : Bool :=
  e.en && decide (0 < e.count) && (!e.infl || !e.qe1.getLsbD 14) && e.desc.isSome && !e.mark

/-- A queue table entry changed: its ready time is the moment it becomes a candidate with its present HEAD (R324). -/
def State.modQueue (s : State) (q : Nat) (f : Queue → Queue) : State :=
  let e := s.queue q
  let e1 := f e
  let e2 := if e1.cand && !(e.cand && e1.head == e.head) then { e1 with ready := s.usec } else e1
  { s with queues := put Queue.reset s.queues q e2 }

/-- The queue table's entry q is read: an error there that cannot be corrected clears EN, and QERR becomes POISON (R502). -/
def State.readQueue (s : State) (q : Nat) : State :=
  let (t, bad) := s.findsAt (.queue q)
  if bad then t.modQueue q (fun e => { e with qe1 := setBit e.qe1 13 false, qe3 := setFld e.qe3 24 3 1, mark := true, wr := 0 }) else t

/-- Every entry of the queue table is read, as the Scarab looks for candidates (R324, R326). -/
def State.readQueues (s : State) : State :=
  ((s.upsets.filterMap (fun u => match u.site with
    | .queue q => some q
    | _ => none)).dedup).foldl State.readQueue s

/-- The slot of the head descriptor: a local word address, or a host byte address (R315). -/
def Queue.slotAddr (e : Queue) : Nat :=
  let slot := e.head % e.ring
  if e.host then e.base * 256 + 64 * slot else (e.base / 128 * 128 + 32 * slot) % 2 ^ 44

/-! ## Doorbells and the queue table -/

/-- A queue doorbell (R321). -/
def State.queueDoorbell (s : State) (w : W32) : State :=
  if fld w 0 12 = 0 then s
  else (s.readQueue (fld w 12 20)).modQueue (fld w 12 20) (fun e => { e with qe2 := setFld e.qe2 0 24 (e.tail + fld w 0 12) })

/-- A core doorbell (R322). -/
def State.coreDoorbell (s : State) (w : W32) : State := if fld w 0 8 < 192 then s.pend (fld w 0 8) 1 else s

/-- QUEUE_DOORBELL (R321). -/
def execQueueDoorbell (src : Src) (w : BitVec 32) (s : State) : Host.Outcome State Fault Refusal :=
  command (fun s => s.inTurn src (.queueDoorbell w) (fun s => s.queueDoorbell w)) s

/-- CORE_DOORBELL (R322). -/
def execCoreDoorbell (src : Src) (w : BitVec 32) (s : State) : Host.Outcome State Fault Refusal :=
  command (fun s => s.inTurn src (.coreDoorbell w) (fun s => s.coreDoorbell w)) s

/-- QCMD ENABLE and DISABLE (Table 11-2). -/
def State.queueEnable (s : State) (q : Nat) : State :=
  (s.readQueue q).modQueue q (fun e => { e with qe1 := setBit e.qe1 13 true, qe3 := setFld e.qe3 24 3 0 })
def State.queueDisable (s : State) (q : Nat) : State := (s.readQueue q).modQueue q (fun e => { e with qe1 := setBit e.qe1 13 false })

/-- QUEUE_ENABLE (R317). -/
def execQueueEnable (src : Src) (q : BitVec 20) (s : State) : Host.Outcome State Fault Refusal :=
  command (fun s => s.inTurn src (.queueEnable q) (fun s => s.queueEnable q.toNat)) s

/-- QUEUE_DISABLE (R317). -/
def execQueueDisable (src : Src) (q : BitVec 20) (s : State) : Host.Outcome State Fault Refusal :=
  command (fun s => s.inTurn src (.queueDisable q) (fun s => s.queueDisable q.toNat)) s

/-- A register of a queue table entry has been written: once all four have, a poison mark clears (R502). -/
def Queue.wrote (e : Queue) (i : Nat) : Queue :=
  let wr := setBit e.wr i true
  if e.mark && wr == 0xF then { e with mark := false, wr := 0 } else if e.mark then { e with wr := wr } else e

/-- A write of QE0 to QE3 of the selected entry (R316, Table 11-1). A head descriptor read before it is read again. -/
def State.qeWrite (s : State) (i : Nat) (w : W32) : State :=
  let q := s.fldReg rQsel 0 20
  let s := s.readQueue q
  if (s.queue q).en then s.err .scarab 1
  else
    let (t, v) := if i = 1 then s.reserve w 22 5 24 else (s, w)
    t.modQueue q (fun e =>
      let e1 := { e with desc := none }.wrote i
      if i = 0 then { e1 with qe0 := v }
      else if i = 1 then { e1 with qe1 := v &&& 0x07FFDFFF }
      else if i = 2 then { e1 with qe2 := v &&& 0xFFFFFF }
      else { e1 with qe3 := (e1.qe3 &&& 0x0F000000) ||| (v &&& 0xFFFFFF) })

/-- QE_WRITE (R316). -/
def execQeWrite (src : Src) (i : Fin 4) (w : BitVec 32) (s : State) : Host.Outcome State Fault Refusal :=
  command (fun s => s.inTurn src (.qeWrite i w) (fun s => s.qeWrite i.val w)) s

/-- PREEMPT (R328). -/
def State.preempt (s : State) (w : W32) : State :=
  let n := fld w 0 8
  if n < 192 ∧ (s.core n).dst = .task then s.pend n 0 else s

/-- PREEMPT. -/
def execPreempt (src : Src) (w : BitVec 32) (s : State) : Host.Outcome State Fault Refusal :=
  command (fun s => s.inTurn src (.preempt w) (fun s => s.preempt w)) s

/-! ## Descriptors -/

/-- A refused descriptor stops its queue: QERR, Q_STOPPED and ERRQ (R324). -/
def State.refuseDesc (s : State) (q code : Nat) : State :=
  let s1 := s.modQueue q (fun e => { e with qe1 := setBit e.qe1 13 false, qe3 := setFld e.qe3 24 3 code })
  let s2 := if s1.errqSet then s1 else { s1.setReg rErrq (BitVec.ofNat 32 q) with errqSet := true }
  s2.err .scarab 2

/-- Whether CXL.cache may be used: in Glaze, with the link up (R70, R476). -/
def State.cacheUp (s : State) : Bool := s.glaze && s.bitReg rLstat 31

/-- Whether the words of a slot lie in a tier that may hold a ring, and can be reached (R315). -/
def State.slotOk (s : State) (a : Nat) : Bool := (addrs a 32).all s.tableOk

/-- The device holds a host line over CXL.cache: at most 4,096, another going when they are full (R472). -/
def State.holdLine (s : State) (l : Nat) : State :=
  let m := if look false s.hostLines l || s.hostLines.length < 4096 then s.hostLines else s.hostLines.drop 1
  { s with hostLines := put false m l true }

/-- The words of a descriptor that passes, or the QERR it is refused with (R318). -/
def descCheck (ws : List Word) (marked : Bool) : Except Nat (List Word) :=
  if marked then .error 1 else if natOfWords (ws.take 1) % 2 ^ 11 ≠ 0 then .error 3 else .ok ws

/-- The Scarab reads the head descriptor of queue q, or refuses it (R318). -/
def State.descriptorRead (s : State) (q : Nat) (host : HostLine) : State :=
  let s := s.readQueue q
  let e := s.queue q
  let take (s : State) (r : Except Nat (List Word)) : State := match r with
    | .error k => s.refuseDesc q k
    | .ok ws => s.modQueue q (fun e => { e with desc := some { words := ws } })
  if !e.en || e.count = 0 || e.desc.isSome || e.mark then s
  else
    let a := e.slotAddr
    if e.host then
      if !s.cacheUp then s.refuseDesc q 2 else take (s.holdLine (a / 64)) (descCheck host.words host.poison)
    else if !s.slotOk a then s.refuseDesc q 2
    else if s.biHeld (inRun a 32) then s.biAsk (inRun a 32)
    else
      let t := s.touchAll (addrs a 32)
      take t (descCheck (t.words a 32) (t.anyMark a 32))

/-- DESCRIPTOR_READ (R318). -/
def execDescriptorRead (q : BitVec 20) (host : HostLine) (s : State) : Host.Outcome State Fault Refusal :=
  command (fun s => s.descriptorRead q.toNat host) s

/-! ## Dispatch -/

/-- TCTL of the head descriptor: its cone class (Table 11-3). -/
def Desc.tctl (d : Desc) : Nat := natOfWords (d.words.take 2)
def Queue.cone (e : Queue) : Nat := match e.desc with
  | some d => d.tctl / 4096 % 16
  | none => 0

/-- A candidate for die d (R326). -/
def Queue.candFor (e : Queue) (d : Nat) : Bool := e.cand && e.qe1.getLsbD (18 + d)

/-- Whether core n may receive a task. -/
def State.idleCore (s : State) (n : Nat) : Bool := (s.core n).dst == .idle && (s.core n).task.isNone

/-- The idle core a task goes to on die d: the lowest of the cluster that was coolest at the last interval close (R326). -/
def State.pickCore (s : State) (d : Nat) : Option Nat :=
  let idle (c : Nat) : Option Nat := ((List.range 12).map (fun i => 48 * d + 12 * c + i)).find? s.idleCore
  let temp (c : Nat) : Nat := s.closed.clusters.getD (4 * d + c) 0
  let best := (List.range 4).foldl (fun (b : Option Nat) c => match idle c, b with
    | none, _ => b
    | some _, none => some c
    | some _, some x => if temp c < temp x then some c else b) none
  best.bind idle

/-- The first of a list by an order given as a test of "comes before", ties to the earlier element. -/
def firstBy {α : Type} (lt : α → α → Bool) : List α → Option α
  | [] => none
  | x :: r => match firstBy lt r with
    | none => some x
    | some y => some (if lt y x then y else x)

/-- The copy of words 0 to 23 into the mailbox, wrapping in the window (R325). -/
def State.copyMailbox (s : State) (n off : Nat) (ws : List Word) : State :=
  s.writeMarked ((ws.zipIdx).map (fun e => (localAddr n (off + e.2), e.1, false)))

/-- Dispatching the head descriptor of queue q to core n (R325, R332, R352). -/
def State.dispatchTo (s : State) (q n : Nat) : State :=
  let e := s.queue q
  match e.desc with
  | none => s
  | some d =>
    let mbox := s.fldReg (rMbox n) 0 20
    let t : Task := { queue := q, slot := e.head % e.ring, host := e.host, addr := e.slotAddr, sem := BitVec.ofNat 16 (d.tctl / 65536),
                      cone := e.cone, sig := d.tctl / 2048 % 2 == 1, cyc0 := none, endAs := none, elapsed := none }
    let s1 := s.copyMailbox n mbox (d.words.take 24)
    let s2 := s1.modQueue q (fun e => { e with desc := none, qe3 := setBit (setFld e.qe3 0 24 (e.head + 1)) 27 true })
    let s3 := (s2.addSum (3 * (n / 48)) t.cone).clearTask n
    s3.modCore n (fun c => { c.drain with sr := 0xC0000000, a := put 0 c.drain.a 0 (BitVec.ofNat 64 (winBase + mbox)), prog := 0,
                                          pc := BitVec.ofNat 64 (winBase + s.fldReg (rDisp n) 0 20), redirect := none, slot := false,
                                          dst := .task, task := some t, gated := false, gheld := false, tended := false })

/-- The time a queue's head has waited, in µs (R324). -/
def State.waited (s : State) (q : Nat) : Nat := s.usec - (s.queue q).ready

/-- select(d) of R326: a queue to dispatch to die d, or what becomes of the die's reservation. -/
inductive Pick where
  | send (q : Nat) (clear : Bool) | reserve (q : Nat) | clear | nothing

/-- Whether every core of a die is idle or off (R326). -/
def State.dieQuiet (s : State) (d : Nat) : Bool := (dieCores d).all (fun n => (s.core n).dst == .idle || (s.core n).dst == .off)

/-- The choice of R326 for die d. -/
def State.select (s : State) (d : Nat) : Pick :=
  let h := s.headroom d
  let fits (q : Nat) : Bool := decide (((s.queue q).cone : Int) ≤ h)
  let r := look 0 s.res d
  if r ≠ 0 then
    if !(s.queue (r - 1)).candFor d then .clear
    else if fits (r - 1) || s.dieQuiet d then .send (r - 1) true
    else .nothing
  else
    let cands := (s.queues.map (·.1)).filter (fun q => (s.queue q).candFor d)
    let age := s.fldReg rAge 0 16
    let elsewhere (q : Nat) : Bool := (List.range 4).any (fun x => x ≠ d && look 0 s.res x == q + 1)
    let old := if age = 0 then [] else cands.filter (fun q => decide (age ≤ s.waited q) && !elsewhere q)
    match firstBy (fun x y => decide ((s.queue x).ready < (s.queue y).ready)) old with
    | some q => if fits q then .send q false else .reserve q
    | none =>
      let before (x y : Nat) : Bool := decide ((s.queue y).prio < (s.queue x).prio) ||
        ((s.queue x).prio == (s.queue y).prio && decide ((s.queue x).ready < (s.queue y).ready))
      match firstBy before (cands.filter fits) with
      | some q => .send q false
      | none => .nothing

/-- The dies with an idle core, in descending headroom, ties to the lower number (R326). -/
def State.dieOrder (s : State) : List Nat :=
  ((List.range 4).filter (fun d => (s.pickCore d).isSome)).insertionSort (fun x y => s.headroom y ≤ s.headroom x)

/-- One pass over the dies: reservations set and clear, and at most one task is dispatched (R325, R326). -/
def dispatchPass : List Nat → State → State
  | [], s => s
  | d :: r, s =>
    match s.select d with
    | .send q clr =>
      let s1 := if clr then { s with res := put 0 s.res d 0 } else s
      match s1.pickCore d with
      | some n => s1.dispatchTo q n
      | none => s1
    | .reserve q => dispatchPass r { s with res := put 0 s.res d (q + 1) }
    | .clear => dispatchPass r { s with res := put 0 s.res d 0 }
    | .nothing => dispatchPass r s

/-- DISPATCH (R325, R326). -/
def execDispatch (s : State) : Host.Outcome State Fault Refusal :=
  command (fun s =>
    let t := s.settle.readQueues
    dispatchPass t.dieOrder t) s

/-! ## Completion records -/


/-- CSTAT of a record (Table 11-3). -/
def cstat (e : TaskEnd) (n : Nat) : W32 :=
  BitVec.ofNat 32 (2 ^ 31 + (match e with
    | .tend => 0
    | .stopped => 1
    | .reset => 2) * 2 ^ 28 + n)

/-- The steps of R319, in order: words 26 to 31, words 24 and 25, the semaphore add. Records of host rings go out over CXL.cache. -/
def State.writeRecord (s : State) (n : Nat) (t : Task) (e : TaskEnd) (elapsed : W64) : State :=
  let w1 := [0, 0] ++ wordsOf64 elapsed
  let w2 := wordsOf32 (cstat e n)
  let s1 : State := if t.host then { s.holdLine (t.addr / 64) with hostOut := s.hostOut ++ [(t.addr + 52, w1), (t.addr + 48, w2)] }
    else (s.writeRun (t.addr + 26) w1).writeRun (t.addr + 24) w2
  if t.sig then s1.semSignal t.sem.toNat 1 else s1

/-- INFL of a queue after a record: whether a task of it still has none (Table 11-1). -/
def State.inflAfter (s : State) (q : Nat) : Bool := s.cores.any (fun e => (e.2.task.toList ++ e.2.ended).any (fun t => t.queue == q))

/-- The end of a task whose ELAPSED has been taken (R319, R323, R332). A record to host memory waits for CXL.cache (R476). -/
def State.recordTask (s : State) (n : Nat) (t : Task) (e : TaskEnd) (el : W64) : State :=
  if t.host && !s.cacheUp then s
  else if !t.host && s.biHeld (inRun t.addr 32) then s.biAsk (inRun t.addr 32)
  else
    let s2 := s.writeRecord n t e el
    let dst : Dst := if e = .tend ∧ !s2.bitReg (rRun n) 0 then .idle else .off
    let s3 := s2.modCore n (fun c => if e = .reset then { c with ended := c.ended.drop 1 } else { c with task := none, dst := dst })
    let s4 := if e = .reset then s3 else s3.addSum (3 * (n / 48) + 1) t.cone
    let s5 := (s4.readQueue t.queue).modQueue t.queue (fun q => { q with qe3 := setBit q.qe3 27 (s4.inflAfter t.queue) })
    { s5 with stepCyc := s5.stepCyc + el }

/-- The record of a task of core n is written once its operations have completed, or its core's reset has ended (R319, R320): first of the tasks
that resets ended, in their order. The record is begun and finished here at once, so that a reset before it finds none begun (R323). -/
def State.completionRecord (s : State) (n : Nat) : State :=
  let s1 := s.settleCore n
  match ((s1.core n).ended ++ (s1.core n).task.toList).head? with
  | some t => (match t.endAs, t.elapsed with
    | some e, some el => s1.recordTask n t e el
    | _, _ => s1)
  | none => s1

/-- COMPLETION_RECORD (R319). -/
def execCompletionRecord (n : Nat) (s : State) : Host.Outcome State Fault Refusal := command (fun s => s.completionRecord n) s

/-- What a compute reset does to the queues (R314): EN and INFL clear; the engine's reads and reservations are forgotten. -/
def State.scarabReset (s : State) : State :=
  (s.queues.map (·.1)).foldl (fun (s : State) q =>
    s.modQueue q (fun e => { e with qe1 := setBit e.qe1 13 false, qe3 := setBit e.qe3 27 false, desc := none })) { s with res := [] }

end Sys2Proof.Machine
end

