-- ==== Sys2Proof/Machine/Fabric.lean ====
section
/-! DEFINITION. Sys2Proof/Machine/Fabric.lean: routed packets (R382, R388), what a module does for the requests of others (R391, R392),
the answers to its own (R379, R381), and remote doorbells (R392). -/

namespace Sys2Proof.Machine


/-- A unicast packet is delivered here, or routed to another module (R382). One whose link drains for a rate change waits (R365), as does one with
an earlier packet of its class, source and destination still here (R384). Link-local packets are never routed (R378). -/
def State.packetRoute (s : State) (src : Option Nat) (p : Packet) : State :=
  if isMc p || p.class? == some 3 then s
  else if !s.mayLeave p then s.keep p
  else if p.dst = s.chip then s.keep p
  else
    let u := s.consume p
    let t := u.route src p
    if u.inbox.countP (fun r => r.pkt == p) < t.inbox.countP (fun r => r.pkt == p) then s.keep p else t

/-- PACKET_ROUTE (R382). -/
def execPacketRoute (src : Option Nat) (p : Packet) (s : State) : Host.Outcome State Fault Refusal :=
  command (fun s => s.packetRoute src p) s

/-- A multicast packet is forwarded (R388). It waits behind an earlier one of its root and group. -/
def State.forward (s : State) (src : Option Nat) (p : Packet) : State :=
  if !isMc p then s
  else if !s.mayLeave p then
    if s.inbox.any (fun r => r.pkt == p && !r.copy) then s
    else { s with inbox := s.inbox ++ [{ link := src, lane := 4 + p.subl, pkt := p }] }
  else s.mcForward src p

/-- MULTICAST_FORWARD (R388). -/
def execMulticastForward (src : Option Nat) (p : Packet) (s : State) : Host.Outcome State Fault Refusal :=
  command (fun s => s.forward src p) s

/-- Words of an RD or WR (Table 13-6): at most 128. -/
def reqWords (p : Packet) : Nat := min 128 (fld p.tsf 0 8)

/-- The addresses of a request's words at the target (R5). -/
def reqAddrs (p : Packet) : List Nat := (List.range (reqWords p)).map (fun i => (p.addr + i) % 2 ^ 44)

/-- Answering a request that fails: JOB_FAULT records a failure of its job translation, and a physical access that cannot be reached has none
(R301, R304, Tables 10-11 and 13-7). -/
def State.answerBad (s : State) (p : Packet) (c : Cause) : State := (s.jobFault (Config.fromSupervisor p.hdr.toNat)).originate (answerSpec p (xlateStat c) [])

/-- Whether a request's access is taken as one issued at supervisor level, whose local part is physical (R301; assumption log 66). -/
def Packet.sup (p : Packet) : Bool := Config.fromSupervisor p.hdr.toNat

/-- A remote read (R391): translated and read here, and answered with the words and their marks. -/
def State.rdRequest (s : State) (p : Packet) : State :=
  match s.jobRead p.addr (reqWords p) (Packet.sup p) with
  | .wait t => t.keep p
  | .bad t c _ => (t.consume p).answerBad p c
  | .ok t ws => (t.consume p).originate (answerSpec p 0 ws)

/-- RD_REQUEST (R391). -/
def execRdRequest (p : Packet) (s : State) : Host.Outcome State Fault Refusal := command (fun s => s.rdRequest p) s

/-- A remote write (R391): translated, written here with its marks, and answered; a page copy or a step command holds it. -/
def State.wrRequest (s : State) (p : Packet) : State :=
  let ws := ((reqAddrs p).zip (p.marked (reqWords p))).map (fun e => (e.1, e.2.1, e.2.2))
  match s.jobWrite (Packet.sup p) ws with
  | .wait t => t.keep p
  | .bad t c _ => (t.consume p).answerBad p c
  | .ok t _ => (t.consume p).originate (answerSpec p 0 [])

/-- WR_REQUEST (R391). -/
def execWrRequest (p : Packet) (s : State) : Host.Outcome State Fault Refusal := command (fun s => s.wrRequest p) s

/-- A remote doorbell (R392, Table 13-6). -/
def State.dbPacket (s : State) (p : Packet) : State :=
  let s1 := s.consume p
  let w := p.tsf.extractLsb' 0 32
  (if p.tsf.getLsbD 32 then s1.coreDoorbell w else s1.queueDoorbell w).originate (answerSpec p 0 [])

/-- DB_PACKET (R392). -/
def execDbPacket (p : Packet) (s : State) : Host.Outcome State Fault Refusal := command (fun s => s.dbPacket p) s

/-- An answer to a request of this module (R379, R380). -/
def State.fabricAnswer (s : State) (p : Packet) : State :=
  ((s.consume p).completeReq p.tag p.stat (p.marked p.data.length)).sendWaiting

/-- FABRIC_ANSWER (R379). -/
def execFabricAnswer (p : Packet) (s : State) : Host.Outcome State Fault Refusal := command (fun s => s.fabricAnswer p) s

/-- REQUEST_TIMEOUT (R381). -/
def execRequestTimeout (tag : BitVec 17) (s : State) : Host.Outcome State Fault Refusal :=
  command (fun s => s.timeOut tag) s

/-- A store to FABRIC_RDB_n (R392): a DB packet to the chip of FABRIC_RDBD_n; a failure is taken by core n, with the register's
address. A store that finds no fabric tag free waits (R380). -/
def State.remoteDoorbell (s : State) (n : Nat) (w : W32) : State :=
  let r := s.reg (rRdbd n)
  let fa := BitVec.ofNat 64 (mmioBase + (0x7804 + 8 * n) / 2)
  s.postReq (.posted n fa) fa (reqSpec (fld r 0 20) 7 0 (BitVec.ofNat 64 (fld r 20 1 * 2 ^ 32 + w.toNat)) [])

/-- REMOTE_DOORBELL_STORE (R392). -/
def execRemoteDoorbellStore (src : Src) (n : Nat) (w : BitVec 32) (s : State) : Host.Outcome State Fault Refusal :=
  command (fun s => s.inTurn src (.remoteDoorbellStore n w) (fun s => if n < 192 then s.remoteDoorbell n w else s)) s

end Sys2Proof.Machine
end

