-- ==== Sys2Proof/Machine/Ras.lean ====
section
/-! DEFINITION. Sys2Proof/Machine/Ras.lean: the address log (R505), scrubs (R507 to R509), field repair (R510 to R512), and the JTAG
instructions (R479). -/

namespace Sys2Proof.Machine

/-! ## Flash -/

/-- The flash device of a slot: false is A, true is B (R29). -/
def State.flash (s : State) (b : Bool) : Store Byte := if b then s.flashB else s.flashA

/-- The state with a flash device replaced. -/
def State.setFlash (s : State) (b : Bool) (m : Store Byte) : State := if b then { s with flashB := m } else { s with flashA := m }

/-- The bytes of a flash device: 64 MiB (R29). -/
def flashSize : Nat := 0x4000000

/-- Programming bytes of a slot; what lies beyond the device's end is not programmed. -/
def State.program (s : State) (b : Bool) (i : Nat) (bs : List Byte) : State :=
  s.setFlash b (putRun 0xFF (s.flash b) i (bs.take (flashSize - i)))

/-! ## The address log -/

/-- Emptying the address log (R505). -/
def State.logClear (s : State) : State := withIrq .ras (fun (s : State) => { s.setFldReg rLogctl 0 24 0 with log := [] }) s

/-- LOG_CLR (R505). -/
def execLogClr (src : Src) (s : State) : Host.Outcome State Fault Refusal :=
  command (fun s => s.inTurn src .logClr State.logClear) s

/-! ## Scrub -/

/-- The codewords that hold a word of a range, in address order (R507). -/
def scrubCws (base cnt : Nat) : List Nat := ((addrs base cnt).filter (fun a => a == base || cwOf a == a)).map cwOf

/-- One codeword of a scrub (R508, Table 18-6). -/
def State.scrubOne (s : State) (clear : Bool) (c : Nat) : State :=
  let before := s.poisoned c
  let ce := decide (look Latent.none s.latent c = .ce)
  let s1 := (s.touch c).countReg rScrScan 0 32 1
  let s2 := if ce then s1.countReg rScrCorr 0 32 1 else s1
  if !s2.poisoned c then s2
  else
    let s3 := s2.countReg (if before then rScrPsn else rScrUe) 0 32 1
    let s4 := if s3.bitReg rScrFpaHi 31 then s3
      else (s3.setReg rScrFpaLo (BitVec.ofNat 32 c)).setReg rScrFpaHi (BitVec.ofNat 32 (2 ^ 31 + c / 2 ^ 32))
    if clear then (s4.writeRun c (List.replicate (cwLen c) 0)).countReg rScrClrd 0 32 1 else s4

/-- The end of a scrub: every codeword has been handled; BUSY clears, and SEM receives an add of 1 if S is set (R509). A line that
the host may cache is snooped first (R470). -/
def State.scrubComplete (s : State) : State :=
  match s.scrub with
  | none => s
  | some (base, cnt) =>
    if s.biHeld (inRun base cnt) then s.biAsk (inRun base cnt)
    else
      let s1 := (scrubCws base cnt).foldl (fun (s : State) c => s.scrubOne (s.bitReg rScrCtl 29) c) s
      let s2 := withIrq .scrub (fun (s : State) => { s.setFldReg rScrCtl 30 1 0 with scrub := none }) s1
      if s2.bitReg rScrCtl 28 then s2.semSignal (s2.fldReg rScrCtl 0 16) 1 else s2

/-- The range of SCRUB_BASE and SCRUB_CNT. -/
def State.scrubBase (s : State) : Nat := s.fldReg rScrBaseHi 0 12 * 2 ^ 32 + (s.reg rScrBaseLo).toNat
def State.scrubCnt (s : State) : Nat := s.fldReg rScrCntHi 0 12 * 2 ^ 32 + (s.reg rScrCntLo).toNat

/-- A write of SCRUB_CTL with GO (R507): refused while a scrub is in progress or for a range that is not wholly reachable. -/
def State.scrubGo (s : State) (w : W32) : State :=
  if s.bitReg rScrCtl 30 then s.err .scrub 1
  else
    let s1 := s.setReg rScrCtl (w &&& 0x3000FFFF)
    let base := s1.scrubBase
    let cnt := s1.scrubCnt
    if !(addrs base cnt).all s1.jobReach then s1.err .scrub 2
    else
      let s2 := [rScrScan, rScrCorr, rScrUe, rScrPsn, rScrClrd, rScrFpaLo, rScrFpaHi].foldl (fun (s : State) r => s.setReg r 0) s1
      let s3 := withIrq .scrub (fun (s : State) => { s.setFldReg rScrCtl 30 1 1 with scrub := some (base, cnt) }) s2
      if cnt = 0 then s3.scrubComplete else s3

/-- SCRUB_GO (R507). -/
def execScrubGo (src : Src) (w : BitVec 32) (s : State) : Host.Outcome State Fault Refusal :=
  command (fun s => s.inTurn src (.scrubGo w) (fun s => s.scrubGo w)) s

/-- SCRUB_COMPLETE (R509). -/
def execScrubComplete (s : State) : Host.Outcome State Fault Refusal := command State.scrubComplete s

/-! ## Field repair -/

/-- The stack, bank and row of a stacked DRAM word, as a repair names it. -/
def State.rowOf (s : State) (a : Nat) : Repair :=
  let (st, ch, b, r) := stackedMap s a
  .row st (ch * 32 + b) r

/-- Whether a repair allots a spare row of a bank, or a spare column group of a channel. -/
def Repair.inBank (x : Repair) (st b : Nat) : Bool := match x with
  | .row t c _ => t == st && c == b
  | .col _ _ _ => false
  | .sram _ _ _ => false
  | .group _ _ _ => false
def Repair.inChan (x : Repair) (st ch : Nat) : Bool := match x with
  | .group t c _ => t == st && c == ch
  | .row _ _ _ => false
  | .col _ _ _ => false
  | .sram _ _ _ => false

/-- Fuses as they can be set: at most 8 spare rows of a bank and 2 spare column groups of a channel (R510). -/
def fusesOk (fuses : List Repair) : Bool :=
  fuses.all (fun x => match x with
    | .row st b _ => decide (fuses.countP (fun y => y.inBank st b) ≤ 8)
    | .group st ch _ => decide (fuses.countP (fun y => y.inChan st ch) ≤ 2)
    | .col _ _ _ => true
    | .sram _ _ _ => true)

/-- Spare rows of a bank in use: by the fuses, and in the field and in force (R510). -/
def State.sparesUsed (s : State) (st b : Nat) : Nat := (s.fuses ++ s.fieldRows).countP (fun x => x.inBank st b)

/-- STATUS of a repair command that ends (R511). -/
def State.rpStatus (s : State) (k : Nat) : State := (s.setFldReg rRpcmd 20 4 k).setFldReg rRpcmd 29 1 0

/-- A repair command starts. -/
def State.rpStart (s : State) (x : Repair) : State := { s.setFldReg rRpcmd 29 1 1 with repairing := some x }

/-- RAS_RPA. -/
def State.rpa (s : State) : Nat := s.fldReg rRpaHi 0 12 * 2 ^ 32 + (s.reg rRpaLo).toNat

/-- The words of the row that holds a word. -/
def rowWords (a : Nat) : List Nat := addrs (a / 2048 * 2048) 2048

/-- Copying a row through its check code and redirecting it, once no line of it may be cached by the host (R470, R511). -/
def State.rowGo (s : State) : State :=
  match s.rowWait with
  | none => s
  | some a =>
    if s.biHeld (inList (rowWords a)) then s.biAsk (inList (rowWords a))
    else
      let t := s.touchAll (rowWords a)
      { t with fieldRows := t.fieldRows ++ [t.rowOf a], rowWait := none }

/-- RAS_RPCMD ROW (R511): the row is copied and redirected at once. -/
def State.rpRow (s : State) : State :=
  let a := s.rpa
  if s.bitReg rRpcmd 29 then s.err .ras 1
  else if !s.glaze || regionOf a ≠ .stacked then s.rpStatus 3
  else
    let (st, ch, b, _) := stackedMap s a
    if 8 ≤ s.sparesUsed st (ch * 32 + b) then s.rpStatus 1
    else
      State.rowGo { s.rpStart (s.rowOf a) with rowWait := some a }

/-- RP_ROW (R511). -/
def execRpRow (src : Src) (s : State) : Host.Outcome State Fault Refusal :=
  command (fun s => s.inTurn src .rpRow State.rpRow) s

/-- RAS_RPCMD ACOL (R511). -/
def State.rpAcol (s : State) (w : W32) : State :=
  if s.bitReg rRpcmd 29 then s.err .ras 1
  else if 191 < fld w 12 8 then s.rpStatus 3
  else s.rpStart (.col (fld w 12 8) (fld w 10 2) (fld w 0 6))

/-- RP_ACOL (R511). -/
def execRpAcol (src : Src) (w : BitVec 32) (s : State) : Host.Outcome State Fault Refusal :=
  command (fun s => s.inTurn src (.rpAcol w) (fun s => s.rpAcol w)) s

/-- The repair log in flash: 4,096 entries of 16 bytes from byte 0x3FE_0000 (R512). -/
def logBase : Nat := 0x3FE0000
def logMax : Nat := 4096

/-- The 16 bytes of an entry of the repair log, whose layout the spec does not give. -/
def Repair.bytes (x : Repair) : List Byte :=
  let (k, a, b, c) := match x with
    | .row st b r => (0, st, b, r)
    | .col n q c => (1, n, q, c)
    | .sram d m r => (2, d, m, r)
    | .group st ch c => (3, st, ch, c)
  (List.range 16).map (Config.repairByte k a b c)

/-- Writing an entry to the repair log of both flash devices (R512). -/
def State.logRepair (s : State) (x : Repair) : State :=
  let i := logBase + 16 * s.repairs.length
  { (s.program false i x.bytes).program true i x.bytes with repairs := s.repairs ++ [x] }

/-- The end of a repair command (R511, R512): its entry goes to the repair log of both flash devices, unless they are write-protected
or the log is full. A row whose copy waits for the host is not done. -/
def State.rpComplete (s : State) : State :=
  if s.rowWait.isSome then s
  else match s.repairing with
  | none => s
  | some x =>
    let s1 := { s with repairing := none }
    if !s.pins.fwWpN then s1.rpStatus 2
    else if logMax ≤ s.repairs.length then s1.rpStatus 4
    else (s1.logRepair x).rpStatus 0

/-- RPCMD_COMPLETE (R511): the Firefly writes the log, so not during its restart. -/
def execRpcmdComplete (s : State) : Host.Outcome State Fault Refusal := command (fun s => if s.flyDown then s else s.rpComplete) s

/-- Columns bypassed in an array by the fuse map (R281, R510): its width is 64, 63 or 0. -/
def arrCols (fuses : List Repair) (n q : Nat) : List Nat :=
  (fuses.filterMap (fun x => match x with
    | .col c r k => if c = n ∧ r = q then some k else none
    | .row _ _ _ => none
    | .sram _ _ _ => none
    | .group _ _ _ => none)).dedup

/-! ## JTAG -/

/-- JTAG_BYPASS (R479). -/
def execJtagBypass (s : State) : Host.Outcome State Fault Refusal := command (fun (s : State) => { s with tap := .bypass, tapDr := 0 }) s

/-- JTAG_IDCODE (R479). -/
def execJtagIdcode (s : State) : Host.Outcome State Fault Refusal :=
  command (fun (s : State) => { s with tap := .idcode, tapDr := 0x1096A3C5 }) s

/-- The boundary register as captured: the spec does not give its layout (assumption log 3). -/
def State.tapSample (s : State) (i : Tap) : State :=
  let (v, t) := s.free
  { t with tap := i, tapDr := v.truncate 32 }

/-- JTAG_SAMPLE_PRELOAD (R479). -/
def execJtagSamplePreload (s : State) : Host.Outcome State Fault Refusal := command (fun s => s.tapSample .sample) s

/-- JTAG_EXTEST (R479): it acts only in HOLD, and as BYPASS otherwise. -/
def execJtagExtest (s : State) : Host.Outcome State Fault Refusal :=
  command (fun (s : State) => if s.stage = 0xE then s.tapSample .extest else { s with tap := .bypass, tapDr := 0 }) s

end Sys2Proof.Machine
end

