-- ==== Sys2Proof/Machine/Firefly.lean ====
section
/-! DEFINITION. Sys2Proof/Machine/Firefly.lean: the service controller: the flash slots and boot choice (R483, R484), the mailbox (R481,
R482), delta updates (R485 to R487), settings (R488), activation (R489, R490) and attestation (R492, R493). -/

namespace Sys2Proof.Machine

/-! ## Slots -/


/-- Bytes of a slot; erased flash reads 0xFF. -/
def State.slotBytes (s : State) (b : Bool) (i n : Nat) : List Byte :=
  if i + n ≤ flashSize then lookRun 0xFF (s.flash b) i n
  else (List.range n).map (fun k => if i + k < flashSize then look 0xFF (s.flash b) (i + k) else Config.beyondFlash (i + k))


/-- A field of a header, least significant byte first (Table 17-6). -/
def hdrField (h : List Byte) (i n : Nat) : Nat := natOfBytes ((h.drop i).take n)

/-- STATE, TRIES and SEQ of a slot (Table 17-6). -/
def State.slotState (s : State) (b : Bool) : Nat := hdrField (s.slotBytes b 196 1) 0 1
def State.slotTries (s : State) (b : Bool) : Nat := hdrField (s.slotBytes b 197 1) 0 1
def State.slotSeq (s : State) (b : Bool) : Nat := hdrField (s.slotBytes b 192 4) 0 4

/-- STATE codes of Table 17-6. -/
abbrev slotEmpty : Nat := 0xFF
abbrev slotPending : Nat := 0x7F
abbrev slotConfirmed : Nat := 0x3F
abbrev slotSuperseded : Nat := 0x1F

/-- Programming STATE or TRIES of a slot. -/
def State.setSlotState (s : State) (b : Bool) (v : Nat) : State := s.program b 196 [BitVec.ofNat 8 v]

/-- Clearing one bit of TRIES (R484, R490). -/
def State.useTry (s : State) (b : Bool) : State := s.program b 197 [BitVec.ofNat 8 (s.slotTries b / 2)]

/-- Whether MAGIC and LEN of a slot header are valid (R483, Table 17-6). -/
def hdrOk (h : List Byte) : Bool :=
  let len := hdrField h 8 4
  hdrField h 0 4 == 0x51C96F1A && len % 65536 == 0 && decide (65536 ≤ len) && decide (len ≤ 16777216)

/-- Whether the firmware key is the one whose SHA-512 digest the boot ROM holds, and a signature verifies under it (R483). -/
def keyVerify (msg sig : List Byte) : Bool :=
  sha512 Config.firmwareKey == Config.firmwareKeyDigest && Config.ed25519Verify Config.firmwareKey msg sig

/-- The verification of an image: 0, or the status of the first check that fails (R483). -/
def imageStatus (h body : List Byte) : Nat :=
  if !hdrOk h then 0x10
  else if sha512 body ≠ (h.drop 16).take 64 then 8
  else if !keyVerify (h.take 128) ((h.drop 128).take 64) then 9
  else 0

/-- The header of a slot and its body (Table 17-6). -/
def State.slotHdr (s : State) (b : Bool) : List Byte := s.slotBytes b 0 4096
def State.slotBody (s : State) (b : Bool) : List Byte := s.slotBytes b 4096 (hdrField (s.slotHdr b) 8 4)

/-- The verification of a slot (R483). -/
def State.slotStatus (s : State) (b : Bool) : Nat :=
  if !hdrOk (s.slotHdr b) then 0x10 else imageStatus (s.slotHdr b) (s.slotBody b)

/-- The group a slot is ranked in at boot, none when it is never tried (R484). -/
def State.slotGroup (s : State) (b : Bool) : Option Nat :=
  let st := s.slotState b
  if st = slotConfirmed ∨ (st = slotPending ∧ s.slotTries b ≠ 0) then some 1
  else if st = slotSuperseded then some 2
  else if st = slotPending then some 3 else none

/-- The slots in the order the boot ROM tries them (R484). -/
def State.bootOrder (s : State) : List Bool :=
  match s.slotGroup false, s.slotGroup true with
  | none, none => []
  | some _, none => [false]
  | none, some _ => [true]
  | some x, some y => if x < y ∨ (x = y ∧ s.slotSeq true ≤ s.slotSeq false) then [false, true] else [true, false]

/-! ## Service firmware -/

/-- Whether the Firefly runs firmware: an image has been verified (R479, Table 2-8). -/
def State.firmware (s : State) : Bool := s.bitReg rSvc 18

/-- A line on the debug UART: one per bring-up step, and one per mailbox command that changes flash (R479). -/
def State.uartLine (s : State) (k : Nat) : State := { s with uart := s.uart ++ [k] }

/-- A change of the service stage: a discovery round starts where the stage that HELLO carries changes (R71, R368). ELAPSED_MS stops in
Glaze, HOLD and FAILED (Table 2-8), and ALERT_N asserts in FAILED (R67). -/
def State.setStage (s : State) (n : Nat) : State :=
  let old := s.stg
  let s1 := s.setFldReg rSvc 28 4 n
  let s2 : State := if n = 4 ∨ n = 0xE ∨ n = 0xF then { s1 with svcStop := some (s1.usec - s1.strapAt) } else s1
  let s3 : State := if n = 0xF then { s2 with pins := { s2.pins with alertN := false } } else s2
  if s3.stg = old then s3 else s3.discovery

/-- The settings format the running firmware reads. -/
def State.sfmt (s : State) : Nat := hdrField s.runHdr 12 4

/-- Firmware that finds no records of its own SFMT converts those of the other slot's SFMT (R488); with FW_WP_N low flash takes none (R30). -/
def State.convertSettings (s : State) : State :=
  let own := s.sfmt
  if s.settings.any (fun r => r.2.2.2 == own) || !s.pins.fwWpN then s
  else
    let other := hdrField (s.slotHdr (!(s.running.getD false))) 12 4
    { s with settings := s.settings ++ (s.settings.filter (fun r => r.2.2.2 == other)).map (fun r => (r.1, r.2.1, r.2.2.1, own)) }

/-- The value of a setting for the running firmware, 0 where no record gives one (R488). -/
def State.setting (s : State) (key : Nat) : Nat :=
  match s.settings.find? (fun r => r.2.1 == key && r.2.2.2 == s.sfmt) with
  | some r => r.2.2.1
  | none => 0

/-- An image has been received and verified (Table 2-8): bring-up goes on with step 3. -/
def State.imageAccepted (s : State) (src : Nat) (slot : Option Bool) (h : List Byte) : State :=
  let s1 := (s.setFldReg rSvc 24 4 src).setFldReg rSvc 18 1 1
  let s2 := { s1 with running := slot, runHdr := h }.convertSettings
  ({ s2 with ilvSet := s2.setting 1 }.uartLine 2).setStage 3

/-! ## The mailbox -/

/-- A mailbox channel. -/
def State.box (s : State) (c : Chan) : Mailbox := match c with
  | .h => s.boxH
  | .m => s.boxM

/-- The state with a channel replaced; a change of BUSY moves the interrupt of the FIREFLY page (R482). -/
def State.setBox (s : State) (c : Chan) (b : Mailbox) : State := match c with
  | .h => withIrq .firefly (fun (s : State) => { s with boxH := b }) s
  | .m => { s with boxM := b }

/-- The answer to a command: its status and response. -/
structure Reply where
  status : Nat
  data   : List Byte

/-- A status alone. -/
def st (k : Nat) : Reply := { status := k, data := [] }

/-- Completing a command: the response replaces the request in MB_BUF (R482). -/
def State.reply (s : State) (c : Chan) (r : Reply) : State :=
  let s1 : State := match c with
    | .h => { s with buf := putRun 0 [] 0 r.data }
    | .m => if s.bitReg rStrap 13 then s else { s with ibi := s.ibi ++ [1] }
  s1.setBox c { busy := false, status := BitVec.ofNat 8 r.status, resp := r.data, req := none }

/-- Whether a known opcode may be performed by the present server, on this channel, in this stage (Table 17-4). -/
def State.mbAllowed (s : State) (c : Chan) (op : Nat) (p : List Byte) : Bool :=
  let stage := s.stage
  if op ≤ 5 then true
  else if op = 0x10 then !s.firmware && decide (c = .h) && s.fldReg rStrap 8 2 == 1 && stage == 2
  else if 0x11 ≤ op ∧ op ≤ 0x14 then
    (s.firmware || stage == 0xE || stage == 0xF) && (op != 0x12 || decide (c = .h) || decide (hdrField p 0 4 < 2 ^ 31))
  else if op = 0x15 then s.firmware && s.glaze
  else s.firmware

/-- Known opcodes (Table 17-4). -/
def mbKnown (op : Nat) : Bool :=
  (decide (1 ≤ op) && decide (op ≤ 5)) || (decide (0x10 ≤ op) && decide (op ≤ 0x16)) || op == 0x20 || op == 0x21

/-- Whether a payload has the length its command takes (Table 17-4, R482). -/
def mbLenOk (c : Chan) (op : Nat) (p : List Byte) : Bool :=
  let n := p.length
  decide (n ≤ (if c = .h then 1024 else 240)) &&
  (if op = 3 then n == 1 else if op = 4 then n == 33 else if op = 0x11 then n == 2
   else if op = 0x12 then (if hdrField p 0 4 < 2 ^ 31 then decide (4 ≤ n) else n == 16)
   else if op = 0x20 then n == 2 else if op = 0x21 then n == 6 else n == 0)

/-- A structure longer than a channel carries, by PART (R493): whole on channel H with PART 0; bytes 0 to 239 or the rest on channel M. A
PART the spec does not allow gets a status it does not state. -/
def State.partOf (s : State) (c : Chan) (part : Nat) (d : List Byte) : State × Reply :=
  if part = 0 then (s, { status := 0, data := if c = .h then d else d.take 240 })
  else if part = 1 ∧ c = .m then (s, { status := 0, data := d.drop 240 })
  else
    let (t, v) := s.freeFld 8
    (t, st v)

/-- The answer to GET_ID. -/
def mbId : Reply := { status := 0, data := bytesOfNat 8 Config.pid.toNat ++ bytesOfNat 4 0x0096A101 }

/-- The milliseconds of GLOBAL_SVC.ELAPSED_MS (Table 2-8). -/
def State.elapsedMs (s : State) : Nat := min 65535 (s.svcStop.getD (if s.bitReg rSvc 16 then s.usec - s.strapAt else 0) / 1000)

/-- GLOBAL_SVC as it reads. -/
def State.svcWord (s : State) : W32 := setFld (s.reg rSvc) 0 16 s.elapsedMs

/-- The quote over the present values (Table 17-10). -/
def State.quoteBytes (s : State) (nonce : List Byte) : List Byte :=
  let fw := s.firmware
  let zeros (n : Nat) : List Byte := List.replicate n 0
  let of_ (i n : Nat) : List Byte := if fw then (s.runHdr.drop i).take n else zeros n
  let recs := ((s.settings.filter (fun r => !r.1 && r.2.2.2 == s.sfmt)).map (fun r => Config.settingRecord r.2.1 r.2.2.1 r.2.2.2)).flatten
  let body := bytesOfNat 2 1 ++ bytesOfNat 2 264 ++ bytesOfNat 8 Config.pid.toNat ++ nonce ++ bytesOfNat 4 s.svcWord.toNat ++
    bytesOfNat 4 (s.reg rStrap).toNat ++ of_ 4 4 ++ of_ 192 4 ++ of_ 16 64 ++ (if fw then sha512 recs else zeros 64) ++ zeros 12
  body ++ s.identitySign 0 body

/-- SLOT_INFO (Table 17-4). -/
def State.mbSlotInfo (s : State) : Reply :=
  let one (b : Bool) : List Byte := s.slotBytes b 196 1 ++ s.slotBytes b 197 1 ++ s.slotBytes b 192 4 ++ s.slotBytes b 4 4 ++ s.slotBytes b 12 4
  { status := 0, data := one false ++ one true ++ [match s.running with
    | some false => 0
    | some true => 1
    | none => 0xFF] }


/-- Reading the image in the staging area finds the latent errors of its words (R495, R496). -/
def State.stagingRead (s : State) : State :=
  let t := s.touchAll (addrs stagingBase 2048)
  let h := bytesOfWords (t.words stagingBase 2048)
  if hdrOk h then t.touchAll (addrs (stagingBase + 2048) (hdrField h 8 4 / 2)) else t

/-- The image in the staging area, checked as LOAD answers (R62): 0 or the status, and its header. -/
def State.stagingStatus (s : State) : Nat × List Byte :=
  let h := bytesOfWords (s.words stagingBase 2048)
  let n := hdrField h 8 4 / 2
  if !hdrOk h then (0x10, h)
  else if s.anyMark stagingBase 2048 || s.anyMark (stagingBase + 2048) n then (0x0C, h)
  else (imageStatus h (bytesOfWords (s.words (stagingBase + 2048) n)), h)

/-- LOAD (R62). -/
def State.mbLoad (s : State) : State × Reply :=
  let s := s.stagingRead
  let (k, h) := s.stagingStatus
  if k = 0 then (s.imageAccepted 2 none h, st 0) else (s.err .global 3, st k)

/-! ## Updates -/

/-- Erasing the header of a slot: its STATE is EMPTY (R485). -/
def State.eraseHdr (s : State) (b : Bool) : State := s.program b 0 (List.replicate 4096 0xFF)

/-- Closing a session with the target EMPTY (R487). -/
def State.dropSession (s : State) : State := { s with session := none }

/-- UPD_BEGIN (R485). -/
def State.updBegin (s : State) (c : Chan) (p : List Byte) : State × Reply :=
  let full := hdrField p 0 1 % 2 == 1
  let slot := hdrField p 1 1
  let named := s.stage == 0xE || s.stage == 0xF || s.running.isNone
  if s.session.isSome then (s, st 4)
  else if !s.pins.fwWpN then (s, st 5)
  else if named && !full then (s, st 3)
  else if named && decide (1 < slot) then
    let (t, v) := s.freeFld 8
    (t, st v)
  else
    let target := if named then slot == 1 else !(s.running.getD false)
    let s1 := (s.eraseHdr target).uartLine 0x11
    ({ s1 with session := some { chan := c, target := target, full := full, hdr := [], part := [], count := 0, blocks := 0 } }, st 0)

/-- The block a delta record builds (Table 17-8), none where OP is none of the three. -/
def State.deltaBlock (s : State) (r : List Byte) : Option (List Byte) :=
  let op := hdrField r 0 1
  if op = 1 then some (s.slotBytes (s.running.getD false) (4096 + 65536 * hdrField r 2 2) 65536)
  else if op = 2 then some ((r.drop 8).take 65536)
  else if op = 3 then some (List.replicate 65536 0) else none

/-- Programming a block of a body. One that would lie in the repair log or the settings area, beyond any body an image can have, is not programmed
(R512, Table 17-6). -/
def State.programBlock (s : State) (b : Bool) (k : Nat) (blk : List Byte) : State :=
  if logBase < 4096 + 65536 * (k + 1) then s else s.program b (4096 + 65536 * k) blk

/-- The delta records that the bytes so far complete, up to fuel of them; the reply is the status of the last (R486). -/
def deltaRun : Nat → State → Session → State × Session × Nat
  | 0, s, k => (s, k, 0)
  | n + 1, s, k =>
    if k.hdr = [] then
      if k.part.length < 272 then (s, k, 0)
      else
        let h := k.part.take 272
        let base := (h.drop 8).take 64
        if !k.full ∧ base ≠ (s.runHdr.drop 16).take 64 then (s, { k with part := [], count := 0 }, 7)
        else deltaRun n s { k with hdr := h, part := k.part.drop 272 }
    else if hdrField k.hdr 264 4 ≤ k.blocks then (s, { k with count := k.count - k.part.length, part := [] }, 0)
    else
      let len := if hdrField k.part 0 1 = 2 then 65544 else 8
      if k.part.length < len then (s, k, 0)
      else
        let r := k.part.take len
        let back : Session := { k with count := k.count - k.part.length, part := [] }
        match s.deltaBlock r with
        | none =>
          let (t, v) := s.freeFld 8
          (t, back, v)
        | some blk =>
          if crc32c blk ≠ BitVec.ofNat 32 (hdrField r 4 4) then (s, back, 6)
          else deltaRun n (s.programBlock k.target k.blocks blk) { k with part := k.part.drop len, blocks := k.blocks + 1 }

/-- Whether UPD_DATA names memory, rather than carrying its own bytes (R486). -/
def deltaNames (p : List Byte) : Bool := decide (2 ^ 31 ≤ hdrField p 0 4)

/-- The words that a memory reference of UPD_DATA names, by their local address and number; none where it cannot be reached (R5, R283, R486). -/
def State.deltaRef (s : State) (p : List Byte) : Option (Nat × Nat) :=
  let a : W64 := BitVec.ofNat 64 (hdrField p 4 8)
  let n := (hdrField p 12 4 + 1) / 2
  if s.isHere a && s.runOk (localOf a) n then some (localOf a, n) else none

/-- The words that UPD_DATA reads: none where it carries its own bytes. Reading them finds their latent errors (R495, R496). -/
def State.deltaWords (s : State) (p : List Byte) : List Nat := match if deltaNames p then s.deltaRef p else none with
  | some (a, n) => addrs a n
  | none => []
def State.deltaRead (s : State) (p : List Byte) : State := s.touchAll (s.deltaWords p)

/-- The delta bytes of a request: the payload's own, or those a memory reference names (R486). -/
def State.deltaBytes (s : State) (p : List Byte) : Except Nat (List Byte) :=
  if !deltaNames p then .ok (p.drop 4)
  else match s.deltaRef p with
    | none => .error 0x0C
    | some (a, n) => if s.anyMark a n then .error 0x0C else .ok ((bytesOfWords (s.words a n)).take (hdrField p 12 4))

/-- UPD_DATA (R486). -/
def State.updData (s : State) (c : Chan) (p : List Byte) : State × Reply :=
  match s.session with
  | none => (s, st 4)
  | some k =>
    let answer (k : Session) (x : Nat) : Reply := { status := x, data := bytesOfNat 4 k.count ++ bytesOfNat 4 k.blocks }
    if k.chan ≠ c then (s, st 4)
    else if hdrField p 0 4 % 2 ^ 31 ≠ k.count then (s, answer k 0x0E)
    else if !s.pins.fwWpN then (s, answer k 0x0D)
    else
      let s := s.deltaRead p
      match s.deltaBytes p with
      | .error x => (s, answer k x)
      | .ok d =>
        let (t, k1, x) := deltaRun (d.length + 2) s { k with part := k.part ++ d, count := k.count + d.length }
        let u : State := { t with session := some k1 }
        (if k.blocks < k1.blocks then u.uartLine 0x12 else u, answer k1 x)

/-- SEQ of a new slot (R487). -/
def State.newSeq (s : State) (target : Bool) : Nat :=
  match s.running with
  | some b => s.slotSeq b + 1
  | none => if s.slotState (!target) = slotEmpty then 1 else s.slotSeq (!target) + 1

/-- UPD_END (R487). -/
def State.updEnd (s : State) (c : Chan) : State × Reply :=
  match s.session with
  | none => (s, st 4)
  | some k =>
    if k.chan ≠ c then (s, st 4)
    else if k.hdr = [] ∨ k.blocks < hdrField k.hdr 264 4 then (s, st 2)
    else if !s.pins.fwWpN then (s, st 0x0D)
    else
      let target := (k.hdr.drop 72).take 192
      let body := s.slotBytes k.target 4096 (65536 * k.blocks)
      let s1 := s.dropSession
      if sha512 body ≠ (target.drop 16).take 64 then (s1, st 8)
      else if !keyVerify (target.take 128) ((target.drop 128).take 64) then (s1, st 9)
      else ((s1.program k.target 0 (target ++ bytesOfNat 4 (s.newSeq k.target) ++ [0x7F#8, 0x07#8])).uartLine 0x13, st 0)

/-- UPD_ABORT (R487). -/
def State.updAbort (s : State) (c : Chan) : State × Reply :=
  match s.session with
  | none => (s, st 4)
  | some k => if k.chan ≠ c then (s, st 4) else (s.dropSession, st 0)

/-! ## Activation and settings -/

/-- The slot ACTIVATE takes: PENDING with tries left, first the one not running (R490). -/
def State.pendingSlot (s : State) : Option Bool :=
  let ok (b : Bool) : Bool := s.slotState b == slotPending && s.slotTries b != 0
  let first := !(s.running.getD true)
  if ok first then some first else if ok (!first) then some (!first) else none

/-- ACTIVATE up to its restart (R490): the reply, or none while it stays BUSY; management service then pauses until the new image runs. -/
def State.activate (s : State) (c : Chan) : State × Option Reply :=
  if s.session.isSome then (s, some (st 4))
  else match s.pendingSlot with
    | none => (s, some (st 0x0A))
    | some b =>
      if !s.pins.fwWpN then (s, some (st 0x0D))
      else
        let k := s.slotStatus b
        let s1 := s.uartLine 0x15
        if k ≠ 0 then (s1.setSlotState b 0, some (st k)) else ({ s1.useTry b with activating := some (c, b), flyDown := true }, none)

/-- CONFIRM (R489). -/
def State.confirm (s : State) : State × Reply :=
  match s.running with
  | none => (s, st 0x0A)
  | some b =>
    if s.slotState b ≠ slotPending then (s, st 0x0A)
    else if !s.pins.fwWpN then (s, st 0x0D)
    else
      let s1 := (s.setSlotState b slotConfirmed).uartLine 0x16
      (if s1.slotState (!b) = slotConfirmed then s1.setSlotState (!b) slotSuperseded else s1, st 0)

/-- SET_GET (R488). -/
def State.setGet (s : State) (p : List Byte) : Reply :=
  if hdrField p 0 2 = 1 then { status := 0, data := bytesOfNat 4 (s.setting 1) } else st 0x0B

/-- The settings formats SET_PUT writes (R488). -/
def State.putFormats (s : State) : List Nat :=
  if [false, true].any (fun b => s.slotState b == slotPending) then
    ([false, true].filter (fun b => s.slotState b == slotPending || s.slotState b == slotConfirmed)).map
      (fun b => hdrField (s.slotHdr b) 12 4)
  else [s.sfmt]

/-- Writing a record in both devices: it replaces the one with its key and SFMT. -/
def State.putSetting (s : State) (key value f : Nat) : State :=
  { s with settings := (s.settings.filter (fun r => !(r.2.1 == key && r.2.2.2 == f))) ++ [(false, key, value, f), (true, key, value, f)] }

/-- SET_PUT (R488). -/
def State.setPut (s : State) (p : List Byte) : State × Reply :=
  let key := hdrField p 0 2
  let v := hdrField p 2 4
  if key ≠ 1 ∨ 512 ≤ v then (s, st 0x0B)
  else if !s.pins.fwWpN then (s, st 0x0D)
  else (s.putFormats.foldl (fun (s : State) f => s.putSetting key v f) (s.uartLine 0x21), st 0)

/-! ## Performing commands -/

/-- The checks of R482, then the command itself: the reply, or none while it stays BUSY. -/
def State.perform (s : State) (c : Chan) (op : Nat) (p : List Byte) : State × Option Reply :=
  let now (r : State × Reply) : State × Option Reply := (r.1, some r.2)
  if !mbKnown op then (s, some (st 1))
  else if !s.mbAllowed c op p then (s, some (st 3))
  else if !mbLenOk c op p then (s, some (st 2))
  else if op = 1 then (s, some { status := 0, data := bytesOfNat 4 s.svcWord.toNat })
  else if op = 2 then (s, some mbId)
  else if op = 3 then now (s.partOf c (hdrField p 0 1) (certBytes 0 160))
  else if op = 4 then now (s.partOf c (hdrField p 32 1) (s.quoteBytes (p.take 32)))
  else if op = 5 then (s, some s.mbSlotInfo)
  else if op = 0x10 then now s.mbLoad
  else if op = 0x11 then now (s.updBegin c p)
  else if op = 0x12 then
    let lines := inList (s.deltaWords p)
    if s.biHeld lines then ((s.biAsk lines).setBox c { s.box c with req := some (op, p) }, none) else now (s.updData c p)
  else if op = 0x13 then now (s.updEnd c)
  else if op = 0x14 then now (s.updAbort c)
  else if op = 0x15 then s.activate c
  else if op = 0x16 then now s.confirm
  else if op = 0x20 then (s, some (s.setGet p))
  else now (s.setPut p)

/-- A request that the Firefly takes and performs. -/
def State.serve (s : State) (c : Chan) (op : Nat) (p : List Byte) : State :=
  let s1 := s.setBox c { s.box c with busy := true, req := none }
  match s1.perform c op p with
  | (t, some r) => t.reply c r
  | (t, none) => t

/-- A request on a channel (R481, R482): refused while the channel holds one; held, or not taken on the management bus, while the
Firefly restarts (R490, R491). -/
def State.mailbox (s : State) (c : Chan) (op : Nat) (p : List Byte) : State :=
  if (s.box c).busy then (match c with
    | .h => s.err .firefly 1
    | .m => s)
  else if s.flyDown then (match c with
    | .h => s.setBox c { s.box c with busy := true, req := some (op, p) }
    | .m => s)
  else s.serve c op p

/-- A mailbox command: its payload stands in MB_BUF on channel H. -/
def mailboxCmd (c : Chan) (op : Nat) (p : List Byte) (s : State) : Host.Outcome State Fault Refusal :=
  command (fun s => s.mailbox c op p) s

/-- A request that waited for the host's answer to a snoop is performed (R470, R486). -/
def State.retryBox (s : State) (c : Chan) : State :=
  if s.flyDown then s
  else match (s.box c).req with
    | some (op, p) => s.serve c op p
    | none => s

/-- A Firefly restart begins (R55, R481, R487, R491): sessions end, requests not yet completed are lost. -/
def State.flyRestart (s : State) : State :=
  let lose (s : State) (c : Chan) : State := if (s.box c).busy then s.reply c (st 0x0F) else s
  lose (lose { s with flyDown := true, session := none, activating := none } .h) .m

/-- The end of a Firefly restart: requests that waited are performed. The pause of an activation ends otherwise. -/
def State.flyBack (s : State) : State :=
  if !s.flyDown || s.activating.isSome then s
  else
    { s with flyDown := false }.retryBox .h

/-- The restart of an activation (R490): the new firmware completes ACTIVATE with OK, and service goes on. -/
def State.activationRestart (s : State) : State :=
  match s.activating with
  | none => s
  | some (c, b) =>
    let s1 : State := { s with activating := none, session := none, running := some b, runHdr := s.slotHdr b }
    (s1.convertSettings.reply c (st 0)).flyBack

/-! ## The management bus -/

/-- A request frame: byte 0 is the opcode, byte 1 the payload's length n, and the payload follows (R480). A frame that is shorter than it says names
what came; a frame without these two bytes is none. -/
def mgmtRequest (frame : List Byte) : Option (Nat × List Byte) :=
  match frame with
  | op :: n :: p => some (op.toNat, p.take n.toNat)
  | _ => none

/-- A response frame: STATUS, its length and its payload (R480). -/
def State.mgmtResponse (s : State) : List Byte :=
  s.boxM.status :: BitVec.ofNat 8 s.boxM.resp.length :: s.boxM.resp

/-- Whether channel M takes a frame: it holds no request, and the Firefly is not restarting or pausing (R481, R490). -/
def State.mgmtFree (s : State) : Bool := !s.boxM.busy && !s.flyDown

/-- A frame on channel M: whether it is acknowledged, and its effect. -/
def State.mgmtTake (s : State) (frame : List Byte) : Bool × State :=
  match mgmtRequest frame with
  | some (op, p) => if s.mgmtFree then (true, s.mailbox .m op p) else (false, s)
  | none => (false, s)

/-- The static target address of the management bus, and the command codes of SMBus (Table 17-1). -/
abbrev mgmtAddr : BitVec 7 := 0x5C
abbrev smbusRequest : Byte := 0x01
abbrev smbusResponse : Byte := 0x02

/-- One byte into the packet error code of SMBus: CRC-8 with polynomial 0x07. -/
def pecStep (c b : Byte) : Byte :=
  (List.range 8).foldl (fun (x : Byte) _ => if x.getLsbD 7 then (x <<< 1) ^^^ 0x07#8 else x <<< 1) (c ^^^ b)
def pec (bs : List Byte) : Byte := bs.foldl pecStep 0

/-- Whether the bus is SMBus: STRAP_MGMT (R479). -/
def State.smbus (s : State) : Bool := s.bitReg rStrap 13

/-- A Block Write of SMBus: address, command code, count, data and PEC; NACKed at another address, code or count, with a wrong PEC, or while the channel
is not free (R479 to R481). -/
def State.smbusWrite (s : State) (addr : BitVec 7) (code count : Byte) (data : List Byte) (check : Byte) : Bool × State :=
  if !s.smbus || addr ≠ mgmtAddr || code ≠ smbusRequest || count.toNat ≠ data.length ||
      check ≠ pec ((addr ++ (0#1)) :: code :: count :: data) then (false, s)
  else s.mgmtTake data

/-- A Block Read of SMBus: the response, behind its count, with its PEC; none where it is NACKed. -/
def State.smbusRead (s : State) (addr : BitVec 7) (code : Byte) : Option (List Byte) :=
  if !s.smbus || addr ≠ mgmtAddr || code ≠ smbusResponse || !s.mgmtFree then none
  else
    let d := BitVec.ofNat 8 s.mgmtResponse.length :: s.mgmtResponse
    some (d ++ [pec ((addr ++ (0#1)) :: code :: (addr ++ (1#1)) :: d)])

/-- The address the module answers to as I3C: the dynamic one, once it has one (R479). -/
def State.i3cAddr (s : State) : BitVec 7 := s.dynAddr.getD mgmtAddr

/-- SETDASA names the static address, ENTDAA a target that has no dynamic address yet. -/
def State.setdasa (s : State) (static_ dyn : BitVec 7) : State :=
  if s.smbus || static_ ≠ mgmtAddr || s.dynAddr.isSome then s else { s with dynAddr := some dyn }
def State.entdaa (s : State) (dyn : BitVec 7) : State := if s.smbus || s.dynAddr.isSome then s else { s with dynAddr := some dyn }

/-- A private write and a private read of I3C (R479). No row of the opcode table brings a frame of the bus: the rows name the commands that frames
carry (assumption log 144). -/
def State.i3cWrite (s : State) (addr : BitVec 7) (data : List Byte) : Bool × State :=
  if s.smbus || addr ≠ s.i3cAddr then (false, s) else s.mgmtTake data
def State.i3cRead (s : State) (addr : BitVec 7) : Option (List Byte) :=
  if s.smbus || addr ≠ s.i3cAddr || !s.mgmtFree then none else some s.mgmtResponse

end Sys2Proof.Machine
end

