-- ==== Sys2Proof/Machine/Mailbox.lean ====
section
/-! DEFINITION. Sys2Proof/Machine/Mailbox.lean: the commands of the management mailbox (Table 17-4) and the restarts of the Firefly. -/

namespace Sys2Proof.Machine

/-- GET_SVC (R482). -/
def execGetSvc (ch : Chan) (payload : List (BitVec 8)) (s : State) : Host.Outcome State Fault Refusal := mailboxCmd ch 0x01 payload s

/-- GET_ID (R482). -/
def execGetId (ch : Chan) (payload : List (BitVec 8)) (s : State) : Host.Outcome State Fault Refusal := mailboxCmd ch 0x02 payload s

/-- GET_CERT (R492). -/
def execGetCert (ch : Chan) (payload : List (BitVec 8)) (s : State) : Host.Outcome State Fault Refusal := mailboxCmd ch 0x03 payload s

/-- QUOTE (R493). -/
def execQuote (ch : Chan) (payload : List (BitVec 8)) (s : State) : Host.Outcome State Fault Refusal := mailboxCmd ch 0x04 payload s

/-- SLOT_INFO (R482). -/
def execSlotInfo (ch : Chan) (payload : List (BitVec 8)) (s : State) : Host.Outcome State Fault Refusal := mailboxCmd ch 0x05 payload s

/-- LOAD (R62). -/
def execLoad (ch : Chan) (payload : List (BitVec 8)) (s : State) : Host.Outcome State Fault Refusal := mailboxCmd ch 0x10 payload s

/-- UPD_BEGIN (R485). -/
def execUpdBegin (ch : Chan) (payload : List (BitVec 8)) (s : State) : Host.Outcome State Fault Refusal := mailboxCmd ch 0x11 payload s

/-- UPD_DATA (R486). -/
def execUpdData (ch : Chan) (payload : List (BitVec 8)) (s : State) : Host.Outcome State Fault Refusal := mailboxCmd ch 0x12 payload s

/-- UPD_END (R487). -/
def execUpdEnd (ch : Chan) (payload : List (BitVec 8)) (s : State) : Host.Outcome State Fault Refusal := mailboxCmd ch 0x13 payload s

/-- UPD_ABORT (R487). -/
def execUpdAbort (ch : Chan) (payload : List (BitVec 8)) (s : State) : Host.Outcome State Fault Refusal := mailboxCmd ch 0x14 payload s

/-- ACTIVATE (R490). -/
def execActivate (ch : Chan) (payload : List (BitVec 8)) (s : State) : Host.Outcome State Fault Refusal := mailboxCmd ch 0x15 payload s

/-- ACTIVATION_RESTART (R490). -/
def execActivationRestart (s : State) : Host.Outcome State Fault Refusal := command State.activationRestart s

/-- CONFIRM (R489). -/
def execConfirm (ch : Chan) (payload : List (BitVec 8)) (s : State) : Host.Outcome State Fault Refusal := mailboxCmd ch 0x16 payload s

/-- SET_GET (R488). -/
def execSetGet (ch : Chan) (payload : List (BitVec 8)) (s : State) : Host.Outcome State Fault Refusal := mailboxCmd ch 0x20 payload s

/-- SET_PUT (R488). -/
def execSetPut (ch : Chan) (payload : List (BitVec 8)) (s : State) : Host.Outcome State Fault Refusal := mailboxCmd ch 0x21 payload s

/-- FIREFLY_RESTART_END (R55). -/
def execFireflyRestartEnd (s : State) : Host.Outcome State Fault Refusal := command State.flyBack s

end Sys2Proof.Machine
end

