-- ==== Sys2Proof/Machine/Control.lean ====
section
/-! DEFINITION. Sys2Proof/Machine/Control.lean: core control (R109 to R112, R323), the compute reset (R55 to R58, R112, R314, R361), and
software interrupts (R144). -/

namespace Sys2Proof.Machine

/-- Abandoning the instruction core n holds on a fence, a Comb wait or a feeder slot (R109, R148). -/
def State.abandon (s : State) (n : Nat) : State :=
  let t := s.withdraw n
  t.modCore n (fun c => match c.hold with
    | some (.fence _) => { c with hold := none }
    | some .mcopy => { c with hold := none, fops := c.fops.map (fun f => if f.placed then f else match f.kind with
        | .mcopy _ _ _ _ _ => { f with cut := true }
        | .setter _ => f) }
    | _ => c)

/-- Writing HALT to 1 (R109, R323). -/
def State.haltCore (s : State) (n : Nat) : State :=
  ((s.abandon n).setFldReg (rRun n) 0 1 1).modCore n (fun c => match c.dst with
    | .run => { c with dst := .off }
    | .idle => { c with dst := .off }
    | .task => { c with dst := .paused }
    | _ => c)

/-- CORE_HALT (R109). -/
def execCoreHalt (src : Src) (n : Nat) (s : State) : Host.Outcome State Fault Refusal :=
  command (fun s => s.inTurn src (.coreHalt n) (fun s => if n < 192 then s.haltCore n else s)) s

/-- Writing HALT to 0 (R109, R323). -/
def State.resumeCore (s : State) (n : Nat) : State :=
  let t := s.setFldReg (rRun n) 0 1 0
  if (s.core n).resetting then t
  else t.modCore n (fun c => match c.dst with
    | .off => { c with dst := .run, tended := false }
    | .paused => { c with dst := .task }
    | _ => c)

/-- CORE_RESUME (R323). -/
def execCoreResume (src : Src) (n : Nat) (s : State) : Host.Outcome State Fault Refusal :=
  command (fun s => s.inTurn src (.coreResume n) (fun s => if n < 192 then s.resumeCore n else s)) s

/-- What a core reset leaves of a core (Table 3-13, R27): its island's clock and counter, and its roots. -/
def Core.afterReset (c : Core) (pc : W64) : Core :=
  { Core.reset with pc := pc, resetting := true, tlb := [], rootUse := c.rootUse, step := c.step, pwr := c.pwr, cycBase := c.cycBase,
                    cycAt := c.cycAt, ended := c.ended, nextId := c.nextId }

/-- How a core reset ends a task whose record is still to come (R323): END = RESET, with ELAPSED read as RESETTING ends (R320). -/
def Task.byReset (t : Task) : Task := { t with endAs := some .reset, elapsed := none }

/-- A core reset (R110, R111): the class of a task it ends enters G, unless G holds it already (R332), its task semaphores read zero (R352),
and the task waits for its record apart from the core, which holds none any more (R323, Table 11-5). -/
def State.resetCore (s : State) (n : Nat) : State :=
  let s := s.settleCore n
  let c := s.core n
  let s1 := match c.task with
    | some t => if c.gheld then s else s.addSum (3 * (n / 48) + 1) t.cone
    | none => s
  let s2 := (s1.modCore n (fun c => { c with gated := false, gheld := false })).withdraw n
  let gone (o : ReqOwner) : ReqOwner := match o with
    | .block k _ => if k = n then .gone else o
    | .posted k _ => if k = n then .gone else o
    | .gone => .gone
  let s3 := ({ s2 with requests := s2.requests.map (fun (r : Request) => { r with owner := gone r.owner }),
                       unsent := s2.unsent.map (fun (u : Unsent) => { u with owner := gone u.owner }) }).clearTask n
  let pc := BitVec.ofNat 64 (winBase + s3.fldReg (rStart n) 0 20)
  let s4 := s3.setCore n { c.afterReset pc with ended := c.ended ++ (c.task.map Task.byReset).toList }
  let s5 := withIrq (.core n) (fun (s : State) => s.setReg (pageBase (.core n) + oErr) 0) s4
  ((s5.setReg (rStopinfo n) 0).setReg (rNf n) 0).setFldReg (rRun n) 0 1 1

/-- A write of CORE_RESET (Table 3-12, R112). -/
def State.coreResetWrite (s : State) (n : Nat) (w : W32) : State :=
  if fld w 24 8 = 0xA5 ∧ w.getLsbD 0 ∧ !(s.core n).resetting then s.resetCore n else s

/-- CORE_RESET (R110). -/
def execCoreReset (src : Src) (n : Nat) (w : BitVec 32) (s : State) : Host.Outcome State Fault Refusal :=
  command (fun s => s.inTurn src (.coreReset n w) (fun s => if n < 192 then s.coreResetWrite n w else s)) s

/-- RESETTING ends: the core is HALTED with the state of Table 3-13 (R110). -/
def State.coreResetEnd (s : State) (n : Nat) : State :=
  if (s.core n).resetting then (s.modCore n (fun c => { c with resetting := false })).setFldReg (rRun n) 0 1 1 else s

/-- CORE_RESET_END (R110). -/
def execCoreResetEnd (n : Nat) (s : State) : Host.Outcome State Fault Refusal :=
  command (fun s => if n < 192 then s.coreResetEnd n else s) s

/-- A write of CORE_SWI (Table 5-6). -/
def State.swi (s : State) (n : Nat) (w : W32) : State := if w.getLsbD 0 then s.pend n 3 else s

/-- CORE_SWI (R144). -/
def execCoreSwi (src : Src) (n : Nat) (w : BitVec 32) (s : State) : Host.Outcome State Fault Refusal :=
  command (fun s => s.inTurn src (.coreSwi n w) (fun s => if n < 192 then s.swi n w else s)) s

/-! ## Compute reset -/

/-- What a compute reset does to the Comb (R361). -/
def State.combReset (s : State) : State :=
  let s1 := (s.sems.map (·.1)).foldl (fun (s : State) k => s.setSem k { Sem.reset with mark := (s.sem k).mark }) s
  let s2 := (List.range 64).foldl (fun (s : State) b =>
    let c := s.ctx b
    let t := s.setCtx b { Ctx.reset with mark := c.mark, wr := c.wr }
    ((t.setFldReg (rBctl b) 31 1 0).setFldReg (rBctl b) 28 1 0).setFldReg (rBgen b) 0 16 0) s1
  { s2.over (fun x => match x with
    | .sem _ => true
    | _ => false) with resolving := s2.resolving.filter (fun r => r.ctx.isNone) }

/-- What a compute reset does to both Pugmills: CLOSE on every job and every Swarm entry (R400). -/
def State.pugmillReset (s : State) : State :=
  let s1 := (s.jobs.map (·.1)).foldl (fun (s : State) j => s.jobClose j) s
  (s1.swarms.map (·.1)).foldl (fun (s : State) e => s.swarmDisable e) s1

/-- A compute reset takes effect (Table 2-4): tasks end without a record (R314), REFUSE and CF clear (R456). -/
def State.computeReset (s : State) : State :=
  let s1 := (List.range 192).foldl (fun (s : State) n => (s.resetCore n).modCore n (fun c => { c with ended := [] })) s
  let s2 := s1.scarabReset.combReset.pugmillReset
  { (s2.setFldReg rSctl 30 1 0).setFldReg rSctl 29 1 0 with heldReset := false, jtlb := [] }

/-- Whether the module has reached Glaze, HOLD or FAILED (R58). -/
def State.arrived (s : State) : Bool := s.stage == 4 || s.stage == 0xE || s.stage == 0xF

/-- A compute reset held until then takes effect on arrival (R58). -/
def State.heldTake (s : State) : State := if s.heldReset && s.arrived then s.computeReset else s

/-- A core that writes GLOBAL_RESET.COMPUTE while it is held stops issuing (R58). -/
def State.stopWriter (s : State) (src : Src) : State := match src with
  | .core n _ => s.modCore n (fun c => { c with stopReq := true })
  | _ => s

/-- A write of GLOBAL_RESET (R56 to R58): a compute reset comes before a Firefly restart. -/
def State.globalReset (s : State) (src : Src) (w : W32) : State :=
  if Src.user src || fld w 24 8 ≠ 0xA5 then s
  else
    let s1 := if !w.getLsbD 0 then s
      else if s.arrived then s.computeReset
      else { s.stopWriter src with heldReset := true }
    if !w.getLsbD 1 then s1 else if s1.arrived then s1.flyRestart else s1.err .global 0x40

/-- COMPUTE_RESET (R112). -/
def execComputeReset (src : Src) (w : BitVec 32) (s : State) : Host.Outcome State Fault Refusal :=
  command (fun s => s.inTurn src (.computeReset w) (fun s => s.globalReset src w)) s

/-- FIREFLY_RESTART (R491). -/
def execFireflyRestart (src : Src) (w : BitVec 32) (s : State) : Host.Outcome State Fault Refusal :=
  command (fun s => s.inTurn src (.fireflyRestart w) (fun s => s.globalReset src w)) s

end Sys2Proof.Machine
end

