-- ==== Sys2Proof/Machine/Image.lean ====
section
/-! DEFINITION. Sys2Proof/Machine/Image.lean: image service over the fabric (R394, R62). -/

namespace Sys2Proof.Machine

/-- The words of the running slot's image, header and body, as they lie in flash (R60). -/
def State.imageWords (s : State) (b : Bool) : List Word := wordsOfBytes (s.slotBytes b 0 (4096 + hdrField (s.slotHdr b) 8 4))

/-- The packets of an image: up to 128 words each, with the word offset and LAST (Table 13-6). -/
def imageSpecs (ws : List Word) : List PktSpec :=
  let bs := ws.toChunks 128
  bs.zipIdx.map (fun e => localSpec 0x24 (BitVec.ofNat 64 (128 * e.2 + (if e.2 + 1 = bs.length then 2 ^ 63 else 0))) e.1)

/-- IMGQ: a module that offers its image sends it (R394). Service waits while the Firefly restarts. -/
def State.imgqReceive (s : State) (l : Nat) (p : Packet) : State :=
  if s.flyDown then s.keep p
  else
    let s1 := s.consume p
    match s1.running with
    | some b => if s1.imgOffer then (imageSpecs (s1.imageWords b)).foldl (fun (s : State) k => s.sendLocal l k) s1 else s1
    | none => s1

/-- IMGQ_RECEIVE (R394). -/
def execImgqReceive (l : Nat) (p : Packet) (s : State) : Host.Outcome State Fault Refusal :=
  command (fun s => if s.lkLocal l then s.imgqReceive l p else s) s


/-- An IMGD on the link asked: its words go to the staging area, and after the last the image is checked (R62, R394). -/
def State.imgdReceive (s : State) (l : Nat) (p : Packet) : State :=
  let s1 := s.consume p
  if s1.imgLink ≠ some l || !s1.wantsImage then s1
  else
    let off := fld p.tsf 0 24
    let s2 := s1.writeRun (stagingBase + off) (p.data.take (16777216 - off))
    if !p.tsf.getLsbD 63 then s2
    else
      let s3 := s2.stagingRead
      let (k, h) := s3.stagingStatus
      if k = 0 then { s3 with imgLink := none, imgTried := [] }.imageAccepted 3 none h else (s3.err .global 4).imgFail

/-- IMGD_RECEIVE (R394). -/
def execImgdReceive (l : Nat) (p : Packet) (s : State) : Host.Outcome State Fault Refusal := command (fun s => s.imgdReceive l p) s

/-- IMAGE_TRANSFER_TIMEOUT (R394). -/
def execImageTransferTimeout (s : State) : Host.Outcome State Fault Refusal := command State.imgFail s

/-- Starting again from the first offering link (R394). -/
def State.imgRetry (s : State) : State := if s.imgLink.isSome then s else { s with imgTried := [] }.imgStart

/-- IMAGE_RETRY (R394). -/
def execImageRetry (s : State) : Host.Outcome State Fault Refusal := command State.imgRetry s

end Sys2Proof.Machine
end

