-- ==== Sys2Proof/Machine/Bringup.lean ====
section
/-! DEFINITION. Sys2Proof/Machine/Bringup.lean: power, cold reset and the thermal trip (R41 to R48), straps (R52 to R54), the bring-up
steps of Table 2-6 (R59 to R68), cables (R364), host and TAP resets (R55, R476). -/

namespace Sys2Proof.Machine

/-! ## Power and cold reset -/

/-- The entries of the repair log that a cold reset reads into the fuse map: column bypasses for step 1, and spare rows for step 3 (R510). -/
def Repair.isCol (x : Repair) : Bool := match x with
  | .col _ _ _ => true
  | .row _ _ _ => false
  | .sram _ _ _ => false
  | .group _ _ _ => false
def Repair.isRow (x : Repair) : Bool := match x with
  | .row _ _ _ => true
  | .col _ _ _ => false
  | .sram _ _ _ => false
  | .group _ _ _ => false

/-- The pins of a module in a power state (R32, R42, R46, Table 1-15). -/
def pinsIn (p : Power) (x : Pins) : Pins :=
  let good := decide (p = .reset) || decide (p = .running)
  { x with modPg := good, modPrsntN := !good, alertN := true, thermTripN := !decide (p = .tripped) }

/-- Every state is lost but what is in flash, in fuses and outside the module (R42, R46 to R48). Free values stay fresh. -/
def State.lost (s : State) (p : Power) : State :=
  { State.reset with power := p, pins := pinsIn p s.pins, flashA := s.flashA, flashB := s.flashB, settings := s.settings,
                     repairs := s.repairs, fuses := (s.fuses ++ s.repairs.filter Repair.isCol).dedup,
                     freeCtr := s.freeCtr, rngCtr := s.rngCtr, pending := s.pending }

/-- POWER_ON (R44): 48 V comes within range, and the module holds internal reset. -/
def execPowerOn (s : State) : Host.Outcome State Fault Refusal := .next (if s.power = .off then s.lost .reset else s)

/-- POWER_REMOVAL (R47, R48). -/
def execPowerRemoval (s : State) : Host.Outcome State Fault Refusal := .next (s.lost .off)

/-- COLD_RESET (R43, R45): MOD_RST_N low is taken while 48 V is in range. It ends THERM_TRIP_N of a tripped module, which stays off until the pin is
released (R42). -/
def State.coldReset (s : State) : State :=
  let t : State := { s with pins := { s.pins with modRstN := false } }
  if s.power = .off ∨ s.power = .brownOut then t
  else if s.power = .tripped ∨ s.power = .tripHeld then t.lost .tripHeld else t.lost .reset

/-- COLD_RESET. -/
def execColdReset (s : State) : Host.Outcome State Fault Refusal := .next s.coldReset

/-- BROWN_OUT (R46). Whether a brown-out ends a thermal trip, which R42 lets end only by MOD_RST_N, the spec does not say; here it does (assumption log
117). -/
def execBrownOut (s : State) : Host.Outcome State Fault Refusal := .next (if s.power = .off then s else s.lost .brownOut)

/-- The factory levels of the strap pins (Table 1-9), laid out as in GLOBAL_STRAP. -/
def factoryStraps : BitVec 15 := 0x0400

/-- The level each strap pin reads: the one the system drives, else that of the module's own resistor (R35). -/
def strapLevels (driven levels : BitVec 15) : BitVec 15 := (levels &&& driven) ||| (factoryStraps &&& ~~~driven)

/-- The private identity key: by SHA-512 from the secret in the fuses of IOD0 (R492). -/
def privateKey : List Byte := sha512 Config.fuseSecret

/-- Leaving internal reset: the straps are sampled, CHIP is loaded, step 1 starts the islands and the links (R52 to R54, R369, Table 2-6), and the
Firefly, which starts its ROM, derives the identity key and places it in the discovery engines of both I/O dies (R492). -/
def State.sampleStraps (s : State) (straps : BitVec 15) : State :=
  let w : W32 := (strapLevels s.pins.strapDriven straps).zeroExtend 32
  let s1 : State := (({ s with power := .running, strapAt := s.usec, idKeys := [privateKey, privateKey] }.setReg rStrap w).setReg rCfg w).setFldReg
    rSvc 16 1 1
  (List.range 96).foldl (fun (s : State) l => s.linkStart l) s1.loadChip

/-- MOD_RST_N is high: the module in internal reset leaves it, and one that a thermal trip keeps off comes up (R42). -/
def State.leaveReset (s : State) (straps : BitVec 15) : State :=
  let t : State := { s with pins := { s.pins with modRstN := true } }
  if s.power = .reset then t.sampleStraps straps else if s.power = .tripHeld then (t.lost .reset).sampleStraps straps else t

/-- STRAP_SAMPLE (R52). -/
def execStrapSample (straps : BitVec 15) (s : State) : Host.Outcome State Fault Refusal := .next (s.leaveReset straps)

/-- INTERNAL_RESET_WAIT_END (R44). -/
def execInternalResetWaitEnd (straps : BitVec 15) (s : State) : Host.Outcome State Fault Refusal := .next (s.leaveReset straps)

/-- The input has been back within range for 10 ms (R46): the module samples the straps, or, while MOD_RST_N is low, holds internal reset until
it rises. -/
def State.recover (s : State) (straps : BitVec 15) : State :=
  if s.power ≠ .brownOut then s else if s.pins.modRstN then (s.lost .reset).sampleStraps straps else s.lost .reset

/-- BROWN_OUT_RECOVERY (R46). -/
def execBrownOutRecovery (straps : BitVec 15) (s : State) : Host.Outcome State Fault Refusal := .next (s.recover straps)

/-- A reading of the sensors (R41, R42): ALERT_N from 105 °C, the thermal trip at 110 °C. -/
def State.sensorRead (s : State) (t : Sensors) : State :=
  let hot := (t.dies ++ t.clusters).foldl max 0
  if 110 ≤ hot then s.lost .tripped
  else { s with sensors := t, pins := { s.pins with alertN := decide (hot < 105) && s.stage != 0xF } }

/-- SENSOR_READ (R41). -/
def execSensorRead (t : Sensors) (s : State) : Host.Outcome State Fault Refusal := command (fun s => s.sensorRead t) s

/-! ## Bring-up -/

/-- LPDDR6 channels that failed training (R65). -/
def State.lpFailed (s : State) (f : BitVec 32) : State :=
  if f = 0 then s
  else ((List.range 32).foldl (fun (s : State) c => if f.getLsbD c then s.setFldReg (rLpStat c) 0 1 1 else s) s).err .global 0x20

/-- Entering FAILED (R64, R65, R67), where a held compute reset takes effect (R58). -/
def State.fail (s : State) : State := (s.setStage 0xF).heldTake

/-- Step 1 completes (R59, R62, R65). An LPDDR6 failure enters FAILED also under STRAP_BOOT 0b11, for which R62 names HOLD (assumption log 118). -/
def State.bisqueReached (s : State) (lpFail : BitVec 32) : State :=
  if s.stage ≠ 1 ∨ !s.bitReg rSvc 16 then s
  else
    let s1 := ((s.lpFailed lpFail).setFldReg rSvc 17 1 1).uartLine 1
    if lpFail ≠ 0 then s1.fail
    else if s1.fldReg rStrap 8 2 = 3 then (s1.setStage 0xE).heldTake
    else (s1.setStage 2).imgStart

/-- BISQUE_REACHED (R59). -/
def execBisqueReached (lpFail : BitVec 32) (s : State) : Host.Outcome State Fault Refusal := command (fun s => s.bisqueReached lpFail) s

/-- The image bytes of a slot as the boot ROM reads them: the body too where the header says how long it is. -/
def State.slotImage (s : State) (b : Bool) : List Byte :=
  let h := s.slotHdr b
  if hdrOk h then h ++ s.slotBody b else h

/-- Trying the slots in order: the first that verifies, and IMAGE_A or IMAGE_B for each that does not (R62, Table 2-9). -/
def tryBoot : List Bool → State → State × Option Bool
  | [], s => (s, none)
  | b :: r, s => if s.slotStatus b = 0 then (s, some b) else tryBoot r (s.err .global (if b then 2 else 1))

/-- The top words of CD0's die-shared memory: 16 MiB and 32 MiB (R61, R484). -/
def topShared (words : Nat) : Nat := 0xE0200000000 + 0x2000000 - words

/-- Step 2 for a flash boot (R62, R484). -/
def State.imageRead (s : State) : State :=
  if s.stage ≠ 2 ∨ s.fldReg rStrap 8 2 ≠ 0 then s
  else
    let order := s.bootOrder
    let s1 := match order.head? with
      | some b => s.writeRun stagingBase (wordsOfBytes (s.slotImage b))
      | none => s
    let s2 := s1.writeRun (topShared 8388608) (List.replicate 8388608 0)
    match tryBoot order s2 with
    | (t, none) => t.fail
    | (t, some b) =>
      let u := if t.slotState b = slotPending ∧ t.pins.fwWpN then t.useTry b else t
      u.imageAccepted (if b then 1 else 0) (some b) (u.slotHdr b)

/-- IMAGE_READ (R62). -/
def execImageRead (s : State) : Host.Outcome State Fault Refusal := command State.imageRead s

/-- LPDDR6 after retraining: only the staging area keeps its words; every other word, and whether it carries a poison mark, is unspecified (R61,
R287). -/
def State.lpddrLost (s : State) : State :=
  let keep (w : Nat) : Bool := !inTrained w
  { s with mem := { cells := s.mem.cells.filter (fun c => keep (c.1 / 2)), trained := some s.freeCtr },
           psn := s.psn.filter (fun c => keep c.1), latent := s.latent.filter (fun c => keep c.1), freeCtr := s.freeCtr + 1 }

/-- Step 3 ends (R61, R64, R65, R287): the spare rows of the repair log have come into force (R510), and the staging area has been copied into die-shared
memory and back. Bring-up reaches step 4, in which each link offers the full rate (R66). -/
def State.stackTraining (s : State) (stFail : BitVec 8) (lpFail : BitVec 32) : State :=
  if s.stage ≠ 3 ∨ s.bitReg rSvc 19 ∨ s.bitReg rSvc 20 then s
  else
    let s0 : State := { s with fieldRows := s.repairs.filter Repair.isRow }
    let s1 := (s0.setReg rIlv (BitVec.ofNat 32 s.ilvSet)).touchAll (addrs stagingBase 16777216)
    let s2 := s1.writeMarked (runMarked (topShared 16777216) (s1.readRun stagingBase 16777216))
    let s3 := s2.lpddrLost
    let s4 := (List.range 8).foldl (fun (s : State) m =>
      if stFail.getLsbD m then (s.setFldReg (rStStat m) 0 1 1).err .global (0x10 + m) else s) s3
    let s5 := s4.lpFailed lpFail
    let s6 := s5.setFldReg rSvc 19 1 (if stFail = 0 then 1 else 0)
    let s7 := s6.setFldReg rSvc 20 1 (if lpFail = 0 then 1 else 0)
    if stFail ≠ 0 ∨ lpFail ≠ 0 then s7.fail
    else (List.range 96).foldl (fun (s : State) l => s.offerRate l) (s7.uartLine 3)

/-- STACK_TRAINING (R64). -/
def execStackTraining (stFail : BitVec 8) (lpFail : BitVec 32) (s : State) : Host.Outcome State Fault Refusal :=
  command (fun s => s.stackTraining stFail lpFail) s

/-- A link that step 4 still waits for: training, in discovery, or up at the Bisque rate and not reported as reduced (R66). -/
def State.linkWaits (s : State) (l : Nat) : Bool := s.lk l == 2 || s.lk l == 3 || (s.lk l == 4 && !(s.link l).full)

/-- The CXL link trains again: while it does it is not in L0, and LINKUP, RATE and WIDTH read 0 (R458, Table 16-5; assumption log 120). -/
def State.retrainHost (s : State) : State := { s.setReg rLstat 0 with linkTrain := true, j1Lanes := [] }

/-- Step 4 completes once each link is at the full rate, reduced or down (R66); step 5 starts with the retraining of the CXL link to the highest rate
both ends support (Table 2-6, R458). -/
def State.linkStep (s : State) : State :=
  if s.stage ≠ 3 ∨ !s.bitReg rSvc 19 ∨ !s.bitReg rSvc 20 ∨ s.bitReg rSvc 21 ∨ (List.range 96).any s.linkWaits then s
  else
    let t := (s.setFldReg rSvc 21 1 1).uartLine 4
    if s.pins.perstN then t.retrainHost else t

/-- LINK_FULL_RATE_STEP (R66). -/
def execLinkFullRateStep (s : State) : Host.Outcome State Fault Refusal := command State.linkStep s

/-- Whether a register is initialised in step 5: the scale tables with their history, and the loss-scale register (Table 2-6). -/
def stepFiveReg (off : Nat) : Bool :=
  (decide (0x200000 ≤ off) && decide (off < 0x2C0000) && decide (0x400 ≤ off % 0x1000)) ||
  [rLsPol, rLsCur, rLsSkip, rLsPolStg, rLsCurStg].contains off

/-- Step 5 completes: Glaze (R59, R333). Every core starts at CEIL. -/
def State.glazeReached (s : State) : State :=
  if s.stage ≠ 3 ∨ !s.bitReg rSvc 21 then s
  else
    let ceil := s.fldReg rPyDvfs 5 5
    let s1 := (List.range 192).foldl (fun (s : State) n => (s.rebase n).modCore n (fun c => { c with step := ceil })) s
    let s2 : State := { s1 with regs := s1.regs.filter (fun e => !stepFiveReg e.1) }
    ((((s2.setFldReg rSvc 22 1 1).uartLine 5).setStage 4)).heldTake

/-- GLAZE_REACHED (R59). -/
def execGlazeReached (s : State) : Host.Outcome State Fault Refusal := command State.glazeReached s

/-! ## Cables, host reset, TAP, GLOBAL_CFG -/

/-- The eight links of a connector (Table 1-6). -/
def connLinks (k : Nat) : List Nat := if k < 12 then (List.range 8).map (fun i => 8 * k + i) else []

/-- A cable is seen on a connector: its NOCABLE links train (R364). -/
def State.cableIn (s : State) (k : Nat) : State :=
  let s1 := { s with pins := { s.pins with cblPrsntN := setBit s.pins.cblPrsntN k false } }
  if s1.power ≠ .running then s1
  else (connLinks k).foldl (fun (s : State) l => if s.lk l = 1 then s.startTrain l false else s) s1

/-- CABLE_INSERT (R364). -/
def execCableInsert (k : Nat) (s : State) : Host.Outcome State Fault Refusal := .next (s.cableIn k)

/-- A cable is removed: its links go to NOCABLE with reason CABLE (R364). -/
def State.cableOut (s : State) (k : Nat) : State :=
  let s1 := { s with pins := { s.pins with cblPrsntN := setBit s.pins.cblPrsntN k true } }
  if s1.power ≠ .running then s1
  else (connLinks k).foldl (fun (s : State) l => if s.lk l = 1 then s else s.linkTo l 1 (some 6)) s1

/-- CABLE_REMOVE (R364). -/
def execCableRemove (k : Nat) (s : State) : Host.Outcome State Fault Refusal := .next (s.cableOut k)

/-- A Bulk Port after a cold reset (Table 16-5). -/
def Port.reset : Port := { addr := 0, cnt := 0, ctl := 0 }

/-- Bulk Port p, and the state with it replaced. -/
def State.port (s : State) (p : Nat) : Port := look Port.reset s.ports p
def State.setPort (s : State) (p : Nat) (x : Port) : State := { s with ports := put Port.reset s.ports p x }

/-- What waited for the host's answer to a snoop is tried again: a row repair, resolutions, requests of the mailbox, and all that waits at the Pugmills
and the Swarm (R424, R440, R470, R486, R511). -/
def State.snoopDone (s : State) : State := ((s.rowGo.retryBox .h).retryBox .m).resolveNext.retryPug

/-- A host reset (R476): the link, configuration space with the BARs, the HDM decoder and the IDE keys, the MSI-X table, every Bulk Port's EN and DONE,
the host lines held and the bursts not applied. What waited for the host's lines goes on. -/
def State.hostReset (s : State) (perst : Bool) : State :=
  let s1 : State := { s with hdmBase := none, msixMask := BitVec.allOnes 32, msixPend := 0, hostLines := [], snoop := [], biWait := [], bursts := [],
                             memWait := [], hostCfg := State.reset.hostCfg,
                             linkTrain := false, j1Lanes := [], pins := { s.pins with perstN := if perst then false else s.pins.perstN } }
  let s2 := withIrq .host (fun (s : State) => { s with bpDone := 0 }) s1
  ((s2.ports.map (·.1)).foldl (fun (s : State) p => s.setPort p { s.port p with ctl := setBit (s.port p).ctl 31 false })
    (s2.setReg rLstat 0)).snoopDone

/-- HOST_RESET (R476). PERST_N can fall while a cold reset holds the module (R45). -/
def execHostReset (perst : Bool) (s : State) : Host.Outcome State Fault Refusal :=
  if perst ∧ s.power ≠ .running then .next { s with pins := { s.pins with perstN := false } } else command (fun s => s.hostReset perst) s

/-- TAP_RESET (R55): the TAP controller alone, which then selects IDCODE. -/
def execTapReset (s : State) : Host.Outcome State Fault Refusal := command (fun (s : State) => { s with tap := .idcode, tapDr := 0x1096A3C5 }) s

/-- A field of GLOBAL_CFG that is fixed until reset keeps its value; written with another it holds a free value (R54). -/
def State.fixedCfg (s : State) (w : W32) (lo len : Nat) : State × W32 :=
  if fld w lo len = s.fldReg rCfg lo len then (s, w)
  else
    let (t, v) := s.freeFld len
    (t, setFld w lo len v)

/-- A write of GLOBAL_CFG (R54): a change of SPARE starts a discovery round (R368). -/
def State.cfgWrite (s : State) (w : W32) : State :=
  let (s1, w1) := s.fixedCfg (w &&& 0x7FFF) 13 1
  let (s2, w2) := s1.fixedCfg w1 12 1
  let (s3, w3) := s2.fixedCfg w2 10 2
  let (s4, w4) := s3.fixedCfg w3 8 2
  let s5 := s4.setReg rCfg w4
  if s.bitReg rCfg 14 = s5.bitReg rCfg 14 then s5 else s5.discovery

/-- GLOBAL_CFG_WRITE (R54). -/
def execGlobalCfgWrite (src : Src) (w : BitVec 32) (s : State) : Host.Outcome State Fault Refusal :=
  command (fun s => s.inTurn src (.globalCfgWrite w) (fun s => s.cfgWrite w)) s

end Sys2Proof.Machine
end

