-- ==== Sys2Proof/Machine/HostIf.lean ====
section
/-! DEFINITION. Sys2Proof/Machine/HostIf.lean: the host interface: Bulk Ports (R461 to R466), BAR4 doorbells (R467), host-managed device
memory (R469 to R471), the lines held over CXL.cache (R472), HOST_HSIG (R474), the link (R45, R458, R477) and what the host programs of the port
(R457, R459, R473). Machine/HostBus.lean puts the host's accesses in their order. -/

namespace Sys2Proof.Machine

/-! ## Bulk Ports -/

/-- A Bulk Port error, with its port in HOST_ERRPORT (R462, Table 16-6). -/
def State.bpErr (s : State) (p code : Nat) : State := s.errWith .host code (fun t => t.setReg rErrport (BitVec.ofNat 32 p))

/-- Fields of HOST_BPCTL (Table 16-5). -/
def Port.en (x : Port) : Bool := x.ctl.getLsbD 31
def Port.dir (x : Port) : Bool := x.ctl.getLsbD 30

/-- The error a request to a window makes, if it is not an accepted burst (R462). -/
def State.bpRefuse (s : State) (p off bytes : Nat) (read : Bool) : Option Nat :=
  if off % 2 ≠ 0 ∨ bytes % 2 ≠ 0 ∨ bytes < 32 ∨ 4096 < bytes then some 1
  else if !(s.port p).en then some 2
  else if (s.port p).dir ≠ read then some 3 else none

/-- The addresses a burst of n words reaches (R463, R464). -/
def burstAddrs (x : Port) (n : Nat) : List Nat := (List.range n).map (fun i => (x.addr.toNat + i) % 2 ^ 44)

/-- What a burst of n words records, and the port after m of them (R463, R464). -/
def State.bpAdvance (s : State) (p n m : Nat) (bad : Bool) : State :=
  let x := s.port p
  let s1 := s.setPort p { x with addr := x.addr + BitVec.ofNat 44 m, cnt := x.cnt - BitVec.ofNat 32 m }
  let s2 := if bad then s1.bpErr p 4 else s1
  if m < n then s2.bpErr p 6 else s2

/-- A write burst (R463, R464), performed whole: unreachable words are not written. -/
def State.bpWrite (s : State) (p off : Nat) (data : List Byte) : State :=
  match s.bpRefuse p off data.length false with
  | some k => s.bpErr p k
  | none =>
    let n := data.length / 2
    let m := min n (s.port p).cnt.toNat
    let as_ := burstAddrs (s.port p) m
    let ws := (as_.zip (wordsOfBytes data)).filter (fun e => s.jobReach e.1)
    (s.writeMarked (ws.map (fun e => (e.1, e.2, false)))).bpAdvance p n m (!as_.all s.jobReach)

/-- An answer to a host read: the bytes and the poison indication, which RAS_HOSTPSN counts (R475, Table 18-3). -/
def State.hostAnswer (s : State) (d : List Byte) (psn : Bool) : State :=
  let t : State := { s with hostRead := s.hostRead ++ [(d, psn)] }
  if psn then t.countReg rHostPsn 0 32 1 else t

/-- A read burst (R463, R464, R475): an unreachable word reads zero, poisoned; a refused read is an Unsupported Request. -/
def State.bpRead (s : State) (p off bytes : Nat) : State :=
  match s.bpRefuse p off bytes true with
  | some k => { s.bpErr p k with hostRead := s.hostRead ++ [([], false)] }
  | none =>
    let n := bytes / 2
    let m := min n (s.port p).cnt.toNat
    let as_ := burstAddrs (s.port p) m
    let t := s.touchAll (as_.filter s.jobReach)
    let ws := as_.map (fun a => if t.jobReach a then t.word a else 0)
    let psn := as_.any (fun a => !t.jobReach a || t.poisoned a)
    (t.bpAdvance p n m (!as_.all s.jobReach)).hostAnswer (bytesOfWords (ws ++ List.replicate (n - m) 0)) psn

/-- A write in a doorbell range of BAR4 (R467): 32 bits are one doorbell, 64 bits two, the lower address first. -/
def State.bar4 (s : State) (ring : State → W32 → State) (bytes : Nat) (w : BitVec 64) : State :=
  if bytes < 4 then s.err .host 7
  else if bytes = 4 then ring s (w.extractLsb' 0 32)
  else ring (ring s (w.extractLsb' 0 32)) (w.extractLsb' 32 32)

/-- The words a burst moves, if it is accepted: those its port still counts (R463). -/
def State.burstWords (s : State) (p n : Nat) (refused : Option Nat) : List Nat :=
  if refused.isSome then [] else burstAddrs (s.port p) (min n (s.port p).cnt.toNat)

/-- The words of device memory an access to a BAR reaches itself; a doorbell and a register reach none. -/
def State.burstReach (s : State) : Burst → List Nat
  | .write p off data => s.burstWords p (data.length / 2) (s.bpRefuse p off data.length false)
  | .read p off bytes => s.burstWords p (bytes / 2) (s.bpRefuse p off bytes true)
  | .queueBell _ _ => []
  | .coreBell _ _ => []
  | .cmd _ => []
  | .regRead _ _ => []

/-- A Bulk Port transfer completes (R466). -/
def State.bpDoneNow (s : State) (p : Nat) : State :=
  let x := s.port p
  let s1 := s.setPort p { x with ctl := setBit x.ctl 31 false }
  let s2 := withIrq .host (fun (s : State) => { s with bpDone := setBit s.bpDone p true }) s1
  if x.ctl.getLsbD 29 then s2.semSignal (fld x.ctl 0 16) 1 else s2

/-- BP_COMPLETE (R466): every word has been performed. -/
def execBpComplete (port : BitVec 8) (s : State) : Host.Outcome State Fault Refusal :=
  command (fun s => if (s.port port.toNat).en && (s.port port.toNat).cnt == 0 then s.bpDoneNow port.toNat else s) s

/-- The selected port. -/
def State.bpSel (s : State) : Nat := s.fldReg rBpsel 0 8

/-- A write of HOST_BPCTL (R461). -/
def State.bpctlWrite (s : State) (w : W32) : State :=
  let p := s.bpSel
  let x := s.port p
  let v := w &&& 0xE000FFFF
  if x.en then
    let s1 := if (v ^^^ x.ctl) &&& 0x6000FFFF ≠ 0 then s.bpErr p 5 else s
    if v.getLsbD 31 then s1 else s1.setPort p { x with ctl := setBit x.ctl 31 false }
  else
    let s1 := s.setPort p { x with ctl := v }
    if !v.getLsbD 31 then s1
    else
      let s2 := withIrq .host (fun (s : State) => { s with bpDone := setBit s.bpDone p false }) s1
      if x.cnt = 0 then s2.bpDoneNow p else s2


/-- A write of BPA_LO, BPA_HI or BPCNT (R461). -/
def State.bpRegWrite (s : State) (reg : BpReg) (w : W32) : State :=
  let p := s.bpSel
  let x := s.port p
  if x.en then s.bpErr p 5
  else match reg with
    | .addrLo => s.setPort p { x with addr := x.addr.extractLsb' 32 12 ++ w }
    | .addrHi => s.setPort p { x with addr := w.extractLsb' 0 12 ++ x.addr.extractLsb' 0 32 }
    | .cnt => s.setPort p { x with cnt := w }


/-! ## Host-managed device memory -/

/-- The device byte, counted as 2w and 2w + 1 for word w, that a byte of the HDM range reaches (R469). -/
def hdmByte (o : Nat) : Nat := if o < 2 ^ 40 then o else o + 2 ^ 40

/-- The lines the snoop filter holds (R470). -/
def filterSize : Nat := 1048576

/-- The oldest line of the snoop filter is back-invalidated, once whatever waits for it, and a CXL.mem read waits for the room (R470). -/
def State.makeRoom (s : State) (o len : Nat) : State :=
  { s with biWait := s.biWait ++ (s.snoop.head?.filter (fun l => !s.biWait.contains l)).toList, memWait := s.memWait ++ [(o, len)] }

/-- The lines of n words from address a that are not in the snoop filter yet. -/
def State.newLines (s : State) (a n : Nat) : List Nat :=
  ((List.range ((a + n + 31) / 32 - a / 32)).map (fun i => a / 32 + i)).filter (fun l => !s.snoop.contains l)

/-- A CXL.mem read (R469 to R471, R475). The decoder does not claim an address until it is committed; the lines that the host may cache enter the
snoop filter, and wait for its oldest lines to leave when it has no room for them. -/
def State.cxlRead (s : State) (o len : Nat) (cache : Bool) : State :=
  if !s.glaze then (s.err .host 8).hostAnswer (List.replicate len 0xFF) true
  else if s.hdmBase.isNone ∨ 3 * 2 ^ 40 < o + len then s
  else
    let b := hdmByte o
    let a := b / 2
    let n := (b + len + 1) / 2 - a
    let fresh := if cache then s.newLines a n else []
    if fresh ≠ [] ∧ filterSize < s.snoop.length + fresh.length then s.makeRoom o len
    else
      let t := s.touchAll (addrs a n)
      let u : State := { t with snoop := t.snoop ++ fresh }
      u.hostAnswer ((List.range len).map (fun i => u.byte (b + i))) (u.anyMark a n)

/-- CXL_MEM_READ (R469). -/
def execCxlMemRead (o len : Nat) (cache : Bool) (s : State) : Host.Outcome State Fault Refusal := command (fun s => s.cxlRead o len cache) s

/-- The CXL.mem reads that waited for room are tried again, in their order. -/
def State.retryMem (s : State) : State := s.memWait.foldl (fun (s : State) r => s.cxlRead r.1 r.2 true) { s with memWait := [] }

/-- A CXL.mem write (R469, R471). No access addresses part of a word (R2): one that names part of a word writes nothing (assumption log 119). -/
def State.cxlWrite (s : State) (o : Nat) (data : List Byte) (poison : Bool) : State :=
  if !s.glaze then s.err .host 8
  else if s.hdmBase.isNone ∨ 3 * 2 ^ 40 < o + data.length ∨ o % 2 ≠ 0 ∨ data.length % 2 ≠ 0 then s
  else
    let b := hdmByte o
    let a := b / 2
    let n := (b + data.length + 1) / 2 - a
    let byteAt (x : Nat) : Byte := if b ≤ x ∧ x < b + data.length then data.getD (x - b) 0 else s.byte x
    s.writeMarked ((addrs a n).map (fun w => (w, byteAt (2 * w + 1) ++ byteAt (2 * w), poison)))

/-- CXL_MEM_WRITE (R469). -/
def execCxlMemWrite (o : Nat) (data : List (BitVec 8)) (poison : Bool) (s : State) : Host.Outcome State Fault Refusal :=
  command (fun s => s.cxlWrite o data poison) s

/-- The host has answered a back-invalidate snoop, with the line's bytes where it held it modified (R470): the line leaves the filter. -/
def State.biGone (s : State) (line : Nat) (dirty : Option (List Byte)) : State :=
  let s1 : State := { s with biWait := s.biWait.filter (fun l => l ≠ line), snoop := s.snoop.filter (fun l => l ≠ line) }
  match dirty with
  | some d => s1.writeRun (32 * line) ((wordsOfBytes d).take 32)
  | none => s1

/-- HOST_CACHE_SNOOP (R472): every line the device holds has been written back, so it is given up. -/
def execHostCacheSnoop (line : Nat) (s : State) : Host.Outcome State Fault Refusal :=
  command (fun (s : State) => { s with hostLines := put false s.hostLines line false }) s

/-! ## Interrupts and the link -/

/-- A write of HOST_HSIG (R474). -/
def State.hsig (s : State) (w : W32) : State := if fld w 0 5 = 0 then s else s.msix (fld w 0 5)


/-- HOST_LINK_TRAIN (R45): PERST_N is high and the port's island runs. -/
def execHostLinkTrain (s : State) : Host.Outcome State Fault Refusal :=
  command (fun (s : State) => { s with linkTrain := true, pins := { s.pins with perstN := true } }) s

/-- Whether the CXL link may run above 32 GT/s: from step 5 of bring-up on (Tables 2-6 and 2-7). -/
def State.fastCxl (s : State) : Bool := s.glaze || s.bitReg rSvc 21

/-- A retraining of the CXL link (R458): of one that is not in L0, or at a rate below the highest once that may be used. -/
def State.linkRetry (s : State) : State :=
  if !s.pins.perstN || (s.bitReg rLstat 31 && (!s.fastCxl || s.fldReg rLstat 29 2 == 3)) then s else s.retrainHost

/-- HOST_LINK_RETRY (R458). -/
def execHostLinkRetry (s : State) : Host.Outcome State Fault Refusal := command State.linkRetry s

/-- The lane of J1 that carries lane i of the CXL link (R33). -/
def State.j1Lane (s : State) (i : Nat) : Nat := if s.bitReg rStrap 12 then 15 - i else i

/-- Training ends: in L0 at 32 GT/s or above, and at most 32 GT/s before step 5 (R458, R477, Table 2-7), where a link of 4, 8 or 16 lanes uses lanes 0
upward after any reversal (R33); or at none of these rates, where LINKUP stays 0 until a later training reaches one. -/
def State.linkUp (s : State) (rate width : Nat) : State :=
  if !s.linkTrain ∨ (1 < rate ∧ !s.fastCxl) then s
  else if rate = 0 ∨ width = 0 then { s.setReg rLstat 0 with linkTrain := false, j1Lanes := [] }
  else { s.setReg rLstat (BitVec.ofNat 32 (2 ^ 31 + rate * 2 ^ 29 + width * 2 ^ 27)) with
         linkTrain := false, j1Lanes := (List.range (2 ^ (width + 1))).map s.j1Lane }

/-- How the port answers a configuration request (R45, R477): with Configuration Request Retry Status until the module reaches Bisque. -/
inductive CfgAnswer where
  | retry | served
deriving DecidableEq, Repr

def State.cfgAnswer (s : State) : CfgAnswer := if s.bitReg rSvc 17 then .served else .retry

/-! ## What the host programs of the port -/

/-- The class code of the function: processing accelerator (Table 16-1). -/
def cfgClass : Nat := 0x1200

/-- The sizes of BAR0, BAR2 and BAR4 (Table 16-2). -/
def barSize (i : Nat) : Nat := if i = 0 then 0x800000 else if i = 1 then 0x1000000 else if i = 2 then 0x20000 else 0

/-- The bytes of the one range that the port's DVSEC reports: 3 TiB (R469). -/
def hdmBytes : Nat := 3 * 2 ^ 40

/-- A change of what the host programs. -/
def State.modCfg (s : State) (f : HostCfg → HostCfg) : State := { s with hostCfg := f s.hostCfg }

/-- A write of the mask bit of MSI-X vector v: unmasking it sends the message that its pending bit holds (R473). -/
def State.msixUnmask (s : State) (v : Nat) (m : Bool) : State :=
  let t : State := { s with msixMask := setBit s.msixMask v m }
  if !m && s.msixPend.getLsbD v then { t with msixPend := setBit t.msixPend v false, msixSent := t.msixSent ++ [BitVec.ofNat 5 v] } else t

/-- A write of 32-bit word k of the MSI-X table: words 0 to 2 of a vector are its address and data, bit 0 of word 3 is its mask. -/
def State.msixWrite (s : State) (k : Nat) (w : W32) : State :=
  if 128 ≤ k then s
  else if k % 4 = 3 then s.msixUnmask (k / 4) (w.getLsbD 0) else s.modCfg (fun c => { c with msix := put 0 c.msix k w })
def State.msixRead (s : State) (k : Nat) : W32 :=
  if 128 ≤ k then 0 else if k % 4 = 3 then (if s.msixMask.getLsbD (k / 4) then 1 else 0) else look 0 s.hostCfg.msix k

/-- A 32-bit word of BAR4 (R459, R467): the doorbell ranges read zero, and the pending-bit array is read-only. -/
def State.bar4Word (s : State) (o : Nat) : W32 :=
  if o < 0x10000 then 0 else if o < 0x18000 then s.msixRead ((o - 0x10000) / 4) else if o = 0x18000 then s.msixPend else 0
/-- A 32-bit write of BAR4: a doorbell, or a word of the MSI-X table (R459, R467). -/
def State.bar4Set (s : State) (o : Nat) (w : W32) : State :=
  if o < 0x8000 then s.queueDoorbell w
  else if o < 0x10000 then s.coreDoorbell w
  else if o < 0x18000 then s.msixWrite ((o - 0x10000) / 4) w else s

/-- What a host read of BAR4 returns. No row of the opcode table makes such a read. -/
def State.bar4Read (s : State) (o bytes : Nat) : List Byte :=
  if bytes = 0 ∨ 8 < bytes ∨ o % bytes ≠ 0 then []
  else ((bytesOfNat 4 (s.bar4Word (o / 4 * 4)).toNat ++ bytesOfNat 4 (s.bar4Word (o / 4 * 4 + 4)).toNat).drop (o % 4)).take bytes

/-- A write of BAR4 (R459, R467): in the doorbell ranges one narrower than 32 bits is discarded and recorded, wherever it lies; else it is one or two
words, the lower address first. One of 32 bits or more that does not lie at a multiple of 4 is not named, and does nothing (assumption log 149). -/
def State.bar4Write (s : State) (o bytes : Nat) (w : BitVec 64) : State :=
  if bytes < 4 then (if bytes ≠ 0 ∧ o < 0x10000 then s.err .host 7 else s)
  else if o % 4 ≠ 0 then s
  else
    let t := s.bar4Set o (w.extractLsb' 0 32)
    if bytes = 4 then t else t.bar4Set (o + 4) (w.extractLsb' 32 32)

/-- The offsets of the model's numbering of configuration space: BARs where PCI has them, then the HDM decoder, the range that DVSEC reports, the IDE
keys and their enable (assumption log 143). -/
abbrev cBar : Nat := 0x10
abbrev cHdmLo : Nat := 0x210
abbrev cHdmHi : Nat := 0x214
abbrev cHdmCtl : Nat := 0x220
abbrev cRangeHi : Nat := 0x400
abbrev cRangeLo : Nat := 0x404
abbrev cIdeKey : Nat := 0x300
abbrev cIdeCtl : Nat := 0x380

/-- The base that the decoder's registers hold (R469). -/
def HostCfg.base (c : HostCfg) : Nat := (look 0 c.hdm cHdmHi).toNat * 2 ^ 32 + (look 0 c.hdm cHdmLo).toNat

/-- A write of configuration space, once the port answers there (R45, R457, R459, R469): a 64-bit, non-prefetchable BAR keeps the bits above its size;
the decoder is committed and given up by a bit of its control register; keys and streams of IDE. -/
def State.cfgSet (s : State) (o : Nat) (w : W32) : State :=
  if s.cfgAnswer = .retry then s
  else if cBar ≤ o ∧ o < cBar + 24 then
    let i := (o - cBar) / 4
    s.modCfg (fun c => { c with bars := put 0 c.bars i (if i % 2 = 0 then (w &&& ~~~(BitVec.ofNat 32 (barSize (i / 2) - 1))) else w) })
  else if o = cHdmLo then s.modCfg (fun c => { c with hdm := put 0 c.hdm o (w &&& 0xF0000000) })
  else if o = cHdmHi then s.modCfg (fun c => { c with hdm := put 0 c.hdm o w })
  else if o = cHdmCtl then { s with hdmBase := if w.getLsbD 9 then some s.hostCfg.base else none }
  else if cIdeKey ≤ o ∧ o < cIdeCtl then s.modCfg (fun c => { c with ideKeys := put 0 c.ideKeys ((o - cIdeKey) / 4) w })
  else if o = cIdeCtl then s.modCfg (fun c => { c with ideOn := w.getLsbD 0 })
  else s

/-- A 32-bit word of configuration space; IDE keys do not read back. No row of the opcode table makes such a read. -/
def State.cfgRead (s : State) (o : Nat) : W32 :=
  if o = 0x08 then BitVec.ofNat 32 (cfgClass * 2 ^ 16)
  else if cBar ≤ o ∧ o < cBar + 24 then
    (if (o - cBar) / 4 % 2 = 0 then look 0 s.hostCfg.bars ((o - cBar) / 4) ||| 4 else look 0 s.hostCfg.bars ((o - cBar) / 4))
  else if o = cHdmCtl then (if s.hdmBase.isSome then 0x600 else 0)
  else if o = cHdmLo ∨ o = cHdmHi then look 0 s.hostCfg.hdm o
  else if o = cRangeHi then BitVec.ofNat 32 (hdmBytes / 2 ^ 32)
  else if o = cRangeLo then BitVec.ofNat 32 (hdmBytes % 2 ^ 32 + (if s.glaze then 3 else 1))
  else if o = cIdeCtl then (if s.hostCfg.ideOn then 1 else 0) else 0

/-- HOST_LINK_UP (R477). -/
def execHostLinkUp (rate width : BitVec 2) (s : State) : Host.Outcome State Fault Refusal :=
  command (fun s => s.linkUp rate.toNat width.toNat) s

end Sys2Proof.Machine
end

