-- ==== Sys2Proof/Machine/Mmio.lean ====
section
/-! DEFINITION. Sys2Proof/Machine/Mmio.lean: reading and writing an MMIO register at its offset: the page header (R14 to R18), the
access types (R19 to R21), the registers that show state held elsewhere, and the register windows. -/

namespace Sys2Proof.Machine

/-! ## Registers that show state held elsewhere -/

/-- The instance number of a page (Table 0-3). -/
def pageInst : Page → Nat
  | .pugmill i => i.val
  | .link n => n
  | .core n => n
  | .stack n => n
  | .lpch n => n
  | _ => 0

/-- The width of array q of core n: 64, 63 with one faulty column, 0 with more (R281). -/
def State.arrWidth (s : State) (n q : Nat) : Nat :=
  match (arrCols s.fuses n q).length with
  | 0 => 64
  | 1 => 63
  | _ => 0

/-- PG_CAP of a page: the array widths of a CORE_n page (Table 9-11). No chapter gives the contents of another page's, which here reads zero
(assumption log 15). -/
def State.pageCap (s : State) : Page → W32
  | .core n => BitVec.ofNat 32 (s.arrWidth n 0 + 2 ^ 8 * s.arrWidth n 1 + 2 ^ 16 * s.arrWidth n 2 + 2 ^ 24 * s.arrWidth n 3)
  | _ => 0

/-- CORE_RUN.STATE (Table 3-9, R58, R109): a halted core reads RUNNING while an instruction that its halt waits for or that has issued, or
an operation of its Setter or feeder, is not complete. A suspended operation is such a one (assumption log 111). -/
def State.runState (s : State) (n : Nat) : Nat :=
  let c := s.core n
  if c.resetting then 3
  else if c.gated && !c.stopReq then 2
  else if (s.bitReg (rRun n) 0 || c.stopReq) && c.hold.isNone && !c.walked && c.vbusy.isEmpty && c.opsDone then 0 else 1

/-- CORE_PC (Table 3-11). -/
def State.corePc (s : State) (n : Nat) : W32 := if s.runState n = 0 then BitVec.ofNat 32 ((s.core n).pc.toNat % 2 ^ 20) else 0

/-- DST of SCARAB_C_n (Table 11-5). -/
def Dst.code : Dst → Nat
  | .off => 0 | .run => 1 | .idle => 2 | .task => 3 | .ending => 4 | .paused => 5

/-- SCARAB_C_n (Table 11-6): a core whose task a reset ended holds none, though its record may be still to come (Table 11-5). -/
def State.scarabC (s : State) (n : Nat) : W32 :=
  let c := s.core n
  BitVec.ofNat 32 (c.dst.code * 2 ^ 29 + (match c.task with
    | some t => t.queue
    | none => 0))

/-- PYRO_CORE_n and PYRO_DIE_d_HEAD (Table 11-7). -/
def State.pyroCore (s : State) (n : Nat) : W32 :=
  let c := s.core n
  let cls := match c.task with
    | some t => t.cone
    | none => 0
  BitVec.ofNat 32 ((if c.busy then 2 ^ 31 else 0) + (if c.gatedNow then 2 ^ 30 else 0) + cls % 16 * 2 ^ 26 + c.step * 2 ^ 16 + c.pwr.toNat)
def State.pyroHead (s : State) (d : Nat) : W32 :=
  BitVec.ofNat 32 ((if look 0 s.res d = 0 then 0 else 256) + (s.settle.headroom d % 256).toNat)

/-- One word of the entry that SCARAB_QSEL names (R316). -/
def State.qeRead (s : State) (i : Nat) : W32 :=
  let e := s.queue (s.fldReg rQsel 0 20)
  if i = 0 then e.qe0 else if i = 1 then e.qe1 else if i = 2 then e.qe2 else e.qe3

/-- JEi of the entry and copy that JSEL names, XEi of the entry that XSEL names (Table 14-7). -/
def State.jeRead (s : State) (pg : Fin 2) (i : Nat) : W32 :=
  let q := s.job (jobOf pg (s.fldReg (rJsel pg.val) 0 11))
  if i < 4 && s.bitReg (rJsel pg.val) 31 then look 0 q.staged i else q.je i
def State.xeRead (s : State) (pg : Fin 2) (i : Nat) : W32 := (s.swarm (s.xsel pg)).x i

/-- The routing entry that FABRIC_RSEL names, none beyond its table (R382). Bit 31, which does not read, says that LVL was written with its reserved
value: the level it then holds is a free value (R21). -/
def State.routeSel (s : State) : Option Nat :=
  let l := s.fldReg rFabRsel 12 2
  let i := s.fldReg rFabRsel 0 10
  if l = 0 then (if i < 64 then some i else none)
  else if l = 1 then some (1024 + i)
  else if l = 2 then (if i < 16 then some (2048 + i) else none) else none

/-- The multicast entry that FABRIC_MSEL names. -/
def State.mselEntry (s : State) : McEntry :=
  let g := s.fldReg rFabMsel 0 16
  if s.bitReg rFabMsel 16 then look McEntry.none_ s.mcastStg g else s.mcEntry g

/-- FABRIC_MDATA0 to 3 of an entry (Table 13-11). -/
def McEntry.data (e : McEntry) (k : Nat) : W32 := if k < 3 then e.links.extractLsb' (32 * k) 32 else e.attr

/-- The log entry that RAS_LOGSEL names, and what RAS_LOGA and RAS_LOGR show of it (Table 18-5). -/
def State.logSel (s : State) : Option LogEntry := s.log[s.fldReg rLogsel 0 6]?
def LogEntry.hi (e : LogEntry) : W32 := BitVec.ofNat 32 ((if e.ue then 2 else 1) * 2 ^ 30 + e.src.toNat * 2 ^ 26 + e.addr / 2 ^ 32 % 2 ^ 12)

/-- The rows of the fuse map that come from the repair log: those that the cold reset read, until step 3 puts them in force (R510). -/
def State.logRows (s : State) : List Repair := if s.fieldRows.isEmpty then s.repairs.filter Repair.isRow else s.fieldRows

/-- STACK_n_SPARE (Table 18-4, R510): LEFT counts the rows of the fuse map from the cold reset on, USED those in force. -/
def State.stackSpare (s : State) (st : Nat) : W32 :=
  let mine (x : Repair) : Bool := match x with
    | .row t _ _ => t == st
    | .col _ _ _ => false
    | .sram _ _ _ => false
    | .group _ _ _ => false
  BitVec.ofNat 32 (s.fieldRows.countP mine * 2 ^ 16 + (8192 - (s.fuses ++ s.logRows).countP mine))

/-- Whether a page asserts its interrupt (R16), and the summary bits of a run of pages (Table 16-5). -/
def State.asserts (s : State) (p : Page) : Bool := decide (s.reg (pageBase p + oIrq) ≠ 0)
def State.isum (s : State) (p : Nat → Page) (k n : Nat) : W32 := bitsOf 32 (fun i => decide (i < n) && s.asserts (p (32 * k + i)))

/-- HOST_ISUM.PAGES (Table 16-5). -/
def State.isumPages (s : State) : W32 :=
  let any (p : Nat → Page) (n : Nat) : Bool := (List.range n).any (fun i => s.asserts (p i))
  let bits := ([.global, .pyro, .scarab, .comb, .mould, .pugmill 0, .pugmill 1, .fabric, .ras, .scrub, .host, .firefly] : List Page).map s.asserts ++
    [any .link 96, any .core 192, any .stack 8, any .lpch 32]
  bitsOf 32 (fun i => bits.getD i false)

/-- MB_STAT (Table 17-3), and a word of MB_BUF. -/
def State.mbStat (s : State) : W32 :=
  BitVec.ofNat 32 ((if s.boxH.busy then 2 ^ 31 else 0) + s.boxH.status.toNat * 2 ^ 16 + s.boxH.resp.length % 2 ^ 11)
def State.mbWord (s : State) (i : Nat) : W32 := BitVec.ofNat 32 (natOfBytes (lookRun 0 s.buf i 4))

/-! ## Reading -/

/-- A block register of a page at its offset from 0x040; a reserved offset and a write-only register hold nothing and read zero (R19,
R20). -/
def State.blockRead (s : State) (p : Page) (o : Nat) : W32 :=
  let held := s.reg (pageBase p + o)
  match p with
  | .global => if o = 0x048 then s.svcWord else held
  | .pyro =>
    if 0x050 ≤ o ∧ o < 0x090 ∧ o % 16 = 12 then s.pyroHead ((o - 0x050) / 16)
    else if 0x100 ≤ o ∧ o < 0x400 then s.pyroCore ((o - 0x100) / 4) else held
  | .scarab =>
    if 0x04C ≤ o ∧ o < 0x05C then s.qeRead ((o - 0x04C) / 4)
    else if 0x080 ≤ o ∧ o < 0x380 then s.scarabC ((o - 0x080) / 4) else held
  | .comb => if 0x100 ≤ o ∧ o < 0x900 ∧ o % 0x20 = 0x10 then s.bLeft ((o - 0x100) / 0x20) else held
  | .pugmill i =>
    if o = 0x054 then (if i = 0 then BitVec.ofNat 32 (65536 - s.tagsUsed.length) else 0)
    else if 0x080 ≤ o ∧ o < 0x0B8 then s.jeRead i ((o - 0x080) / 4)
    else if 0x0C0 ≤ o ∧ o < 0x100 then s.xeRead i ((o - 0x0C0) / 4) else held
  | .fabric =>
    if o = 0x050 then setBit held 31 false
    else if o = 0x054 then (match s.routeSel with
      | some k => look 0x0FFFFFFF s.routes k
      | none => 0)
    else if 0x05C ≤ o ∧ o < 0x06C then s.mselEntry.data ((o - 0x05C) / 4) else held
  | .link n => if o = 0x044 then setBit held 22 (s.cable n) else held
  | .core n => if o = 0x040 then setFld held 28 4 (s.runState n) else if o = 0x048 then s.corePc n else held
  | .stack n => if o = 0x048 then s.stackSpare n else held
  | .ras =>
    if o = 0x064 then setFld held 24 7 s.log.length
    else if 0x06C ≤ o ∧ o < 0x078 then (match s.logSel with
      | some e => if o = 0x06C then BitVec.ofNat 32 e.addr else if o = 0x070 then e.hi else e.rep.zeroExtend 32
      | none => 0)
    else held
  | .host =>
    let x := s.port s.bpSel
    if o = 0x040 then setBit (setBit held 26 s.hostCfg.ideOn) 25 s.glaze
    else if o = 0x044 then s.isumPages
    else if o = 0x054 then x.addr.truncate 32
    else if o = 0x058 then (x.addr >>> 32).truncate 32
    else if o = 0x05C then x.cnt
    else if o = 0x060 then x.ctl
    else if 0x080 ≤ o ∧ o < 0x0A0 then s.bpDone.extractLsb' (8 * (o - 0x080)) 32
    else if 0x0A0 ≤ o ∧ o < 0x0B8 then s.isum .core ((o - 0x0A0) / 4) 32
    else if 0x0B8 ≤ o ∧ o < 0x0C4 then s.isum .link ((o - 0x0B8) / 4) 32
    else if o = 0x0C4 then s.isum .lpch 0 32
    else if o = 0x0C8 then s.isum .stack 0 8 else held
  | .firefly => if o = 0x044 then s.mbStat else if 0x400 ≤ o ∧ o < 0x800 then s.mbWord (o - 0x400) else held
  | _ => held

/-- A register of a page at its offset, a multiple of 4 (R10, R13, R14). PG_ID's type and revision and PG_STAT, which the spec does not give, are
zero (assumption log 15). -/
def State.pageRead (s : State) (p : Page) (o : Nat) : W32 :=
  if 0x040 ≤ o then s.blockRead p o
  else if o = 0x000 then BitVec.ofNat 32 (256 * pageInst p)
  else if o = 0x004 then s.pageCap p
  else if o = oCtl ∨ o = oIrqEn ∨ o = oIrq ∨ o = oErr then s.reg (pageBase p + o)
  else if o = 0x010 then s.irqRaw p
  else 0

/-- The 32-bit register at a BAR0 byte offset; where no page lies, zero (R20, R284). -/
def State.mmioRead (s : State) (off : Nat) : W32 :=
  match pageAt off with
  | some p => s.pageRead p (off % 0x1000 / 4 * 4)
  | none => 0

/-- A read of a register that shows an entry of a table finds the errors of that entry (R495): QE0 to QE3, JE0 to JE13, XE0 to XE15, FABRIC_RDATA,
FABRIC_MDATA, and the registers of a barrier context. -/
def State.pageSees (s : State) (p : Page) (o : Nat) : State :=
  match p with
  | .scarab => if 0x04C ≤ o ∧ o < 0x05C then s.readQueue (s.fldReg rQsel 0 20) else s
  | .comb =>
    if 0x100 ≤ o ∧ o < 0x900 then s.readCtx ((o - 0x100) / 0x20) else if 0x900 ≤ o ∧ o < 0xF00 then s.readCtx ((o - 0x900) / 0x18) else s
  | .pugmill i =>
    if 0x080 ≤ o ∧ o < 0x0B8 then s.readJob (jobOf i (s.fldReg (rJsel i.val) 0 11))
    else if 0x0C0 ≤ o ∧ o < 0x100 then s.readSwarm (s.xsel i) else s
  | .fabric =>
    if o = 0x054 then (match s.routeSel with
      | some k => s.readRoute k
      | none => s)
    else if 0x05C ≤ o ∧ o < 0x06C then s.readMcast (s.fldReg rFabMsel 0 16) (s.bitReg rFabMsel 16) else s
  | _ => s
def State.mmioSees (s : State) (off : Nat) : State :=
  match pageAt off with
  | some p => s.pageSees p (off % 0x1000 / 4 * 4)
  | none => s

/-- What a host read of BAR0 returns (R11): the bytes of a register that a narrow read names, or one or two registers, the lower address
first. No row of the opcode table makes such a read; an access that is not naturally aligned returns nothing (assumption log 18). -/
def State.bar0Read (s : State) (off bytes : Nat) : List Byte :=
  if bytes = 0 ∨ 8 < bytes ∨ off % bytes ≠ 0 then []
  else ((bytesOfNat 4 (s.mmioRead (off / 4 * 4)).toNat ++ bytesOfNat 4 (s.mmioRead (off / 4 * 4 + 4)).toNat).drop (off % 4)).take bytes

/-! ## Writing -/

/-- The interrupt sources that a page has (R14, and the chapters on the pages); the other bits are reserved (assumption log 17). -/
def pageSources : Page → W32
  | .pyro => 7
  | .mould => 3
  | .link _ => 3
  | .ras => 3
  | .host => 3
  | .stack _ => 0
  | .lpch _ => 0
  | _ => 1

/-- A write of PG_IRQ_EN (R16): a source that is high latches when its enable goes from 0 to 1. -/
def State.irqEnWrite (s : State) (p : Page) (x : W32) : State :=
  let w := x &&& pageSources p
  let set := w &&& ~~~(s.reg (pageBase p + oIrqEn)) &&& s.irqRaw p
  s.orRise ((s.setReg (pageBase p + oIrqEn) w).setReg (pageBase p + oIrq) (s.reg (pageBase p + oIrq) ||| set))

/-- A write of 1 to PG_CTL.LOCK (R15). -/
def State.lockPage (s : State) (p : Page) : State := s.setFldReg (pageBase p + oCtl) 31 1 1

/-- A write of the page header. Commands come one after another: an event of the same cycle as a write that clears a PG_IRQ bit is the command after
it, and leaves the bit set (R17, assumption log 121). -/
def State.headWrite (s : State) (p : Page) (o : Nat) (w : W32) : State :=
  if o = oCtl then
    let t := if w.getLsbD 31 then s.lockPage p else s
    if w.getLsbD 30 then t.clearErr p 0 else t
  else if o = oIrqEn then s.irqEnWrite p w
  else if o = oIrq then s.setReg (pageBase p + oIrq) (s.reg (pageBase p + oIrq) &&& ~~~w)
  else s

/-- A write of SC_CTL (Table 7-7): NF and SATF are W1C; a reserved HLEN or FMT leaves a free value (R21). -/
def State.scCtlWrite (s : State) (n e : Nat) (w : W32) : State :=
  let old := s.reg (rScCtl n e)
  let (s1, w1) := s.reserve (w &&& 0x0FFF00FF) 24 4 8
  let (s2, w2) := s1.reserve w1 16 4 2
  s2.setReg (rScCtl n e) (w2 ||| (old &&& 0xC0000000 &&& ~~~w))

/-- A write of a scale-table register of core n at its offset from 0x400 (Table 7-7). -/
def State.scWrite (s : State) (n x : Nat) (w : W32) : State :=
  let e := x / 0x30
  let o := x % 0x30
  if 64 ≤ e then s
  else if o = 0 then s.scCtlWrite n e w
  else if o = 4 then s.setReg (rScAmax n e) w
  else if o = 8 then s.scAmaxw n e w
  else if o = 12 then s
  else s.setReg (rScHist n e ((o - 16) / 4)) w

/-- A write of MB_CMD (Table 17-2, R482): bytes named beyond the buffer are free values (R9). -/
def State.mbCmd (s : State) (w : W32) : State :=
  if s.boxH.busy then s.err .firefly 1
  else
    let len := fld w 0 11
    let (t, x) := s.freeWords (len - 1024)
    t.mailbox .h (fld w 24 8) (lookRun 0 s.buf 0 (min len 1024) ++ x.map (fun v => v.extractLsb' 0 8))

/-- A write of MB_BUF (R482). -/
def State.mbBuf (s : State) (i : Nat) (w : W32) : State :=
  if s.boxH.busy then s.err .firefly 1 else { s with buf := putRun 0 s.buf i (bytesOfNat 4 w.toNat) }

/-- A write of FABRIC_RDATA: the entry takes it, and its mark clears (R502). Under an undefined level no routing entry changes (R22). -/
def State.rdataWrite (s : State) (w : W32) : State :=
  match if s.bitReg rFabRsel 31 then none else s.routeSel with
  | some k => { s.over (fun x => x == .route k) with routes := put 0x0FFFFFFF s.routes k (w &&& 0x1FFFFFFF), routeMark := put false s.routeMark k false }
  | none => s

/-- An entry with one of its registers written. -/
def McEntry.wrote (e : McEntry) (k : Nat) (w : W32) : McEntry :=
  if k < 3 then { e with links := (e.links &&& ~~~(0xFFFFFFFF#96 <<< (32 * k))) ||| (w.zeroExtend 96 <<< (32 * k)), mark := false }
  else { e with attr := w &&& 0xE000003F, mark := false }

/-- A write of FABRIC_MDATA (R389): on the live entry of a group in use by an active job, it leaves the job undefined (R360). -/
def State.mdataWrite (s : State) (k : Nat) (w : W32) : State :=
  let g := s.fldReg rFabMsel 0 16
  let s := s.readMcast g (s.bitReg rFabMsel 16)
  let e := s.mselEntry
  if s.bitReg rFabMsel 16 then { s with mcastStg := put McEntry.none_ s.mcastStg g (e.wrote k w) }
  else if e.attr.getLsbD 29 && s.bEn (fld e.attr 0 6) then
    let t := s.ctxUnd (fld e.attr 0 6) (s.jobsOf (fld e.attr 0 6))
    { t with mcast := put McEntry.none_ t.mcast g { t.mcEntry g with mark := false } }
  else { s with mcast := put McEntry.none_ s.mcast g (e.wrote k w) }

/-- A write of LINK_n_CTL (R364, R395). -/
def State.linkCtlWrite (s : State) (n : Nat) (w : W32) : State :=
  let s1 := s.setFldReg (rLkCtl n) 30 1 (fld w 30 1)
  let s2 := if w.getLsbD 31 then s1.linkEnable n else s1.linkDisable n
  let s3 := if w.getLsbD 29 then s2.linkRetrain n else s2
  if w.getLsbD 28 then s3.linkAdmit n else s3

/-- A write of COMB_HOP (Table 12-7). -/
def State.hopWrite (s : State) (src : Src) (w : W32) : State :=
  let k := fld w 0 16
  match fld w 29 3 with
  | 1 => s.semSignal k s.hopv
  | 2 => s.hopSub k
  | 3 => s.hopSet src k
  | 4 => (s.arrive (k % 64) none).1
  | _ => s

/-- A write of a register of a PUGMILL page (Tables 14-7, 7-12, 7-13, 12-8). -/
def State.pugWrite (s : State) (i : Fin 2) (o : Nat) (w : W32) : State :=
  if o = 0x040 then s.setReg (rJsel i.val) (w &&& 0x800007FF)
  else if o = 0x044 then
    let t := s.readJob (jobOf i (fld w 0 11))
    if fld w 30 2 = 1 then t.jobOpen (jobOf i (fld w 0 11)) else if fld w 30 2 = 2 then (t.jobClose (jobOf i (fld w 0 11))).retryPug else s
  else if o = 0x058 then s.setReg (rXsel i.val) (w &&& 0x3F)
  else if o = 0x05C then
    match fld w 29 3 with
    | 1 => (s.readSwarm (s.xsel i)).swarmEnable (s.xsel i)
    | 2 => (s.readSwarm (s.xsel i)).swarmDisable (s.xsel i)
    | 3 => s.swarmGo (s.xsel i) (.send (fld w 0 24))
    | 4 => s.swarmGo (s.xsel i) .ret
    | _ => s
  else if 0x080 ≤ o ∧ o < 0x0B8 then
    s.jeWrite (jobOf i (s.fldReg (rJsel i.val) 0 11)) (s.bitReg (rJsel i.val) 31) ((o - 0x080) / 4) w
  else if 0x0C0 ≤ o ∧ o < 0x100 then s.xeWrite (s.xsel i) ((o - 0x0C0) / 4) w
  else if i ≠ 0 then s
  else if o = 0x04C then (s.setReg rFbLo (w &&& 0xFFFFE001)).retryPug
  else if o = 0x050 then s.setReg rFbHi (w &&& 0xFFF)
  else if o = 0x800 then s.lossPolWrite false w
  else if o = 0x804 then s.lossCurWrite w
  else if o = 0x808 then s.setReg rLsSkip w
  else if o = 0x810 then s.lossPolWrite true w
  else if o = 0x814 then
    let (t, x) := s.reserve (w &&& 0x3F) 0 6 40
    t.setReg rLsCurStg x
  else s

/-- A write of a register of the MOULD page (Tables 10-7 to 10-10, 15-8). -/
def State.mouldWrite (s : State) (src : Src) (o : Nat) (w : W32) : State :=
  if o = 0x040 then s.jrootLo w
  else if o = 0x044 then s.setReg rJrootHi (w &&& 0xFFF)
  else if o = 0x048 then (if w.getLsbD 31 then s.take else s)
  else if o = 0x04C then
    if Src.user src then s else if fld w 30 2 = 1 then s.stepCommand true else if fld w 30 2 = 2 then s.stepCommand false else s
  else if o = 0x050 then s.slogWrite false w
  else if o = 0x054 then s.slogWrite true w
  else if o = 0x058 then s.sctlWrite w
  else if o = 0x060 then (if s.bitReg rSctl 31 then s else s.setReg rStepn w)
  else if o = 0x064 then s.setReg rJctxLo (w &&& 0xFFFFFFC1)
  else if o = 0x068 then s.setReg rJctxHi (w &&& 0xFFF)
  else if o = 0x06C then (if 1 ≤ fld w 29 3 ∧ fld w 29 3 ≤ 4 then s.srsv src (fld w 29 3) else s)
  else if o = 0x070 then s.setReg rDrecLo (w &&& 0xFFF80001)
  else if o = 0x074 then s.setReg rDrecHi (w &&& 0xFFF)
  else if o = 0x078 then s.setReg rRrecLo (w &&& 0xFFFFFFE0)
  else if o = 0x07C then s.setReg rRrecHi (w &&& 0xFFF)
  else if o = 0x080 then (if w.getLsbD 31 then s.restoreGo else s)
  else s

/-- A write of a register of the FABRIC page (Table 13-11). -/
def State.fabWrite (s : State) (o : Nat) (w : W32) : State :=
  if o = 0x044 then s.setReg rFabSeed (w &&& 0xFFF)
  else if o = 0x048 then
    let t := s.setReg rFabCtl (w &&& 0x4000001F)
    if w.getLsbD 31 then t.discovery else t
  else if o = 0x04C then s.setReg rFabRto (w &&& 0xFFFF)
  else if o = 0x050 then
    let (t, x) := s.reserve (w &&& 0x33FF) 12 2 2
    t.setReg rFabRsel (setBit x 31 (decide (fld w 12 2 = 3)))
  else if o = 0x054 then s.rdataWrite w
  else if o = 0x058 then s.setReg rFabMsel (w &&& 0x1FFFF)
  else if 0x05C ≤ o ∧ o < 0x06C then s.mdataWrite ((o - 0x05C) / 4) w
  else if 0x800 ≤ o ∧ o < 0xE00 then
    if o % 8 = 0 then s.setReg (0x7000 + o) (w &&& 0x1FFFFF) else s.remoteDoorbell ((o - 0x800) / 8) w
  else s

/-- A write of a register of the COMB page (Table 12-7). -/
def State.combPageWrite (s : State) (src : Src) (o : Nat) (w : W32) : State :=
  if o = 0x040 then s.hopWrite src w
  else if o = 0x044 then s.setReg rHopv w
  else if o = 0x048 then s.clearTask (fld w 0 8)
  else if o = 0x04C then s.setReg rLsctx (w &&& 0x3F)
  else if 0x100 ≤ o ∧ o < 0x900 then
    let b := (o - 0x100) / 0x20
    if o % 0x20 = 0 then s.bCtlWrite b w
    else if o % 0x20 = 4 then s.bCtxWrite b .parent w
    else if o % 0x20 = 0xC then s.bNextWrite b w else s
  else if 0x900 ≤ o ∧ o < 0xF00 then
    s.bCtxWrite ((o - 0x900) / 0x18) (.mask ⟨(o - 0x900) % 0x18 / 4, by omega⟩) w
  else s

/-- A write of CORE_START (Table 3-10): OFFSET must be even, and an odd one, which is reserved, leaves a free value (R21). -/
def State.startWrite (s : State) (n : Nat) (w : W32) : State :=
  if w.getLsbD 0 then
    let (t, v) := s.freeFld 20
    t.setReg (rStart n) (BitVec.ofNat 32 v)
  else s.setReg (rStart n) (w &&& 0xFFFFF)

/-- A write of a register of a CORE_n page (Tables 3-9 to 3-12, 5-6, 7-7, 7-8, 7-11, 10-7, 10-8, R323). -/
def State.corePageWrite (s : State) (n o : Nat) (w : W32) : State :=
  if o = 0x040 then (if w.getLsbD 0 then s.haltCore n else s.resumeCore n)
  else if o = 0x044 then s.startWrite n w
  else if o = 0x04C then s.coreResetWrite n w
  else if o = 0x050 then s.swi n w
  else if o = 0x058 then s.scRoll n false w
  else if o = 0x05C then s.scRoll n true w
  else if o = 0x060 then s.setReg (rNf n) (s.reg (rNf n) &&& ~~~w)
  else if o = 0x064 then s.setReg (rDisp n) (w &&& 0xFFFFE)
  else if o = 0x068 then s.setReg (rMbox n) (w &&& 0xFFFFC)
  else if o = 0x080 then s.xrootLo n w
  else if o = 0x084 then s.setReg (rXrootHi n) (w &&& 0xFFF)
  else if 0x400 ≤ o then s.scWrite n (o - 0x400) w
  else s

/-- A write of a register of the SCARAB page (Tables 11-2, 11-4, 11-6). -/
def State.scarabWrite (s : State) (o : Nat) (w : W32) : State :=
  if o = 0x040 then s.queueDoorbell w
  else if o = 0x044 then s.coreDoorbell w
  else if o = 0x048 then s.setReg rQsel (w &&& 0xFFFFF)
  else if 0x04C ≤ o ∧ o < 0x05C then s.qeWrite ((o - 0x04C) / 4) w
  else if o = 0x05C then
    if fld w 30 2 = 1 then s.queueEnable (fld w 0 20) else if fld w 30 2 = 2 then s.queueDisable (fld w 0 20) else s
  else if o = 0x060 then s.setReg rAge (w &&& 0xFFFF)
  else if o = 0x064 then s.preempt w
  else s

/-- A write of a register of the RAS, SCRUB, STACK_n or LPCH_n page (Tables 18-4 to 18-6). -/
def State.rasWrite (s : State) (o : Nat) (w : W32) : State :=
  if 0x040 ≤ o ∧ o < 0x064 then s.setReg (0x400000 + o) w
  else if o = 0x064 then (if w.getLsbD 31 then s.logClear else s)
  else if o = 0x068 then s.setReg rLogsel (w &&& 0x3F)
  else if o = 0x078 then s.setReg rRpaLo w
  else if o = 0x07C then s.setReg rRpaHi (w &&& 0xFFF)
  else if o = 0x080 then (if fld w 30 2 = 1 then s.rpRow else if fld w 30 2 = 2 then s.rpAcol w else s)
  else s
def State.scrubWrite (s : State) (o : Nat) (w : W32) : State :=
  if o = 0x040 then s.setReg rScrBaseLo w
  else if o = 0x044 then s.setReg rScrBaseHi (w &&& 0xFFF)
  else if o = 0x048 then s.setReg rScrCntLo w
  else if o = 0x04C then s.setReg rScrCntHi (w &&& 0xFFF)
  else if o = 0x050 then
    if w.getLsbD 31 then s.scrubGo w else s.setReg rScrCtl ((s.reg rScrCtl &&& 0x40000000) ||| (w &&& 0x3000FFFF))
  else s

/-- A write of a register of the HOST page (Table 16-5). -/
def State.hostWrite (s : State) (o : Nat) (w : W32) : State :=
  if o = 0x048 then s.hsig w
  else if o = 0x050 then s.setReg rBpsel (w &&& 0xFF)
  else if o = 0x054 then s.bpRegWrite .addrLo w
  else if o = 0x058 then s.bpRegWrite .addrHi w
  else if o = 0x05C then s.bpRegWrite .cnt w
  else if o = 0x060 then s.bpctlWrite w
  else if 0x080 ≤ o ∧ o < 0x0A0 then
    withIrq .host (fun (s : State) => { s with bpDone := s.bpDone &&& ~~~(w.zeroExtend 256 <<< (8 * (o - 0x080))) }) s
  else s

/-- A write of a block register of a page at its offset from 0x040: one that is read-only or reserved ignores it (R19, R20). -/
def State.blockWrite (s : State) (src : Src) (p : Page) (o : Nat) (w : W32) : State :=
  match p with
  | .global =>
    if o = 0x044 then s.cfgWrite w
    else if o = 0x04C then s.globalReset src w
    else if o = 0x050 then s.setReg rIrqRoute (w &&& 0x800000FF) else s
  | .pyro =>
    if o = 0x044 then s.setFldReg rPyCap 16 16 (fld w 16 16)
    else if o = 0x04C then s.dvfsWrite w
    else if 0x050 ≤ o ∧ o < 0x090 ∧ o % 16 = 0 then s.setReg (0x1000 + o) (w &&& 0xFFFF) else s
  | .scarab => s.scarabWrite o w
  | .comb => s.combPageWrite src o w
  | .mould => s.mouldWrite src o w
  | .pugmill i => s.pugWrite i o w
  | .fabric => s.fabWrite o w
  | .link n =>
    if o = 0x040 then s.linkCtlWrite n w
    else if o = 0x054 then s.setReg (rLkFlags n) (s.reg (rLkFlags n) &&& ~~~w) else s
  | .core n => s.corePageWrite n o w
  | .stack n => if o = 0x040 then s.setReg (rStCe n) w else if o = 0x044 then s.setReg (rStUe n) w else s
  | .lpch n => if o = 0x040 then s.setReg (rLpCe n) w else if o = 0x044 then s.setReg (rLpUe n) w else s
  | .ras => s.rasWrite o w
  | .scrub => s.scrubWrite o w
  | .host => s.hostWrite o w
  | .firefly => if o = 0x040 then s.mbCmd w else if 0x400 ≤ o ∧ o < 0x800 then s.mbBuf (o - 0x400) w else s

/-- A 32-bit write at a BAR0 byte offset, a multiple of 4; where no page lies it does nothing (R20, R284). -/
def State.mmioWrite (s : State) (src : Src) (off : Nat) (w : W32) : State :=
  match pageAt off with
  | none => s
  | some p =>
    let o := off % 0x1000 / 4 * 4
    if 0x040 ≤ o then s.blockWrite src p o w else s.headWrite p o w

/-- A register write of a width (R11, R12): 32 bits, or 64 bits as two writes, lower address first; a narrower one, and one that is not
naturally aligned, is discarded. -/
def State.registerWrite (s : State) (src : Src) (off bytes : Nat) (w : BitVec 64) : State :=
  if bytes < 4 ∨ off % bytes ≠ 0 then s
  else if bytes = 4 then s.mmioWrite src off (w.extractLsb' 0 32)
  else (s.mmioWrite src off (w.extractLsb' 0 32)).mmioWrite src (off + 4) (w.extractLsb' 32 32)

/-! ## Commands -/

/-- PG_IRQ_EN_WRITE (R16). -/
def execPgIrqEnWrite (src : Src) (page : Page) (w : BitVec 32) (s : State) : Host.Outcome State Fault Refusal :=
  command (fun s => s.inTurn src (.pgIrqEnWrite page w) (fun s => if pageExists page then s.irqEnWrite page w else s)) s

/-- PG_LOCK (R15). -/
def execPgLock (src : Src) (page : Page) (s : State) : Host.Outcome State Fault Refusal :=
  command (fun s => s.inTurn src (.pgLock page) (fun s => if pageExists page then s.lockPage page else s)) s

/-- PG_ERR_CLR (R18). -/
def execPgErrClr (src : Src) (page : Page) (arriving : BitVec 16) (s : State) : Host.Outcome State Fault Refusal :=
  command (fun s => s.inTurn src (.pgErrClr page arriving) (fun s => if pageExists page then s.clearErr page arriving.toNat else s)) s


end Sys2Proof.Machine
end

