-- ==== Sys2Proof/Machine/LoadStore.lean ====
section
/-! DEFINITION. Sys2Proof/Machine/LoadStore.lean: the scalar loads and stores (R117 to R119), their targets (R88), MMIO and Comb-window
accesses (R12, R105) and the return of a held load. -/

namespace Sys2Proof.Machine

/-- A width of Table 4-6 with its register kind. -/
inductive LsSize where
  | word | pair | quad | addr
deriving DecidableEq, Repr

/-- Words of a width, whether RG names its register (Table 4-6), and the destination of a load. -/
def LsSize.words : LsSize → Nat
  | .word => 1 | .pair => 2 | .quad => 4 | .addr => 4
def LsSize.regOk (z : LsSize) (rg : BitVec 4) : Bool := match z with
  | .word => true
  | .pair => evenReg rg.toNat
  | .quad => quadReg rg.toNat
  | .addr => decide (rg.toNat < 8)
def LsSize.ref (z : LsSize) (rg : BitVec 4) : RegRef := match z with
  | .addr => .a rg.toNat
  | _ => .d rg.toNat

/-- Sending a loaded value of a number of words to its destination. -/
def Core.sendLoad (c : Core) (d words : Nat) (r : RegRef) (v : W64) : Core := match r with
  | .d i => if words = 1 then c.sendD d i (v.truncate 16) else if words = 2 then c.sendP d i (v.truncate 32) else c.sendQ d i v
  | _ => c.send d r v

/-- The value a store takes from its register (R118). -/
def Core.storeVal (c : Core) (z : LsSize) (rg : BitVec 4) : W64 := match z with
  | .word => (c.dreg rg.toNat).zeroExtend 64
  | .pair => (c.dpair rg.toNat).zeroExtend 64
  | .quad => c.dquad rg.toNat
  | .addr => c.areg rg.toNat

/-- The update of An by a post-increment or pre-decrement mode, at distance 1 (Table 3-8). -/
def Core.sendUpd (c : Core) : Option (Nat × W64) → Core
  | some (i, v) => c.send 1 (.a i) v
  | none => c

/-- Where a scalar or vector access goes (R88). -/
inductive LsTarget where
  | local_ | device (r : Region) | bad (c : Cause)
deriving DecidableEq, Repr

/-- Checks 5 and 6 of a scalar access of 1, 2 or 4 words at an address as named (R12, R87, R88). -/
def State.lsTarget (s : State) (ea : W64) (words : Nat) : LsTarget :=
  let r := regionOf (localOf ea)
  if !aligned ea words then .bad .misaligned
  else if !s.isHere ea then .bad .busError
  else match r with
    | .window => .local_
    | .mmio => if words = 1 then .bad .misaligned else .device r
    | .comb => if words = 1 then .bad .misaligned else .device r
    | _ => .bad .busError

/-- A 32-bit read of MMIO or of a Comb window at a physical local address. -/
def State.devRead (s : State) (r : Region) (pa : Nat) : W32 := match r with
  | .comb => s.combRead pa
  | _ => s.mmioRead (2 * (pa - mmioBase))

/-- That read finds the errors of the entry of a table that it shows (R495). -/
def State.devSees (s : State) (r : Region) (pa : Nat) : State := match r with
  | .comb => s.combSees pa
  | _ => s.mmioSees (2 * (pa - mmioBase))

/-- A 32-bit store of core n to MMIO or a Comb window. -/
def State.devWrite (s : State) (n : Nat) (sup : Bool) (r : Region) (pa : Nat) (v : W32) : State := match r with
  | .comb => s.combWrite n pa v
  | _ => s.mmioWrite (.core n sup) (2 * (pa - mmioBase)) v

/-- Translating an MMIO or Comb-window access of core n (R300, R305, check 7): a miss holds issue for the walk. -/
def devXlate (n : Nat) (ea : W64) (r : Region) (write : Bool) (go : State → Nat → Res) (s : State) : Res :=
  if !s.xlOn n (s.core n).sup then go s (localOf ea)
  else
    let s := s.fresh n (localOf ea)
    match s.tlbFind n (localOf ea) with
    | none => .held (s.holdWalk n ea write)
    | some e => match s.leafCheck e (localOf ea) write (.direct r) with
      | some c => .partial_ s c ea
      | none => go s (e.pa (localOf ea))

/-- The address of the first marked word of n words of local memory, if one is marked. -/
def State.firstMark (s : State) (n : Nat) (ea : W64) (words : Nat) : Option W64 :=
  ((List.range words).find? (fun i => s.poisoned (physOf n (localOf ea) + i))).map (fun i => ea + BitVec.ofNat 64 i)

/-- A scalar load (R117). -/
def loadBody (z : LsSize) (n : Nat) (rg : BitVec 4) (an : Nat) (am : BitVec 3) (x : BitVec 12) (s : State) : Res :=
  match (s.core n).scalarEa an am x with
  | none => .fault .illegalOp 0
  | some (ea, up) =>
    let upd := up.map (fun v => (an, v))
    match s.lsTarget ea z.words with
    | .bad c => .fault c ea
    | .local_ =>
      let pa := physOf n (localOf ea)
      let t := s.touchAll (addrs pa z.words)
      match t.firstMark n ea z.words with
      | some f => .partial_ t .poison f
      | none => coreOnly n (fun c =>
          (c.sendUpd upd).sendLoad 5 z.words (z.ref rg) (BitVec.ofNat 64 (natOfWords (t.words pa z.words)))) t
    | .device r => devXlate n ea r false (fun s pa =>
        .held (s.modCore n (fun c => { c with hold := some (.load z.words (z.ref rg) (BitVec.ofNat 64 pa) upd) }))) s

/-- A scalar store (R117). A store that resets its own core is the last instruction it completes (R56, R110). -/
def storeBody (z : LsSize) (n : Nat) (rg : BitVec 4) (an : Nat) (am : BitVec 3) (x : BitVec 12) (s : State) : Res :=
  let c := s.core n
  match c.scalarEa an am x with
  | none => .fault .illegalOp 0
  | some (ea, up) =>
    let upd := up.map (fun v => (an, v))
    let v := c.storeVal z rg
    match s.lsTarget ea z.words with
    | .bad c => .fault c ea
    | .local_ =>
      let pa := physOf n (localOf ea)
      coreOnly n (fun c => c.sendUpd upd) ((s.unfetch n pa z.words).writeRun pa (wordsOfNat z.words v.toNat))
    | .device r => devXlate n ea r true (fun s pa =>
        let t := s.devWrite n c.sup r pa (v.truncate 32)
        let u := if z.words = 4 then t.devWrite n c.sup r (pa + 2) (v.extractLsb' 32 32) else t
        if (u.core n).resetting then .taken u else coreOnly n (fun c => c.sendUpd upd) u) s

/-- A scalar load or store: its register and mode are legal (Tables 3-7, 4-6), then its effect. -/
def lsIssue (z : LsSize) (n : Nat) (k : Cond) (rg : BitVec 4) (an : Fin 8) (am : BitVec 3) (x : BitVec 12) (body : State → Res)
    (s : State) : Host.Outcome State Fault Refusal :=
  issue n k 2 (fun c => z.regOk rg && (c.scalarEa an.val am x).isSome) [] body s

/-- LD (R117). -/
def execLd (n : Nat) (c : Cond) (rg : BitVec 4) (an : Fin 8) (am : BitVec 3) (x : BitVec 12) (s : State) :
    Host.Outcome State Fault Refusal := lsIssue .word n c rg an am x (loadBody .word n rg an.val am x) s

/-- LD_P (R117). -/
def execLdP (n : Nat) (c : Cond) (rg : BitVec 4) (an : Fin 8) (am : BitVec 3) (x : BitVec 12) (s : State) :
    Host.Outcome State Fault Refusal := lsIssue .pair n c rg an am x (loadBody .pair n rg an.val am x) s

/-- LD_Q (R117). -/
def execLdQ (n : Nat) (c : Cond) (rg : BitVec 4) (an : Fin 8) (am : BitVec 3) (x : BitVec 12) (s : State) :
    Host.Outcome State Fault Refusal := lsIssue .quad n c rg an am x (loadBody .quad n rg an.val am x) s

/-- LD_A (R117). -/
def execLdA (n : Nat) (c : Cond) (rg : BitVec 4) (an : Fin 8) (am : BitVec 3) (x : BitVec 12) (s : State) :
    Host.Outcome State Fault Refusal := lsIssue .addr n c rg an am x (loadBody .addr n rg an.val am x) s

/-- ST (R117). -/
def execSt (n : Nat) (c : Cond) (rg : BitVec 4) (an : Fin 8) (am : BitVec 3) (x : BitVec 12) (s : State) :
    Host.Outcome State Fault Refusal := lsIssue .word n c rg an am x (storeBody .word n rg an.val am x) s

/-- ST_P (R117). -/
def execStP (n : Nat) (c : Cond) (rg : BitVec 4) (an : Fin 8) (am : BitVec 3) (x : BitVec 12) (s : State) :
    Host.Outcome State Fault Refusal := lsIssue .pair n c rg an am x (storeBody .pair n rg an.val am x) s

/-- ST_Q (R117). -/
def execStQ (n : Nat) (c : Cond) (rg : BitVec 4) (an : Fin 8) (am : BitVec 3) (x : BitVec 12) (s : State) :
    Host.Outcome State Fault Refusal := lsIssue .quad n c rg an am x (storeBody .quad n rg an.val am x) s

/-- ST_A (R117). -/
def execStA (n : Nat) (c : Cond) (rg : BitVec 4) (an : Fin 8) (am : BitVec 3) (x : BitVec 12) (s : State) :
    Host.Outcome State Fault Refusal := lsIssue .addr n c rg an am x (storeBody .addr n rg an.val am x) s

/-- The value of a held load returns (R105): read now, in pairs with the lower address first, and seen by the next instruction. -/
def State.loadReturn (s : State) (n : Nat) : State :=
  match (s.core n).hold with
  | some (.load words dst ea upd) =>
    let r := regionOf ea.toNat
    let s := if words = 4 then (s.devSees r ea.toNat).devSees r (ea.toNat + 2) else s.devSees r ea.toNat
    let lo := s.devRead r ea.toNat
    let hi := if words = 4 then s.devRead r (ea.toNat + 2) else 0
    s.modCore n (fun c => (({ c with hold := none }.sendUpd upd).sendLoad 1 words dst (hi ++ lo)).retire c.hlen)
  | _ => s

/-- MMIO_LOAD_RETURN (R105). -/
def execMmioLoadReturn (n : Nat) (s : State) : Host.Outcome State Fault Refusal :=
  command (fun s => if n < 192 then s.loadReturn n else s) s

end Sys2Proof.Machine
end

