-- ==== Sys2Proof/Machine/TileFmt.lean ====
section
/-! DEFINITION. Sys2Proof/Machine/TileFmt.lean: tile shapes (Tables 8-1, 8-3, 8-4), the elements of tile rows (R217), memory formats and
conversions on load, store and drain (Tables 8-7 and 9-9, R206 to R213), and FP64 slicing (R235). -/

namespace Sys2Proof.Machine

/-! ## Shapes -/

/-- Fields of TSHAPE (Table 8-1). -/
def shFmt (h : W32) : Nat := fld h 28 4
def shBs (h : W32) : Bool := h.getLsbD 27
def shSp (h : W32) : Bool := h.getLsbD 26
def shNr (h : W32) : Nat := fld h 16 7
def shNc (h : W32) : Nat := fld h 0 9

/-- Element width of a tile format in bits, and its largest NC (Table 8-3). -/
def tileW (f : Nat) : Nat :=
  if f = 3 then 4 else if f ≤ 2 then 8 else if f = 4 ∨ f = 5 ∨ f = 9 then 16 else if f = 8 then 64 else 32
def tileMaxNc (f : Nat) : Nat := if f = 3 then 256 else 1024 / tileW f

/-- Whether a TSHAPE meets Table 8-4. -/
def shapeOk (h : W32) : Bool :=
  let f := shFmt h
  decide (f ≤ 9) && fld h 23 3 == 0 && fld h 9 7 == 0 && decide (1 ≤ shNr h) && decide (shNr h ≤ 64) && decide (1 ≤ shNc h) &&
  decide (shNc h ≤ tileMaxNc f) &&
  (!shBs h || ((f == 1 || f == 3) && shNc h % 32 == 0)) &&
  (!shSp h || ((decide (f ≤ 2) || f == 4 || f == 5) && shNc h % 8 == 0)) && !(shBs h && shSp h)

/-- The floating-point format of a code of Table 8-3 or 8-7, none for an integer. -/
def fpOf (f : Nat) : Option Fmt :=
  if f = 1 then some e4m3 else if f = 2 then some e5m2 else if f = 3 then some e2m1 else if f = 4 then some bf16
  else if f = 5 then some fp16 else if f = 6 then some fp32 else if f = 8 then some fp64 else if f = 0xB then some e3m2
  else if f = 0xC then some e2m3 else none

/-- Width in bits of a memory format (Table 8-7). -/
def memW (f : Nat) : Nat := if f = 0xA then 4 else if f = 0xB ∨ f = 0xC then 6 else tileW f

/-- emax of a block-scaled format (R206). -/
def emaxOf (f : Nat) : Int := if f = 0xB then 4 else 2

/-- Words of a memory row (R224). -/
def rowLen (els bits : Nat) : Nat := (els * bits + 15) / 16

/-! ## Elements -/

/-- Element i of width w in a row given as one number (R4, R199). -/
def elAt (x w i : Nat) : Nat := x / 2 ^ (w * i) % 2 ^ w

/-- The elements of a row, and the row they make. -/
def elems (x w k : Nat) : List Nat := (List.range k).map (elAt x w)
def packEls (w : Nat) : List Nat → Nat
  | [] => 0
  | e :: r => e % 2 ^ w + 2 ^ w * packEls w r

/-- Row r of a tile as one number, and the tile with it replaced (R217). -/
def Tile.row (t : Tile) (r : Nat) : Nat := natOfWords (lookRun 0 t.data (64 * r) 64)
def Tile.setRow (t : Tile) (r x : Nat) : Tile := { t with data := putRun 0 t.data (64 * r) (wordsOfNat 64 x) }

/-- One element of a tile set. -/
def Tile.setEl (t : Tile) (r w i v : Nat) : Tile :=
  let x := t.row r
  t.setRow r (x - elAt x w i * 2 ^ (w * i) + v % 2 ^ w * 2 ^ (w * i))

/-- Words of the sidecar. -/
def Tile.sideWord (t : Tile) (i : Nat) : Word := look 0 t.side i
def Tile.setSide (t : Tile) (i : Nat) (v : Word) : Tile := { t with side := put 0 t.side i v }

/-- The scale of block b of row r (R228), and the tile with it replaced. -/
def Tile.scale (t : Tile) (r b : Nat) : Nat := elAt (t.sideWord (4 * r + b / 2)).toNat 8 (b % 2)
def Tile.setScale (t : Tile) (r b v : Nat) : Tile :=
  t.setSide (4 * r + b / 2) (setFld (t.sideWord (4 * r + b / 2)) (8 * (b % 2)) 8 v)

/-- XS and RXV of TSW (Table 8-2). -/
def Tile.xs (t : Tile) : Int := signedOf 8 (fld t.tsw 8 8)
def Tile.setXs (t : Tile) (e : Int) : Tile := { t with tsw := setFld t.tsw 8 8 (e % 256).toNat }
def Tile.setRxv (t : Tile) (b : Bool) : Tile := { t with tsw := setBit t.tsw 7 b }

/-! ## Legality of a memory format with a shape -/

/-- Whether a pairing of Table 8-7 on a load is one whose conversion rounds by R202 and offers SAT. -/
def loadRounds (m f : Nat) : Bool := (m == 4 && f == 5) || (m == 5 && f == 4) || (m == 6 && (f == 4 || f == 5))

/-- The pairings of Table 8-7 on a load without slicing, and where SAT may be 1: a copy ignores it (R225). -/
def loadOk (m : Nat) (h : W32) (sat : Bool) : Bool :=
  let f := shFmt h
  if m ≤ 9 ∧ m = f then true
  else if shSp h then false
  else if m = 4 ∨ m = 5 ∨ m = 6 then (if loadRounds m f then true else !sat && m ≠ 6 && f == 6)
  else if m = 0xA then !sat && f == 0
  else if m = 0xB ∨ m = 0xC then !sat && f == 1 && shBs h
  else false

/-- How a store treats its elements (R225, R226): a copy, a conversion by R202, a scaled one, a block-scaled one, or saturation to
INT4. -/
inductive StKind where
  | copy | round | scaled | block | int4
deriving DecidableEq, Repr

/-- The pairings of Table 8-7 on a store with elements of a memory row, none for an illegal one; a block-scaled row holds whole blocks
(R200). -/
def storeKind (m : Nat) (h : W32) (sat scv : Bool) (els : Nat) : Option StKind :=
  let f := shFmt h
  if m ≤ 9 ∧ m = f then (if scv then none else some .copy)
  else if shSp h then none
  else if m = 5 ∧ f = 6 then some (if scv then .scaled else .round)
  else if m = 4 ∧ f = 6 then (if scv then none else some .round)
  else if (m = 1 ∨ m = 2) ∧ (f = 6 ∨ f = 4) then some (if scv then .scaled else .round)
  else if m = 0xA ∧ f = 0 then (if sat || scv then none else some .int4)
  else if (m = 0xB ∨ m = 0xC ∨ m = 3) ∧ (f = 6 ∨ f = 4) then (if scv && !sat && els % 32 == 0 then some .block else none)
  else none

/-! ## Conversion of rows -/

/-- One element on a load: its code in the tile (Table 8-7). -/
def loadEl (m f : Nat) (sat : Bool) (x : Nat) : Nat :=
  if m = f then x
  else if m = 0xA then (signedOf 4 x % 256).toNat
  else match fpOf m, fpOf f with
    | some a, some b => (b.convert sat (a.decode x)).1
    | _, _ => x

/-- A number saturated to a signed integer of w bits, as its code. -/
def satCode (w : Nat) (x : Int) : Nat :=
  let hi : Int := 2 ^ (w - 1) - 1
  let lo : Int := -2 ^ (w - 1)
  ((if x < lo then lo else if hi < x then hi else x) % 2 ^ w).toNat

/-- What the conversion of a row gives: codes, scales, and for each element its value before scaling, what happened to it, and whether
its row is marked. -/
structure RowOut where
  codes  : List Nat
  scales : List Nat
  evs    : List (Num × ConvEvent × Bool)

/-- Converting a row of exact values with marks into a format (R202, R206, R208). -/
def convRow (k : StKind) (m : Nat) (sat : Bool) (exp : Int) (xs : List (Num × Bool)) : RowOut :=
  match fpOf m with
  | none => { codes := [], scales := [], evs := [] }
  | some b =>
    match k with
    | .block =>
      let one (bl : List (Num × Bool)) : RowOut :=
        let r := blockScale b (emaxOf m) (bl.map (·.1))
        { codes := r.2, scales := [r.1],
          evs := bl.map (fun e => (e.1, if r.1 = 0xFF then .plain else (b.convert true (e.1.scale (127 - r.1))).2, e.2)) }
      (blocksOf 32 xs).foldl (fun (o : RowOut) bl =>
        let r := one bl
        { codes := o.codes ++ r.codes, scales := o.scales ++ r.scales, evs := o.evs ++ r.evs }) { codes := [], scales := [], evs := [] }
    | _ =>
      let e := if k = .scaled then exp else 0
      let rs := xs.map (fun x => (b.convert sat (x.1.scale e), x))
      { codes := rs.map (fun r => r.1.1), scales := [], evs := rs.map (fun r => (r.2.1, r.1.2, r.2.2)) }

/-- |x| of a finite element as AMAX holds it: a value beyond the largest finite FP32 number is held as that one, since R211 says that R209
leaves finite values (assumption log 114), and one between two of them as the nearest (assumption log 138). -/
def amaxOf (x : Num) : Nat := min (fp32.round x.abs) 0x7F7FFFFF

/-- What the elements of a row do to a scale entry and to CORE_NF (R209, R213); positive FP32 codes rise with their values. -/
def rowFlags (k : StKind) (store : Bool) (sce : Nat) (evs : List (Num × ConvEvent × Bool)) : RowFlags :=
  let live := evs.filter (fun e => !e.2.2)
  { sc := if k = .scaled ∨ k = .block then some sce else none,
    amax := if live.any (fun e => e.1.isFin) then
      some (BitVec.ofNat 32 ((live.filter (fun e => e.1.isFin)).foldl (fun a e => max a (amaxOf e.1)) 0)) else none,
    bad := live.any (fun e => !e.1.isFin), sat := live.any (fun e => e.2.1 = .saturated),
    nf := if k = .copy ∨ k = .int4 then 0 else
      (if store && live.any (fun e => !e.1.isFin) then 1 else 0) + (if live.any (fun e => e.2.1 = .overflowed) then 4 else 0) +
      (if k = .block && live.any (fun e => !e.1.isFin) then 8 else 0) }

/-- Applying them. -/
def State.applyFlags (s : State) (n : Nat) (f : RowFlags) : State :=
  let t := match f.sc with
    | none => s
    | some e =>
      let s1 := match f.amax with
        | some v => s.scRaise n e v
        | none => s
      let s2 := if f.bad then s1.scNf n e else s1
      if f.sat then s2.scSatf n e else s2
  if f.nf = 0 then t else t.coreNf n f.nf

/-- The flags and updates of a converted row (R209, R213); SCE is used under SCV. -/
def State.convFlags (s : State) (n : Nat) (k : StKind) (store : Bool) (sce : Nat) (evs : List (Num × ConvEvent × Bool)) : State :=
  s.applyFlags n (rowFlags k store sce evs)

/-! ## FP64 slicing -/

/-- n rounded to nearest even from an exact value. -/
def Num.nearest (x : Num) : Int := match x with
  | .fin s m e =>
    let k : Nat := if 0 ≤ e then m * 2 ^ e.toNat else rneShift m (-e).toNat
    if s then -(k : Int) else k
  | _ => 0

/-- The digits of n, d[0] first (R235). -/
def sliceDigits : Nat → Int → List Int
  | 0, n => [n]
  | i + 1, n =>
    let d := (n + 128) % 256 - 128
    sliceDigits i ((n - d) / 256) ++ [d]

/-- RX of a row of FP64 elements and the S digits of each (R235). -/
def sliceRow (sl : Nat) (xs : List Num) : Nat × List (List Int) :=
  if xs.any (fun x => !x.isFin) then (0x7FFF, xs.map (fun _ => List.replicate (sl + 1) 0))
  else
    let m := xs.foldl (fun a x => if a.lt x.abs then x.abs else a) (Num.fin false 0 0)
    match m with
    | .fin _ 0 _ => (0, xs.map (fun _ => List.replicate (sl + 1) 0))
    | y =>
      let e := y.flog2 - 5
      ((e % 65536).toNat, xs.map (fun x => sliceDigits sl (x.scale (8 * sl - e)).nearest))

end Sys2Proof.Machine
end

