-- ==== Sys2Proof/Machine/Setter.lean ====
section
/-! DEFINITION. Sys2Proof/Machine/Setter.lean: the Setter (R244 to R248): the resources an operation reads and writes (Table 8-10, R274),
when it can fire, what it releases, the state word of a tile (Table 8-2), issue into the Setter, and completion. -/

namespace Sys2Proof.Machine

/-! ## Tiles, arrays and entries -/

/-- Tile t of a core, and the core with it replaced. -/
def Core.tile (c : Core) (t : Nat) : Tile := look Tile.reset c.tiles t
def Core.setTile (c : Core) (t : Nat) (v : Tile) : Core := { c with tiles := put Tile.reset c.tiles t v }

/-- The shape of a tile as an instruction that issues now sees it (R221). -/
def Core.shape (c : Core) (t : Nat) : W32 := look Tile.reset.shape c.shapeI t
def Core.setShape (c : Core) (t : Nat) (h : W32) : Core := { c with shapeI := put Tile.reset.shape c.shapeI t h }

/-- Array q of a core, one of its accumulators, and one of its groups. -/
def Core.arr (c : Core) (q : Nat) : Arr := look Arr.reset c.arrs q
def Core.setArr (c : Core) (q : Nat) (a : Arr) : Core := { c with arrs := put Arr.reset c.arrs q a }
def Arr.acc1 (a : Arr) (i : Nat) : Acc := look Acc.reset a.acc i
def Arr.setAcc (a : Arr) (i : Nat) (x : Acc) : Arr := { a with acc := put Acc.reset a.acc i x }
def Arr.group (a : Arr) (g : Nat) : Group := look Group.reset a.groups g
def Arr.setGroup (a : Arr) (g : Nat) (x : Group) : Arr := { a with groups := put Group.reset a.groups g x }

/-- The Setter entry with a number, and a change of it. -/
def Core.entry (c : Core) (id : Nat) : Option SEntry := c.setter.find? (fun e => e.id == id)
def Core.modEntry (c : Core) (id : Nat) (f : SEntry → SEntry) : Core :=
  { c with setter := c.setter.map (fun e => if e.id = id then f e else e) }

/-! ## Errors of the register files -/

/-- A copied tile with a parity error: the pass acts as if every PM bit of its tile were set (R496). -/
def Held.allMarked (h : Held) : Held := { h with tile := { h.tile with pm := BitVec.allOnes 64 } }

/-- What an error that cannot be corrected does in a register file of a core: it marks its grain, or with parity alone every row of its tile (R496). -/
def State.coreUe (s : State) : Site → State
  | .tile n t row => s.modCore n (fun c => c.setTile t { c.tile t with pm := setBit (c.tile t).pm row true })
  | .acc n q a row => s.modCore n (fun c => c.setArr q ((c.arr q).setAcc a { (c.arr q).acc1 a with marks := setBit ((c.arr q).acc1 a).marks row true }))
  | .vec n g => s.modCore n (fun c => { c with vpsn := put false c.vpsn g true })
  | .shelf n q w => s.modCore n (fun c => c.setArr q (if w then { c.arr q with shelfW := (c.arr q).shelfW.map Held.allMarked }
      else { c.arr q with shelfA := (c.arr q).shelfA.map Held.allMarked }))
  | .cells n q sh => s.modCore n (fun c => c.setArr q (if sh then { c.arr q with shadow := (c.arr q).shadow.map Held.allMarked }
      else { c.arr q with active := (c.arr q).active.map Held.allMarked }))
  | _ => s

/-- An operation of a core reads places of its register files (R495, R496, R499). -/
def State.regReads (s : State) (f : Site → Bool) : State :=
  let (t, l) := s.finds f
  l.foldl State.coreUe t

/-- Places of core n: rows of a tile, rows of an accumulator, and the element groups of vector registers. -/
def inTile (n t : Nat) (rows : Nat → Bool) (x : Site) : Bool := match x with
  | .tile m u r => m == n && u == t && rows r
  | _ => false
def inAcc (n q a : Nat) (rows : Nat → Bool) (x : Site) : Bool := match x with
  | .acc m p b r => m == n && p == q && b == a && rows r
  | _ => false
def inVec (n : Nat) (groups : Nat → Bool) (x : Site) : Bool := match x with
  | .vec m g => m == n && groups g
  | _ => false

/-- The shape of a tile as the entry saw it at issue. -/
def SEntry.shapeOf (e : SEntry) (t : Nat) : W32 := ((e.shapes.find? (fun x => x.1 == t)).map (·.2)).getD Tile.reset.shape

/-- Fields of the second parcels of tld and tst (Table 8-6). -/
def tldSl (p : W32) : Nat := fld p 22 3
def tldSrcf (p : W32) : Nat := fld p 25 4
def tstDstf (p : W32) : Nat := fld p 26 4

/-- The mma control word (Table 9-6). -/
def mmaAcc (d : Word) : Nat := fld d 0 5
def mmaG (d : Word) : Nat := fld d 5 3
def mmaGv (d : Word) : Bool := d.getLsbD 8
def mmaSpx (d : Word) : Bool := d.getLsbD 14

/-! ## Resources -/

/-- Resource numbers: tiles, vector registers, accumulators and groups (R244). -/
def resV (v : Nat) : Nat := 64 + v
def resAcc (q a : Nat) : Nat := 128 + 32 * q + a
def resGrp (q g : Nat) : Nat := 256 + 8 * q + g

/-- The tiles an operation reads (Table 8-10, R274). -/
def SOp.readT : SOp → List Nat
  | .tst t _ => [t]
  | .tsave t _ => [t]
  | .tmvTv _ t _ _ => [t]
  | .tmeta _ t _ => [t]
  | .mma _ tw ta dc => if mmaSpx dc then [tw, ta, tw + 1] else [tw, ta]
  | _ => []

/-- The tiles an operation writes. -/
def SOp.writeT : SOp → List Nat
  | .tcfg t _ => [t]
  | .tzero t => [t]
  | .tmask t _ _ => [t]
  | .tmvVt t _ _ _ => [t]
  | .tld t a => (List.range (tldSl a.p2 + 1)).map (fun i => t + i)
  | .trest t _ => [t]
  | .accDrt _ _ t _ _ => [t]
  | _ => []

/-- The resources an operation reads other than tiles. -/
def SOp.readR : SOp → List Nat
  | .accDrt q a _ _ _ => [resAcc q a]
  | .accDrm q a _ _ _ _ => [resAcc q a]
  | .accDrj q a _ _ _ _ => [resAcc q a]
  | _ => []

/-- The resources an operation writes other than tiles, as a non-accumulating writer. -/
def SOp.writeR : SOp → List Nat
  | .tmvTv vd _ _ g => (List.range g).map (fun i => resV (vd + i))
  | .tmeta vd _ _ => [resV vd]
  | .accOpen q g a tree _ _ b =>
    resGrp q g :: (List.range (if tree then clog2 b + 1 else 1)).map (fun i => resAcc q (a + i))
  | .accClose q g a hold => resGrp q g :: (List.range (hold + 1)).map (fun i => resAcc q (a + i))
  | .accZero q a _ => [resAcc q a]
  | .accDrt q a _ dc _ => if dc.getLsbD 15 then [resAcc q a] else []
  | .accDrm q a _ _ dc _ => if dc.getLsbD 15 then [resAcc q a] else []
  | .accDrj q a _ _ dc _ => if dc.getLsbD 15 then [resAcc q a] else []
  | .accLd q a _ _ dc => if dc.getLsbD 3 then [] else [resAcc q a]
  | _ => []

/-- The resources an operation writes as an accumulating writer (R265, R274). -/
def SOp.accR : SOp → List Nat
  | .mma q _ _ dc => if mmaGv dc then [resAcc q (mmaAcc dc), resGrp q (mmaG dc)] else [resAcc q (mmaAcc dc)]
  | .accLd q a _ _ dc => if dc.getLsbD 3 then [resAcc q a, resGrp q (fld dc 0 3)] else []
  | _ => []

/-- Whether two lists share a number. -/
def meets (a b : List Nat) : Bool := a.any (fun x => b.contains x)

/-- The tiles an operation names. -/
def SOp.tiles (o : SOp) : List Nat := o.readT ++ o.writeT

/-- The tiles an entry reads and has not released (Table 8-10). -/
def SEntry.heldT (e : SEntry) : List Nat :=
  match e.op with
  | .mma _ tw ta dc => (if e.released then [] else [tw, ta]) ++ (if mmaSpx dc && !e.relIdx then [tw + 1] else [])
  | o => if e.released then [] else o.readT

/-- The accumulators an entry reads and has not released (Table 8-10): a drain releases its accumulator once it is read. -/
def SEntry.heldR (e : SEntry) : List Nat := if e.released then [] else e.op.readR

/-- Whether an operation is one that tsave does not wait for: it is suspended (R239). -/
def SOp.isTsave : SOp → Bool
  | .tsave _ _ => true
  | _ => false
def SOp.isTcfg : SOp → Bool
  | .tcfg _ _ => true
  | _ => false
def SEntry.susp (e : SEntry) : Bool := e.phase == .suspended

/-- Whether an earlier entry x keeps the operation o from firing (R246, conditions 1 to 4). -/
def holdsBack (o : SOp) (x : SEntry) : Bool :=
  if o.isTsave && x.susp then false
  else
    meets (x.op.writeT ++ x.op.writeR) (o.tiles ++ o.readR ++ o.writeR ++ o.accR) || meets x.op.accR (o.readR ++ o.writeR) ||
    meets (x.heldT ++ x.heldR) (o.writeT ++ o.writeR ++ o.accR) || (o.isTcfg && meets x.op.tiles o.tiles)

/-- The entries that entered before an entry. -/
def Core.before (c : Core) (id : Nat) : List SEntry := c.setter.takeWhile (fun e => e.id ≠ id)

/-- Whether the tiles, accumulators, groups and vector registers of an entry are ready (R246, conditions 1 to 5). -/
def Core.resReady (c : Core) (e : SEntry) : Bool :=
  !(c.before e.id).any (holdsBack e.op) &&
  (e.op.isTsave || !c.setter.any (fun x => x.susp && x.id ≠ e.id && meets x.op.tiles e.op.tiles))

/-- Whether an operation of the Setter reads tile t now for entry e: no earlier incomplete operation writes it, and no suspended one
names it (R246, R249). -/
def Core.readable (c : Core) (e : SEntry) (t : Nat) : Bool :=
  !(c.before e.id).any (fun x => x.op.writeT.contains t) && !c.setter.any (fun x => x.susp && x.op.tiles.contains t)

/-- The units that take operations (R246, R274). -/
inductive SUnit where
  | feeder | move | array (q : Nat)
deriving DecidableEq, Repr

/-- The unit of an operation. -/
def SOp.unit : SOp → SUnit
  | .tld _ _ => .feeder | .tst _ _ => .feeder | .tsave _ _ => .feeder | .trest _ _ => .feeder
  | .accDrm _ _ _ _ _ _ => .feeder | .accDrj _ _ _ _ _ _ => .feeder | .accLd _ _ _ _ _ => .feeder
  | .mma q _ _ _ => .array q
  | .accOpen q _ _ _ _ _ _ => .array q
  | .accClose q _ _ _ => .array q
  | .accZero q _ _ => .array q
  | _ => .move

/-- The vector registers that a pending move from a tile has still to write (R191). -/
def Core.vtv (c : Core) : List Nat := (c.setter.map (fun e => match e.op with
  | .tmvTv vd _ _ g => (List.range g).map (fun i => vd + i)
  | .tmeta vd _ _ => [vd]
  | _ => [])).flatten

/-! ## The state word -/

/-- Whether an operation is a tile load or store. -/
def SOp.isLoadStore : SOp → Bool
  | .tld _ _ => true
  | .tst _ _ => true
  | _ => false

/-- The load or store whose progress a tile's TSW shows (Table 8-2, R237): the suspended one, else one that has fired. -/
def Core.active (c : Core) (t : Nat) : Option SEntry :=
  let names (e : SEntry) : Bool := e.op.isLoadStore && e.op.tiles.contains t
  (c.setter.find? (fun e => e.susp && names e)).or (c.setter.find? (fun e => e.phase == .fired && names e))

/-- TSW of a tile (Table 8-2, R247): XS and RXV are the tile's own, the rest follows from the Setter. -/
def Core.tswOf (c : Core) (t : Nat) : W32 :=
  let susp := c.setter.any (fun e => e.susp && e.op.tiles.contains t)
  let ready := !susp && !c.setter.any (fun e => e.op.writeT.contains t)
  let w := setBit (setBit ((c.tile t).tsw &&& 0xFF80) 31 ready) 30 susp
  match c.active t with
  | none => w
  | some e => setFld (setBit w 29 (match e.op with
    | .tst _ _ => true
    | _ => false)) 16 9 e.done

/-! ## Issue into the Setter -/

/-- Operands of a tsave or trest, which capture An alone (R239). -/
def TArgs.at_ (an : W64) : TArgs := { p1 := 0, p2 := 0, an := an, pitch := 0, dj := 0, dm := 0, ab := 0, sup := true }

/-- An entry as it enters the Setter, with the shapes it sees (R221). -/
def SEntry.enter (id : Nat) (o : SOp) (shape : Nat → W32) : SEntry :=
  { id := id, op := o, shapes := o.tiles.map (fun t => (t, shape t)), phase := .waiting, released := false, relIdx := false, exp := 0,
    base := 0, done := 0, rows := [], img := [], flags := [], snap := none, keptW := none, keptA := none }

/-- A copy of a tile that the operation with number id writes serves no operation after it, nor does the copy of an index tile (R250). -/
def Held.cutBy (h : Held) (writes : List Nat) (id : Nat) : Held :=
  let cut (hit : Bool) (u : Option Nat) : Option Nat := if hit then some (min (u.getD id) id) else u
  { h with upTo := cut (writes.contains h.t) h.upTo, idxTo := cut (h.idx.isSome && writes.contains (h.t + 1)) h.idxTo }

/-- The copies of a core's arrays, and those that operations keep, as an operation with number id that writes tiles enters (R250). -/
def Core.cutHeld (c : Core) (writes : List Nat) (id : Nat) : Core :=
  let cut (h : Option Held) : Option Held := h.map (fun h => h.cutBy writes id)
  let arr (a : Arr) : Arr := { a with shelfW := cut a.shelfW, shelfA := cut a.shelfA, active := cut a.active, shadow := cut a.shadow }
  if writes = [] then c else
    { (List.range 4).foldl (fun (c : Core) q => c.setArr q (arr (c.arr q))) c with
      setter := c.setter.map (fun e => { e with keptW := cut e.keptW, keptA := cut e.keptA }) }

/-- Whether a held tile serves entry X for tile t (R249, R250, R261). -/
def Held.serves (h : Held) (t x : Nat) : Bool := h.t == t && decide (h.since ≤ x) && (match h.upTo with
  | some k => decide (x < k)
  | none => true)

/-- The operands of an mma entry on array q: weight tile, activation tile, SPX. -/
def SEntry.mmaOn (e : SEntry) (q : Nat) : Option (Nat × Nat × Bool) := match e.op with
  | .mma p tw ta dc => if p = q then some (tw, ta, mmaSpx dc) else none
  | _ => none

/-- The array operations of array q that have not started, oldest first. -/
def Core.mmas (c : Core) (q : Nat) : List SEntry := c.setter.filter (fun e => e.phase == .waiting && (e.mmaOn q).isSome)

/-- Whether a cell set holds an index tile that serves entry x (R261). -/
def Held.idxServes (h : Held) (x : Nat) : Bool := h.idx.isSome && (match h.idxTo with
  | some k => decide (x < k)
  | none => true)

/-- Whether a cell set serves an entry: under SPX with its index tile (R261). -/
def cellsServe (h : Option Held) (e : SEntry) (q : Nat) : Bool := match h, e.mmaOn q with
  | some h, some (tw, _, spx) => h.serves tw e.id && (!spx || h.idxServes e.id)
  | _, _ => false

/-- The copies that serve an entry: of its weights, in the cells or else in the Shelf, and of its activation, in the Shelf. -/
def Arr.weightFor (x : Arr) (e : SEntry) (q : Nat) : Option Held :=
  if cellsServe x.active e q then x.active else if cellsServe x.shadow e q then x.shadow
  else match e.mmaOn q with
    | some (tw, _, _) => x.shelfW.filter (fun h => h.serves tw e.id)
    | none => none
def Arr.actFor (x : Arr) (e : SEntry) (q : Nat) : Option Held := match e.mmaOn q with
  | some (_, ta, _) => x.shelfA.filter (fun h => h.serves ta e.id)
  | none => none

/-- Whether an entry finds its weights in the cells, in the cells or the Shelf, and its activation in the Shelf. -/
def Arr.inCells (x : Arr) (e : SEntry) (q : Nat) : Bool := cellsServe x.active e q || cellsServe x.shadow e q
def Arr.hasW (x : Arr) (e : SEntry) (q : Nat) : Bool := (x.weightFor e q).isSome
def Arr.hasA (x : Arr) (e : SEntry) (q : Nat) : Bool := (x.actFor e q).isSome

/-- An array operation as its tiles stand in the Shelf and the cells: with both there it has released them, and the index tile once it is
copied (R250, R274). It keeps the copies that it released them by (assumption log 142). -/
def SEntry.rel (e : SEntry) (x : Arr) (q : Nat) : SEntry :=
  let both := x.hasW e q && x.hasA e q
  let cells := x.inCells e q
  { e with released := e.released || both, relIdx := e.relIdx || cells,
           keptW := if (cells && !e.relIdx) || (both && e.keptW.isNone) then x.weightFor e q else e.keptW,
           keptA := if both && e.keptA.isNone then x.actFor e q else e.keptA }

/-- The waiting operations of array q release what is in its Shelf and cells (R250). -/
def Core.relTiles (c : Core) (q : Nat) : Core :=
  { c with setter := c.setter.map (fun e => if e.phase == .waiting && (e.mmaOn q).isSome then e.rel (c.arr q) q else e) }

/-- An operation that enters the Setter: an array operation whose tiles are all in the Shelf or the cells has released them (R250). -/
def Core.entering (c : Core) (e : SEntry) : SEntry := match e.op with
  | .mma q _ _ _ => e.rel (c.arr q) q
  | _ => e

/-- A new entry at the tail of the Setter; its number is the next of the core. -/
def Core.enterSetter (c : Core) (o : SOp) : Core :=
  let c1 := c.cutHeld o.writeT c.nextId
  { c1 with setter := c1.setter ++ [c.entering (SEntry.enter c.nextId o c.shape)], nextId := c.nextId + 1 }

/-- Whether the Setter has a free entry; a full one holds issue (R105, R244). -/
def Core.room (c : Core) : Bool := decide (c.setter.length < 32)

/-- An instruction whose effect is an operation in the Setter: it holds while all 32 entries are occupied. -/
def intoSetter (n : Nat) (o : Core → SOp) (after : Core → Core) (s : State) : Res :=
  let c := s.core n
  if !c.room then .held s else .done (s.setCore n (after (c.enterSetter (o c))))

/-! ## Completion -/

/-- The feeder operations and blocks of the Setter entry with a number are given up. -/
def Core.dropFops (c : Core) (id : Nat) : Core :=
  let mine := (c.fops.filter (fun f => f.kind = .setter id)).map (fun f => f.id)
  { c with fops := c.fops.filter (fun f => f.kind ≠ .setter id), blocks := c.blocks.filter (fun b => !mine.contains b.fop) }

/-- An operation leaves the Setter, and its completion action follows (R232, R275). -/
def State.sDone (s : State) (n id : Nat) (sem : Option Word) : State :=
  let t := s.modCore n (fun c => { c.dropFops id with setter := c.setter.filter (fun e => e.id ≠ id) })
  match sem with
  | some k => t.signal n k
  | none => t

/-- The semaphore of tld and tst, and of a drain (Tables 8-6 and 9-7). -/
def SOp.sem : SOp → Option Word
  | .tld _ a => if a.p2.getLsbD 5 then some a.dm else none
  | .tst _ a => if a.p2.getLsbD 4 then some a.dm else none
  | .accDrt _ _ _ dc sem => if dc.getLsbD 1 then some sem else none
  | .accDrm _ _ _ _ dc sem => if dc.getLsbD 1 then some sem else none
  | .accDrj _ _ _ _ dc sem => if dc.getLsbD 1 then some sem else none
  | _ => none

/-! ## Tile operations of the move path -/

/-- tcfg takes effect (R220). -/
def Tile.cfg (t : Tile) (h : W32) : Tile :=
  { ((t.setXs 0).setRxv false) with shape := h, zm := 0, rm := BitVec.allOnes 64, side := [] }

/-- tzero (R243). -/
def Tile.zeroed (t : Tile) : Tile := { ((t.setXs 0).setRxv false) with data := [], side := [], zm := BitVec.allOnes 64, pm := 0 }

/-- Bits of a 64-bit mask for rows, from a test. -/
def rowsWhere (f : Nat → Bool) : W64 := bitsOf 64 f

/-- tmv.vt writes its rows (R241). -/
def Tile.fromVec (t : Tile) (row : Nat) (ws : List Word) (ms : List Bool) : Tile :=
  let k := ws.length / 64
  let in_ (r : Nat) : Bool := decide (row ≤ r) && decide (r < row + k)
  { t with data := putRun 0 t.data (64 * row) ws, zm := t.zm &&& ~~~(rowsWhere in_),
           pm := rowsWhere (fun r => if in_ r then ((ms.drop (16 * (r - row))).take 16).any id else t.pm.getLsbD r) }

/-- Vector register words and marks: 256 words and 64 marks a register (R159, R192). -/
def Core.vwords (c : Core) (v k : Nat) : List Word := lookRun 0 c.v (256 * v) (256 * k)
def Core.vmarks (c : Core) (v k : Nat) : List Bool := lookRun false c.vpsn (64 * v) (64 * k)
def Core.setV (c : Core) (v : Nat) (ws : List Word) (ms : List Bool) : Core :=
  { c with v := putRun 0 c.v (256 * v) ws, vpsn := putRun false c.vpsn (64 * v) ms }

/-- tmv.tv (R242). -/
def Core.tileToVec (c : Core) (vd t row g : Nat) : Core :=
  let x := c.tile t
  c.setV vd (lookRun 0 x.data (64 * row) (256 * g)) (((List.range (4 * g)).map (fun i => List.replicate 16 (x.pm.getLsbD (row + i)))).flatten)

/-- tmeta (R242). -/
def Core.metaToVec (c : Core) (vd t k : Nat) : Core :=
  let x := c.tile t
  let ws := if k = 0 then wordsOf64 x.zm else if k = 1 then wordsOf64 x.rm else if k = 2 then wordsOf64 x.pm else lookRun 0 x.side 0 64
  c.setV vd (ws ++ List.replicate (256 - ws.length) 0) (List.replicate 64 false)

/-- What an operation of the move path writes as it fires, none for another operation. -/
def Core.moved (c : Core) : SOp → Option Core
  | .tcfg t h => some (c.setTile t ((c.tile t).cfg h))
  | .tzero t => some (c.setTile t (c.tile t).zeroed)
  | .tmask t m p => some (c.setTile t { c.tile t with rm := m, pm := if p then BitVec.allOnes 64 else (c.tile t).pm })
  | .tmvVt t row ws ms => some (c.setTile t ((c.tile t).fromVec row ws ms))
  | .tmvTv vd t row g => some (c.tileToVec vd t row g)
  | .tmeta vd t k => some (c.metaToVec vd t k)
  | _ => none

end Sys2Proof.Machine
end

