-- ==== Sys2Proof/Machine/Accum.lean ====
section
/-! DEFINITION. Sys2Proof/Machine/Accum.lean: the products of an array pass (R251 to R260), accumulation (R254, R263 to R265), the
canonical order and groups (R266 to R268), and the conversion of drained rows (R275 to R277). -/

namespace Sys2Proof.Machine

/-! ## Values of tile rows -/

/-- The floating-point values of the stored elements of row r (R207, R253). -/
def Tile.fpVals (t : Tile) (h : W32) (r : Nat) : List Num :=
  match fpOf (shFmt h) with
  | none => []
  | some f =>
    let w := tileW (shFmt h)
    let x := t.row r
    (List.range (shNc h)).map (fun k =>
      let v := f.decode (elAt x w k)
      if shBs h then (match e8m0 (t.scale r (k / 32)) with
        | some e => v.scale e
        | none => .nan)
      else v)

/-- The INT8 values of row r, unsigned on request (R253). -/
def Tile.intVals (t : Tile) (h : W32) (uns : Bool) (r : Nat) : List Int :=
  let x := t.row r
  (List.range (shNc h)).map (fun k => if uns then (elAt x 8 k : Int) else signedOf 8 (elAt x 8 k))

/-- The 2-bit index of stored value k of row r: in the sidecar of a sparse tile (R229), or in the data of the index tile (R256). -/
def Tile.sideIdx (t : Tile) (r k : Nat) : Nat := elAt (t.sideWord (16 * r + k / 8)).toNat 2 (k % 8)
def Tile.dataIdx (t : Tile) (r k : Nat) : Nat := elAt (look 0 t.data (64 * r + k / 8)).toNat 2 (k % 8)

/-- The logical elements that stored values with indices stand for, each the exact sum of the values that name it (R229, R257). -/
def spread {α : Type} (zero : α) (add : α → α → α) (vs : List (α × Nat)) : List α :=
  ((vs.toChunks 2).map (fun g => (List.range 4).map (fun t =>
    match g.filter (fun x => x.2 == t) with
    | [] => zero
    | x :: r => r.foldl (fun a y => add a y.1) x.1))).flatten

/-- Indices of the stored values of row r of a weight tile, none for a dense one. -/
def wIdx (w : Tile) (idx : Option Tile) (h : W32) (r : Nat) : Option (List Nat) :=
  match idx with
  | some x => some ((List.range (shNc h)).map (x.dataIdx r))
  | none => if shSp h then some ((List.range (shNc h)).map (w.sideIdx r)) else none

/-! ## Pass results -/

/-- Cell group size (Table 9-1). -/
def cellGroup (f : Nat) (sparse : Bool) : Nat :=
  (if f = 4 ∨ f = 5 then 1 else if f = 3 then 4 else 2) * (if sparse then 2 else 1)

/-- A floating-point pass result (R253). -/
def passFp (c : Nat) (a w : List Num) : W32 :=
  let gs := ((a.zip w).map (fun e => e.1.mul e.2)).toChunks c
  let s := gs.foldl (fun (s : Num) g => fp32.decode (fp32.round (s.add (match g with
    | [] => .fin false 0 0
    | x :: r => r.foldl Num.add x)))) (.fin false 0 0)
  BitVec.ofNat 32 (fp32.round s)

/-- An integer pass result, modulo 2^32 (R253). -/
def passInt (a w : List Int) : W32 := BitVec.ofInt 32 (((a.zip w).map (fun e => e.1 * e.2)).sum)

/-- Negation of a pass result (Table 9-6). -/
def negEl (int : Bool) (x : W32) : W32 := if int then -x else BitVec.ofNat 32 (fp32.round (fp32.decode x.toNat).negate)

/-- What a pass gives: for each row m < M that has a pass result, its N elements. -/
structure PassOut where
  rows  : List (Nat × List W32)
  marks : W64
  xs    : Int
deriving DecidableEq, Repr

/-- The rows a sparse or dense activation tile gives for output row m (R255). -/
def actRows (sparse : Bool) (m : Nat) : List Nat := if sparse then [2 * m, 2 * m + 1] else [m]

/-- The pass of an mma control word over its weights and activations (R251 to R260). -/
def passOf (dc : Word) (w a : Held) (hw ha : W32) : PassOut :=
  let idx := if mmaSpx dc then w.idx else none
  let sparse := mmaSpx dc || shSp hw
  let int := shFmt hw == 0
  let mCnt := if sparse then shNr ha / 2 else shNr ha
  let c := cellGroup (shFmt hw) sparse
  let neg := dc.getLsbD 11
  let one (m : Nat) : Option (Nat × List W32) :=
    let rs := actRows sparse m
    if dc.getLsbD 10 && !a.tile.rm.getLsbD (rs.headD 0) then none
    else if dc.getLsbD 9 && rs.all a.tile.zm.getLsbD then some (m, List.replicate (shNr hw) (if neg then negEl int 0 else 0))
    else
      let els := (List.range (shNr hw)).map (fun n =>
        let ix := wIdx w.tile idx hw n
        if int then
          let av := (rs.map (a.tile.intVals ha (dc.getLsbD 13))).flatten
          let wv := w.tile.intVals hw (dc.getLsbD 12) n
          passInt av (match ix with
            | some l => spread 0 (· + ·) (wv.zip l)
            | none => wv)
        else
          let av := (rs.map (a.tile.fpVals ha)).flatten
          let wv := w.tile.fpVals hw n
          passFp c av (match ix with
            | some l => spread (.fin false 0 0) Num.add (wv.zip l)
            | none => wv))
      some (m, if neg then els.map (negEl int) else els)
  let rows := (List.range mCnt).filterMap one
  let wMark := decide (w.tile.pm ≠ 0) || (match idx with
    | some x => decide (x.pm ≠ 0)
    | none => false)
  { rows := rows, xs := w.tile.xs + a.tile.xs,
    marks := rowsWhere (fun m => rows.any (fun r => r.1 == m) && (wMark || (actRows sparse m).any a.tile.pm.getLsbD)) }

/-! ## Accumulation -/

/-- round32 of a sum of two elements (R253, R267). -/
def addEl (int : Bool) (x y : W32) : W32 :=
  if int then x + y else BitVec.ofNat 32 (fp32.round ((fp32.decode x.toNat).add (fp32.decode y.toNat)))

/-- XE as a signed number. -/
def Acc.xeI (a : Acc) : Int := signedOf 16 a.xe.toNat

/-- The result of an accumulating writer with exponent s scaled for an accumulator, and the accumulator with XE set (R254). -/
def Acc.scaleIn (a : Acc) (s : Int) (rows : List (Nat × List W32)) : Acc × List (Nat × List W32) :=
  if a.fresh then ({ a with fresh := false, xe := BitVec.ofInt 16 s }, rows)
  else if a.int ∨ a.xeI = s then (a, rows)
  else (a, rows.map (fun r => (r.1, r.2.map (fun x => BitVec.ofNat 32 (fp32.round ((fp32.decode x.toNat).scale (a.xeI - s)))))))

/-- Adding rows of results into elements (R268, SEQ order). -/
def addRows (int : Bool) (el : Store W32) (rows : List (Nat × List W32)) : Store W32 :=
  rows.foldl (fun el r => r.2.zipIdx.foldl (fun (el : Store W32) x =>
    put 0 el (64 * r.1 + x.2) (addEl int (look 0 el (64 * r.1 + x.2)) x.1)) el) el

/-- Elements that hold rows of results, and +0 elsewhere: a leaf (R268). -/
def leafRows (rows : List (Nat × List W32)) : Store W32 :=
  rows.foldl (fun el r => putRun 0 el (64 * r.1) r.2) []

/-- An accumulating writer's result applied to an accumulator, as a SEQ accumulation or as the next leaf of an open TREE group (R265,
R268). -/
def Arr.accumulate (x : Arr) (a : Nat) (gv : Option Nat) (s : Int) (rows : List (Nat × List W32)) (marks : W64) : Arr :=
  let acc := x.acc1 a
  let (acc1, rows1) := acc.scaleIn s rows
  let tree := match gv with
    | some g => (x.group g).tree
    | none => false
  match gv, tree with
  | some g, true =>
    let gr := x.group g
    (x.setAcc a acc1).setGroup g { gr with leaves := gr.leaves ++ [{ el := leafRows rows1, marks := marks }] }
  | _, _ => x.setAcc a { acc1 with el := addRows acc1.int acc1.el rows1, marks := acc1.marks ||| marks }

/-- The canonical sum of a list of elements (R267); the number bounds its length. -/
def canon (int : Bool) : Nat → List W32 → W32
  | 0, xs => xs.headD 0
  | k + 1, xs =>
    match xs with
    | [] => 0
    | [x] => x
    | _ =>
      let h := (xs.length + 1) / 2
      addEl int (canon int k (xs.take h)) (canon int k (xs.drop h))

/-- The elements of the canonical sum of leaves. -/
def canonEls (int : Bool) (ls : List Leaf) : Store W32 :=
  (List.range 4096).foldl (fun (el : Store W32) i => put 0 el i (canon int ls.length (ls.map (fun l => look 0 l.el i)))) []

/-- A zeroed accumulator of a type (R264, R271). -/
def Acc.zeroed (int : Bool) : Acc := { Acc.reset with int := int }

/-- The row marks that the accumulators of an open TREE group carry: an error in a partial sum has left them (R263, R496). -/
def Arr.heldMarks (x : Arr) (gr : Group) : W64 := (List.range (clog2 gr.tot + 1)).foldl (fun m i => m ||| (x.acc1 (gr.base + i)).marks) 0

/-- The close of a group takes effect: a TREE group's base becomes the canonical sum of its leaves and the others zero; the group is FREE
(R268, R271). A row is marked where a leaf or a partial sum is (R260, R496). -/
def Arr.closeGroup (x : Arr) (g : Nat) : Arr :=
  let gr := x.group g
  let y := if gr.tree then
      let a := x.acc1 gr.base
      let sum : Acc := { a with el := canonEls a.int gr.leaves, marks := gr.leaves.foldl (fun m l => m ||| l.marks) (x.heldMarks gr) }
      (List.range (clog2 gr.tot)).foldl (fun (y : Arr) i => y.setAcc (gr.base + 1 + i) (Acc.zeroed a.int)) (x.setAcc gr.base sum)
    else x
  y.setGroup g { gr with tree := false, tot := 0, base := 0, leaves := [] }

/-- The open of a group takes effect (R266). -/
def Arr.openGroup (x : Arr) (g a : Nat) (tree z i : Bool) (b : Nat) : Arr :=
  let cnt := if tree then clog2 b + 1 else 1
  let y := if z then (List.range cnt).foldl (fun (y : Arr) k => y.setAcc (a + k) (Acc.zeroed i)) x else x
  y.setGroup g { y.group g with base := a, tree := tree, tot := b, leaves := [] }

/-! ## Drains -/

/-- An accumulator after a drain with CLR (Table 9-7). -/
def Acc.cleared (a : Acc) : Acc := Acc.zeroed a.int

/-- Fields of a drain control word (Table 9-7). -/
def drSat (d : Word) : Bool := d.getLsbD 14
def drHalf (d : Word) : Bool := d.getLsbD 13
def drScv (d : Word) : Bool := d.getLsbD 12
def drSce (d : Word) : Nat := fld d 6 6
def drDstf (d : Word) : Nat := fld d 2 4
def drClr (d : Word) : Bool := d.getLsbD 15

/-- Elements of row r of an accumulator from column lo. -/
def Acc.rowEls (a : Acc) (r lo k : Nat) : List W32 := lookRun 0 a.el (64 * r + lo) k

/-- A drained FP32 element before its conversion (R275). -/
def Acc.drained (a : Acc) (x : W32) : Num := (fp32.decode x.toNat).scale (-a.xeI)

/-- How a drain treats a destination format from an FP32 accumulator. -/
def drainKind (f : Nat) (scv : Bool) : StKind := if f = 3 then .block else if scv then .scaled else .round

/-- The codes and scales of a drained row, and the flags it sets (R209, R213, R275). -/
def State.drainRow (s : State) (n : Nat) (a : Acc) (f : Nat) (dc : Word) (exp : Int) (r lo k : Nat) : State × RowOut :=
  let els := a.rowEls r lo k
  let mk := a.marks.getLsbD r
  if a.int then
    (s, { codes := els.map (fun x => if f = 0 then satCode 8 x.toInt else x.toNat), scales := [], evs := [] })
  else
    let kind := drainKind f (drScv dc)
    let out := convRow kind f (drSat dc) exp (els.map (fun x => (a.drained x, mk)))
    let t := s.convFlags n kind false (drSce dc) out.evs
    let bad := !mk && els.any (fun x => !(fp32.decode x.toNat).isFin)
    (if bad then t.coreNf n 2 else t, out)

/-- The pairings of Table 9-9 for a destination tile's shape, with HALF, SCV and SAT as allowed. -/
def drtOk (int : Bool) (h : W32) (dc : Word) : Bool :=
  let f := shFmt h
  let nc := shNc h
  let plain := !shBs h && !shSp h && shNr h == 64
  if int then (f == 7 && plain && nc == 32 && !drScv dc && !drSat dc) ||
    (f == 0 && plain && nc == 64 && !drHalf dc && !drScv dc && !drSat dc)
  else (f == 6 && plain && nc == 32 && !drScv dc && !drSat dc) || (f == 4 && plain && nc == 64 && !drHalf dc && !drScv dc) ||
    ((f == 5 || f == 1 || f == 2) && plain && nc == 64 && !drHalf dc) ||
    (f == 3 && shBs h && !shSp h && shNr h == 64 && nc == 64 && !drHalf dc && drScv dc && !drSat dc)

/-- The formats of acc.drm (R277), with SCV and SAT as allowed. -/
def drmOk (int : Bool) (dc : Word) : Bool :=
  let f := drDstf dc
  !drHalf dc && (if int then (f == 7 || f == 0) && !drScv dc && !drSat dc
    else (f == 6 && !drScv dc && !drSat dc) || (f == 4 && !drScv dc) || f == 5 || f == 1 || f == 2)

/-- acc.drt writes its tile (R276). The words of a tile row past the row's length become zero, as a load's do (R224; assumption log 161). -/
def State.drtWrite (s : State) (n : Nat) (t : Nat) (h : W32) (a : Acc) (dc : Word) (exp : Int) : State :=
  let f := shFmt h
  let lo := if drHalf dc then 32 else 0
  let s1 := (List.range 64).foldl (fun (s : State) r =>
    let (s1, out) := s.drainRow n a f dc exp r lo (shNc h)
    s1.modCore n (fun c =>
      let x := (c.tile t).setRow r (packEls (tileW f) out.codes)
      c.setTile t (out.scales.zipIdx.foldl (fun (x : Tile) e => x.setScale r e.2 e.1) x))) s
  s1.modCore n (fun c => c.setTile t
    { (((c.tile t).setXs (if drainKind f (drScv dc) = .scaled then exp else 0)).setRxv false) with pm := a.marks, zm := 0 })

/-- The words of a row that acc.drm writes, with the row's mark (R277). -/
def drmWords (f : Nat) (codes : List Nat) (mk : Bool) : List (Word × Bool) :=
  (wordsOfNat (rowLen 64 (tileW f)) (packEls (tileW f) codes)).map (fun w => (w, mk))

end Sys2Proof.Machine
end

