-- ==== Sys2Proof/Machine/Feeder.lean ====
section
/-! DEFINITION. Sys2Proof/Machine/Feeder.lean: the feeder (R288 to R293): splitting an operation into blocks, placing them (R289, R304),
completing them (R292, R308 to R312), mcopy (R136 to R139), and the rows of tile and accumulator operations (R223 to R240, R277,
R279). -/

namespace Sys2Proof.Machine

/-! ## Sides -/

/-- A run of words cut at 2,048-word boundaries of its address (R288); no frame or page boundary lies inside a piece. -/
def cutRun : Nat → W64 → Nat → List (W64 × Nat)
  | 0, _, _ => []
  | k + 1, a, len =>
    let m := min len (2048 - a.toNat % 2048)
    if len = 0 then [] else (a, m) :: cutRun k (a + BitVec.ofNat 64 m) (len - m)

/-- The pieces of a run. -/
def pieces (a : W64) (len : Nat) : List (W64 × Nat) := cutRun (len / 2048 + 2) a len

/-- A piece as a core's feeder reaches it (R300, R301, R283): here through the core's tables or as a physical address, at another module
as it is named. -/
def State.placePiece (s : State) (n : Nat) (sup write : Bool) (a : W64) (len : Nat) : State × Except (Cause × W64) Run :=
  if !s.isHere a then (s, .ok { va := a, addr := a, len := len, leaf := none })
  else
    match s.coreXlate n (localOf a) write .feeder sup with
    | (t, .error c) => (t, .error (c, a))
    | (t, .ok (pa, e)) =>
      let leaf := match e with
        | some x => if entPr x.entry then some { at_ := x.leaf, off := x.off (localOf a), entry := x.entry } else none
        | none => none
      (t, .ok { va := a, addr := BitVec.ofNat 64 pa, len := len, leaf := leaf })

/-- Every piece of a side, or the first failure with its address (R304). -/
def State.placePieces (s : State) (n : Nat) (sup write : Bool) : List (W64 × Nat) → State × Except (Cause × W64) (List Run)
  | [] => (s, .ok [])
  | p :: r =>
    match s.placePiece n sup write p.1 p.2 with
    | (t, .error x) => (t, .error x)
    | (t, .ok x) =>
      match t.placePieces n sup write r with
      | (u, .error y) => (u, .error y)
      | (u, .ok l) => (u, .ok (x :: l))

/-- The sources and then the destinations of a block. -/
def State.placeSides (s : State) (n : Nat) (sup : Bool) (src dst : List (W64 × Nat)) :
    State × Except (Cause × W64) (List Run × List Run) :=
  match s.placePieces n sup false src with
  | (t, .error x) => (t, .error x)
  | (t, .ok a) =>
    match t.placePieces n sup true dst with
    | (u, .error x) => (u, .error x)
    | (u, .ok b) => (u, .ok (a, b))

/-- Whether a run lies at another module. -/
def Run.remote (r : Run) : Bool := chipOf r.addr ≠ 0

/-- The places here that a run may reach while its block holds a slot: of a shadow page both its pages, since its block reaches the live page or AUX
as the page stands when it is performed (R310; assumption log 147). -/
def Run.places (r : Run) : List Nat := match r.leaf with
  | some x => if entPr x.entry && entSm x.entry then [entPa x.entry + x.off, entAux x.entry + x.off] else [r.addr.toNat]
  | none => [r.addr.toNat]

/-- The DRAM banks a block counts against (R289). -/
def State.banksOf (s : State) (rs : List Run) : List Nat :=
  ((rs.filter (fun r => !r.remote)).flatMap (fun r => r.places.filterMap (bankOf s))).dedup

/-- Whether a core's slots and the banks take another block (R289). -/
def Core.slotFree (c : Core) (banks : List Nat) : Bool :=
  decide (c.blocks.length < 64) && banks.all (fun b => decide ((c.blocks.filter (fun x => x.banks.contains b)).length < 16))

/-! ## What the operations move -/

/-- Memory rows, elements of a row and TR of a tile load or store (R223). -/
def tlRows (h : W32) (tr : Bool) : Nat := if tr then shNc h else shNr h
def tlEls (h : W32) (tr : Bool) : Nat := if tr then shNr h else shNc h

/-- The words that hold nb scales from scale number k of an array at ab (R228). -/
def scaleRun (ab : W64) (k : Int) (nb : Nat) : W64 × Nat :=
  (ab + BitVec.ofInt 64 (k / 2), ((k + nb - 1) / 2 - k / 2 + 1).toNat)

/-- The number of the first scale of memory row i: i × Dj (R228). -/
def TArgs.scale0 (a : TArgs) (i : Nat) : Int := (i : Int) * a.dj.toInt

/-- The address of memory row i (R223). -/
def rowAddr (an : W64) (pitch : W32) (i : Nat) : W64 := an + BitVec.ofNat 64 i * pitch.signExtend 64

/-- The pieces of a tile image (Table 8-9). -/
def imagePieces (an : W64) : List (W64 × Nat) := pieces an 5152

/-- Whether a store writes scales, and how many for a memory row: a copy of a block-scaled tile, or a block-scaled conversion (R228). -/
def storeScales (h : W32) (p2 : W32) (els : Nat) : Nat :=
  if shBs h then els / 32 else if storeKind (tstDstf p2) h (p2.getLsbD 30) (p2.getLsbD 25) els = some .block then els / 32 else 0

/-- A piece of a memory row of a Setter operation, or of its scales: the row, the number of its first word there, its address and length,
and whether it is all of it. -/
structure Seg where
  row   : Nat
  scale : Bool
  off   : Nat
  addr  : W64
  len   : Nat
  whole : Bool

/-- The pieces of a row's words or scales. -/
def segsOf (row : Nat) (scale : Bool) (a : W64) (len : Nat) : List Seg :=
  let ps := pieces a len
  ps.zipIdx.map (fun p => { row := row, scale := scale, off := ((ps.take p.2).map (·.2)).sum, addr := p.1.1, len := p.1.2, whole := ps.length == 1 })

/-- Whether a piece joins the block that the pieces after it form: whole memory rows, or scales, of one aligned run of 2,048 words, which no
frame or page boundary cuts, and at most 2,048 words of them (R234, R288). -/
def Seg.joins (x : Seg) (b : List Seg) : Bool := match b.head? with
  | none => false
  | some y => x.scale == y.scale && (x.scale || (x.whole && y.whole)) && x.addr.toNat / 2048 == y.addr.toNat / 2048 &&
      decide (x.len + (b.map (fun z => z.len)).sum ≤ 2048)

/-- Pieces grouped into blocks. -/
def groupSegs : List Seg → List (List Seg)
  | [] => []
  | x :: r => match groupSegs r with
    | [] => [[x]]
    | b :: bs => if x.joins b then (x :: b) :: bs else [x] :: b :: bs

/-- The number of memory rows of a Setter operation; an image counts as one. -/
def SEntry.total (e : SEntry) : Nat := match e.op with
  | .tld t a => tlRows (e.shapeOf t) (a.p2.getLsbD 31)
  | .tst t a => tlRows (e.shapeOf t) (a.p2.getLsbD 31)
  | .tsave _ _ => 1
  | .trest _ _ => 1
  | .accDrm _ _ _ _ _ _ => 64
  | .accLd _ _ _ _ _ => 64
  | _ => 0

/-- Memory row i of a Setter operation: its address and length. -/
def SEntry.rowAt (e : SEntry) (i : Nat) : W64 × Nat :=
  let tile (h : W32) (a : TArgs) (m : Nat) : W64 × Nat :=
    let els := tlEls h (a.p2.getLsbD 31)
    (rowAddr a.an a.pitch i, rowLen els (memW m) + (if shSp h then (els + 7) / 8 else 0))
  match e.op with
  | .tld t a => tile (e.shapeOf t) a (tldSrcf a.p2)
  | .tst t a => tile (e.shapeOf t) a (tstDstf a.p2)
  | .tsave _ a => (a.an, 5152)
  | .trest _ a => (a.an, 5152)
  | .accDrm _ _ an pitch dc _ => (rowAddr an pitch i, rowLen 64 (tileW (drDstf dc)))
  | .accLd _ _ an pitch _ => (rowAddr an pitch i, 128)
  | _ => (0, 0)

/-- The operands of a tile load or store, and the number of scales of a memory row (R228). -/
def SEntry.scales (e : SEntry) : Option (TArgs × Nat) := match e.op with
  | .tld t a => if shBs (e.shapeOf t) then some (a, tlEls (e.shapeOf t) (a.p2.getLsbD 31) / 32) else none
  | .tst t a =>
    let nb := storeScales (e.shapeOf t) a.p2 (tlEls (e.shapeOf t) (a.p2.getLsbD 31))
    if nb = 0 then none else some (a, nb)
  | _ => none

/-- The words that hold the scales of memory row i. -/
def SEntry.scalesAt (e : SEntry) (i : Nat) : W64 × Nat := match e.scales with
  | some (a, nb) => scaleRun a.ab (a.scale0 i) nb
  | none => (0, 0)

/-- The rows of a Setter operation from row k on, cut into the pieces of their words or of their scales. -/
def SEntry.rowSegs (e : SEntry) (k cnt : Nat) : List Seg :=
  (List.range cnt).flatMap (fun i => segsOf (k + i) false (e.rowAt (k + i)).1 (e.rowAt (k + i)).2)
def SEntry.scaleSegs (e : SEntry) (k cnt : Nat) : List Seg :=
  (List.range cnt).flatMap (fun i => segsOf (k + i) true (e.scalesAt (k + i)).1 (e.scalesAt (k + i)).2)

/-- The blocks of a Setter operation from its base row on (R234, R288): rows, then scales. A contribution of acc.drj goes as 4 blocks that reach no
memory here. -/
def SEntry.plan (e : SEntry) : List (List Seg) := match e.op with
  | .accDrj _ _ _ _ _ _ => List.replicate 4 []
  | _ => groupSegs (e.rowSegs e.base (e.total - e.base)) ++ groupSegs (e.scaleSegs e.base (e.total - e.base))

/-- Whether a Setter operation writes memory, and whether its accesses are at supervisor level or untranslated. -/
def SEntry.stores (e : SEntry) : Bool := match e.op with
  | .tst _ _ => true
  | .tsave _ _ => true
  | .accDrm _ _ _ _ _ _ => true
  | _ => false
def SEntry.sup (e : SEntry) : Bool := match e.op with
  | .tld _ a => a.sup
  | .tst _ a => a.sup
  | _ => true

/-- Consecutive addresses gathered into runs. -/
def gather : List W64 → List (W64 × Nat)
  | [] => []
  | a :: r => match gather r with
    | [] => [(a, 1)]
    | (b, k) :: l => if a + 1 = b ∧ b.toNat % 2048 ≠ 0 then (a, k + 1) :: l else (a, 1) :: (b, k) :: l

/-- The words of a block that writes scales, each once. -/
def scaleWords (b : List Seg) : List W64 :=
  ((b.flatMap (fun x => (List.range x.len).map (fun i => x.addr + BitVec.ofNat 64 i))).dedup).insertionSort (fun x y => x.toNat ≤ y.toNat)

/-! ## Placement -/

/-- The outcome of placing the next block: placed, nothing to place, no slot, an mcopy block whose page at an address is not in the TLB (R105),
or a fault. -/
inductive PlaceOut where
  | placed (s : State) | none_ (s : State) | full (s : State) | walk (s : State) (f : FOp) (va : W64) (write : Bool)
  | fault (s : State) (f : FOp) (c : Cause) (faddr : W64)

/-- How far a block that starts at an address may run on one side (R288). -/
def State.sideLimit (s : State) (n : Nat) (sup write : Bool) (a : W64) : State × Except (Cause × W64) Nat :=
  if !s.isHere a then (s, .ok (2048 - localOf a % 2048))
  else
    match s.coreXlate n (localOf a) write .feeder sup with
    | (t, .error c) => (t, .error (c, a))
    | (t, .ok (pa, e)) =>
      let frame := if (bankOf t pa).isSome then 2048 - pa % 2048 else 2048
      let page := match e with
        | some x => (if x.big then 2 ^ 25 else 2 ^ 16) - x.off (localOf a)
        | none => 2048
      (t, .ok (min frame page))

/-- Changing the feeder operation with a number. -/
def Core.modFop (c : Core) (id : Nat) (f : FOp → FOp) : Core := { c with fops := c.fops.map (fun x => if x.id = id then f x else x) }

/-- The next feeder operation that has blocks to place: operations are placed in their order (R289). -/
def Core.nextFop (c : Core) : Option FOp := c.fops.find? (fun f => !f.placed && !f.cut)

/-- The words a block still misses from other modules: their offset, address and number, at most 128 in one request (R291). -/
def missRuns : List Run → Nat → List (Nat × Word × Bool) → List (Nat × W64 × Nat)
  | [], _, _ => []
  | r :: rs, off, got =>
    (if r.remote then ((List.range ((r.len + 127) / 128)).map (fun k => (off + 128 * k, r.addr + BitVec.ofNat 64 (128 * k), min 128 (r.len - 128 * k)))).filter
        (fun x => !got.any (fun g => g.1 == x.1)) else []) ++ missRuns rs (off + r.len) got

/-- Sending requests for a block, all of them or none for want of tags (R291, R380). -/
def sendAll (owner : ReqOwner) : List (Nat × W64 × PktSpec) → State → Option State
  | [], s => some s
  | x :: r, s =>
    match s.request owner x.2.1 x.1 x.2.2 with
    | none => none
    | some (t, _) => sendAll owner r t

/-- Asking other modules for the words a block misses (R291, R391). -/
def State.askRemote (s : State) (n : Nat) (b : Block) : State :=
  let xs := (missRuns b.srcs 0 b.got).map (fun x => (x.1, x.2.1, reqSpec (chipOf x.2.1) 1 (localOf x.2.1) (BitVec.ofNat 64 x.2.2) []))
  (sendAll (.block n b.id) xs s).getD s

/-- Putting a block in a slot: its operation moves on, words of other modules are asked for, and run-ahead gives up the slots it needs
(R294). -/
def State.putBlock (s : State) (n : Nat) (f : FOp) (len total : Nat) (srcs dsts : List Run) (out : List (Word × Bool)) (keep : List (BitVec 2)) :
    State :=
  let b : Block := { id := (s.core n).nextId, fop := f.id, start := f.next, len := len, srcs := srcs, dsts := dsts,
                     banks := s.banksOf (srcs ++ dsts), out := out, keep := keep, tags := [], got := [], wrote := false, fail := none }
  let t := s.modCore n (fun c => { (c.modFop f.id (fun f => { f with next := f.next + len, placed := decide (total ≤ f.next + len) })) with
    blocks := c.blocks ++ [b], nextId := c.nextId + 1, runAhead := c.runAhead.take (63 - c.blocks.length) })
  t.askRemote n b

/-- Whether core n's feeder misses its TLB at an address it translates (R105, R305). -/
def State.tlbMiss (s : State) (n : Nat) (sup : Bool) (a : W64) : Bool :=
  s.isHere a && s.xlOn n sup && (s.tlbFind n (localOf a)).isNone

/-- The place of a translation fault in the order of check 7 (R116, R303). -/
def xlateRank (c : Cause) : Nat := if c = .protection then 1 else if c = .busError then 2 else 0

/-- The next block of an mcopy (R136, R288), when its pages are in the TLB or need none. Where both sides fault, the fault that check 7 puts
first is taken, and of two alike the source's (R116; assumption log 29). -/
def State.placeCopy (s : State) (n : Nat) (f : FOp) (src dst : W64) (cnt : Nat) (sup : Bool) : PlaceOut :=
  let a := src + BitVec.ofNat 64 f.next
  let d := dst + BitVec.ofNat 64 f.next
  let (t, la) := s.sideLimit n sup false a
  let (u, ld) := t.sideLimit n sup true d
  match la, ld with
  | .error (c, x), .error (e, y) => if xlateRank e < xlateRank c then .fault u f e y else .fault u f c x
  | .error (c, x), .ok _ => .fault u f c x
  | .ok _, .error (e, y) => .fault u f e y
  | .ok la, .ok ld =>
    let len := min (cnt - f.next) (min la ld)
    match u.placeSides n sup (pieces a len) (pieces d len) with
    | (v, .error (c, x)) => .fault v f c x
    | (v, .ok (rs, ws)) => if (v.core n).slotFree (v.banksOf (rs ++ ws)) then .placed (v.putBlock n f len cnt rs ws [] []) else .full v

/-- The next block of an mcopy: a page that its TLB misses must be walked first, and issue holds for it (R105, R305). The block uses one entry
for each page (R307). -/
def State.placeMcopy (s : State) (n : Nat) (f : FOp) (src dst : W64) (cnt : Nat) (sup : Bool) : PlaceOut :=
  let a := src + BitVec.ofNat 64 f.next
  let d := dst + BitVec.ofNat 64 f.next
  let s := s.freshAll n sup [a, d]
  if s.tlbMiss n sup a then .walk s f a false
  else if s.tlbMiss n sup d then .walk s f d true
  else s.placeCopy n f src dst cnt sup

/-! ## Suspension and failure -/

/-- A deferred fault suspends a tile operation after its last complete row; its other blocks are given up, and they are performed again
when it resumes (R141, R234, R237). -/
def State.suspend (s : State) (n id : Nat) (cause : Cause) (faddr : W64) : State :=
  match (s.core n).entry id with
  | none => s
  | some e =>
    s.modCore n (fun c =>
      let c1 := (c.modEntry id (fun e => { e with phase := .suspended, rows := [], img := if e.op.isTsave then e.img else [], flags := [] })).dropFops id
      { c1 with deferred := c1.deferred ++ [{ cause := cause, faddr := faddr, op := if e.stores then 2 else 1, susp := e.op.tiles.head? }] })

/-- An mcopy whose blocks are all placed and complete ends: its completion action follows, unless a block failed (R136, R304). One that an
exception cut stays, for the mcopy that resumes it (R137). -/
def State.fopCheck (s : State) (n id : Nat) : State :=
  let c := s.core n
  match c.fops.find? (fun f => f.id == id) with
  | none => s
  | some f =>
    if c.blocks.any (fun b => b.fop == id) then s
    else match f.kind with
      | .setter _ => s
      | .mcopy _ _ _ sem _ =>
        if !f.placed then s
        else
          let t := s.modCore n (fun c => { c with fops := c.fops.filter (fun x => x.id ≠ id) })
          if f.failed then t else match sem with
            | some k => t.signal n k
            | none => t

/-- A block that cannot be performed: an mcopy's fault is a failed completion action, a tile operation is suspended (R304). -/
def State.failBlock (s : State) (n : Nat) (b : Block) (cause : Cause) (faddr : W64) : State :=
  match (s.core n).fops.find? (fun f => f.id == b.fop) with
  | none => s.modCore n (fun c => { c with blocks := c.blocks.filter (fun x => x.id ≠ b.id) })
  | some f =>
    match f.kind with
    | .setter id => s.suspend n id cause faddr
    | .mcopy _ _ _ _ _ =>
      let t := s.modCore n (fun c => { (c.modFop f.id (fun f => { f with failed := true })) with blocks := c.blocks.filter (fun x => x.id ≠ b.id) })
      (t.deferAction n cause faddr).fopCheck n f.id

/-! ## The words of a block -/

/-- The physical place of a word of a local run now: AUX of a touched shadow page (R310). -/
def Run.pa (r : Run) (i : Nat) : Nat := match r.leaf with
  | some x => entPlace x.entry (x.off + i)
  | none => r.addr.toNat + i

/-- The physical addresses of the local words of runs. -/
def localAddrs (rs : List Run) : List Nat := (rs.filter (fun r => !r.remote)).flatMap (fun r => (List.range r.len).map r.pa)

/-- The words of the runs a block reads, from offset off on, with their marks. -/
def State.srcWords (s : State) (got : List (Nat × Word × Bool)) : List Run → Nat → List (Word × Bool)
  | [], _ => []
  | r :: rs, off =>
    (List.range r.len).map (fun i => if r.remote then (((got.find? (fun g => g.1 == off + i)).map (·.2)).getD (0, false))
      else (s.word (r.pa i), s.poisoned (r.pa i))) ++ s.srcWords got rs (off + r.len)

/-- The writes of a block in this module, and those to other modules as requests of at most 128 words. -/
def localWrites : List Run → List (Word × Bool) → List (Nat × Word × Bool)
  | [], _ => []
  | r :: rs, ws =>
    (if r.remote then [] else ((ws.take r.len).zipIdx.map (fun e => (r.pa e.2, e.1.1, e.1.2)))) ++ localWrites rs (ws.drop r.len)
def remoteWrites : List Run → List (Word × Bool) → List (Nat × W64 × PktSpec)
  | [], _ => []
  | r :: rs, ws =>
    (if r.remote then (blocksOf 128 (ws.take r.len)).zipIdx.map (fun e =>
        let a := r.addr + BitVec.ofNat 64 (128 * e.2)
        (0, a, reqSpec (chipOf a) 3 (localOf a) (BitVec.ofNat 64 e.1.length) e.1)) else []) ++ remoteWrites rs (ws.drop r.len)

/-- The leaves that the runs of a side go through. -/
def leafs (rs : List Run) : List LeafRef := rs.filterMap (fun r => r.leaf)

/-- The elements of memory row i of a tile: their codes, and whether the tile row of each is marked (R223, R231). -/
def Tile.memRow (t : Tile) (h : W32) (tr : Bool) (i : Nat) : List (Nat × Bool) :=
  let w := tileW (shFmt h)
  if tr then (List.range (shNr h)).map (fun r => (elAt (t.row r) w i, t.pm.getLsbD r))
  else (elems (t.row i) w (shNc h)).map (fun x => (x, t.pm.getLsbD i))

/-- Words of a row with a mark where an element that a word holds comes from a marked row (R231). -/
def markWords (bits : Nat) (ws : List Word) (ms : List Bool) : List (Word × Bool) :=
  ws.zipIdx.map (fun e => (e.1, ms.zipIdx.any (fun m => m.1 && decide (m.2 * bits < 16 * e.2 + 16) && decide (16 * e.2 < (m.2 + 1) * bits))))

/-- How a tst treats its elements (Table 8-7). -/
def SEntry.storeKind (e : SEntry) (t : Nat) (a : TArgs) : StKind :=
  let h := e.shapeOf t
  (Sys2Proof.Machine.storeKind (tstDstf a.p2) h (a.p2.getLsbD 30) (a.p2.getLsbD 25) (tlEls h (a.p2.getLsbD 31))).getD .copy

/-- Memory row i of a tst of tile x: its elements as they leave the tile, whether each is marked, and what their conversion gives (R224 to
R231). -/
def SEntry.storeRow (e : SEntry) (t : Nat) (x : Tile) (a : TArgs) (i : Nat) : List (Nat × Bool) × RowOut :=
  let h := e.shapeOf t
  let m := tstDstf a.p2
  let row := x.memRow h (a.p2.getLsbD 31) i
  let vals := row.map (fun r => ((match fpOf (shFmt h) with
    | some f => f.decode r.1
    | none => .fin false 0 0), r.2))
  (row, match e.storeKind t a with
    | .copy => { codes := row.map (·.1), scales := (List.range (storeScales h a.p2 (tlEls h (a.p2.getLsbD 31)))).map (x.scale i), evs := [] }
    | .int4 => { codes := row.map (fun r => satCode 4 (signedOf 8 r.1)), scales := [], evs := [] }
    | k => convRow k m (a.p2.getLsbD 30) e.exp vals)

/-- The words of memory row i of a tst. -/
def SEntry.storeWords (e : SEntry) (t : Nat) (x : Tile) (a : TArgs) (i : Nat) : List (Word × Bool) :=
  let h := e.shapeOf t
  let m := tstDstf a.p2
  let els := tlEls h (a.p2.getLsbD 31)
  let (row, out) := e.storeRow t x a i
  markWords (memW m) (wordsOfNat (rowLen els (memW m)) (packEls (memW m) out.codes)) (row.map (·.2)) ++
    (if shSp h then (List.range ((els + 7) / 8)).map (fun k => (x.sideWord (16 * i + k), x.pm.getLsbD i)) else [])

/-- A word of the scale array that a block of a tst writes: its two bytes, the bytes it keeps, and its mark. Each byte is that of the last row
of the block that has a scale there (R228), and every scale of a memory row is marked where an element of it comes from a marked tile row (R231; under TR
assumption log 160). -/
def SEntry.scaleWord (e : SEntry) (t : Nat) (x : Tile) (a : TArgs) (rows : List Nat) (w : W64) : (Word × Bool) × BitVec 2 :=
  let outs := rows.map (fun i => (a.scale0 i, e.storeRow t x a i))
  let byte (k : Int) : Option (Nat × Bool) := outs.foldl (fun b o =>
    if o.1 ≤ k ∧ k < o.1 + o.2.2.scales.length then some (o.2.2.scales.getD (k - o.1).toNat 0, o.2.1.any (·.2)) else b) none
  let k0 := 2 * (w - a.ab).toInt
  let val (b : Option (Nat × Bool)) : Nat := (b.map (·.1)).getD 0
  let bad (b : Option (Nat × Bool)) : Bool := (b.map (·.2)).getD false
  ((BitVec.ofNat 16 (val (byte k0) % 256 + 256 * (val (byte (k0 + 1)) % 256)), bad (byte k0) || bad (byte (k0 + 1))),
    BitVec.ofNat 2 ((if (byte k0).isNone then 1 else 0) + (if (byte (k0 + 1)).isNone then 2 else 0)))

/-- A word written over an old one of which it keeps some bytes; the old mark stays with what is kept. -/
def keepBytes (keep : BitVec 2) (old new : Word × Bool) : Word × Bool :=
  if keep = 0 then new
  else
    let m : Word := (if keep.getLsbD 0 then 0xFF else 0) ||| (if keep.getLsbD 1 then 0xFF00 else 0)
    ((old.1 &&& m) ||| (new.1 &&& ~~~m), old.2 || new.2)

/-- Memory row i of a tld lands in its tile (R224, R228, R229, R231). A row that is performed again after a suspension keeps a mark that its first landing
set (assumption log 156). -/
def Tile.loadRow (t : Tile) (h : W32) (a : TArgs) (i : Nat) (ws : List (Word × Bool)) : Tile :=
  let tr := a.p2.getLsbD 31
  let els := tlEls h tr
  let m := tldSrcf a.p2
  let f := shFmt h
  let w := tileW f
  let bits := memW m
  let len := rowLen els bits
  let x := natOfWords ((ws.take len).map (·.1))
  let codes := (elems x bits els).map (loadEl m f (a.p2.getLsbD 29))
  let marked (j : Nat) : Bool := ((ws.take len).zipIdx).any (fun e => e.1.2 && decide (j * bits < 16 * e.2 + 16) && decide (16 * e.2 < (j + 1) * bits))
  let t1 := if tr then codes.zipIdx.foldl (fun (t : Tile) e => t.setEl e.2 w i e.1) t
    else t.setRow i (t.row i - t.row i % 2 ^ (w * els) + packEls w codes)
  let il := if shSp h then (els + 7) / 8 else 0
  let t2 := if shSp h then { t1 with side := putRun 0 t1.side (16 * i) (((ws.drop len).take il).map (·.1)) } else t1
  let sc := ws.drop (len + il)
  let k0 := (a.scale0 i % 2).toNat
  let t3 := if shBs h then (List.range (els / 32)).foldl (fun (t : Tile) b => t.setScale i b (elAt (natOfWords (sc.map (·.1))) 8 (k0 + b))) t2
    else t2
  { t3 with pm := if tr then t3.pm ||| rowsWhere (fun j => decide (j < els) && marked j)
                  else if ws.any (·.2) then setBit t3.pm i true else t3.pm }

/-- Memory row i of a slicing load lands in slice k of its tiles (R235, R236). -/
def Tile.loadSlice (t : Tile) (h : W32) (a : TArgs) (i k : Nat) (ws : List (Word × Bool)) : Tile :=
  let tr := a.p2.getLsbD 31
  let els := tlEls h tr
  let x := natOfWords (ws.map (·.1))
  let r := sliceRow (tldSl a.p2) ((elems x 64 els).map fp64.decode)
  let codes := r.2.map (fun d => ((d.getD k 0) % 256).toNat)
  let t1 := if tr then codes.zipIdx.foldl (fun (t : Tile) e => t.setEl e.2 8 i e.1) t
    else t.setRow i (t.row i - t.row i % 2 ^ (8 * els) + packEls 8 codes)
  let marked (j : Nat) : Bool := ((ws.drop (4 * j)).take 4).any (·.2)
  let t2 := t1.setSide i (BitVec.ofNat 16 r.1)
  { t2 with pm := if tr then t2.pm ||| rowsWhere (fun j => decide (j < els) && marked j)
                  else if ws.any (·.2) then setBit t2.pm i true else t2.pm }

/-- Row i of a tld lands: whole under TR 0, over what lay there; under TR 1 an element of each row, which is read for it. -/
def State.landRow (s : State) (n : Nat) (e : SEntry) (t : Nat) (a : TArgs) (i : Nat) (ws : List (Word × Bool)) : State :=
  let tiles (f : Nat → Bool) (y : Site) : Bool := (List.range (tldSl a.p2 + 1)).any (fun k => inTile n (t + k) f y)
  let s := if a.p2.getLsbD 31 then s.regReads (tiles (fun r => decide (r < shNr (e.shapeOf t)))) else s.over (tiles (fun r => r == i))
  s.modCore n (fun c =>
    if tldSl a.p2 = 0 then c.setTile t ((c.tile t).loadRow (e.shapeOf t) a i ws)
    else (List.range (tldSl a.p2 + 1)).foldl (fun (c : Core) k => c.setTile (t + k) ((c.tile (t + k)).loadSlice (e.shapeOf t) a i k ws)) c)

/-- Whether an element code of a tile format is zero of either sign (R230). -/
def zeroCode (f x : Nat) : Bool := match fpOf f with
  | some g => g.mag x == 0
  | none => x == 0

/-- Whether row r of a tile is one that a load with ZM = 1 marks (R230). -/
def Tile.zeroRow (t : Tile) (h : W32) (r : Nat) : Bool :=
  (elems (t.row r) (tileW (shFmt h)) (shNc h)).all (zeroCode (shFmt h)) && !t.pm.getLsbD r &&
  !(shBs h && (List.range (shNc h / 32)).any (fun b => t.scale r b == 255))

/-- The end of a tld: ZM and RXV hold their final values (R230, R232, R236). A load without slicing clears RXV and leaves the sidecar as it is (assumption
log 157). -/
def Tile.loaded (t : Tile) (h : W32) (a : TArgs) : Tile :=
  { t.setRxv (tldSl a.p2 ≠ 0) with
    zm := rowsWhere (fun r => if r < shNr h then a.p2.getLsbD 30 && t.zeroRow h r else t.zm.getLsbD r) }

/-- What an image holds of a tile and of a suspended operation whose first tile it is (Table 8-9, R239); of an operation whose first tile is another it
holds nothing (assumption log 141). -/
def Core.image (c : Core) (t : Nat) : Store (Word × Bool) :=
  let x := c.tile t
  let sus := c.setter.find? (fun e => e.susp && e.op.tiles.head? == some t)
  let any := c.setter.any (fun e => e.susp && e.op.tiles.contains t)
  let own := setBit (c.tswOf t) 31 (!any)
  let rec_ : List Word := match sus with
    | some e => (match e.op with
      | .tld _ a => wordsOf32 a.p1 ++ wordsOf32 a.p2 ++ wordsOf64 a.an ++ wordsOf32 a.pitch ++ [a.dj, a.dm] ++ wordsOf64 a.ab
      | .tst _ a => wordsOf32 a.p1 ++ wordsOf32 a.p2 ++ wordsOf64 a.an ++ wordsOf32 a.pitch ++ [a.dj, a.dm] ++ wordsOf64 a.ab
      | _ => List.replicate 16 0)
    | none => List.replicate 16 0
  let tsw := if sus.isSome then own else (own &&& 0xFF80) ||| (if any then 0 else 0x80000000)
  let data := (List.range 64).flatMap (fun r => (lookRun 0 x.data (64 * r) 64).map (fun w => (w, x.pm.getLsbD r)))
  let tail := (lookRun 0 x.side 0 1024 ++ wordsOf32 x.shape ++ wordsOf32 tsw ++ wordsOf64 x.zm ++ wordsOf64 x.rm ++ wordsOf64 x.pm ++ rec_)
  putRun ((0 : Word), false) [] 0 (data ++ tail.map (fun w => (w, false)))

/-- The operation a record of an image names (Table 8-9): a tld or tst, of the tile that its first parcel names, whatever tile the image is read into
(R239); its privilege, which the record does not hold, is free (assumption log 32). -/
def recordOp (ws : List Word) (sup : Bool) : Option SOp :=
  let p1 := rec32 ws 0
  let a : TArgs := { p1 := p1, p2 := rec32 ws 2, an := BitVec.ofNat 64 (natOfWords ((ws.drop 4).take 4)), pitch := rec32 ws 8,
                     dj := ws.getD 10 0, dm := ws.getD 11 0, ab := BitVec.ofNat 64 (natOfWords ((ws.drop 12).take 4)), sup := sup }
  if fld p1 22 6 ≠ 63 then none
  else if fld p1 16 6 = 0x20 then some (.tld (fld p1 10 6) a)
  else if fld p1 16 6 = 0x21 then some (.tst (fld p1 10 6) a)
  else none

/-- The scale entry an operation reads EXP of as it fires, if it does (R208, R227). -/
def SOp.expOf : SOp → Option Nat
  | .tld _ a => if a.p2.getLsbD 21 then some (fld a.p2 15 6) else none
  | .tst _ a => if a.p2.getLsbD 25 then some (fld a.p2 19 6) else none
  | .accDrt _ _ _ dc _ => if drScv dc then some (drSce dc) else none
  | .accDrm _ _ _ _ dc _ => if drScv dc then some (drSce dc) else none
  | _ => none

/-- EXP as a firing operation reads it; 0 for one that reads none. -/
def State.expFor (s : State) (n : Nat) (o : SOp) : Int := match o.expOf with
  | some e => s.scExp n e
  | none => 0

/-- PM of a tile restored from an image (R240): a row is marked when the image says so or any word read for it is marked: its data, and the words
of the sidecar that hold its scales, its indices or its RX. -/
def restoredPm (img : Store (Word × Bool)) (shape tsw : W32) (pm : W64) : W64 :=
  let m (i k : Nat) : Bool := (lookRun ((0 : Word), false) img i k).any (·.2)
  rowsWhere (fun r => pm.getLsbD r || m (64 * r) 64 || (shBs shape && m (4096 + 4 * r) 4) || (shSp shape && m (4096 + 16 * r) 16) ||
    (tsw.getLsbD 7 && m (4096 + r) 1))

/-- The image a trest has read goes into the tile (R240), a TSHAPE that breaks Table 8-4 as it stands: later operations take its fields at their word (R21;
assumption log 159). The shape holds for every later operation up to the next that sets it (R221). An
image with SUSP = 1 re-creates its operation, suspended, in the entry of the trest (R239): copies of the tiles it writes serve no operation
after it (R250). Operations that were issued while the trest waited were checked with the shape before it (assumption log 139). -/
def State.restoreTile (s : State) (n : Nat) (e : SEntry) (t : Nat) : State :=
  let w (i k : Nat) : List Word := (lookRun ((0 : Word), false) e.img i k).map (·.1)
  let w64 (i : Nat) : W64 := BitVec.ofNat 64 (natOfWords (w i 4))
  let shape := rec32 (w 5120 2) 0
  let tsw := rec32 (w 5122 2) 0
  let x : Tile := { data := putRun 0 [] 0 (w 0 4096), side := putRun 0 [] 0 (w 4096 1024), shape := shape,
                    tsw := 0x80000000 ||| (tsw &&& 0xFF80), zm := w64 5124, rm := w64 5128, pm := restoredPm e.img shape tsw (w64 5132) }
  let (v, s0) := s.free
  let redo := if tsw.getLsbD 30 then recordOp (w 5136 16) (v.getLsbD 0) else none
  let s1 := (if tsw.getLsbD 30 then s0 else s).over (inTile n t (fun _ => true))
  let after := ((s1.core n).setter.dropWhile (fun x => x.id ≠ e.id)).drop 1
  let sets (x : SEntry) : Bool := match x.op with
    | .tcfg k _ => k == t
    | .trest k _ => k == t
    | _ => false
  let upTo := (after.find? sets).map (fun x => x.id)
  let s2 := s1.modCore n (fun c =>
    let c1 := c.setTile t x
    let c2 := if upTo.isNone then c1.setShape t shape else c1
    { c2 with setter := c2.setter.map (fun y => if decide (e.id < y.id) && (match upTo with
        | some k => decide (y.id < k)
        | none => true) then { y with shapes := y.shapes.map (fun p => if p.1 = t then (t, shape) else p) } else y) })
  match redo with
  | none => s2.sDone n e.id none
  | some o => s2.modCore n (fun c =>
      let ne : SEntry := { SEntry.enter e.id o (fun k => (c.tile k).shape) with phase := .suspended, exp := s2.expFor n o, done := fld tsw 16 9 }
      let c1 := (c.cutHeld o.writeT e.id).dropFops e.id
      { c1 with setter := c1.setter.map (fun y => if y.id = e.id then ne else y) })

/-- The elements that an acc.ld has read, as rows, and their marks (R279). -/
def loadedRows (e : SEntry) : List (Nat × List W32) × W64 :=
  ((List.range 64).map (fun r => (r, words32' ((lookRun ((0 : Word), false) e.img (128 * r) 128).map (·.1)))),
    rowsWhere (fun r => (lookRun ((0 : Word), false) e.img (128 * r) 128).any (·.2)))
where
  words32' (ws : List Word) : List W32 := (ws.toChunks 2).map (fun p => BitVec.ofNat 32 (natOfWords p))

/-- An acc.ld takes effect (R264, R279). -/
def State.applyLoad (s : State) (n : Nat) (e : SEntry) (q a : Nat) (dc : Word) : State :=
  let (rows, marks) := loadedRows e
  let tree := (((s.core n).arr q).group (fld dc 0 3)).tree
  let s := if !dc.getLsbD 3 then s.over (inAcc n q a (fun _ => true)) else if tree then s else s.regReads (inAcc n q a (fun _ => true))
  s.modCore n (fun c =>
    let x := c.arr q
    c.setArr q (if dc.getLsbD 3 then x.accumulate a (some (fld dc 0 3)) 0 rows marks
      else x.setAcc a { Acc.zeroed (dc.getLsbD 4) with el := leafRows rows, marks := marks }))

/-- Whether an earlier accumulating writer of the same accumulator is incomplete (R265). -/
def Core.accWaits (c : Core) (e : SEntry) : Bool := (c.before e.id).any (fun x => meets x.op.accR e.op.accR)

/-- What follows when every row or piece of a Setter operation is complete (R232, R277, R279). -/
def State.rowsDone (s : State) (n : Nat) (e : SEntry) : State := match e.op with
  | .tld t a =>
    let k := tldSl a.p2 + 1
    (s.modCore n (fun c => (List.range k).foldl (fun (c : Core) i => c.setTile (t + i) ((c.tile (t + i)).loaded (e.shapeOf t) a)) c)).sDone n e.id e.op.sem
  | .trest t _ => s.restoreTile n e t
  | .accLd q a _ _ dc => (s.applyLoad n e q a dc).sDone n e.id none
  | .accDrm _ _ _ _ _ _ => s
  | o => s.sDone n e.id o.sem

/-- Where the words of a piece wait in img until their row is complete. -/
def SEntry.stageAt (e : SEntry) (row : Nat) (scale : Bool) : Nat := match e.op with
  | .tld _ _ => 4096 * row + (if scale then 2048 else 0)
  | .accLd _ _ _ _ _ => 128 * row
  | _ => 0

/-- Whether every block of the plan that holds a piece of a row is complete. -/
def SEntry.rowReady (e : SEntry) (plan : List (List Seg)) (i : Nat) : Bool :=
  plan.zipIdx.all (fun b => !b.1.any (fun x => x.row == i) || e.rows.contains b.2)

/-- Counting block k of an operation complete (R237): done is the number of complete rows from row 0. -/
def SEntry.count (e : SEntry) (plan : List (List Seg)) (k : Nat) : SEntry :=
  let e1 := { e with rows := k :: e.rows }
  { e1 with done := (List.range e.total).foldl (fun d _ => if d < e.total ∧ e1.rowReady plan d then d + 1 else d) e.done }

/-- The rows that block k completes. -/
def SEntry.completes (e : SEntry) (plan : List (List Seg)) (k : Nat) : List Nat :=
  (((plan.getD k []).map (fun x => x.row)).dedup).filter ({ e with rows := k :: e.rows }.rowReady plan)

/-- A memory row of a tld whose words have all been read lands in its tile. -/
def State.landStaged (s : State) (n : Nat) (e : SEntry) (i : Nat) : State := match e.op with
  | .tld t a =>
    let w (scale : Bool) (k : Nat) : List (Word × Bool) := lookRun ((0 : Word), false) e.img (e.stageAt i scale) k
    (s.landRow n e t a i (w false (e.rowAt i).2 ++ w true (e.scalesAt i).2)).modCore n (fun c => c.modEntry e.id (fun e =>
      { e with img := e.img.filter (fun x => decide (x.1 / 4096 ≠ i)) }))
  | _ => s

/-- Block k of a Setter operation is complete: the rows it completes land, and those now counted apply their updates, once each (R209, R232). -/
def State.rowDone (s : State) (n id k : Nat) : State :=
  match (s.core n).entry id with
  | none => s
  | some e =>
    let plan := e.plan
    let s1 := (e.completes plan k).foldl (fun s i => s.landStaged n ((s.core n).entry id |>.getD e) i) s
    let e1 := e.count plan k
    let s2 := (e.flags.filter (fun f => decide (e.done ≤ f.1) && decide (f.1 < e1.done))).foldl (fun s f => s.applyFlags n f.2) s1
    let s3 := s2.modCore n (fun c => c.modEntry id (fun x => { x with rows := e1.rows, done := e1.done, flags := e.flags.filter (fun f => decide (e1.done ≤ f.1)) }))
    match (s3.core n).entry id with
    | none => s3
    | some e => if e.total ≤ e.done then s3.rowsDone n e else s3

/-- What block k of a Setter operation writes, read as it is placed: its words, the bytes of each that it keeps, and the flags of the rows that
start in it. A row updates its scale entry with its first piece, once (R209). -/
def State.blockOut (s : State) (n : Nat) (e : SEntry) (b : List Seg) : State × List (Word × Bool) × List (BitVec 2) :=
  match e.op with
  | .tst t a =>
    let s := if e.snap.isSome then s else s.regReads (inTile n t (fun r => a.p2.getLsbD 31 || b.any (fun y => y.row == r)))
    let x := e.snap.getD ((s.core n).tile t)
    if b.any (fun y => y.scale) then
      let ws := (scaleWords b).map (e.scaleWord t x a (b.map (fun y => y.row)).dedup)
      (s, ws.map (·.1), ws.map (·.2))
    else
      let fl := (b.filter (fun y => y.off == 0)).map (fun y =>
        (y.row, rowFlags (e.storeKind t a) true (fld a.p2 19 6) (e.storeRow t x a y.row).2.evs))
      (s.modCore n (fun c => c.modEntry e.id (fun e => { e with flags := e.flags ++ fl })),
        b.flatMap (fun y => ((e.storeWords t x a y.row).drop y.off).take y.len), [])
  | .tsave _ _ => (s, b.flatMap (fun y => lookRun ((0 : Word), false) e.img y.off y.len), [])
  | .accDrm q a _ _ dc _ =>
    let s := s.regReads (inAcc n q a (fun r => b.any (fun y => y.row == r)))
    let x := ((s.core n).arr q).acc1 a
    let (t, ws) := b.foldl (fun (p : State × List (Word × Bool)) y =>
      let (t, out) := p.1.drainRow n x (drDstf dc) dc e.exp y.row 0 64
      (if y.off = 0 then t else p.1, p.2 ++ ((drmWords (drDstf dc) out.codes (x.marks.getLsbD y.row)).drop y.off).take y.len)) (s, [])
    (t, ws, [])
  | _ => (s, [], [])

/-- The words that a block of a load has read wait for their rows. -/
def State.stageBlock (s : State) (n : Nat) (e : SEntry) (b : List Seg) (ws : List (Word × Bool)) : State :=
  let img := (b.foldl (fun (p : Store (Word × Bool) × List (Word × Bool)) y =>
    (putRun ((0 : Word), false) p.1 (e.stageAt y.row y.scale + y.off) (p.2.take y.len), p.2.drop y.len)) (e.img, ws)).1
  s.modCore n (fun c => c.modEntry e.id (fun e => { e with img := img }))

/-- A store or drain has read the last of what it reads: it releases its tile or its accumulator, and keeps what a resumed tst reads
again (R245; assumption log 113). -/
def State.releaseRead (s : State) (n : Nat) (e : SEntry) : State :=
  s.modCore n (fun c => c.modEntry e.id (fun x => { x with released := true, snap := match x.op with
    | .tst t _ => some (x.snap.getD (c.tile t))
    | _ => none }))

/-- The next block of a Setter operation (R234, R288). A word of the scale array at another module of which bytes are kept is read there
first (R2). Its walks wait for the host's answers to snoops (R470). -/
def State.placeRows (s : State) (n : Nat) (f : FOp) (e : SEntry) : PlaceOut :=
  let plan := e.plan
  let b := plan.getD f.next []
  let sides : List (W64 × Nat) := if b.any (fun y => y.scale) && e.stores then gather (scaleWords b) else b.map (fun y => (y.addr, y.len))
  let w := (sides.filter (fun x => s.isHere x.1)).flatMap (fun x => s.coreReads n e.sup (localOf x.1))
  if s.biHeld (inList w) then .full (s.biAsk (inList w)) else
  match (s.freshAll n e.sup (sides.map (·.1))).placeSides n e.sup (if e.stores then [] else sides) (if e.stores then sides else []) with
  | (t, .error (c, a)) => .fault t f c a
  | (t, .ok (rs, ws)) =>
    if !(t.core n).slotFree (t.banksOf (rs ++ ws)) then .full t
    else
      let (u, out, keep) := t.blockOut n e b
      let part := ((scaleWords b).zip keep).filter (fun x => x.2 ≠ 0 && !s.isHere x.1)
      let olds : List Run := (gather (part.map (·.1))).map (fun x => { va := x.1, addr := x.1, len := x.2, leaf := none })
      let v := u.putBlock n f 1 plan.length (rs ++ olds) ws out keep
      .placed (if f.next + 1 < plan.length || !e.stores then v else v.releaseRead n e)

/-- Placing the next block of the core, if it has one to place and a slot for it (R289). -/
def State.placeNext (s : State) (n : Nat) : PlaceOut :=
  match (s.core n).nextFop with
  | none => .none_ s
  | some f =>
    match f.kind with
    | .mcopy src dst cnt _ sup =>
      if cnt ≤ f.next then .placed (s.modCore n (fun c => c.modFop f.id (fun f => { f with placed := true })))
      else s.placeMcopy n f src dst cnt sup
    | .setter id =>
      match (s.core n).entry id with
      | none => .none_ (s.modCore n (fun c => { c with fops := c.fops.filter (fun x => x.id ≠ f.id) }))
      | some e => if e.plan.length ≤ f.next then .placed (s.modCore n (fun c => c.modFop f.id (fun f => { f with placed := true })))
        else s.placeRows n f e

/-- The first marked word that a tst would write into a page with PR = 1, by its address as named (R312). -/
def prMark : List Run → List (Word × Bool) → Option W64
  | [], _ => none
  | r :: rs, ws =>
    match (if r.leaf.isSome then ((ws.take r.len).zipIdx.find? (fun e => e.1.2)).map (fun e => r.va + BitVec.ofNat 64 e.2) else none) with
    | some a => some a
    | none => prMark rs (ws.drop r.len)

/-- The places a block of an mcopy reaches on one side (R139): words here by their physical address, words of another module as named. -/
def ranges (rs : List Run) : List (Nat × Nat) := rs.map (fun r => (if r.remote then r.addr.toNat else r.pa 0, r.len))

/-- Whether two lists of ranges share a word. -/
def rangesMeet (a b : List (Nat × Nat)) : Bool := a.any (fun x => b.any (fun y => decide (x.1 < y.1 + y.2) && decide (y.1 < x.1 + x.2)))

/-- Whether an mcopy, with the words of a block beside those it has read and written, reads a word that it writes (R139). -/
def FOp.overlaps (f : FOp) (b : Block) : Bool := rangesMeet (ranges b.srcs ++ f.rd) (ranges b.dsts ++ f.wr)

/-- Free values over the words here that an mcopy has written: they are undefined once it has read a word that it writes (R139). Their marks
stay. -/
def State.scrambleRanges (s : State) (l : List (Nat × Nat)) : State :=
  let as_ := (l.filter (fun x => decide (x.1 < 2 ^ 44))).flatMap (fun x => addrs x.1 x.2)
  let s1 := { s with freeCtr := s.freeCtr + as_.length }
  as_.zipIdx.foldl (fun (t : State) e => t.setWord e.1 ((Config.freeValue (s.freeCtr + e.2)).truncate 16)) s1

/-- The words that a block of an mcopy writes: those it read, or free values in an mcopy that reads a word that it writes; the words written
before are then free too (R139). -/
def State.copyWords (s : State) (f : FOp) (b : Block) (ws : List (Word × Bool)) : State × List (Word × Bool) :=
  if f.overlaps b then
    let s0 := s.scrambleRanges f.wr
    let s1 := { s0 with freeCtr := s0.freeCtr + ws.length }
    (s1, ws.zipIdx.map (fun e => ((Config.freeValue (s0.freeCtr + e.2)).truncate 16, e.1.2)))
  else (s, ws)

/-- The words that a block of a store writes, with the bytes it keeps of the words it replaces in part. -/
def State.mergeOut (s : State) (b : Block) (ws : List (Word × Bool)) : List (Word × Bool) :=
  if b.keep = [] then b.out
  else
    let olds : List (W64 × (Word × Bool)) := (b.srcs.flatMap (fun r => (List.range r.len).map (fun i => r.addr + BitVec.ofNat 64 i))).zip ws
    let places := b.dsts.flatMap (fun r => (List.range r.len).map (fun i =>
      if r.remote then ((olds.find? (fun o => o.1 == r.addr + BitVec.ofNat 64 i)).map (·.2)).getD (0, false)
      else (s.word (r.pa i), s.poisoned (r.pa i))))
    (places.zip (b.out.zip b.keep)).map (fun e => keepBytes e.2.2 e.1 e.2.1)

/-- The words a block here reads: those of its sources, and those it keeps bytes of. -/
def Block.reads (b : Block) : List Nat :=
  localAddrs b.srcs ++ (if b.keep = [] then [] else localAddrs b.dsts)

/-- The end of a block: its slot frees, and its operation goes on. -/
def State.blockEnd (s : State) (n : Nat) (b : Block) (k : FKind) : State :=
  let t := s.modCore n (fun c => { c with blocks := c.blocks.filter (fun x => x.id ≠ b.id) })
  match k with
  | .mcopy _ _ _ _ _ => t.fopCheck n b.fop
  | .setter id => t.rowDone n id b.start

/-- Run-ahead data of words that a feeder write of the core reaches is discarded (R295): runAhead lists the blocks fetched by their first
word's address / 2,048. -/
def State.dropAhead (s : State) (n : Nat) (as_ : List Nat) : State :=
  if as_ = [] then s else s.modCore n (fun c => { c with runAhead := c.runAhead.filter (fun b => !as_.any (fun a => a / 2048 == b)) })

/-- What a block does with the words it read: the words it writes, and the state in which a load has taken its own. -/
def State.blockEffect (s : State) (n : Nat) (b : Block) (f : FOp) (e : Option SEntry) (ws : List (Word × Bool)) :
    State × List (Word × Bool) :=
  match f.kind, e with
  | .mcopy _ _ _ _ _, _ =>
    let (t, out) := s.copyWords f b ws
    (t.modCore n (fun c => c.modFop f.id (fun f => { f with rd := ranges b.srcs ++ f.rd, wr := ranges b.dsts ++ f.wr })), out)
  | .setter _, some e => if e.stores then (s, s.mergeOut b ws) else (s.stageBlock n e (e.plan.getD b.start []) ws, [])
  | .setter _, none => (s, [])

/-- A block whose words are all here is performed: its writes wait for page copies, step commands and the host's snoops, and those to other
modules for their answers (R292, R309 to R312, R391, R470). Where rows of one tst overlap inside a block, the later row's words stay (R224; assumption log
155). -/
def State.performBlock (s : State) (n : Nat) (b : Block) (f : FOp) (e : Option SEntry) : State :=
  let as_ := localAddrs (b.srcs ++ b.dsts)
  if (leafs (b.srcs ++ b.dsts)).any (fun x => s.stepHolds x.entry) then s
  else match b.dsts.find? (fun r => r.leaf.any (fun x => s.logFull x.at_ x.entry)) with
  | some r => (s.err .mould 3).failBlock n b .protection r.va
  | none =>
  if (leafs b.dsts).any (fun x => s.guards x.entry) then s
  else if s.biHeld (inList as_) then s.biAsk (inList as_)
  else
    let s1 := s.touchAll b.reads
    let (s2, out) := s1.blockEffect n b f e (s1.srcWords b.got b.srcs 0)
    let bad := match f.kind with
      | .setter _ => prMark b.dsts out
      | .mcopy _ _ _ _ _ => none
    match bad with
    | some a => s1.failBlock n b .poison a
    | none =>
      let rem := remoteWrites b.dsts out
      if rem ≠ [] ∧ !b.wrote then
        match sendAll (.block n b.id) rem s1 with
        | none => s
        | some t => t.modCore n (fun c => { c with blocks := c.blocks.map (fun x => if x.id = b.id then { x with wrote := true } else x) })
      else
        let psn := (prMark b.dsts out).isSome
        let s3 := s2.writeMarked (localWrites b.dsts out)
        let s4 := if psn then s3.setFldReg rStep 28 1 1 else s3
        (s4.dropAhead n (localAddrs b.dsts)).blockEnd n b f.kind

/-- Whether an operation is a drain into a job: its blocks complete with its contribution (R278, R288). -/
def SOp.isDrj : SOp → Bool
  | .accDrj _ _ _ _ _ _ => true
  | _ => false

/-- FEEDER_BLOCK_COMPLETE for a block (R292): nothing while it waits for answers or for an earlier accumulating writer. -/
def State.blockComplete (s : State) (n id : Nat) : State :=
  let c := s.core n
  match c.blocks.find? (fun b => b.id == id) with
  | none => s
  | some b =>
    if b.tags ≠ [] then s
    else match b.fail with
    | some (x, a) => s.failBlock n b x a
    | none =>
      if missRuns b.srcs 0 b.got ≠ [] then s.askRemote n b
      else match c.fops.find? (fun f => f.id == b.fop) with
      | none => s
      | some f => match f.kind with
        | .mcopy _ _ _ _ _ => s.performBlock n b f none
        | .setter k => match c.entry k with
          | none => s
          | some e => if c.accWaits e || e.op.isDrj then s else s.performBlock n b f (some e)

/-! ## Placing as far as the slots go -/

/-- A fault found before a block of a Setter operation is placed suspends it (R234); placement then goes on with the next operation. -/
def State.placeStep (s : State) (n : Nat) : PlaceOut := match s.placeNext n with
  | .fault t f c a => match f.kind with
    | .setter id => .placed (t.suspend n id c a)
    | .mcopy _ _ _ _ _ => .fault t f c a
  | o => o

/-- Placing blocks until a slot is missing, nothing is left to place or an mcopy faults; k bounds the blocks. -/
def State.placeAll : Nat → Nat → State → PlaceOut
  | 0, _, s => .full s
  | k + 1, n, s => match s.placeStep n with
    | .placed t => State.placeAll k n t
    | o => o

/-- The mcopy that holds issue: PROG counts the words placed, and once the last is placed it completes (R136, R137). -/
def State.settleCopy (s : State) (n : Nat) : State :=
  let c := s.core n
  if c.hold ≠ some .mcopy then s
  else match c.fops.find? (fun f => !f.placed && !f.cut && (match f.kind with
      | .mcopy _ _ _ _ _ => true
      | .setter _ => false)) with
    | some f => s.setCore n { c with prog := BitVec.ofNat 32 f.next }
    | none =>
      let t := s.setCore n ({ c with hold := none }.retire c.hlen)
      (c.fops.map (fun f => f.id)).foldl (fun (t : State) id => t.fopCheck n id) t

/-- Placing blocks for Setter operations; what stops an mcopy that is held is left to its own placement. -/
def State.placeSetter (s : State) (n : Nat) : State :=
  (match State.placeAll 128 n s with
    | .placed t => t
    | .none_ t => t
    | .full t => t
    | .walk t _ _ _ => t
    | .fault t _ _ _ => t).settleCopy n

/-- A Setter operation's transfer enters the feeder from row k on. -/
def State.feed (s : State) (n id k : Nat) : State :=
  (s.modCore n (fun c => { (c.modEntry id (fun e => { e with base := k, rows := [] })) with
    fops := c.fops ++ [{ id := c.nextId, kind := .setter id, next := 0, placed := false, failed := false, cut := false, rd := [], wr := [] }],
    nextId := c.nextId + 1 })).placeSetter n

end Sys2Proof.Machine
end

