-- ==== Sys2Proof/Machine/Sys.lean ====
section
/-! DEFINITION. Sys2Proof/Machine/Sys.lean: the system instructions (R130 to R139): nop, trap, rte (R155, R156), movc, fence, tlbi, tend and
mcopy; and the release of a fence. -/

namespace Sys2Proof.Machine

/-- NOP: no effect (Table 4-19). -/
def execNop (n : Nat) (c : Cond) (s : State) : Host.Outcome State Fault Refusal := issue n c 2 (fun _ => true) [] (fun s => .done s) s

/-- trap completes and then raises TRAP with its code (R133). -/
def trapBody (n : Nat) (code : BitVec 8) (s : State) : Res :=
  .taken ((s.modCore n (fun c => c.retire 2)).enter n .trap { kind := 0, code := code.toNat, faddr := 0, opid := 0, tsw := 0 })

/-- TRAP (R133). -/
def execTrap (n : Nat) (c : Cond) (code : BitVec 8) (s : State) : Host.Outcome State Fault Refusal :=
  issue n c 2 (fun _ => true) [] (trapBody n code) s

/-! ## rte -/

/-- A frame as rte reads it (Table 5-7). -/
structure Frame where
  ws : List Word
deriving DecidableEq, Repr

/-- Values of a frame by word offset. -/
def Frame.w32 (f : Frame) (o : Nat) : W32 := BitVec.ofNat 32 (natOfWords ((f.ws.drop o).take 2))
def Frame.w64 (f : Frame) (o : Nat) : W64 := BitVec.ofNat 64 (natOfWords ((f.ws.drop o).take 4))
def Frame.sr (f : Frame) : W32 := f.w32 0
def Frame.ds (f : Frame) : Bool := (f.w32 2).getLsbD 10
def Frame.pc (f : Frame) : W64 := f.w64 4
def Frame.dspc (f : Frame) : W64 := f.w64 8
def Frame.opid (f : Frame) : W32 := f.w32 0x14
def Frame.ls (f : Frame) (i : Nat) : W64 := f.w64 (0x20 + 4 * i)
def Frame.le (f : Frame) (i : Nat) : W64 := f.w64 (0x30 + 4 * i)
def Frame.lc (f : Frame) (i : Nat) : W32 := f.w32 (0x40 + 2 * i)

/-- The top of the entry record as rte takes it: EP, and whether the frame is on the escalation stack (R155). -/
def Core.topRec (c : Core) : Bool × Bool := match c.record with
  | [] => (true, false)
  | r :: _ => (r.ep, r.esc)

/-- Where rte finds its frame. -/
def Core.frameAt (c : Core) : W64 := if c.topRec.2 then c.escSp else c.areg 7

/-- The check of a frame that fails first, with FADDR (R155). -/
def State.frameFault (s : State) (ep : Bool) (f : Frame) : Option (Cause × W64) :=
  let la := fld f.sr 24 4
  let lh := fld f.sr 20 4
  if f.sr.getLsbD 31 && !ep then some (.privilege, 0)
  else if !laLhOk la lh || !endsOk la f.ls f.le || !nestOk la lh f.ls f.le ||
      (List.range (levels la)).any (fun i => (s.fetchFault (f.le i)).isSome) then some (.illegalOp, 0)
  else match s.fetchFault f.pc with
    | some c => some (c, f.pc)
    | none => if f.ds then (s.fetchFault f.dspc).map (fun c => (c, f.dspc)) else none

/-- The core after rte restores a frame (R155, R157). -/
def Core.restored (c : Core) (at_ : W64) (f : Frame) : Core :=
  let c1 := { c with prog := 0, slot := false }.tick
  let put4 (g : Nat → W64) : Store W64 := putRun 0 [] 0 ((List.range 4).map g)
  let c2 := { c1 with sr := f.sr &&& 0xCFFF00FF, prog := f.w32 0x10, vl := f.w32 0x16 &&& 0x1FFF, vtype := f.w32 0x18 &&& 0x80000C3F,
                      ls := put4 f.ls, le := put4 f.le, lc := putRun 0 [] 0 ((List.range 4).map f.lc), record := c.record.drop 1,
                      pc := pcOf f.pc, resumed := f.w32 0x10 ≠ 0, redirect := if f.ds then some (pcOf f.dspc) else none, runAhead := [] }
  if c.topRec.2 then { c2 with escSp := at_ + 80 } else { c2 with a := Sys2Proof.Machine.put 0 c2.a 7 (at_ + 80) }

/-- Releasing the suspended operation whose first tile is t, if there is one: it goes on at row ROWS (R238). One whose first tile is another is not
released (assumption log 140). -/
def State.resumeOp (s : State) (n t : Nat) : State :=
  match (s.core n).setter.find? (fun e => e.susp && e.op.tiles.head? == some t) with
  | none => s
  | some e => (s.modCore n (fun c => c.modEntry e.id (fun e => { e with phase := .fired }))).feed n e.id e.done

/-- A failed rte: escalation with reason RTE, whatever SR.MASK holds (R156). -/
def State.rteFail (s : State) (n : Nat) (cause : Cause) (faddr : W64) : State :=
  let (t, w) := s.entryView n
  t.escalate n w cause { kind := 3, code := 0, faddr := faddr, opid := 0, tsw := 0 } 5

/-- rte (R155). A failed rte escalates under R156 rather than faulting under R116, so none of its checks goes before an entry that waits at its boundary
(R145; assumption log 153). -/
def rteBody (n : Nat) (s : State) : Res :=
  let c := s.core n
  let at_ := c.frameAt
  if at_.toNat % 4 ≠ 0 then .taken (s.rteFail n .misaligned at_)
  else if !s.inWindow at_ 80 then .taken (s.rteFail n .busError at_)
  else
    let p := physOf n (localOf at_)
    let s1 := s.touchAll (addrs p 80)
    match (List.range 80).find? (fun i => s1.poisoned (p + i)) with
    | some i => .taken (s1.rteFail n .poison (at_ + BitVec.ofNat 64 i))
    | none =>
      let f : Frame := { ws := s1.words p 80 }
      match s1.frameFault c.topRec.1 f with
      | some (x, a) => .taken (s1.rteFail n x a)
      | none =>
        let s2 := s1.setCore n (c.restored at_ f)
        .taken (if f.opid.getLsbD 31 then s2.resumeOp n (fld f.opid 0 6) else s2)

/-- RTE (R97, R155). -/
def execRte (n : Nat) (c : Cond) (s : State) : Host.Outcome State Fault Refusal :=
  issue n c 2 Core.notInSlot [] (privileged n (rteBody n)) s

/-! ## movc -/

/-- Check 1 of a movc: a control register of Table 3-3 or 5-2 and an operand of its width (R130, R143). -/
def movcLegal (crn : BitVec 6) (k : BitVec 2) (rg : BitVec 4) : Bool :=
  match crInfo crn.toNat, movcReg k rg with
  | some (wide, _), some r => wide == movcWide r
  | _, _ => false

/-- Whether the level of a core may use a control register (R131, R143). -/
def Core.mayCr (c : Core) (crn : BitVec 6) : Bool := c.sup || (match crInfo crn.toNat with
  | some (_, user) => user
  | none => true)

/-- A movc read (R130, R131). -/
def movcReadBody (n : Nat) (crn : BitVec 6) (k : BitVec 2) (rg : BitVec 4) (s : State) : Res :=
  if !(s.core n).mayCr crn then .fault .privilege 0
  else match movcReg k rg with
    | some r => coreOnly n (fun c => c.movcPut (s.crGet n crn.toNat) r) s
    | none => .fault .illegalOp 0

/-- MOVC_READ (R130). -/
def execMovcRead (n : Nat) (c : Cond) (crn : BitVec 6) (k : BitVec 2) (rg : BitVec 4) (s : State) : Host.Outcome State Fault Refusal :=
  issue n c 2 (fun _ => movcLegal crn k rg) [] (movcReadBody n crn k rg) s

/-- The loop registers with the writes in flight delivered. -/
def Core.loopRegs (c : Core) : Core := c.flight.foldl (fun c f => match f.ref with
  | .ls _ => c.deliver f.ref f.val
  | .le _ => c.deliver f.ref f.val
  | _ => c) c

/-- Whether a write of a loop register of an active level leaves the nesting of R99, with the earlier movc writes that are still in
flight counted as done (R104; assumption log 109). -/
def Core.loopWriteOk (c : Core) (crn : Nat) (v : W64) : Bool :=
  let d := c.loopRegs
  if 4 ≤ crn ∧ crn ≤ 7 then levels c.la ≤ crn - 4 || nestOk c.la c.lh (fun i => if i = crn - 4 then v else d.lsr i) d.ler
  else if 8 ≤ crn ∧ crn ≤ 0xB then levels c.la ≤ crn - 8 || nestOk c.la c.lh d.lsr (fun i => if i = crn - 8 then v else d.ler i)
  else true

/-- A movc write of a value (R104, R130, R131): SR at distance 1, every other register at distance 3 (Table 3-8). -/
def movcWriteBody (n : Nat) (crn : BitVec 6) (k : BitVec 2) (rg : BitVec 4) (s : State) : Res :=
  let c := s.core n
  if !c.mayCr crn then .fault .privilege 0
  else match movcReg k rg with
    | none => .fault .illegalOp 0
    | some r =>
      let v := c.movcGet r
      if crn = 0 then
        let m := if c.sup then srMask else 0xFF
        if c.sup && !laLhOk (fld v 24 4) (fld v 20 4) then .fault .illegalOp 0
        else coreOnly n (fun c => c.sendSr 1 m (v.truncate 32)) s
      else if !c.loopWriteOk crn.toNat v then .fault .illegalOp 0
      else coreOnly n (fun c => c.send 3 (crRef crn.toNat) v) s

/-- MOVC_WRITE (R130): a write of EDEPTH is illegal (R143). -/
def execMovcWrite (n : Nat) (c : Cond) (crn : BitVec 6) (k : BitVec 2) (rg : BitVec 4) (s : State) : Host.Outcome State Fault Refusal :=
  issue n c 2 (fun _ => movcLegal crn k rg && crn != 0x22) [] (movcWriteBody n crn k rg) s

/-! ## fence, tlbi, tend -/

/-- Whether every feeder transfer that the core issued has completed (Table 4-21, R137), and every Setter operation (R142). -/
def Core.feederDone (c : Core) : Bool :=
  c.blocks.isEmpty && c.fops.all (fun f => f.cut) && c.setter.all (fun e => e.susp || e.op.unit ≠ .feeder)
def Core.setterDone (c : Core) : Bool := c.setter.all SEntry.susp

/-- Whether a store of core n still waits to be performed at another module: a doorbell or Comb operation whose answer has not come, or
that has not found a tag (R351, R380, R392). Every other MMIO and Comb-window store is performed as it issues. -/
def State.storesOut (s : State) (n : Nat) : Bool :=
  let mine (o : ReqOwner) : Bool := match o with
    | .posted k _ => k == n
    | _ => false
  s.requests.any (fun r => mine r.owner) || s.unsent.any (fun u => mine u.owner)

/-- Whether the conditions of a fence hold (Table 4-21). -/
def State.fenceOk (s : State) (n : Nat) (mask : BitVec 4) : Bool :=
  (!mask.getLsbD 0 || (s.core n).feederDone) && (!mask.getLsbD 1 || (s.core n).setterDone) && (!mask.getLsbD 2 || !s.storesOut n)

/-- A fence that completes: one with FD or SD discards run-ahead data (R295), one with IF lets fetch see every earlier store. -/
def Core.fenced (c : Core) (mask : BitVec 4) : Core :=
  { c with runAhead := if mask.getLsbD 0 || mask.getLsbD 1 then [] else c.runAhead,
           unfetched := if mask.getLsbD 3 then [] else c.unfetched }

/-- fence (R132). -/
def fenceBody (n : Nat) (mask : BitVec 4) (s : State) : Res :=
  if s.fenceOk n mask then coreOnly n (fun c => c.fenced mask) s
  else .held (s.modCore n (fun c => { c with hold := some (.fence mask) }))

/-- FENCE (R132). -/
def execFence (n : Nat) (c : Cond) (mask : BitVec 4) (s : State) : Host.Outcome State Fault Refusal :=
  issue n c 2 (fun _ => true) [] (fenceBody n mask) s

/-- The conditions of a held fence come to hold (R132). -/
def State.fenceRelease (s : State) (n : Nat) : State :=
  let c := s.core n
  match c.hold with
  | some (.fence mask) => if s.fenceOk n mask then s.setCore n ((Core.fenced { c with hold := none } mask).retire c.hlen) else s
  | _ => s

/-- FENCE_RELEASE (R132). -/
def execFenceRelease (n : Nat) (s : State) : Host.Outcome State Fault Refusal :=
  command (fun s => if n < 192 then s.fenceRelease n else s) s

/-- tlbi (R135, R295). KIND 0b01 looks at the local part of Aa alone (assumption log 134). -/
def tlbiBody (n : Nat) (kind : BitVec 2) (aa : Fin 8) (s : State) : Res :=
  coreOnly n (fun c => { c with
    runAhead := []
    tlb := if kind = 0 then [] else c.tlb.filter (fun e => !e.hits (localOf (c.areg aa.val))) }) s

/-- TLBI (R135). -/
def execTlbi (n : Nat) (c : Cond) (kind : BitVec 2) (aa : Fin 8) (s : State) : Host.Outcome State Fault Refusal :=
  issue n c 2 (fun _ => decide (kind.toNat < 2)) [] (privileged n (tlbiBody n kind aa)) s

/-- Whether tend may stand where it does: not in a delay slot, and not at either of the last two instructions of an active body, held or
not (R79, R134). -/
def Core.tendOk (c : Core) : Bool :=
  c.notInSlot && (List.range (levels c.la)).all (fun i => decide (c.ler i ≠ c.pc) && decide (c.ler i ≠ c.pc + 2))

/-- tend (R134, R323): the core goes to IDLE from RUN, and to ENDING from TASK. -/
def tendBody (n : Nat) (s : State) : Res :=
  .taken (s.modCore n (fun c =>
    let c1 := { c.retire 2 with tended := true }
    match c1.dst, c1.task with
    | .task, some t => { c1 with dst := .ending, task := some { t with endAs := some .tend } }
    | _, _ => { c1 with dst := .idle }))

/-- TEND (R134). -/
def execTend (n : Nat) (c : Cond) (s : State) : Host.Outcome State Fault Refusal := issue n c 2 Core.tendOk [] (tendBody n) s

/-! ## mcopy -/


/-- The feeder operation of an mcopy that issues: the one that an exception cut, going on at PROG, or a new one (R136, R137). -/
def Core.copyFop (c : Core) (k : FKind) : Core × FOp :=
  let p := c.prog.toNat
  let same (f : FOp) : Bool := f.cut && f.next == p && (match f.kind, k with
    | .mcopy a b x _ _, .mcopy a' b' x' _ _ => a == a' && b == b' && x == x'
    | _, _ => false)
  match (if p = 0 then none else c.fops.find? same) with
  | some f =>
    let g := { f with kind := k, next := p, cut := false }
    ({ c with fops := c.fops.filter (fun x => x.id ≠ f.id) ++ [g] }, g)
  | none =>
    let g : FOp := { id := c.nextId, kind := k, next := p, placed := false, failed := false, cut := false, rd := [], wr := [] }
    ({ c with fops := c.fops ++ [g], nextId := c.nextId + 1 }, g)

/-- The progress of an mcopy that stops before its end: PROG takes it, and the operation is cut (R137, R152). -/
def State.cutCopy (s : State) (n id : Nat) : State :=
  let c := s.core n
  let k := ((c.fops.find? (fun f => f.id == id)).map (fun f => f.next)).getD 0
  (s.setCore n { (c.modFop id (fun f => { f with cut := true })) with prog := BitVec.ofNat 32 k }).fopCheck n id

/-- An mcopy whose next block waits for a table walk: its progress is kept, and it issues again when the walk ends (R105, R305). -/
def State.walkCopy (s : State) (n id : Nat) (va : W64) (write : Bool) : State :=
  (s.cutCopy n id).modCore n (fun c => { c with hold := some (.walk va write) })

/-- mcopy (R136): it places its blocks, and holds for slots and for table walks (R105). One with no word left to place completes at once (R137,
R152). Where an entry waits at its boundary, the reach of the first block as named is judged whatever the feeder waits for (R145). -/
def mcopyBody (n : Nat) (ad as_ : Fin 8) (dn dm : Fin 16) (sg : Bool) (s : State) : Res :=
  let c := s.core n
  let cnt := (c.dpair dn.val).toNat
  let src := c.areg as_.val
  let dst := c.areg ad.val
  let k : FKind := .mcopy src dst cnt (if sg then some (c.dreg dm.val) else none) c.sup
  let (c1, f) := c.copyFop k
  if cnt ≤ c.prog.toNat then .done ((s.setCore n (c1.modFop f.id (fun f => { f with placed := true }))).fopCheck n f.id)
  else if c.peek then match (s.setCore n c1).placeMcopy n f src dst cnt c.sup with
  | .fault _ _ x a => if s.xlOn n c.sup then .held s else .first s x a
  | _ => .held s
  else match State.placeAll 128 n (s.setCore n c1) with
  | .walk t g va w => .held (t.walkCopy n g.id va w)
  | .fault t g x a =>
    let u := t.cutCopy n f.id
    if g.next = c.prog.toNat ∧ !s.xlOn n c.sup then .first u x a else .partial_ u x a
  | .none_ t => .done (t.fopCheck n f.id)
  | .placed t => .held ((t.modCore n (fun c => { c with hold := some .mcopy })).settleCopy n)
  | .full t => .held ((t.modCore n (fun c => { c with hold := some .mcopy })).settleCopy n)

/-- MCOPY (R136). -/
def execMcopy (n : Nat) (c : Cond) (ad as_ : Fin 8) (dn dm : Fin 16) (sg : Bool) (s : State) : Host.Outcome State Fault Refusal :=
  issue n c 2 (fun _ => evenReg dn.val) [] (mcopyBody n ad as_ dn dm sg) s

end Sys2Proof.Machine
end

