-- ==== Sys2Proof/Machine/FeederCmd.lean ====
section
/-! DEFINITION. Sys2Proof/Machine/FeederCmd.lean: the events of the feeder and of exceptions that no instruction raises: block placement and
completion (R289, R292), the end of a table walk (R303, R305), run-ahead (R294), interrupts and deferred faults (R141, R145 to R148). -/

namespace Sys2Proof.Machine

/-- A slot frees, and the next held block of the core is placed (R289); the fault of a held mcopy is taken on it (R137). -/
def State.blockPlace (s : State) (n : Nat) : State :=
  match s.placeStep n with
  | .placed t => t.settleCopy n
  | .none_ t => t.settleCopy n
  | .full t => t
  | .walk t f va w => t.walkCopy n f.id va w
  | .fault t f c a => ((t.cutCopy n f.id).modCore n (fun c => { c with hold := none })).syncFault n c a

/-- FEEDER_BLOCK_PLACE (R289). -/
def execFeederBlockPlace (n : Nat) (s : State) : Host.Outcome State Fault Refusal :=
  command (fun s => if n < 192 then s.blockPlace n else s) s

/-- FEEDER_BLOCK_COMPLETE (R292). -/
def execFeederBlockComplete (n id : Nat) (s : State) : Host.Outcome State Fault Refusal :=
  command (fun s => if n < 192 then s.blockComplete n id else s) s

/-- The table walk a core's instruction waits for ends (R303, R305): with a leaf the instruction goes on, and issues before anything else
(R148); without one it faults. It waits for the host's answer to a snoop (R470). -/
def State.walkEnd (s : State) (n : Nat) : State :=
  match (s.core n).hold with
  | some (.walk va _) =>
    let w := s.missReads (s.tlbFind n (localOf va)) (s.xroot n) (localOf va)
    if s.biHeld (inList w) then s.biAsk (inList w)
    else match s.coreWalk n (localOf va) with
    | (t, .ok _) => t.modCore n (fun c => { c with hold := none, walked := true })
    | (t, .error x) => (t.modCore n (fun c => { c with hold := none })).syncFault n x va
  | _ => s

/-- TABLE_WALK (R303). -/
def execTableWalk (n : Nat) (s : State) : Host.Outcome State Fault Refusal :=
  command (fun s => if n < 192 then s.walkEnd n else s) s

/-! ## Run-ahead -/

/-- The read stream that run-ahead may follow (R294): the operation of the youngest block, when it is a tld, a trest or an mcopy. The stream goes on
with the block after the last one: of a tld the rows that follow at its pitch, else the next consecutive words. The list holds the addresses of
the blocks that follow, and the last address before them and the privilege come with it. -/
def Core.streamEnd (c : Core) : Option (W64 × Bool × List W64) :=
  let next (a : W64) : List W64 := (List.range 8).map (fun k => BitVec.ofNat 64 (a.toNat / 2048 * 2048 + 2048 * (k + 1)))
  match c.blocks.getLast? with
  | none => none
  | some b => match c.fops.find? (fun f => f.id == b.fop) with
    | none => none
    | some f => match f.kind with
      | .mcopy src _ n _ sup => let a := src + BitVec.ofNat 64 (n - 1); some (a, sup, next a)
      | .setter k => match c.entry k with
        | none => none
        | some e => match e.op with
          | .trest _ a => let x := a.an + 5151; some (x, true, next x)
          | .tld _ a =>
            let l := e.rowAt (e.total - 1)
            some (l.1 + BitVec.ofNat 64 (l.2 - 1), a.sup,
              (groupSegs (e.rowSegs e.total 512)).filterMap (fun b => b.head?.map (fun x => x.addr)))
          | _ => none

/-- The memory that run-ahead may read (R294). -/
def aheadOk (a : Nat) : Bool := match regionOf a with
  | .stacked => true | .lpddr => true | .shared _ => true | _ => false

/-- The physical block that holds an address that follows a stream, if run-ahead may fetch it: it never walks a table, and an untranslated
stream crosses no boundary of 65,536 words from its last address (R294, R295). -/
def State.aheadBlock (s : State) (n : Nat) (last a : W64) (sup : Bool) : Option Nat :=
  let va := localOf a
  if !s.isHere last || !s.isHere a then none
  else if s.xlOn n sup then match s.tlbFind n va with
    | some e => let pa := e.pa va
                if e.entry.getLsbD 61 && aheadOk pa && s.tierOk pa then some (pa / 2048) else none
    | none => none
  else if aheadOk va && s.tierOk va && va / 65536 == localOf last / 65536 then some (va / 2048) else none

/-- RUN_AHEAD (R294): one more block beyond the end of a stream whose blocks are all placed, in a slot that no block needs. -/
def State.ahead (s : State) (n : Nat) : State :=
  let c := s.core n
  match c.nextFop, c.streamEnd with
  | none, some (last, sup, l) =>
    if c.runAhead.length < 8 ∧ c.blocks.length + c.runAhead.length < 64 then
      match (l[c.runAhead.length]?).bind (fun a => s.aheadBlock n last a sup) with
      | some b => s.setCore n { c with runAhead := c.runAhead ++ [b] }
      | none => s
    else s
  | _, _ => s

/-- RUN_AHEAD (R294). -/
def execRunAhead (n : Nat) (s : State) : Host.Outcome State Fault Refusal :=
  command (fun s => if n < 192 then s.ahead n else s) s

/-! ## Interrupts and deferred faults -/

/-- Whether a core stands at a boundary where a deferred fault or an interrupt can be taken (R145, R146, R148, R323): unmasked, fewer than
15 records, no delay slot to come, and no held load, walk or answer. -/
def State.canEnter (s : State) (n : Nat) : Bool :=
  let c := s.core n
  decide (n < 192) && (c.dst == .run || c.dst == .task) && !s.bitReg (rRun n) 0 && !c.stopReq && !c.resetting && !c.masked &&
  decide (c.record.length < 15) && c.redirect.isNone && !c.walked &&
  (match c.hold with
    | none => true
    | some (.fence _) => true
    | some (.wait released _ _) => !released
    | some .mcopy => true
    | _ => false)

/-- The lowest interrupt that is pending and enabled, by its bit of IPEND (R145). -/
def State.nextIrq (s : State) (n : Nat) : Option Nat :=
  (List.range 5).find? (fun i => (s.ipendWord n).getLsbD i && (s.core n).ien.getLsbD i)

/-- Whether a deferred fault or an interrupt waits that core n can take. -/
def State.entryWaits (s : State) (n : Nat) : Bool := s.canEnter n && (!(s.core n).deferred.isEmpty || (s.nextIrq n).isSome)

/-- The cause of an interrupt bit (Table 5-4). -/
def irqCause (i : Nat) : Cause :=
  if i = 0 then .preempt else if i = 1 then .doorbell else if i = 2 then .page else if i = 3 then .swi else .pyro

/-- Whether the instruction at the PC is a vector load or store that a return resumed and that has performed no element since: no interrupt
stops it yet (R194). -/
def State.vecResumed (s : State) (n : Nat) : Bool :=
  let hi := (s.fetchWord n (physOf n (localOf ((s.core n).pc + 1)))).toNat
  (s.core n).resumed && hi / 2 ^ 6 % 64 == 58

/-- Whether core n can take an interrupt at this boundary (R145, R194). -/
def State.irqReady (s : State) (n : Nat) : Bool :=
  (s.nextIrq n).isSome && s.canEnter n && (s.core n).deferred.isEmpty && !s.vecResumed n

/-- An enabled pending interrupt is taken (R145): a held instruction is abandoned (R148). -/
def State.interrupt (s : State) (n : Nat) : State :=
  match s.nextIrq n with
  | some i => (s.abandon n).enter n (irqCause i) { kind := 2, code := 0, faddr := 0, opid := 0, tsw := 0 }
  | none => s

/-- OPID of a deferred fault (Table 5-8). -/
def Deferred.opid (d : Deferred) : W32 :=
  BitVec.ofNat 32 (d.op.toNat * 2 ^ 28 + (match d.susp with
    | some t => 2 ^ 31 + t
    | none => 0))

/-- Whether core n can take a deferred fault at this boundary (R141, R145). -/
def State.deferredReady (s : State) (n : Nat) : Bool := !(s.core n).deferred.isEmpty && s.canEnter n

/-- The oldest waiting deferred fault is taken (R141, R145). -/
def State.deferredEntry (s : State) (n : Nat) : State :=
  match (s.core n).deferred with
  | d :: r =>
    let t := (s.abandon n).modCore n (fun c => { c with deferred := r })
    t.enter n d.cause { kind := 1, code := 0, faddr := d.faddr, opid := d.opid,
                        tsw := match d.susp with
                          | some k => (t.core n).tswOf k
                          | none => 0 }
  | [] => s


end Sys2Proof.Machine
end

