-- ==== Sys2Proof/Machine/Vec.lean ====
section
/-! DEFINITION. Sys2Proof/Machine/Vec.lean: what every vector instruction shares (R159 to R171, R192): element types and groups, elements and
poison marks of registers, the mask, acceptance by a unit, early reads and the delivery of results. A vector instruction takes its whole effect
as it issues; VECTOR_COMPLETE frees its unit. -/

namespace Sys2Proof.Machine

/-! ## VTYPE and groups -/

/-- ET, SEW, the floating-point format of ET, G, FXR and VLMAX (R159, R160, Table 6-1). -/
def Core.et (c : Core) : Nat := fld c.vtype 0 4
def etSew (et : Nat) : Nat := if et = 0 then 8 else if et = 1 ∨ et = 4 ∨ et = 5 then 16 else if et = 2 ∨ et = 6 then 32 else 64
def etFmt (et : Nat) : Option Fmt :=
  if et = 4 then some fp16 else if et = 5 then some bf16 else if et = 6 then some fp32 else if et = 7 then some fp64 else none
def Core.sew (c : Core) : Nat := etSew c.et
def Core.grp (c : Core) : Nat := 2 ^ fld c.vtype 4 2
def Core.fxr (c : Core) : Nat := fld c.vtype 10 2
def Core.vlmax (c : Core) : Nat := 4096 * c.grp / c.sew
def Core.vlen (c : Core) : Nat := c.vl.toNat

/-- The registers of a group, whether a group may start at a register, and whether two groups overlap (R161). -/
def regsOf (v k : Nat) : List Nat := (List.range k).map (fun i => v + i)
def grpOk (v g : Nat) : Bool := v % g == 0 && decide (v + g ≤ 32)
def apart (a ka b kb : Nat) : Bool := decide (a + ka ≤ b) || decide (b + kb ≤ a)

/-- The checks of R161 that every vector instruction makes: ET is not reserved, and VL does not exceed VLMAX. -/
def Core.vOk (c : Core) : Bool := decide (c.et < 8) && decide (c.vlen ≤ c.vlmax)

/-- An instruction masked by V0 must not write V0 (R164). -/
def maskOk (m : Bool) (vd : Nat) : Bool := !m || vd != 0

/-! ## Elements -/

/-- Element i of width w in the group at register v (R159), and its poison mark (R192). -/
def Core.vel (c : Core) (v w i : Nat) : Nat :=
  if w < 16 then elAt (look 0 c.v (256 * v + i * w / 16)).toNat w (i % (16 / w))
  else natOfWords (lookRun 0 c.v (256 * v + i * w / 16) (w / 16))
def Core.vmark (c : Core) (v w i : Nat) : Bool := look false c.vpsn (64 * v + i * w / 64)

/-- Mask bit i of a register and its mark (R164). -/
def Core.mbit (c : Core) (v i : Nat) : Bool := c.vel v 1 i == 1
def Core.mmark (c : Core) (v i : Nat) : Bool := c.vmark v 1 i

/-- An element an instruction writes. -/
structure VEl where
  reg  : Nat
  w    : Nat
  i    : Nat
  val  : Nat
  mark : Bool
deriving DecidableEq, Repr

/-- Writing the bits of an element. -/
def Core.putEl (c : Core) (e : VEl) : Core :=
  let k := 256 * e.reg + e.i * e.w / 16
  if e.w < 16 then { c with v := put 0 c.v k (setFld (look 0 c.v k) (e.w * (e.i % (16 / e.w))) e.w e.val) }
  else { c with v := putRun 0 c.v k (wordsOfNat (e.w / 16) e.val) }

/-- The element group an element lies in. -/
def VEl.group (e : VEl) : Nat := 64 * e.reg + e.i * e.w / 64

/-- Whether elements rewrite every element of a group. -/
def wholeGroup (es : List VEl) (g : Nat) : Bool :=
  let mine := es.filter (fun e => e.group == g)
  decide (64 ≤ ((mine.map (fun e => e.i)).dedup.map (fun _ => (mine.map (fun e => e.w)).headD 0)).sum)

/-- Writing elements: each group's mark is set if an element written in it is marked, and kept unless every element of the group was
rewritten (R192). -/
def Core.writeEls (c : Core) (es : List VEl) : Core :=
  let c1 := es.foldl Core.putEl c
  let one (c : Core) (g : Nat) : Core :=
    if es.any (fun e => e.group == g && e.mark) then { c with vpsn := put false c.vpsn g true }
    else if wholeGroup es g then { c with vpsn := put false c.vpsn g false } else c
  (es.map VEl.group).dedup.foldl one c1

/-- Writing elements of core n: a group that is written in part is read for it, one that is rewritten is free of error (R494, R498). -/
def State.vecWrite (s : State) (n : Nat) (es : List VEl) : State :=
  let touched (g : Nat) : Bool := es.any (fun e => e.group == g)
  ((s.regReads (inVec n (fun g => touched g && !wholeGroup es g))).over (inVec n (fun g => touched g && wholeGroup es g))).modCore n
    (fun c => c.writeEls es)

/-- The elements an instruction performs: below VL, active under the mask, and from PROG on (R152, R164). -/
def Core.lanes (c : Core) (m : Bool) : List Nat :=
  (List.range c.vlen).filter (fun i => decide (c.prog.toNat ≤ i) && (!m || c.mbit 0 i))

/-- The mark of the governing mask bit. -/
def Core.gmark (c : Core) (m : Bool) (i : Nat) : Bool := m && c.mmark 0 i

/-- The scalar operand of a vector instruction, and whether its register is legal for SEW (R165): a reserved ET gives no SEW. -/
def Core.vscalar (c : Core) (d : Nat) : Nat :=
  if c.sew = 8 then (c.dreg d).toNat % 256 else if c.sew = 16 then (c.dreg d).toNat else if c.sew = 32 then (c.dpair d).toNat
  else (c.dquad d).toNat
def Core.vscalarOk (c : Core) (d : Nat) : Bool :=
  decide (8 ≤ c.et) || (if c.sew = 32 then evenReg d else if c.sew = 64 then quadReg d else true)

/-! ## Acceptance and delivery -/

/-- Whether a unit accepts an instruction that names some registers (R168). -/
def Core.vAccept (c : Core) (u : VUnit) (serial : Bool) (names : List Nat) : Bool :=
  !c.vserial && !c.vbusy.contains u && (!serial || c.vbusy.isEmpty) && !meets names c.vtv

/-- The unit takes an instruction: it is busy until it completes, and what the instruction writes is delivered at its distance (R166). Every register of
its destination group counts as produced, whether or not an element of it is written (R167; assumption log 154). -/
def Core.vRuns (c : Core) (u : VUnit) (dist : Nat) (serial : Bool) (writes : List Nat) : Core :=
  { c with vbusy := u :: c.vbusy, vserial := serial, vpend := c.vpend ++ [{ left := dist, regs := writes, unit := u }] }

/-- The same for an instruction that performs the elements below VL: with VL = 0 it completes at once (R162). -/
def Core.vTook (c : Core) (u : VUnit) (dist : Nat) (serial : Bool) (writes : List Nat) : Core :=
  if c.vlen = 0 then c else c.vRuns u dist serial writes

/-- Setting VTYPE.SAT (R183). -/
def Core.setSat (c : Core) (b : Bool) : Core := if b then { c with vtype := setBit c.vtype 31 true } else c

/-- The registers that an instruction reads before their producer's distance has passed (R167). -/
def Core.earlyRegs (c : Core) (reads : List Nat) : List Nat := reads.filter (fun r => c.vpend.any (fun p => p.regs.contains r))

/-- Whether the register that holds element i is read too early. -/
def Core.earlyEl (c : Core) (v w i : Nat) : Bool := !(c.earlyRegs [v + i * w / 4096]).isEmpty

/-- Free values that one early reader uses: 256 words and 64 marks a register. -/
def scrambleSpan : Nat := 320 * 32

/-- The core as an early reader sees it: the registers read too early hold free values (R167). -/
def Core.scramble (c : Core) (ctr : Nat) (regs : List Nat) : Core :=
  let one (c : Core) (r : Nat) : Core :=
    c.setV r ((List.range 256).map (fun w => (Config.freeValue (ctr + 320 * r + w)).truncate 16))
      ((List.range 64).map (fun g => (Config.freeValue (ctr + 320 * r + 256 + g)).getLsbD 0))
  regs.foldl one c

/-- An instruction of core n reads vector registers: the errors of their element groups are found (R495). -/
def State.vecReads (s : State) (n : Nat) (regs : List Nat) : State := s.regReads (inVec n (fun g => regs.contains (g / 64)))

/-- What core n sees of the registers that it reads, and the state after the free values it used. -/
def State.vSeen (s : State) (n : Nat) (reads : List Nat) : Core × State :=
  let s := s.vecReads n reads
  let c := s.core n
  let er := c.earlyRegs reads
  if er.isEmpty then (c, s) else (c.scramble s.freeCtr er, { s with freeCtr := s.freeCtr + scrambleSpan })

/-- An instruction that writes vector elements: accepted or held (R168); it computes from what it sees (R167), and reads every source before
it writes an element (assumption log 135). -/
def vecEls (n : Nat) (u : VUnit) (dist : Nat) (serial : Bool) (reads writes : List Nat) (f : Core → List VEl × Bool) (s : State) : Res :=
  if !(s.core n).vAccept u serial (reads ++ writes) then .held s
  else
    let (c, t) := s.vSeen n reads
    let (es, sat) := f c
    .done ((t.vecWrite n es).modCore n (fun c => (c.setSat sat).vTook u dist serial writes))

/-- A vector instruction of len words issues: enc is what its encoding must meet, legal what it must meet under VTYPE and VL (R84, R161). -/
def vecIssue (n : Nat) (k : Cond) (len : Nat) (enc legal : Core → Bool) (body : State → Res) (s : State) : Host.Outcome State Fault Refusal :=
  issue n k len enc [] (shaped n (fun c => c.vOk && legal c) body) s

/-- A vector instruction that no VLMAX of ET applies to: a reserved ET still faults (R161, R205). -/
def vecIssueAny (n : Nat) (k : Cond) (len : Nat) (enc legal : Core → Bool) (body : State → Res) (s : State) :
    Host.Outcome State Fault Refusal :=
  issue n k len enc [] (shaped n (fun c => decide (c.et < 8) && legal c) body) s

/-- V0 is read by a masked instruction. -/
def maskReg (m : Bool) : List Nat := if m then [0] else []

/-- The minimum and maximum of two values of an element type (R173, R184): signed integers, or floats with −0 below +0 and NaN giving the
other operand. -/
def fpLess (f : Fmt) (x y : Nat) : Bool :=
  match f.decode x, f.decode y with
  | .fin a 0 _, .fin b 0 _ => a && !b
  | a, b => a.lt b
def isNan (f : Fmt) (x : Nat) : Bool := f.decode x == .nan
def fpMin (f : Fmt) (x y : Nat) : Nat :=
  if isNan f x then (if isNan f y then f.canon else y) else if isNan f y then x else if fpLess f y x then y else x
def fpMax (f : Fmt) (x y : Nat) : Nat :=
  if isNan f x then (if isNan f y then f.canon else y) else if isNan f y then x else if fpLess f x y then y else x

/-- An integer as a code of w bits, and the sum of two elements of an element type, rounded once (R179, R184). -/
def codeOf (w : Nat) (x : Int) : Nat := (x % 2 ^ w).toNat
def vSum (et x y : Nat) : Nat := match etFmt et with
  | some f => f.round ((f.decode x).add (f.decode y))
  | none => (x + y) % 2 ^ etSew et
def vMax (et x y : Nat) : Nat := match etFmt et with
  | some f => fpMax f x y
  | none => if signedOf (etSew et) x < signedOf (etSew et) y then y else x
def vMin (et x y : Nat) : Nat := match etFmt et with
  | some f => fpMin f x y
  | none => if signedOf (etSew et) y < signedOf (etSew et) x then y else x

end Sys2Proof.Machine
end

