-- ==== Sys2Proof/Machine/Tile.lean ====
section
/-! DEFINITION. Sys2Proof/Machine/Tile.lean: the issue of the tile instructions into the Setter: shapes (R219 to R221), loads and stores
(R223 to R229), slicing (R235), images (R239), moves and masks (R241 to R243). -/

namespace Sys2Proof.Machine

/-! ## Shapes and masks -/

/-- tcfg: the shape is checked at issue, and holds for every later operation (R219 to R221). -/
def tcfgBody (n t dn : Nat) (s : State) : Res :=
  let h := (s.core n).dpair dn
  if !shapeOk h then .fault .tileShape 0 else intoSetter n (fun _ => .tcfg t h) (fun c => c.setShape t h) s

/-- TCFG (R219). -/
def execTcfg (n : Nat) (c : Cond) (t : Fin 64) (dn : Fin 16) (s : State) : Host.Outcome State Fault Refusal :=
  issue n c 2 (fun _ => evenReg dn.val) [] (tcfgBody n t.val dn.val) s

/-- TZERO (R243). -/
def execTzero (n : Nat) (c : Cond) (t : Fin 64) (s : State) : Host.Outcome State Fault Refusal :=
  issue n c 2 (fun _ => true) [] (intoSetter n (fun _ => .tzero t.val) id) s

/-! ## Moves -/

/-- ROW of a move: the field holds ROW / 2 (R241); and its group under VTYPE.GRP. -/
def moveEnc (row : BitVec 6) : Bool := 2 * row.toNat % 4 == 0 && decide (2 * row.toNat + 4 ≤ 64)
def moveOk (row : BitVec 6) (v g : Nat) : Bool := decide (2 * row.toNat + 4 * g ≤ 64) && grpOk v g

/-- A tile operation that reads vector registers at issue, as a reader in VALU (R191). -/
def vecToSetter (n : Nat) (regs : List Nat) (o : Core → SOp) (s : State) : Res :=
  let c := s.core n
  if !c.room || !c.vAccept .valu false regs then .held s
  else
    let (seen, t) := s.vSeen n regs
    .done (t.modCore n (fun c => c.enterSetter (o seen)))

/-- TMV_VT (R241). -/
def execTmvVt (n : Nat) (c : Cond) (t : Fin 64) (va : Fin 32) (row : BitVec 6) (s : State) : Host.Outcome State Fault Refusal :=
  issue n c 2 (fun _ => moveEnc row) [] (shaped n (fun c => moveOk row va.val c.grp) (fun s =>
    let g := (s.core n).grp
    vecToSetter n (regsOf va.val g) (fun c => .tmvVt t.val (2 * row.toNat) (c.vwords va.val g) (c.vmarks va.val g)) s)) s

/-- TMASK (R243). -/
def execTmask (n : Nat) (c : Cond) (t : Fin 64) (va : Fin 32) (s : State) : Host.Outcome State Fault Refusal :=
  issue n c 2 (fun _ => true) []
    (vecToSetter n [va.val] (fun c => .tmask t.val (BitVec.ofNat 64 (natOfWords ((c.vwords va.val 1).take 4))) (c.vmark va.val 64 0))) s

/-- TMV_TV (R242). -/
def execTmvTv (n : Nat) (c : Cond) (t : Fin 64) (vd : Fin 32) (row : BitVec 6) (s : State) : Host.Outcome State Fault Refusal :=
  issue n c 2 (fun _ => moveEnc row) []
    (shaped n (fun c => moveOk row vd.val c.grp) (intoSetter n (fun c => .tmvTv vd.val t.val (2 * row.toNat) c.grp) id)) s

/-- TMETA (R242). -/
def execTmeta (n : Nat) (c : Cond) (t : Fin 64) (vd : Fin 32) (k : BitVec 2) (s : State) : Host.Outcome State Fault Refusal :=
  issue n c 2 (fun _ => true) [] (intoSetter n (fun _ => .tmeta vd.val t.val k.toNat) id) s

/-! ## Images -/

/-- tsave and trest: An is a multiple of 4 (R239). -/
def imageBody (n an : Nat) (o : TArgs → SOp) (s : State) : Res :=
  let a := (s.core n).areg an
  if a.toNat % 4 ≠ 0 then .fault .misaligned a else intoSetter n (fun _ => o (TArgs.at_ a)) id s

/-- TSAVE (R239). -/
def execTsave (n : Nat) (c : Cond) (t : Fin 64) (an : Fin 8) (s : State) : Host.Outcome State Fault Refusal :=
  issue n c 2 (fun _ => true) [] (privileged n (imageBody n an.val (.tsave t.val))) s

/-- TREST (R239). -/
def execTrest (n : Nat) (c : Cond) (t : Fin 64) (an : Fin 8) (s : State) : Host.Outcome State Fault Refusal :=
  issue n c 2 (fun _ => true) [] (privileged n (imageBody n an.val (.trest t.val))) s

/-! ## Loads and stores -/

/-- The code of a condition (Table 3-6). -/
def Cond.code : Cond → Nat
  | .al => 0 | .eq => 1 | .ne => 2 | .lt => 3 | .ge => 4 | .cs => 5 | .cc => 6 | .mi => 7
  | .p0 => 8 | .np0 => 9 | .p1 => 10 | .np1 => 11 | .p2 => 12 | .p3 => 13 | .ll => 14 | .nl => 15

/-- The first parcel of a tile load or store (Table 8-6). -/
def tileParcel (k : Cond) (lop : Nat) (t : Fin 64) (an : Fin 8) (dk : Fin 16) (up : Bool) : W32 :=
  BitVec.ofNat 32 (Cond.code k * 2 ^ 28 + 63 * 2 ^ 22 + lop * 2 ^ 16 + t.val * 2 ^ 10 + an.val * 2 ^ 7 + dk.val * 2 ^ 3 + (if up then 4 else 0))

/-- What the second parcel of tld must meet whatever the shape: no reserved format, zero where Table 8-6 says so and in the scale entry and
semaphore fields that the form does not use (R222), and the rules of slicing (R235). -/
def tldEnc (t : Nat) (p : W32) : Bool :=
  fld p 6 2 == 0 && !p.getLsbD 0 && decide (tldSrcf p < 13) && (p.getLsbD 21 || fld p 15 6 == 0) && (p.getLsbD 5 || fld p 1 4 == 0) &&
  (tldSl p == 0 || (tldSrcf p == 8 && !p.getLsbD 29 && !p.getLsbD 21 && decide (t + tldSl p ≤ 63)))

/-- The legality of tld for the shapes that an instruction which issues now sees (R221, R223, R225, R227, R235); without block scales the scale
array's fields are not used (R222). -/
def tldOk (c : Core) (t : Nat) (p : W32) : Bool :=
  let h := c.shape t
  let sl := tldSl p
  (!p.getLsbD 31 || (!shBs h && !shSp h)) && (shBs h || fld p 8 7 == 0) &&
  (if sl = 0 then loadOk (tldSrcf p) h (p.getLsbD 29) && (!p.getLsbD 21 || ((shFmt h == 1 || shFmt h == 2 || shFmt h == 5) && !shBs h))
   else (List.range (sl + 1)).all (fun i =>
    let x := c.shape (t + i)
    shFmt x == 0 && !shBs x && !shSp x && shNr x == shNr h && shNc x == shNc h))

/-- The same of tst (R222, R226): SCV has a meaning for six formats only. -/
def tstEnc (p : W32) : Bool :=
  fld p 5 7 == 0 && decide (tstDstf p < 13) && (p.getLsbD 25 || fld p 19 6 == 0) && (p.getLsbD 4 || fld p 0 4 == 0) &&
  (!p.getLsbD 25 || [1, 2, 3, 5, 0xB, 0xC].contains (tstDstf p))

/-- The legality of tst for the shape (R221, R223, R225, R226), and the scale array's fields of a row without scales (R222). -/
def tstOk (c : Core) (t : Nat) (p : W32) : Bool :=
  let h := c.shape t
  let els := tlEls h (p.getLsbD 31)
  (!p.getLsbD 31 || (!shBs h && !shSp h)) && (storeScales h p els != 0 || fld p 12 7 == 0) &&
  (storeKind (tstDstf p) h (p.getLsbD 30) (p.getLsbD 25) els).isSome

/-- What a load or store captures at issue, given where its second parcel names Ab, Dj and Dm (R223). -/
def Core.capture (c : Core) (p1 p2 : W32) (an dk ab dj dm : Nat) : TArgs :=
  { p1 := p1, p2 := p2, an := c.areg an, pitch := c.dpair dk, dj := c.dreg (fld p2 dj 4), dm := c.dreg (fld p2 dm 4),
    ab := c.areg (fld p2 ab 3), sup := c.sup }

/-- UP adds the span of the memory rows to An, at distance 1 (R223). -/
def Core.rowsUp (c : Core) (up : Bool) (t an dk : Nat) (p : W32) : Core :=
  if up then c.send 1 (.a an) (rowAddr (c.areg an) (c.dpair dk) (tlRows (c.shape t) (p.getLsbD 31))) else c

/-- TLD (R223). -/
def execTld (n : Nat) (c : Cond) (t : Fin 64) (an : Fin 8) (dk : Fin 16) (up : Bool) (w : BitVec 32) (s : State) :
    Host.Outcome State Fault Refusal :=
  issue n c 4 (fun _ => evenReg dk.val && tldEnc t.val w) []
    (shaped n (fun k => tldOk k t.val w)
      (intoSetter n (fun k => .tld t.val (k.capture (tileParcel c 0x20 t an dk up) w an.val dk.val 12 8 1))
        (fun k => k.rowsUp up t.val an.val dk.val w))) s

/-- TST, the tile store (R223). -/
def execTileStore (n : Nat) (c : Cond) (t : Fin 64) (an : Fin 8) (dk : Fin 16) (up : Bool) (w : BitVec 32) (s : State) :
    Host.Outcome State Fault Refusal :=
  issue n c 4 (fun _ => evenReg dk.val && tstEnc w) []
    (shaped n (fun k => tstOk k t.val w)
      (intoSetter n (fun k => .tst t.val (k.capture (tileParcel c 0x21 t an dk up) w an.val dk.val 16 12 0))
        (fun k => k.rowsUp up t.val an.val dk.val w))) s

end Sys2Proof.Machine
end

