-- ==== Sys2Proof/Machine/Array.lean ====
section
/-! DEFINITION. Sys2Proof/Machine/Array.lean: the issue of array and accumulator operations with the checks of Table 9-4 (R251 to R258, R264,
R266, R270, R273), and the events of the Setter: firing (R246), Shelf fills (R249), weight copies (R261), passes (R262), closes (R271) and
drains (R275 to R278). -/

namespace Sys2Proof.Machine

/-! ## Issue view -/

/-- Whether a group, as issue sees it, holds accumulator a (R266). -/
def Group.holdsI (g : Group) (a : Nat) : Bool :=
  g.openI && decide (g.baseI ≤ a) && decide (a ≤ g.baseI + (if g.treeI then clog2 g.totI else 0))

/-- Whether an open group of an array holds accumulator a. -/
def Arr.heldI (x : Arr) (a : Nat) : Bool := (List.range 8).any (fun g => (x.group g).holdsI a)

/-- The type of an accumulator as issue sees it: INT32 or FP32 (R264). -/
def Arr.typeI (x : Arr) (a : Nat) : Bool := look false x.accI a

/-- The rules of GV and G in a control word (Table 9-4): for GV = 1 the group is open with that base and takes another leaf; for GV = 0 no
open group holds the accumulator. -/
def Arr.gvOk (x : Arr) (gv : Bool) (g a : Nat) : Bool :=
  if gv then
    let y := x.group g
    y.openI && y.baseI == a && (!y.treeI || decide (y.usedI < y.totI))
  else !x.heldI a

/-- A writer of a group has issued: a TREE group has one more leaf. -/
def Arr.usedMore (x : Arr) (gv : Bool) (g : Nat) : Arr :=
  if gv then x.setGroup g { x.group g with usedI := (x.group g).usedI + 1 } else x

/-- Array q of a core changed by a function. -/
def Core.modArr (c : Core) (q : Nat) (f : Arr → Arr) : Core := c.setArr q (f (c.arr q))

/-- An operation that fails its checks faults with ILLEGAL_OP; then its rows must lie in local memory; then it enters the Setter (R270). -/
def arrIssue (n q : Nat) (ok : Bool) (rows : Option W64) (o : SOp) (after : Arr → Arr) (s : State) : Res :=
  if s.arrWidth n q = 0 ∨ !ok then .fault .illegalOp 0
  else match rows with
    | some a => .fault .busError a
    | none => intoSetter n (fun _ => o) (fun c => c.modArr q after) s

/-! ## mma -/

/-- The pairings of Table 9-1 by tile formats, with those that Bisque has (R68, R252). -/
def pairOk (glaze : Bool) (w a : Nat) : Bool :=
  if glaze then
    ((w == 4 || w == 5) && (a == 4 || a == 5)) || ((w == 1 || w == 2) && (a == 1 || a == 2)) || (w == 0 && a == 0) || (w == 3 && a == 3)
  else (w == 4 && a == 4) || (w == 0 && a == 0)

/-- The rules of SPX for the weight shape, its tile and the index tile's shape (R256). -/
def spxOk (hw hx : W32) (tw : Nat) : Bool :=
  shFmt hw == 3 && !shSp hw && decide (tw < 63) && shFmt hx == 0 && shNr hx == shNr hw && 4 * shNc hx == shNc hw

/-- The checks of an mma that name no accumulator (R252, R255, R256, R258). -/
def mmaShapes (glaze : Bool) (width : Nat) (dc : Word) (hw ha hx : W32) (tw : Nat) : Bool :=
  let sparse := mmaSpx dc || shSp hw
  !dc.getLsbD 15 && pairOk glaze (shFmt hw) (shFmt ha) && !shSp ha && (!mmaSpx dc || spxOk hw hx tw) && shNc ha == shNc hw &&
  (!sparse || shNr ha % 2 == 0) && decide (shNr hw ≤ width) && ((!dc.getLsbD 12 && !dc.getLsbD 13) || shFmt hw == 0)

/-- Whether an mma may issue (Table 9-4). -/
def State.mmaOk (s : State) (n q tw ta : Nat) (dc : Word) : Bool :=
  let c := s.core n
  let x := c.arr q
  let hw := c.shape tw
  mmaShapes s.glaze (s.arrWidth n q) dc hw (c.shape ta) (c.shape (tw + 1)) tw && x.typeI (mmaAcc dc) == (shFmt hw == 0) &&
  x.gvOk (mmaGv dc) (mmaG dc) (mmaAcc dc)

/-- MMA (R251). -/
def execMma (n : Nat) (c : Cond) (q : Fin 4) (tw ta : Fin 64) (dc : Fin 16) (s : State) : Host.Outcome State Fault Refusal :=
  issue n c 2 (fun _ => true) [] (fun s =>
    let w := (s.core n).dreg dc.val
    arrIssue n q.val (s.mmaOk n q.val tw.val ta.val w) none (.mma q.val tw.val ta.val w) (fun x => x.usedMore (mmaGv w) (mmaG w)) s) s

/-! ## Groups -/

/-- The accumulators a group would hold. -/
def groupAccs (a : Nat) (tree : Bool) (b : Nat) : List Nat := (List.range (if tree then clog2 b + 1 else 1)).map (fun i => a + i)

/-- Whether acc.open may issue, but for ACC_CONFLICT (Table 9-4). -/
def Arr.openOk (x : Arr) (g a : Nat) (tree z i : Bool) (b : Nat) : Bool :=
  !(x.group g).openI && (!tree || (z && decide (a + clog2 b ≤ 31))) && (z || x.typeI a == i)

/-- acc.open issues: the group is OPEN (Table 9-3), and with Z = 1 its accumulators take the type (R264). -/
def Arr.opened (x : Arr) (g a : Nat) (tree z i : Bool) (b : Nat) : Arr :=
  let y := if z then { x with accI := (groupAccs a tree b).foldl (fun (m : Store Bool) k => put false m k i) x.accI } else x
  y.setGroup g { y.group g with openI := true, baseI := a, treeI := tree, intI := i, totI := if tree then b else 0, usedI := 0 }

/-- acc.open (R266): Dn + 1 leaves in TREE order. -/
def accOpenBody (n q g a : Nat) (tree z i : Bool) (dn : Nat) (s : State) : Res :=
  let c := s.core n
  let x := c.arr q
  let b := (c.dreg dn).toNat + 1
  if s.arrWidth n q = 0 ∨ !x.openOk g a tree z i b then .fault .illegalOp 0
  else if (groupAccs a tree b).any x.heldI then .fault .accConflict 0
  else intoSetter n (fun _ => .accOpen q g a tree z i b) (fun c => c.modArr q (fun x => x.opened g a tree z i b)) s

/-- ACC_OPEN (R266). -/
def execAccOpen (n : Nat) (c : Cond) (q : Fin 4) (g : Fin 8) (acc : Fin 32) (tree z i : Bool) (dn : Fin 16) (s : State) :
    Host.Outcome State Fault Refusal :=
  issue n c 2 (fun _ => true) [] (accOpenBody n q.val g.val acc.val tree z i dn.val) s

/-- acc.close (R271): for issue the group is FREE at once (Table 9-3). -/
def accCloseBody (n q g : Nat) (s : State) : Res :=
  let y := ((s.core n).arr q).group g
  arrIssue n q (y.openI && (!y.treeI || decide (y.totI ≤ y.usedI))) none
    (.accClose q g y.baseI (if y.treeI then clog2 y.totI else 0)) (fun x => x.setGroup g { x.group g with openI := false }) s

/-- ACC_CLOSE (R271). -/
def execAccClose (n : Nat) (c : Cond) (q : Fin 4) (g : Fin 8) (s : State) : Host.Outcome State Fault Refusal :=
  issue n c 2 (fun _ => true) [] (accCloseBody n q.val g.val) s

/-- ACC_ZERO (R264). -/
def execAccZero (n : Nat) (c : Cond) (q : Fin 4) (acc : Fin 32) (i : Bool) (s : State) : Host.Outcome State Fault Refusal :=
  issue n c 2 (fun _ => true) [] (fun s =>
    arrIssue n q.val (!((s.core n).arr q.val).heldI acc.val) none (.accZero q.val acc.val i)
      (fun x => { x with accI := put false x.accI acc.val i }) s) s

/-! ## Drains and loads -/

/-- The first address of a row that leaves the local-memory window (Table 9-4). -/
def State.rowsOut (s : State) (an : W64) (pitch : W32) (len : Nat) : Option W64 :=
  ((List.range 64).map (rowAddr an pitch)).find? (fun a => !s.inWindow a len)

/-- ACC_DRT (R276). -/
def execAccDrt (n : Nat) (c : Cond) (q : Fin 4) (acc : Fin 32) (t : Fin 64) (dc : Fin 16) (s : State) : Host.Outcome State Fault Refusal :=
  issue n c 2 (fun _ => evenReg dc.val) [] (fun s =>
    let k := s.core n
    let x := k.arr q.val
    let w := k.dreg dc.val
    arrIssue n q.val (!w.getLsbD 0 && drDstf w == 0 && !x.heldI acc.val && drtOk (x.typeI acc.val) (k.shape t.val) w) none
      (.accDrt q.val acc.val t.val w (k.dreg (dc.val + 1))) id s) s

/-- ACC_DRM (R277). -/
def execAccDrm (n : Nat) (c : Cond) (q : Fin 4) (acc : Fin 32) (an : Fin 8) (dk dc : Fin 16) (s : State) :
    Host.Outcome State Fault Refusal :=
  issue n c 2 (fun _ => evenReg dc.val && evenReg dk.val) [] (fun s =>
    let k := s.core n
    let x := k.arr q.val
    let w := k.dreg dc.val
    arrIssue n q.val (!w.getLsbD 0 && !x.heldI acc.val && drmOk (x.typeI acc.val) w)
      (s.rowsOut (k.areg an.val) (k.dpair dk.val) (rowLen 64 (tileW (drDstf w))))
      (.accDrm q.val acc.val (k.areg an.val) (k.dpair dk.val) w (k.dreg (dc.val + 1))) id s) s

/-- ACC_DRJ (R278): of the control word only CLR and S may be set, and the job number has 12 bits (Table 9-7). -/
def execAccDrj (n : Nat) (c : Cond) (q : Fin 4) (acc : Fin 32) (dj dc : Fin 16) (s : State) : Host.Outcome State Fault Refusal :=
  issue n c 2 (fun _ => evenReg dc.val && evenReg dj.val) [] (fun s =>
    let k := s.core n
    let x := k.arr q.val
    let w := k.dreg dc.val
    arrIssue n q.val (fld w 2 13 == 0 && !w.getLsbD 0 && fld (k.dreg dj.val) 12 4 == 0 && !x.heldI acc.val && !x.typeI acc.val) none
      (.accDrj q.val acc.val (k.dreg dj.val) (k.dreg (dj.val + 1)) w (k.dreg (dc.val + 1))) id s) s

/-- ACC_LD (R279). -/
def execAccLd (n : Nat) (c : Cond) (q : Fin 4) (acc : Fin 32) (an : Fin 8) (dk dc : Fin 16) (s : State) :
    Host.Outcome State Fault Refusal :=
  issue n c 2 (fun _ => evenReg dk.val) [] (fun s =>
    let k := s.core n
    let x := k.arr q.val
    let w := k.dreg dc.val
    let gv := w.getLsbD 3
    let i := w.getLsbD 4
    arrIssue n q.val (fld w 5 11 == 0 && x.gvOk gv (fld w 0 3) acc.val && (!gv || (x.group (fld w 0 3)).intI == i))
      (s.rowsOut (k.areg an.val) (k.dpair dk.val) 128)
      (.accLd q.val acc.val (k.areg an.val) (k.dpair dk.val) w)
      (fun x => if gv then x.usedMore gv (fld w 0 3) else { x with accI := put false x.accI acc.val i }) s) s

/-! ## Shelf and cells -/

/-- A copy of tile t as it stands for entry e: a later writer that has entered ends what it serves. -/
def Core.holdTile (c : Core) (e : SEntry) (t : Nat) (idx : Option Nat) : Held :=
  let later := (c.setter.dropWhile (fun x => x.id ≠ e.id)).drop 1
  let writer (k : Nat) : Option Nat := (later.find? (fun x => x.op.writeT.contains k)).map (fun x => x.id)
  { t := t, since := e.id, upTo := writer t, tile := c.tile t, idx := idx.map c.tile, idxTo := idx.bind writer }

/-- What goes into the Shelf for entry e: tile t as it can be read now, or the copy by which the operation released it, which serves the
operations up to the next writer of t (R249, R250; assumption log 142). -/
def Core.shelfCopy (c : Core) (e : SEntry) (t : Nat) (kept : Option Held) : Option Held := match kept with
  | some k => some { k with since := e.id, upTo := k.upTo.map (max (e.id + 1)), idx := none, idxTo := none }
  | none => if c.readable e t then some (c.holdTile e t none) else none

/-- Whether an entry of the Shelf or a cell set may be refilled for entry e: no operation before e still needs what it holds. One after e that
released its tiles by it keeps its copies (assumption logs 46, 142). -/
def Core.mayRefill (c : Core) (q : Nat) (e : SEntry) (needs : SEntry → Bool) : Bool :=
  (c.mmas q).all (fun y => !(needs y && decide (y.id < e.id)))

/-- The Setter copies a tile into a Shelf entry for the oldest array operation that needs it (R249). -/
def State.shelfFill (s : State) (n q : Nat) (weight : Bool) : State :=
  let c := s.core n
  let x := c.arr q
  match (c.mmas q).find? (fun e => if weight then !x.hasW e q else !x.hasA e q) with
  | none => s
  | some e => match e.mmaOn q with
    | none => s
    | some (tw, ta, _) =>
      let t := if weight then tw else ta
      let needs (y : SEntry) : Bool := if weight then x.hasW y q && !x.inCells y q else x.hasA y q
      let kept := if weight then e.keptW else e.keptA
      let s1 := if kept.isSome then s else s.regReads (inTile n t (fun _ => true))
      let c1 := s1.core n
      match c1.shelfCopy e t kept with
      | none => s
      | some h =>
        if !c.mayRefill q e needs then s
        else (s1.setCore n (Core.relTiles (c1.setArr q (if weight then { x with shelfW := some h } else { x with shelfA := some h })) q)).over
          (fun y => y == .shelf n q weight)

/-- SHELF_FILL (R249). -/
def execShelfFill (n : Nat) (q : Fin 4) (weight : Bool) (s : State) : Host.Outcome State Fault Refusal :=
  command (fun s => if n < 192 then s.shelfFill n q.val weight else s) s

/-- What a weight copy for entry e of the weights that the Shelf holds reads: the Shelf entry, and the index tile where no copy of it is kept. -/
def State.weightReads (s : State) (n q tw : Nat) (idx : Bool) : State :=
  s.regReads (fun y => y == .shelf n q true || (idx && inTile n (tw + 1) (fun _ => true) y))

/-- A weight tile is copied from the Shelf into the shadow cells for the oldest array operation that needs it there; under SPX with the
index tile (R261). -/
def State.weightCopy (s : State) (n q : Nat) : State :=
  let c := s.core n
  let x := c.arr q
  match (c.mmas q).find? (fun e => !x.inCells e q) with
  | none => s
  | some e => match e.mmaOn q, x.shelfW with
    | some (tw, _, spx), some h =>
      let needs (y : SEntry) : Bool := cellsServe x.shadow y q && !cellsServe x.active y q
      let kept := e.keptW.filter (fun k => k.idx.isSome)
      if !h.serves tw e.id || (spx && kept.isNone && !c.readable e (tw + 1)) || !c.mayRefill q e needs then s
      else
        let s1 := s.weightReads n q tw (spx && kept.isNone)
        let c1 := s1.core n
        let h1 := ((c1.arr q).shelfW).getD h
        let k := kept.getD (c1.holdTile e tw (some (tw + 1)))
        let g : Held := if !spx then h1 else { h1 with since := e.id, idx := k.idx, idxTo := k.idxTo.map (max (e.id + 1)) }
        (s1.setCore n (Core.relTiles (c1.setArr q { c1.arr q with shadow := some g }) q)).over (fun y => y == .cells n q true)
    | _, _ => s

/-- WEIGHT_COPY (R261). -/
def execWeightCopy (n : Nat) (q : Fin 4) (s : State) : Host.Outcome State Fault Refusal :=
  command (fun s => if n < 192 then s.weightCopy n q.val else s) s

/-! ## Firing -/

/-- Whether the throttle lets array q start a pass now (R334): it acts on busy cores. lastAt is one more than the cycle of its previous
start. -/
def State.gapOk (s : State) (n q : Nat) : Bool :=
  let l := ((s.core n).arr q).lastAt
  s.throttle == 0 || !(s.core n).busy || l == 0 || decide (l + s.throttle ≤ s.cycles n + 1)

/-- Whether a waiting entry can fire: its resources are ready; the feeder path, for an operation of that unit, holds on no earlier block that
waits to be placed (R289); and an array operation has its weights in the cells, its activation in the Shelf or readable, and no throttle gap to
wait for (R246, R261, R262, R334). -/
def State.able (s : State) (n : Nat) (e : SEntry) : Bool :=
  let c := s.core n
  e.phase == .waiting && c.resReady e && (e.op.unit != .feeder || c.nextFop.isNone) && (match e.op with
    | .mma q _ ta _ => (c.arr q).inCells e q && ((c.arr q).hasA e q || e.keptA.isSome || c.readable e ta) && s.gapOk n q
    | _ => true)

/-- The oldest operation able to fire on a unit (R246). -/
def State.oldest (s : State) (n : Nat) (u : SUnit) : Option SEntry := (s.core n).setter.find? (fun e => e.op.unit == u && s.able n e)

/-- The two cell sets of an array change places, with the errors that lie in them. -/
def State.swapCells (s : State) (n q : Nat) : State :=
  let x := (s.core n).arr q
  { s.setCore n ((s.core n).setArr q { x with active := x.shadow, shadow := x.active }) with
    upsets := s.upsets.map (fun u => match u.site with
      | .cells m p sh => if m = n ∧ p = q then { u with site := .cells m p (!sh) } else u
      | _ => u) }

/-- What a pass reads as it starts: its weights in the active cells, and its activation in the Shelf, or in its tile where no copy is kept (R261,
R262). -/
def State.passReads (s : State) (n : Nat) (e : SEntry) (q ta : Nat) : State :=
  let shelf := (((s.core n).arr q).actFor e q).isSome
  s.regReads (fun y => y == .cells n q false || (shelf && y == .shelf n q false) || (!shelf && e.keptA.isNone && inTile n ta (fun _ => true) y))

/-- A pass starts: the shadow set becomes active when it holds the weights, and the operation has released its tiles (R250, R261, R262). -/
def State.passFire (s : State) (n : Nat) (e : SEntry) (q ta : Nat) : State :=
  let s0 := (if cellsServe ((s.core n).arr q).active e q then s else s.swapCells n q).passReads n e q ta
  let c := s0.core n
  let x1 := c.arr q
  match x1.active with
  | none => s
  | some w =>
    let a := ((x1.actFor e q).or e.keptA).getD (c.holdTile e ta none)
    let c1 := c.setArr q { x1 with passes := x1.passes ++ [{ entry := e.id, w := w, a := a }], lastAt := s.cycles n + 1 }
    s0.setCore n (Core.relTiles (c1.modEntry e.id (fun e => { e with phase := .fired, released := true, relIdx := true })) q)

/-- The tiles of a tld as it fires: the rows it will write lose their marks and are zero, but for the unused high bits of a row's last
word, which are free; XS takes its final value (R224, R227, R231). -/
def Tile.clearFor (x : Tile) (h : W32) (exp : Int) (ctr : Nat) : Tile :=
  let bits := shNc h * tileW (shFmt h)
  let words := (bits + 15) / 16
  let row (r : Nat) : Nat := (Config.freeValue (ctr + r)).toNat % 2 ^ (16 * words - bits) * 2 ^ bits
  let y := (List.range (shNr h)).foldl (fun (y : Tile) r => y.setRow r (row r)) x
  { (y.setXs exp) with pm := x.pm &&& ~~~(rowsWhere (fun r => decide (r < shNr h))) }

/-- A tld fires. -/
def State.tldFire (s : State) (n : Nat) (e : SEntry) (t : Nat) (a : TArgs) : State :=
  let h := e.shapeOf t
  let k := tldSl a.p2 + 1
  let exp := s.expFor n e.op
  let one (c : Core) (i : Nat) : Core := c.setTile (t + i) ((c.tile (t + i)).clearFor h exp (s.freeCtr + 64 * i))
  let s1 := { s with freeCtr := s.freeCtr + 64 * k }
  (s1.modCore n (fun c => (List.range k).foldl one c)).feed n e.id 0

/-- A tsave fires: the image is read at once, and the suspended operation whose first tile it is leaves the Setter (R239). Of two that are suspended the
image records the older, as TSW shows it, and both leave (R237; assumption log 158). -/
def State.tsaveFire (s : State) (n : Nat) (e : SEntry) (t : Nat) : State :=
  let img := (s.core n).image t
  let s1 := s.modCore n (fun c =>
    let c1 := c.modEntry e.id (fun e => { e with img := img, released := true })
    { c1 with setter := c1.setter.filter (fun x => !(x.susp && x.op.tiles.head? == some t)) })
  s1.feed n e.id 0

/-- What an operation reads of the register files as it fires: tmv.tv its rows, tmeta the sidecar, tsave the whole tile. -/
def SOp.reads (n : Nat) (o : SOp) (y : Site) : Bool := match o with
  | .tmvTv _ t row g => inTile n t (fun r => decide (row ≤ r) && decide (r < row + 4 * g)) y
  | .tmeta _ t k => decide (3 ≤ k) && inTile n t (fun _ => true) y
  | .tsave t _ => inTile n t (fun _ => true) y
  | _ => false

/-- What an operation writes whole as it fires: rows of a tile, the vector registers of a move, and the accumulators that it zeroes. -/
def SEntry.fresh (n : Nat) (e : SEntry) (y : Site) : Bool := match e.op with
  | .tld t a => (List.range (tldSl a.p2 + 1)).any (fun i => inTile n (t + i) (fun r => decide (r < shNr (e.shapeOf t))) y)
  | .tzero t => inTile n t (fun _ => true) y
  | .tmvVt t row ws _ => inTile n t (fun r => decide (row ≤ r) && decide (r < row + ws.length / 64)) y
  | .tmvTv vd _ _ g => inVec n (fun k => decide (64 * vd ≤ k) && decide (k < 64 * (vd + g))) y
  | .tmeta vd _ _ => inVec n (fun k => decide (64 * vd ≤ k) && decide (k < 64 * (vd + 1))) y
  | .accOpen q _ a tree z _ b => z && (List.range (if tree then clog2 b + 1 else 1)).any (fun k => inAcc n q (a + k) (fun _ => true) y)
  | .accZero q a _ => inAcc n q a (fun _ => true) y
  | _ => false

/-- An operation that can fire fires: operations of the move path and of the array complete at once, but for a TREE close, a pass and a
drain (R246, R248, R271). -/
def State.fire (s0 : State) (n : Nat) (e : SEntry) : State :=
  let s := (s0.regReads (e.op.reads n)).over (e.fresh n)
  let s1 := s.modCore n (fun c => c.modEntry e.id (fun x => { x with phase := .fired, exp := s.expFor n e.op }))
  match e.op with
  | .tld t a => s1.tldFire n e t a
  | .tst _ _ => s1.feed n e.id 0
  | .tsave t _ => s1.tsaveFire n e t
  | .trest _ _ => s1.feed n e.id 0
  | .accDrm _ _ _ _ _ _ => s1.feed n e.id 0
  | .accLd _ _ _ _ _ => s1.feed n e.id 0
  | .accDrt _ _ _ _ _ => s1
  | .accDrj _ _ _ _ _ _ => s1.feed n e.id 0
  | .mma q _ ta _ => s.passFire n e q ta
  | .accOpen q g a tree z i b => (s1.modCore n (fun c => c.modArr q (fun x => x.openGroup g a tree z i b))).sDone n e.id none
  | .accClose q g _ _ =>
    if (((s.core n).arr q).group g).tree then s1
    else (s1.modCore n (fun c => c.modArr q (fun x => x.closeGroup g))).sDone n e.id none
  | .accZero q a i => (s1.modCore n (fun c => c.modArr q (fun x => x.setAcc a (Acc.zeroed i)))).sDone n e.id none
  | o => match (s1.core n).moved o with
    | some c => (s1.setCore n c).sDone n e.id none
    | none => s1

/-- SETTER_FIRE of an operation: it fires if it is the oldest of its unit that can (R246). -/
def State.setterFire (s : State) (n id : Nat) : State :=
  match (s.core n).entry id with
  | none => s
  | some e => if (s.oldest n e.op.unit).map (fun x => x.id) = some id then s.fire n e else s

/-- SETTER_FIRE (R246). -/
def execSetterFire (n id : Nat) (s : State) : Host.Outcome State Fault Refusal :=
  command (fun s => if n < 192 then s.setterFire n id else s) s

/-! ## Passes -/

/-- PASS_START: the oldest operation of the array that can fire starts if it is an array operation (R262). -/
def State.passStart (s : State) (n q : Nat) : State :=
  match s.oldest n (.array q) with
  | none => s
  | some e => match e.op with
    | .mma _ _ ta _ => s.passFire n e q ta
    | _ => s

/-- PASS_START (R262). -/
def execPassStart (n : Nat) (q : Fin 4) (s : State) : Host.Outcome State Fault Refusal :=
  command (fun s => if n < 192 then s.passStart n q.val else s) s

/-- An accumulating writer reads the rows of the accumulator that it adds to; a leaf of a TREE group reads none (R268). -/
def State.accReads (s : State) (n q a : Nat) (gv : Option Nat) (rows : Nat → Bool) : State :=
  match gv.map (fun g => (((s.core n).arr q).group g).tree) with
  | some true => s
  | _ => s.regReads (inAcc n q a rows)

/-- The result of a pass goes into its accumulator (R251, R254, R260, R268). -/
def Arr.applyPass (x : Arr) (dc : Word) (p : Pass) (hw ha : W32) : Arr :=
  let o := passOf dc p.w p.a hw ha
  x.accumulate (mmaAcc dc) (if mmaGv dc then some (mmaG dc) else none) o.xs o.rows o.marks

/-- PASS_COMPLETE: the first pass that started and waits for no earlier accumulating writer completes (R262, R265). -/
def State.passDone (s : State) (n q : Nat) : State :=
  let c := s.core n
  let x := c.arr q
  let go (p : Pass) : Option SEntry := match c.entry p.entry with
    | some e => if c.accWaits e then none else some e
    | none => none
  match x.passes.find? (fun p => (go p).isSome) with
  | none => s
  | some p => match c.entry p.entry with
    | some e => match e.op with
      | .mma _ tw ta dc =>
        let rows := (passOf dc p.w p.a (e.shapeOf tw) (e.shapeOf ta)).rows
        let s1 := s.accReads n q (mmaAcc dc) (if mmaGv dc then some (mmaG dc) else none) (fun m => rows.any (fun r => r.1 == m))
        let c1 := s1.core n
        let y := { ((c1.arr q).applyPass dc p (e.shapeOf tw) (e.shapeOf ta)) with passes := x.passes.filter (fun r => r.entry ≠ p.entry) }
        (s1.setCore n (c1.setArr q y)).sDone n e.id none
      | _ => s
    | none => s

/-- PASS_COMPLETE (R262). -/
def execPassComplete (n : Nat) (q : Fin 4) (s : State) : Host.Outcome State Fault Refusal :=
  command (fun s => if n < 192 then s.passDone n q.val else s) s

/-! ## Closes and drains -/

/-- The partial sums of an open group are read as it closes, and what the close writes is fresh. -/
def State.sumReads (s : State) (n q g : Nat) : State :=
  let gr := ((s.core n).arr q).group g
  let mine (y : Site) : Bool := gr.tree && (List.range (clog2 gr.tot + 1)).any (fun i => inAcc n q (gr.base + i) (fun _ => true) y)
  (s.regReads mine).over mine

/-- TREE_CLOSE_COMPLETE: a TREE close that has fired takes effect (R268, R271). -/
def State.treeDone (s : State) (n q g : Nat) : State :=
  match (s.core n).setter.find? (fun e => e.phase == .fired && (match e.op with
    | .accClose p h _ _ => p == q && h == g
    | _ => false)) with
  | none => s
  | some e => ((s.sumReads n q g).modCore n (fun c => c.modArr q (fun x => x.closeGroup g))).sDone n e.id none

/-- TREE_CLOSE_COMPLETE (R271). -/
def execTreeCloseComplete (n : Nat) (q : Fin 4) (g : Fin 8) (s : State) : Host.Outcome State Fault Refusal :=
  command (fun s => if n < 192 then s.treeDone n q.val g.val else s) s

/-- CLR of a drain (Table 9-7). -/
def State.drainClear (s : State) (n q a : Nat) (dc : Word) : State :=
  if drClr dc then (s.modCore n (fun c => c.modArr q (fun x => x.setAcc a (x.acc1 a).cleared))).over (inAcc n q a (fun _ => true)) else s

/-- DRAIN_COMPLETE: a drain into a tile writes it; a drain into memory or a job completes once its rows or its leaf are done (R275 to
R278). -/
def State.drainDone (s : State) (n id : Nat) : State :=
  match (s.core n).entry id with
  | none => s
  | some e =>
    if e.phase ≠ .fired then s
    else match e.op with
      | .accDrt q a t dc _ =>
        let s1 := (s.regReads (inAcc n q a (fun _ => true))).over (inTile n t (fun _ => true))
        ((s1.drtWrite n t (e.shapeOf t) (((s1.core n).arr q).acc1 a) dc e.exp).drainClear n q a dc).sDone n id e.op.sem
      | .accDrm q a _ _ dc _ => if 64 ≤ e.done then (s.drainClear n q a dc).sDone n id e.op.sem else s
      | .accDrj q a _ _ dc _ => if 1 ≤ e.done then (s.drainClear n q a dc).sDone n id e.op.sem else s
      | _ => s

/-- DRAIN_COMPLETE (R275). -/
def execDrainComplete (n id : Nat) (s : State) : Host.Outcome State Fault Refusal :=
  command (fun s => if n < 192 then s.drainDone n id else s) s

/-- The tile a drain into a job sends: elements × 2^−XE as FP32; and the bits of CORE_NF that it sets: DRAIN where an element in an unmarked row
is not finite, OVF where a finite one there leaves FP32 (R213, R275, R278). -/
def Acc.tileOut (a : Acc) : List Num × W32 :=
  let els := lookRun 0 a.el 0 4096
  let out := els.map (fun x => fp32.decode (fp32.round (a.drained x)))
  let live := ((els.map (fun x => fp32.decode x.toNat)).zip out).zipIdx.filter (fun e => !a.marks.getLsbD (e.2 / 64))
  (out, (if live.any (fun e => !e.1.1.isFin) then 2 else 0) ||| (if live.any (fun e => e.1.1.isFin && !e.1.2.isFin) then 4 else 0))

/-- LEAF_STAGE for a drain into a job, once its blocks are placed (R288, R403 to R406): a failed drain clears nothing and is a failed
completion action. A finite element that becomes infinite, in the FP32 product or in w(), sets OVF (R213, R408; assumption log 137). -/
def State.leafDone (s : State) (n id : Nat) : State :=
  match (s.core n).entry id with
  | none => s
  | some e =>
    if e.phase ≠ .fired ∨ 1 ≤ e.done ∨ (s.core n).fops.any (fun f => f.kind == .setter id && !f.placed) then s
    else match e.op with
      | .accDrj q a job off _ _ =>
        let s := s.regReads (inAcc n q a (fun _ => true))
        let x := ((s.core n).arr q).acc1 a
        let (els, m) := x.tileOut
        let nf (t : State) (v : Bool) : State :=
          let b := m ||| (if v then 4 else 0)
          if b = 0 then t else t.coreNf n b
        match s.leafStage (fld job 0 12) off.toNat els x.marks with
        | .wait t => t
        | .fail t y f => ((nf t false).deferAction n y f).sDone n id none
        | .done t v => (nf t v).modCore n (fun c => c.modEntry id (fun e => { e with done := 1, released := true }))
      | _ => s

/-- LEAF_STAGE (R403). -/
def execLeafStage (n id : Nat) (s : State) : Host.Outcome State Fault Refusal :=
  command (fun s => if n < 192 then s.leafDone n id else s) s

end Sys2Proof.Machine
end

