-- ==== Sys2Proof/Machine/VecArith.lean ====
section
/-! DEFINITION. Sys2Proof/Machine/VecArith.lean: the element-by-element vector instructions of Table 6-5 (R173, R179 to R184). -/

namespace Sys2Proof.Machine

/-! ## Functions of elements -/

/-- What a function computes at SEW w, from FXR and the operands a, b and d as codes: the result's code, and whether it saturated. -/
abbrev ElFn := (et w fxr a b d : Nat) → Nat × Bool

/-- A function without saturation. -/
def plainFn (f : (w a b : Nat) → Nat) : ElFn := fun _ w _ a b _ => (f w a b, false)

/-- A signed result of w bits saturated to its limits, and an unsigned one (R183, Table 6-11). -/
def satS (w : Nat) (x : Int) : Nat × Bool :=
  let hi : Int := 2 ^ (w - 1) - 1
  let lo : Int := -2 ^ (w - 1)
  (codeOf w (if x < lo then lo else if hi < x then hi else x), decide (x < lo) || decide (hi < x))
def satU (w : Nat) (x : Int) : Nat × Bool :=
  let hi : Int := 2 ^ w - 1
  (codeOf w (if x < 0 then 0 else if hi < x then hi else x), decide (x < 0) || decide (hi < x))

/-- v with its low s bits dropped under a rounding mode (R182, Table 6-10). -/
def fxRound (mode : Nat) (v : Int) (s : Nat) : Int :=
  let q := v / 2 ^ s
  let f := v % 2 ^ s
  let h : Int := 2 ^ (s - 1)
  let r := if s = 0 then false
    else if mode = 0 then decide (h < f) || (decide (f = h) && decide (q % 2 = 1))
    else if mode = 1 then decide (h ≤ f)
    else if mode = 2 then false
    else decide (f ≠ 0) && decide (q % 2 = 0)
  q + (if r then 1 else 0)

/-- Signed quotient rounded toward zero, and all ones for a zero divisor (R179). -/
def divS (w a b : Nat) : Nat := if b = 0 then 2 ^ w - 1 else codeOf w ((signedOf w a).tdiv (signedOf w b))
def divU (w a b : Nat) : Nat := if b = 0 then 2 ^ w - 1 else a / b

/-- A floating-point function of exact values, rounded once (R184). -/
def fpFn (f : (a b d : Num) → Num) : ElFn := fun et _ _ a b d => match etFmt et with
  | some g => (g.round (f (g.decode a) (g.decode b) (g.decode d)), false)
  | none => (a, false)

/-- A comparison as a mask bit: on integers, and on floats (Table 6-5). -/
def cmpFn (fi : (w a b : Nat) → Bool) (ff : Num → Num → Bool) : ElFn := fun et w _ a b _ =>
  ((if (match etFmt et with
    | some g => ff (g.decode a) (g.decode b)
    | none => fi w a b) then 1 else 0), false)

/-- The smaller or larger of two operands. -/
def pickFn (f : (et a b : Nat) → Nat) : ElFn := fun et _ _ a b _ => (f et a b, false)

/-! ## The shared form -/

/-- The element types a function accepts (Table 6-5): I, F, both, integers of at most 32 bits. -/
inductive EtSet where
  | ints | floats | both | narrow
deriving DecidableEq, Repr

/-- Whether a set of element types holds an ET. -/
def EtSet.has (e : EtSet) (et : Nat) : Bool := match e with
  | .ints => decide (et < 4)
  | .floats => decide (4 ≤ et)
  | .both => true
  | .narrow => decide (et < 3)

/-- A function of Table 6-5 with its unit and distance (Table 6-3); ma and md are 2 where a or d has twice the width, md is 0 for a
comparison, whose result is a mask bit; acc reads d, and one reads only b. -/
structure VFn where
  ets  : EtSet
  unit : VUnit
  dist : Nat
  ma   : Nat
  md   : Nat
  acc  : Bool
  one  : Bool
  fn   : ElFn

/-- Registers of the second operand, none for a scalar. -/
def srcRegs (b : VecSrc) (g : Nat) : List Nat := match b with
  | .vec v => regsOf v.val g
  | .scalar _ => []

/-- Whether the scalar operand is a legal encoding (R165). -/
def srcOk (b : VecSrc) (c : Core) : Bool := match b with
  | .vec _ => true
  | .scalar d => c.vscalarOk d.val

/-- What the encoding of a function must meet (R164, R165, R173). -/
def vfnEnc (x : VFn) (m : Bool) (vd va : Nat) (b : VecSrc) (c : Core) : Bool := maskOk m vd && (!x.one || va == 0) && srcOk b c

/-- The register rules of a function under VTYPE (R161, R173, R180): only a widening one asks for G at most 4. -/
def vfnLegal (x : VFn) (vd va : Nat) (b : VecSrc) (c : Core) : Bool :=
  let g := c.grp
  let gd := if x.md = 0 then 1 else x.md * g
  x.ets.has c.et && (x.md ≠ 2 || decide (g ≤ 4)) && (x.md == 0 || grpOk vd gd) && (x.one || grpOk va (x.ma * g)) &&
  (match b with
    | .vec v => grpOk v.val g && (x.md ≠ 2 || apart vd gd v.val g)
    | .scalar _ => true) &&
  (x.md ≠ 2 || x.one || apart vd gd va g)

/-- The elements a function writes, and whether any saturated: an element that reads a register too early counts for nothing there, since
an early read reaches no further than its destination element (R167). -/
def vfnEls (x : VFn) (m : Bool) (vd va : Nat) (b : VecSrc) (c : Core) : List VEl × Bool :=
  let w := c.sew
  let wd := if x.md = 0 then 1 else x.md * w
  let one (i : Nat) : VEl × Bool :=
    let av := if x.one then 0 else c.vel va (x.ma * w) i
    let (bv, bm) := match b with
      | .vec v => (c.vel v.val w i, c.vmark v.val w i)
      | .scalar d => (c.vscalar d.val, false)
    let r := x.fn c.et w c.fxr av bv (if x.acc then c.vel vd wd i else 0)
    let mk := c.gmark m i || bm || (!x.one && c.vmark va (x.ma * w) i) || (x.acc && c.vmark vd wd i)
    let early := (m && c.earlyEl 0 1 i) || (!x.one && c.earlyEl va (x.ma * w) i) || (x.acc && c.earlyEl vd wd i) || (match b with
      | .vec v => c.earlyEl v.val w i
      | .scalar _ => false)
    ({ reg := vd, w := wd, i := i, val := r.1 % 2 ^ wd, mark := mk }, r.2 && !early)
  let rs := (c.lanes m).map one
  (rs.map (·.1), rs.any (·.2))

/-- A function of Table 6-5 on core n. -/
def vfnExec (x : VFn) (n : Nat) (k : Cond) (m : Bool) (vd va : Fin 32) (b : VecSrc) (s : State) : Host.Outcome State Fault Refusal :=
  vecIssue n k 2 (vfnEnc x m vd.val va.val b) (vfnLegal x vd.val va.val b) (fun s =>
    let g := (s.core n).grp
    let dst := if x.md = 0 then [vd.val] else regsOf vd.val (x.md * g)
    let reads := maskReg m ++ (if x.one then [] else regsOf va.val (x.ma * g)) ++ srcRegs b g ++ (if x.acc then dst else [])
    vecEls n x.unit x.dist false reads dst (vfnEls x m vd.val va.val b) s) s

/-- A function of the integer ALU, the multiplier and the floating-point unit, by its element types. -/
def valu (e : EtSet) (fn : ElFn) : VFn := { ets := e, unit := .valu, dist := 2, ma := 1, md := 1, acc := false, one := false, fn := fn }
def vmulU (fn : ElFn) : VFn := { ets := .ints, unit := .vmul, dist := 4, ma := 1, md := 1, acc := false, one := false, fn := fn }
def vfma (fn : ElFn) : VFn := { ets := .floats, unit := .vfma, dist := 4, ma := 1, md := 1, acc := false, one := false, fn := fn }
def vdivU (e : EtSet) (fn : ElFn) : VFn := { ets := e, unit := .vdiv, dist := 12, ma := 1, md := 1, acc := false, one := false, fn := fn }
def vcmpU (e : EtSet) (fn : ElFn) : VFn := { valu e fn with md := 0 }

/-! ## Integer functions -/

/-- vadd: a + b modulo 2^SEW (R179). -/
def execVadd (n : Nat) (k : Cond) (m : Bool) (vd va : Fin 32) (b : VecSrc) (s : State) : Host.Outcome State Fault Refusal :=
  vfnExec (valu .ints (plainFn (fun _ a b => a + b))) n k m vd va b s

/-- vsub: a − b modulo 2^SEW (R179). -/
def execVsub (n : Nat) (k : Cond) (m : Bool) (vd va : Fin 32) (b : VecSrc) (s : State) : Host.Outcome State Fault Refusal :=
  vfnExec (valu .ints (plainFn (fun w a b => a + 2 ^ w - b))) n k m vd va b s

/-- vand (Table 6-5). -/
def execVand (n : Nat) (k : Cond) (m : Bool) (vd va : Fin 32) (b : VecSrc) (s : State) : Host.Outcome State Fault Refusal :=
  vfnExec (valu .ints (plainFn (fun _ a b => a &&& b))) n k m vd va b s

/-- vor (Table 6-5). -/
def execVor (n : Nat) (k : Cond) (m : Bool) (vd va : Fin 32) (b : VecSrc) (s : State) : Host.Outcome State Fault Refusal :=
  vfnExec (valu .ints (plainFn (fun _ a b => a ||| b))) n k m vd va b s

/-- vxor (Table 6-5). -/
def execVxor (n : Nat) (k : Cond) (m : Bool) (vd va : Fin 32) (b : VecSrc) (s : State) : Host.Outcome State Fault Refusal :=
  vfnExec (valu .ints (plainFn (fun _ a b => a ^^^ b))) n k m vd va b s

/-- vshl: a shifted left by b mod SEW (Table 6-5). -/
def execVshl (n : Nat) (k : Cond) (m : Bool) (vd va : Fin 32) (b : VecSrc) (s : State) : Host.Outcome State Fault Refusal :=
  vfnExec (valu .ints (plainFn (fun w a b => a * 2 ^ (b % w)))) n k m vd va b s

/-- vshr: a shifted right by b mod SEW, zeros in (Table 6-5). -/
def execVshr (n : Nat) (k : Cond) (m : Bool) (vd va : Fin 32) (b : VecSrc) (s : State) : Host.Outcome State Fault Refusal :=
  vfnExec (valu .ints (plainFn (fun w a b => a / 2 ^ (b % w)))) n k m vd va b s

/-- vsar: a shifted right by b mod SEW, copies of the sign in (Table 6-5). -/
def execVsar (n : Nat) (k : Cond) (m : Bool) (vd va : Fin 32) (b : VecSrc) (s : State) : Host.Outcome State Fault Refusal :=
  vfnExec (valu .ints (plainFn (fun w a b => codeOf w (signedOf w a / 2 ^ (b % w))))) n k m vd va b s

/-- vmin: signed minimum (Table 6-5). -/
def execVmin (n : Nat) (k : Cond) (m : Bool) (vd va : Fin 32) (b : VecSrc) (s : State) : Host.Outcome State Fault Refusal :=
  vfnExec (valu .ints (pickFn vMin)) n k m vd va b s

/-- vmax: signed maximum (Table 6-5). -/
def execVmax (n : Nat) (k : Cond) (m : Bool) (vd va : Fin 32) (b : VecSrc) (s : State) : Host.Outcome State Fault Refusal :=
  vfnExec (valu .ints (pickFn vMax)) n k m vd va b s

/-- vminu: unsigned minimum (Table 6-5). -/
def execVminu (n : Nat) (k : Cond) (m : Bool) (vd va : Fin 32) (b : VecSrc) (s : State) : Host.Outcome State Fault Refusal :=
  vfnExec (valu .ints (plainFn (fun _ a b => if b < a then b else a))) n k m vd va b s

/-- vmaxu: unsigned maximum (Table 6-5). -/
def execVmaxu (n : Nat) (k : Cond) (m : Bool) (vd va : Fin 32) (b : VecSrc) (s : State) : Host.Outcome State Fault Refusal :=
  vfnExec (valu .ints (plainFn (fun _ a b => if a < b then b else a))) n k m vd va b s

/-- vmov: d ← b, with Va zero (R173). -/
def execVmov (n : Nat) (k : Cond) (m : Bool) (vd va : Fin 32) (b : VecSrc) (s : State) : Host.Outcome State Fault Refusal :=
  vfnExec ({ valu .both (plainFn (fun _ _ b => b)) with one := true }) n k m vd va b s

/-- vdiv: signed quotient rounded toward zero (R179). -/
def execVdiv (n : Nat) (k : Cond) (m : Bool) (vd va : Fin 32) (b : VecSrc) (s : State) : Host.Outcome State Fault Refusal :=
  vfnExec (vdivU .ints (plainFn divS)) n k m vd va b s

/-- vdivu: unsigned quotient (R179). -/
def execVdivu (n : Nat) (k : Cond) (m : Bool) (vd va : Fin 32) (b : VecSrc) (s : State) : Host.Outcome State Fault Refusal :=
  vfnExec (vdivU .ints (plainFn divU)) n k m vd va b s

/-- vmul: low SEW bits of the product (R179). -/
def execVmul (n : Nat) (k : Cond) (m : Bool) (vd va : Fin 32) (b : VecSrc) (s : State) : Host.Outcome State Fault Refusal :=
  vfnExec (vmulU (plainFn (fun _ a b => a * b))) n k m vd va b s

/-- vmulh: high SEW bits of the signed product (Table 6-5). -/
def execVmulh (n : Nat) (k : Cond) (m : Bool) (vd va : Fin 32) (b : VecSrc) (s : State) : Host.Outcome State Fault Refusal :=
  vfnExec (vmulU (plainFn (fun w a b => codeOf w (signedOf w a * signedOf w b / 2 ^ w)))) n k m vd va b s

/-- vmulhu: high SEW bits of the unsigned product (Table 6-5). -/
def execVmulhu (n : Nat) (k : Cond) (m : Bool) (vd va : Fin 32) (b : VecSrc) (s : State) : Host.Outcome State Fault Refusal :=
  vfnExec (vmulU (plainFn (fun w a b => a * b / 2 ^ w))) n k m vd va b s

/-- vmacc: d + a × b, low SEW bits (R179). -/
def execVmacc (n : Nat) (k : Cond) (m : Bool) (vd va : Fin 32) (b : VecSrc) (s : State) : Host.Outcome State Fault Refusal :=
  vfnExec ({ vmulU (fun _ _ _ a b d => (d + a * b, false)) with acc := true }) n k m vd va b s

/-- vwmul: the signed product at 2·SEW (R180). -/
def execVwmul (n : Nat) (k : Cond) (m : Bool) (vd va : Fin 32) (b : VecSrc) (s : State) : Host.Outcome State Fault Refusal :=
  vfnExec ({ vmulU (plainFn (fun w a b => codeOf (2 * w) (signedOf w a * signedOf w b))) with ets := .narrow, md := 2 }) n k m vd va b s

/-- vwmulu: the unsigned product at 2·SEW (R180). -/
def execVwmulu (n : Nat) (k : Cond) (m : Bool) (vd va : Fin 32) (b : VecSrc) (s : State) : Host.Outcome State Fault Refusal :=
  vfnExec ({ vmulU (plainFn (fun _ a b => a * b)) with ets := .narrow, md := 2 }) n k m vd va b s

/-- vwmulsu: signed a by unsigned b at 2·SEW (R180). -/
def execVwmulsu (n : Nat) (k : Cond) (m : Bool) (vd va : Fin 32) (b : VecSrc) (s : State) : Host.Outcome State Fault Refusal :=
  vfnExec ({ vmulU (plainFn (fun w a b => codeOf (2 * w) (signedOf w a * (b : Int)))) with ets := .narrow, md := 2 }) n k m vd va b s

/-- vwmacc: d + a × b, signed, modulo 2^(2·SEW) (R180). -/
def execVwmacc (n : Nat) (k : Cond) (m : Bool) (vd va : Fin 32) (b : VecSrc) (s : State) : Host.Outcome State Fault Refusal :=
  vfnExec ({ vmulU (fun _ w _ a b d => (codeOf (2 * w) ((d : Int) + signedOf w a * signedOf w b), false)) with
    ets := .narrow, md := 2, acc := true }) n k m vd va b s

/-- vsadd: signed saturating sum (R183). -/
def execVsadd (n : Nat) (k : Cond) (m : Bool) (vd va : Fin 32) (b : VecSrc) (s : State) : Host.Outcome State Fault Refusal :=
  vfnExec (valu .ints (fun _ w _ a b _ => satS w (signedOf w a + signedOf w b))) n k m vd va b s

/-- vsaddu: unsigned saturating sum (R183). -/
def execVsaddu (n : Nat) (k : Cond) (m : Bool) (vd va : Fin 32) (b : VecSrc) (s : State) : Host.Outcome State Fault Refusal :=
  vfnExec (valu .ints (fun _ w _ a b _ => satU w ((a : Int) + b))) n k m vd va b s

/-- vssub: signed saturating difference (R183). -/
def execVssub (n : Nat) (k : Cond) (m : Bool) (vd va : Fin 32) (b : VecSrc) (s : State) : Host.Outcome State Fault Refusal :=
  vfnExec (valu .ints (fun _ w _ a b _ => satS w (signedOf w a - signedOf w b))) n k m vd va b s

/-- vssubu: unsigned saturating difference (R183). -/
def execVssubu (n : Nat) (k : Cond) (m : Bool) (vd va : Fin 32) (b : VecSrc) (s : State) : Host.Outcome State Fault Refusal :=
  vfnExec (valu .ints (fun _ w _ a b _ => satU w ((a : Int) - b))) n k m vd va b s

/-- vaadd: the exact signed sum halved and rounded (R182). -/
def execVaadd (n : Nat) (k : Cond) (m : Bool) (vd va : Fin 32) (b : VecSrc) (s : State) : Host.Outcome State Fault Refusal :=
  vfnExec (valu .ints (fun _ w x a b _ => (codeOf w (fxRound x (signedOf w a + signedOf w b) 1), false))) n k m vd va b s

/-- vaaddu: the exact unsigned sum halved and rounded (R182). -/
def execVaaddu (n : Nat) (k : Cond) (m : Bool) (vd va : Fin 32) (b : VecSrc) (s : State) : Host.Outcome State Fault Refusal :=
  vfnExec (valu .ints (fun _ w x a b _ => (codeOf w (fxRound x ((a : Int) + b) 1), false))) n k m vd va b s

/-- vsmul: the signed product rounded by SEW − 1 bits and saturated (R182). -/
def execVsmul (n : Nat) (k : Cond) (m : Bool) (vd va : Fin 32) (b : VecSrc) (s : State) : Host.Outcome State Fault Refusal :=
  vfnExec (vmulU (fun _ w x a b _ => satS w (fxRound x (signedOf w a * signedOf w b) (w - 1)))) n k m vd va b s

/-- vssra: rounding arithmetic shift right (R182). -/
def execVssra (n : Nat) (k : Cond) (m : Bool) (vd va : Fin 32) (b : VecSrc) (s : State) : Host.Outcome State Fault Refusal :=
  vfnExec (vmulU (fun _ w x a b _ => (codeOf w (fxRound x (signedOf w a) (b % w)), false))) n k m vd va b s

/-- vssrl: rounding logical shift right (R182). -/
def execVssrl (n : Nat) (k : Cond) (m : Bool) (vd va : Fin 32) (b : VecSrc) (s : State) : Host.Outcome State Fault Refusal :=
  vfnExec (vmulU (fun _ w x a b _ => (codeOf w (fxRound x (a : Int) (b % w)), false))) n k m vd va b s

/-- vnclip: a at 2·SEW shifted, rounded and saturated to SEW (R180, R183). -/
def execVnclip (n : Nat) (k : Cond) (m : Bool) (vd va : Fin 32) (b : VecSrc) (s : State) : Host.Outcome State Fault Refusal :=
  vfnExec ({ vmulU (fun _ w x a b _ => satS w (fxRound x (signedOf (2 * w) a) (b % (2 * w)))) with ets := .narrow, ma := 2 }) n k m vd va b s

/-- vnclipu: the same, unsigned (R180, R183). -/
def execVnclipu (n : Nat) (k : Cond) (m : Bool) (vd va : Fin 32) (b : VecSrc) (s : State) : Host.Outcome State Fault Refusal :=
  vfnExec ({ vmulU (fun _ w x a b _ => satU w (fxRound x (a : Int) (b % (2 * w)))) with ets := .narrow, ma := 2 }) n k m vd va b s

/-! ## Floating-point functions -/

/-- vfadd (R184). -/
def execVfadd (n : Nat) (k : Cond) (m : Bool) (vd va : Fin 32) (b : VecSrc) (s : State) : Host.Outcome State Fault Refusal :=
  vfnExec (vfma (fpFn (fun a b _ => a.add b))) n k m vd va b s

/-- vfsub (R184). -/
def execVfsub (n : Nat) (k : Cond) (m : Bool) (vd va : Fin 32) (b : VecSrc) (s : State) : Host.Outcome State Fault Refusal :=
  vfnExec (vfma (fpFn (fun a b _ => a.add b.negate))) n k m vd va b s

/-- vfmul (R184). -/
def execVfmul (n : Nat) (k : Cond) (m : Bool) (vd va : Fin 32) (b : VecSrc) (s : State) : Host.Outcome State Fault Refusal :=
  vfnExec (vfma (fpFn (fun a b _ => a.mul b))) n k m vd va b s

/-- vfmacc: a × b + d, one rounding (R184). -/
def execVfmacc (n : Nat) (k : Cond) (m : Bool) (vd va : Fin 32) (b : VecSrc) (s : State) : Host.Outcome State Fault Refusal :=
  vfnExec ({ vfma (fpFn (fun a b d => (a.mul b).add d)) with acc := true }) n k m vd va b s

/-- vfmin (R184). -/
def execVfmin (n : Nat) (k : Cond) (m : Bool) (vd va : Fin 32) (b : VecSrc) (s : State) : Host.Outcome State Fault Refusal :=
  vfnExec (vfma (pickFn vMin)) n k m vd va b s

/-- vfmax (R184). -/
def execVfmax (n : Nat) (k : Cond) (m : Bool) (vd va : Fin 32) (b : VecSrc) (s : State) : Host.Outcome State Fault Refusal :=
  vfnExec (vfma (pickFn vMax)) n k m vd va b s

/-- vfdiv: correctly rounded (R184). -/
def execVfdiv (n : Nat) (k : Cond) (m : Bool) (vd va : Fin 32) (b : VecSrc) (s : State) : Host.Outcome State Fault Refusal :=
  vfnExec (vdivU .floats (fpFn (fun a b _ => a.div b))) n k m vd va b s

/-- vfsqrt: the square root of b, correctly rounded, with Va zero (R173, R184). -/
def execVfsqrt (n : Nat) (k : Cond) (m : Bool) (vd va : Fin 32) (b : VecSrc) (s : State) : Host.Outcome State Fault Refusal :=
  vfnExec ({ vdivU .floats (fpFn (fun _ b _ => b.sqrt)) with one := true }) n k m vd va b s

/-! ## Comparisons -/

/-- vcmpeq (Table 6-5). -/
def execVcmpeq (n : Nat) (k : Cond) (m : Bool) (vd va : Fin 32) (b : VecSrc) (s : State) : Host.Outcome State Fault Refusal :=
  vfnExec (vcmpU .both (cmpFn (fun _ a b => a == b) (fun a b => a.eq b))) n k m vd va b s

/-- vcmpne: true for a NaN (R173). -/
def execVcmpne (n : Nat) (k : Cond) (m : Bool) (vd va : Fin 32) (b : VecSrc) (s : State) : Host.Outcome State Fault Refusal :=
  vfnExec (vcmpU .both (cmpFn (fun _ a b => a != b) (fun a b => !a.eq b))) n k m vd va b s

/-- vcmplt: signed (Table 6-5). -/
def execVcmplt (n : Nat) (k : Cond) (m : Bool) (vd va : Fin 32) (b : VecSrc) (s : State) : Host.Outcome State Fault Refusal :=
  vfnExec (vcmpU .both (cmpFn (fun w a b => decide (signedOf w a < signedOf w b)) (fun a b => a.lt b))) n k m vd va b s

/-- vcmpge: signed, false for a NaN (Table 6-5). -/
def execVcmpge (n : Nat) (k : Cond) (m : Bool) (vd va : Fin 32) (b : VecSrc) (s : State) : Host.Outcome State Fault Refusal :=
  vfnExec (vcmpU .both (cmpFn (fun w a b => decide (signedOf w b ≤ signedOf w a)) (fun a b => b.lt a || a.eq b))) n k m vd va b s

/-- vcmpltu (Table 6-5). -/
def execVcmpltu (n : Nat) (k : Cond) (m : Bool) (vd va : Fin 32) (b : VecSrc) (s : State) : Host.Outcome State Fault Refusal :=
  vfnExec (vcmpU .ints (cmpFn (fun _ a b => decide (a < b)) (fun _ _ => false))) n k m vd va b s

/-- vcmpgeu (Table 6-5). -/
def execVcmpgeu (n : Nat) (k : Cond) (m : Bool) (vd va : Fin 32) (b : VecSrc) (s : State) : Host.Outcome State Fault Refusal :=
  vfnExec (vcmpU .ints (cmpFn (fun _ a b => decide (b ≤ a)) (fun _ _ => false))) n k m vd va b s

/-! ## Dot products -/

/-- The register rules of a dot product of k terms (R181): the destination has G registers, VL is a multiple of k, and it overlaps no source. -/
def dotLegal (k : Nat) (ets : List Nat) (vd va : Nat) (b : VecSrc) (c : Core) : Bool :=
  let g := c.grp
  ets.contains c.et && c.vlen % k == 0 && grpOk vd g && grpOk va g && apart vd g va g &&
  (match b with
    | .vec v => grpOk v.val g && apart vd g v.val g
    | .scalar _ => true)

/-- The destination elements of a dot product: mask bit j and PROG govern element j (R152, R181). -/
def dotEls (k : Nat) (f : (et : Nat) → (abs : List (Nat × Nat)) → (d : Nat) → Nat) (m : Bool) (vd va : Nat) (b : VecSrc) (c : Core) :
    List VEl × Bool :=
  let w := c.sew
  let bAt (i : Nat) : Nat × Bool := match b with
    | .vec v => (c.vel v.val w i, c.vmark v.val w i)
    | .scalar d => (c.vscalar d.val, false)
  let js := (List.range (c.vlen / k)).filter (fun j => decide (c.prog.toNat ≤ j) && (!m || c.mbit 0 j))
  (js.map (fun j =>
    let is := (List.range k).map (fun t => k * j + t)
    { reg := vd, w := 32, i := j, val := f c.et (is.map (fun i => (c.vel va w i, (bAt i).1))) (c.vel vd 32 j) % 2 ^ 32,
      mark := c.gmark m j || c.vmark vd 32 j || is.any (fun i => c.vmark va w i || (bAt i).2) }), false)

/-- A dot product on core n. -/
def dotExec (t : Nat) (ets : List Nat) (u : VUnit) (f : (et : Nat) → (abs : List (Nat × Nat)) → (d : Nat) → Nat) (n : Nat) (k : Cond) (m : Bool)
    (vd va : Fin 32) (b : VecSrc) (s : State) : Host.Outcome State Fault Refusal :=
  vecIssue n k 2 (fun c => maskOk m vd.val && srcOk b c) (dotLegal t ets vd.val va.val b) (fun s =>
    let g := (s.core n).grp
    vecEls n u 4 false (maskReg m ++ regsOf va.val g ++ srcRegs b g ++ regsOf vd.val g) (regsOf vd.val g) (dotEls t f m vd.val va.val b) s) s

/-- vdot.q: signed INT8 dot products of four terms (R181). -/
def execVdotQ (n : Nat) (k : Cond) (m : Bool) (vd va : Fin 32) (b : VecSrc) (s : State) : Host.Outcome State Fault Refusal :=
  dotExec 4 [0] .vmul (fun _ xs d => codeOf 32 ((d : Int) + (xs.map (fun x => signedOf 8 x.1 * signedOf 8 x.2)).sum)) n k m vd va b s

/-- vdotu.q: unsigned INT8 dot products of four terms (R181). -/
def execVdotuQ (n : Nat) (k : Cond) (m : Bool) (vd va : Fin 32) (b : VecSrc) (s : State) : Host.Outcome State Fault Refusal :=
  dotExec 4 [0] .vmul (fun _ xs d => d + (xs.map (fun x => x.1 * x.2)).sum) n k m vd va b s

/-- vfdot.d: FP16 or BF16 dot products of two terms, rounded once to FP32 (R181). -/
def execVfdotD (n : Nat) (k : Cond) (m : Bool) (vd va : Fin 32) (b : VecSrc) (s : State) : Host.Outcome State Fault Refusal :=
  dotExec 2 [4, 5] .vfma (fun et xs d => match etFmt et with
    | some g => fp32.round (xs.foldl (fun (a : Num) x => a.add ((g.decode x.1).mul (g.decode x.2))) (fp32.decode d))
    | none => d) n k m vd va b s

end Sys2Proof.Machine
end

