-- ==== Sys2Proof/Machine/VecCore.lean ====
section
/-! DEFINITION. Sys2Proof/Machine/VecCore.lean: vsetvl and vwait (R163, R171), moves between scalars and elements, mask queries (R108, R170),
reductions and permutes (R185 to R187), conversion (R204, R205), the stream generator (R188, R189) and slice-combine (R190). -/

namespace Sys2Proof.Machine

/-! ## Control -/

/-- vsetvl sets ET, GRP and VL, and delivers VL (R163). -/
def vsetvlBody (n dd dn : Nat) (grp : BitVec 2) (et : BitVec 4) (s : State) : Res :=
  coreOnly n (fun c =>
    let max := 4096 * 2 ^ grp.toNat / etSew et.toNat
    let v : W32 := BitVec.ofNat 32 (if (c.dpair dn).toNat < max then (c.dpair dn).toNat else max)
    (((c.send 1 .vet ((grp.zeroExtend 64 <<< 4) ||| et.zeroExtend 64)).send 1 .vl (v.zeroExtend 64)).sendP 1 dd v)) s

/-- VSETVL (R163): a reserved ET in its immediate is an illegal encoding, and one in VTYPE faults too (R161). -/
def execVsetvl (n : Nat) (c : Cond) (dd dn : Fin 16) (grp : BitVec 2) (et : BitVec 4) (s : State) : Host.Outcome State Fault Refusal :=
  vecIssueAny n c 2 (fun _ => evenReg dd.val && evenReg dn.val && decide (et.toNat < 8)) (fun _ => true) (vsetvlBody n dd.val dn.val grp et) s

/-- VWAIT: accepted only when every earlier vector instruction has completed (R171). -/
def execVwait (n : Nat) (c : Cond) (s : State) : Host.Outcome State Fault Refusal :=
  vecIssueAny n c 2 (fun _ => true) (fun _ => true) (fun s => if (s.core n).vbusy.isEmpty then .done s else .held s) s

/-! ## Scalars and elements -/

/-- Sending a value of SEW to a scalar register (R165); at SEW 8 the upper byte is up (assumption log 3). -/
def Core.sendVal (c : Core) (d i sew v : Nat) (up : Nat) : Core :=
  if sew = 8 then c.sendD d i (BitVec.ofNat 16 (v % 256 + 256 * up)) else if sew = 16 then c.sendD d i (BitVec.ofNat 16 v)
  else if sew = 32 then c.sendP d i (BitVec.ofNat 32 v) else c.sendQ d i (BitVec.ofNat 64 v)

/-- An instruction with a scalar destination: held until the cross-lane unit accepts it; nothing when PROG is past what it performs (R152); a
free value if an element that it reads is early (R167, R168, R170); else what f does. -/
def vecScalar (n : Nat) (names reads : List Nat) (past : Bool) (free : W64 → Core → Core) (f : State → Res) (s : State) : Res :=
  let c := s.core n
  if !c.vAccept .vxu false names then .held s
  else if past then .done s
  else if !(c.earlyRegs reads).isEmpty then
    let (x, t) := s.free
    .done (t.modCore n (free x))
  else f (s.vecReads n reads)

/-- vmv.x (Table 6-6): a marked element faults (R193). It performs element Dn. With VL = 0 it performs none and reads none, and its section
states no value for that: the result is free (R162; assumption log 43). Its fault has no address, and FADDR is 0 (assumption log 136). -/
def vmvXBody (n dd va dn : Nat) (s : State) : Res :=
  let c := s.core n
  let i := (c.dreg dn).toNat
  let free (x : W64) (c : Core) : Core := c.sendVal 2 dd c.sew x.toNat (x.toNat / 2 ^ 8)
  let reads := if c.vlmax ≤ i ∨ c.vlen = 0 then [] else [va + i * c.sew / 4096]
  vecScalar n (regsOf va c.grp) reads (decide (i < c.prog.toNat)) free (fun s =>
    let c := s.core n
    let (x, t) := s.free
    if c.vlmax ≤ i then coreOnly n (fun c => c.sendVal 2 dd c.sew 0 x.toNat) t
    else if c.vlen = 0 then coreOnly n (free x) t
    else if c.vmark va c.sew i then .partial_ s .poison 0
    else coreOnly n (fun c => c.sendVal 2 dd c.sew (c.vel va c.sew i) x.toNat) t) s

/-- VMV_X (R170). -/
def execVmvX (n : Nat) (c : Cond) (dd : Fin 16) (va : Fin 32) (dn : Fin 16) (s : State) : Host.Outcome State Fault Refusal :=
  vecIssue n c 2 (fun c => c.vscalarOk dd.val) (fun c => grpOk va.val c.grp) (vmvXBody n dd.val va.val dn.val) s

/-- vins writes element Dn and ignores VL and M (Table 6-6); nothing when PROG is past it (R152). -/
def vinsBody (n vd dm dn : Nat) (s : State) : Res :=
  let c := s.core n
  let i := (c.dreg dn).toNat
  let dst := regsOf vd c.grp
  if !c.vAccept .valu false dst then .held s
  else if c.vlmax ≤ i ∨ i < c.prog.toNat then .done s
  else .done ((s.vecWrite n [{ reg := vd, w := c.sew, i := i, val := c.vscalar dm, mark := false }]).modCore n (fun c => c.vRuns .valu 2 false dst))

/-- VINS (R165). -/
def execVins (n : Nat) (c : Cond) (vd : Fin 32) (dm dn : Fin 16) (s : State) : Host.Outcome State Fault Refusal :=
  vecIssue n c 2 (fun c => c.vscalarOk dm.val) (fun c => grpOk vd.val c.grp) (vinsBody n vd.val dm.val dn.val) s

/-! ## Mask queries -/

/-- Whether a mask bit below VL is marked. -/
def Core.maskMark (c : Core) (vb : Nat) : Bool := (List.range c.vlen).any (fun i => c.mmark vb i)

/-- Pi and PPi as vany and vall send them at distance 2 (R108, R170). -/
def Core.sendPred (c : Core) (p : Nat) (v mark : Bool) : Core :=
  c.sendSr 2 (setBit (setBit 0 (4 + p) true) (16 + p) true) (setBit (setBit 0 (4 + p) v) (16 + p) mark)

/-- The register of mask bits that a query reads: with VL = 0 it reads none (R162). -/
def Core.queried (c : Core) (vb : Nat) : List Nat := if c.vlen = 0 then [] else [vb]

/-- Whether PROG has passed every element below VL (R152). -/
def Core.pastVl (c : Core) : Bool := decide (0 < c.prog.toNat) && decide (c.vlen ≤ c.prog.toNat)

/-- A query of the mask bits below VL into a predicate. -/
def vpredBody (n p vb : Nat) (f : List Bool → Bool) (s : State) : Res :=
  vecScalar n [vb] ((s.core n).queried vb) (s.core n).pastVl (fun x c => c.sendPred p (x.getLsbD 0) (x.getLsbD 1))
    (coreOnly n (fun c => c.sendPred p (f ((List.range c.vlen).map (fun i => c.mbit vb i))) (c.maskMark vb))) s

/-- VANY (R108, Table 6-6). -/
def execVany (n : Nat) (c : Cond) (p : Fin 4) (vb : Fin 32) (s : State) : Host.Outcome State Fault Refusal :=
  vecIssue n c 2 (fun _ => true) (fun _ => true) (vpredBody n p.val vb.val (fun l => l.any id)) s

/-- VALL: 1 for VL = 0 (R108, Table 6-6). -/
def execVall (n : Nat) (c : Cond) (p : Fin 4) (vb : Fin 32) (s : State) : Host.Outcome State Fault Refusal :=
  vecIssue n c 2 (fun _ => true) (fun _ => true) (vpredBody n p.val vb.val (fun l => l.all id)) s

/-- vpopc counts the set mask bits below VL; a marked one faults (R193), with FADDR 0 (assumption log 136). -/
def vpopcBody (n dd vb : Nat) (s : State) : Res :=
  vecScalar n [vb] ((s.core n).queried vb) (s.core n).pastVl (fun x c => c.sendP 2 dd (x.truncate 32)) (fun s =>
    if (s.core n).maskMark vb then .partial_ s .poison 0
    else coreOnly n (fun c => c.sendP 2 dd (BitVec.ofNat 32 ((List.range c.vlen).countP (fun i => c.mbit vb i)))) s) s

/-- VPOPC (R170). -/
def execVpopc (n : Nat) (c : Cond) (dd : Fin 16) (vb : Fin 32) (s : State) : Host.Outcome State Fault Refusal :=
  vecIssue n c 2 (fun _ => evenReg dd.val) (fun _ => true) (vpopcBody n dd.val vb.val) s

/-! ## Reductions -/

/-- Node j of the tree whose leaves lie h levels below it (R185). -/
def redNode (op : Nat → Nat → Nat) (leaf : Nat → Option Nat) : (h j : Nat) → Option Nat
  | 0, j => leaf j
  | h + 1, j => match redNode op leaf h (2 * j), redNode op leaf h (2 * j + 1) with
    | some a, some b => some (op a b)
    | some a, none => some a
    | none, b => b

/-- The element a reduction writes (R185): nothing when PROG stands at or past VL (R152, R162). -/
def redEls (op : (et x y : Nat) → Nat) (m : Bool) (vd va vb : Nat) (c : Core) : List VEl × Bool :=
  let w := c.sew
  let act (i : Nat) : Bool := decide (i < c.vlen) && (!m || c.mbit 0 i)
  let leaf (i : Nat) : Option Nat := if act i then some (c.vel vb w i) else none
  let x := c.vel va w 0
  let r := match redNode (op c.et) leaf (clog2 c.vlen) 0 with
    | some t => op c.et x t
    | none => x
  let mk := c.vmark va w 0 || (List.range c.vlen).any (fun i => c.gmark m i || (act i && c.vmark vb w i))
  (if c.vlen ≤ c.prog.toNat then [] else [{ reg := vd, w := w, i := 0, val := r, mark := mk }], false)

/-- A reduction on core n. -/
def redExec (op : (et x y : Nat) → Nat) (n : Nat) (k : Cond) (m : Bool) (vd va vb : Fin 32) (s : State) : Host.Outcome State Fault Refusal :=
  vecIssue n k 2 (fun _ => maskOk m vd.val) (fun c => grpOk vd.val c.grp && grpOk va.val c.grp && grpOk vb.val c.grp) (fun s =>
    let g := (s.core n).grp
    vecEls n .vxu 3 false (maskReg m ++ regsOf va.val g ++ regsOf vb.val g) (regsOf vd.val g) (redEls op m vd.val va.val vb.val) s) s

/-- VREDSUM (R185). -/
def execVredsum (n : Nat) (c : Cond) (m : Bool) (vd va vb : Fin 32) (s : State) : Host.Outcome State Fault Refusal :=
  redExec vSum n c m vd va vb s

/-- VREDMAX (R185). -/
def execVredmax (n : Nat) (c : Cond) (m : Bool) (vd va vb : Fin 32) (s : State) : Host.Outcome State Fault Refusal :=
  redExec vMax n c m vd va vb s

/-- VREDMIN (R185). -/
def execVredmin (n : Nat) (c : Cond) (m : Bool) (vd va vb : Fin 32) (s : State) : Host.Outcome State Fault Refusal :=
  redExec vMin n c m vd va vb s

/-! ## Permutes -/

/-- vslideup: Vd[i] = Va[i − s] for s ≤ i (R186). -/
def slideUpEls (m : Bool) (vd va sl : Nat) (c : Core) : List VEl × Bool :=
  let w := c.sew
  (((c.lanes m).filter (fun i => decide (sl ≤ i))).map (fun i =>
    { reg := vd, w := w, i := i, val := c.vel va w (i - sl), mark := c.gmark m i || c.vmark va w (i - sl) }), false)

/-- VSLIDEUP (R186). -/
def execVslideup (n : Nat) (c : Cond) (m : Bool) (vd va : Fin 32) (dn : Fin 16) (s : State) : Host.Outcome State Fault Refusal :=
  vecIssue n c 2 (fun _ => maskOk m vd.val) (fun c => grpOk vd.val c.grp && grpOk va.val c.grp && apart vd.val c.grp va.val c.grp) (fun s =>
    let c := s.core n
    vecEls n .vxu 3 false (maskReg m ++ regsOf va.val c.grp) (regsOf vd.val c.grp) (slideUpEls m vd.val va.val (c.dreg dn.val).toNat) s) s

/-- vslidedown: Vd[i] = Va[i + s], 0 past VL (R186). -/
def slideDownEls (m : Bool) (vd va sl : Nat) (c : Core) : List VEl × Bool :=
  let w := c.sew
  ((c.lanes m).map (fun i =>
    let in_ := decide (i + sl < c.vlen)
    { reg := vd, w := w, i := i, val := if in_ then c.vel va w (i + sl) else 0, mark := c.gmark m i || (in_ && c.vmark va w (i + sl)) }),
   false)

/-- VSLIDEDOWN (R186). -/
def execVslidedown (n : Nat) (c : Cond) (m : Bool) (vd va : Fin 32) (dn : Fin 16) (s : State) : Host.Outcome State Fault Refusal :=
  vecIssue n c 2 (fun _ => maskOk m vd.val) (fun c => grpOk vd.val c.grp && grpOk va.val c.grp) (fun s =>
    let c := s.core n
    vecEls n .vxu 3 false (maskReg m ++ regsOf va.val c.grp) (regsOf vd.val c.grp) (slideDownEls m vd.val va.val (c.dreg dn.val).toNat) s) s

/-- vgatherv: Vd[i] = Va[Vb[i]], 0 where Vb[i] ≥ VLMAX (R186). -/
def gatherEls (m : Bool) (vd va vb : Nat) (c : Core) : List VEl × Bool :=
  let w := c.sew
  ((c.lanes m).map (fun i =>
    let j := c.vel vb w i
    let in_ := decide (j < c.vlmax)
    { reg := vd, w := w, i := i, val := if in_ then c.vel va w j else 0,
      mark := c.gmark m i || c.vmark vb w i || (in_ && c.vmark va w j) }), false)

/-- VGATHERV (R186): serialising (R169). -/
def execVgatherv (n : Nat) (c : Cond) (m : Bool) (vd va vb : Fin 32) (s : State) : Host.Outcome State Fault Refusal :=
  vecIssue n c 2 (fun _ => maskOk m vd.val) (fun c => grpOk vd.val c.grp && grpOk va.val c.grp && grpOk vb.val c.grp &&
      apart vd.val c.grp va.val c.grp && apart vd.val c.grp vb.val c.grp) (fun s =>
    let g := (s.core n).grp
    vecEls n .vxu 1 true (maskReg m ++ regsOf va.val g ++ regsOf vb.val g) (regsOf vd.val g) (gatherEls m vd.val va.val vb.val) s) s

/-- vcompress: the elements below VL whose mask bit is 1, in order, from Vd[0] (R186); nothing when PROG stands at or past VL (R152). -/
def compressEls (vd va vb : Nat) (c : Core) : List VEl × Bool :=
  let w := c.sew
  let is := (List.range c.vlen).filter (fun i => c.mbit vb i)
  (if c.vlen ≤ c.prog.toNat then []
   else is.zipIdx.map (fun x => { reg := vd, w := w, i := x.2, val := c.vel va w x.1,
                                  mark := c.vmark va w x.1 || (List.range (x.1 + 1)).any (fun j => c.mmark vb j) }), false)

/-- VCOMPRESS (R186): serialising (R169). -/
def execVcompress (n : Nat) (c : Cond) (vd va vb : Fin 32) (s : State) : Host.Outcome State Fault Refusal :=
  vecIssue n c 2 (fun _ => true) (fun c => grpOk vd.val c.grp && grpOk va.val c.grp && apart vd.val c.grp va.val c.grp &&
      apart vd.val c.grp vb.val 1) (fun s =>
    let g := (s.core n).grp
    vecEls n .vxu 1 true (vb.val :: regsOf va.val g) (regsOf vd.val g) (compressEls vd.val va.val vb.val) s) s

/-! ## Conversion -/

/-- Source and destination of a conversion by TF[3:0], none for INT32 (Table 7-5), with their widths. -/
def cvtSrc (f : Nat) : Option Fmt :=
  if f = 2 ∨ f = 0xA ∨ f = 0xB ∨ f = 0xE then some bf16 else if f = 3 then some fp16 else if f = 4 then some fp64
  else if f = 8 then some e4m3 else if f = 9 then some e5m2 else if f = 0xD then none else if f = 0xF then some e2m1 else some fp32
def cvtDst (f : Nat) : Option Fmt :=
  if f = 0 ∨ f = 0xF then some bf16 else if f = 1 then some fp16 else if f = 5 then some fp64 else if f = 6 ∨ f = 0xA then some e4m3
  else if f = 7 ∨ f = 0xB then some e5m2 else if f = 0xC then none else if f = 0xE then some e2m1 else some fp32
def cvtW (f : Option Fmt) : Nat := match f with
  | some f => f.bits
  | none => 32

/-- Whether TF[4] has a value that Table 7-5 gives. -/
def cvtModeOk (tf : BitVec 5) : Bool :=
  let f := fld tf 0 4
  let t := tf.getLsbD 4
  if f = 0xC ∨ f = 0xE then t else if f = 0 ∨ f = 1 ∨ f = 4 ∨ f = 6 ∨ f = 7 ∨ f = 0xA ∨ f = 0xB then true else !t

/-- Registers of one side of a conversion, given its width and the wider one (R205). -/
def cvtRegs (g w ww : Nat) : Nat := if g * w / ww = 0 then 1 else g * w / ww

/-- Converting one element: its code, and whether it sets VTYPE.SAT (R201 to R205). -/
def cvtEl (f : Nat) (sat : Bool) (x : Nat) : Nat × Bool :=
  match cvtSrc f, cvtDst f with
  | some a, some b =>
    let r := b.convert sat (a.decode x)
    let lim := sat || b.kind == .finite
    (r.1, match r.2 with
      | .saturated => true
      | .infinite => lim
      | .nan => b.kind == .finite
      | _ => false)
  | some a, none =>
    let r := (a.decode x).toInt 32
    (codeOf 32 r.1, r.2)
  | none, some b => (b.round (Num.ofInt (signedOf 32 x)), false)
  | none, none => (x, false)

/-- The elements vcvt writes (R204). -/
def cvtEls (m : Bool) (vd va f : Nat) (sat : Bool) (c : Core) : List VEl × Bool :=
  let ws := cvtW (cvtSrc f)
  let wd := cvtW (cvtDst f)
  let rs : List (VEl × Bool) := (c.lanes m).map (fun i =>
    let r := cvtEl f sat (c.vel va ws i)
    ({ reg := vd, w := wd, i := i, val := r.1, mark := c.gmark m i || c.vmark va ws i },
     r.2 && !((m && c.earlyEl 0 1 i) || c.earlyEl va ws i)))
  (rs.map (·.1), rs.any (·.2))

/-- The rules of R205 under VTYPE and VL. -/
def cvtLegal (vd va : Nat) (tf : BitVec 5) (c : Core) : Bool :=
  let f := fld tf 0 4
  let ws := cvtW (cvtSrc f)
  let wd := cvtW (cvtDst f)
  let ww := if ws < wd then wd else ws
  let ka := cvtRegs c.grp ws ww
  let kd := cvtRegs c.grp wd ww
  decide (c.vlen ≤ 4096 * c.grp / ww) && grpOk va ka && grpOk vd kd && (ws == wd || apart vd kd va ka)

/-- VCVT (R204, R205). -/
def execVcvt (n : Nat) (c : Cond) (m : Bool) (vd va : Fin 32) (tf : BitVec 5) (s : State) : Host.Outcome State Fault Refusal :=
  vecIssueAny n c 2 (fun _ => cvtModeOk tf && maskOk m vd.val) (cvtLegal vd.val va.val tf) (fun s =>
    let g := (s.core n).grp
    let f := fld tf 0 4
    let ws := cvtW (cvtSrc f)
    let wd := cvtW (cvtDst f)
    let ww := if ws < wd then wd else ws
    vecEls n .vfma 4 false (maskReg m ++ regsOf va.val (cvtRegs g ws ww)) (regsOf vd.val (cvtRegs g wd ww))
      (cvtEls m vd.val va.val f (tf.getLsbD 4)) s) s

/-! ## The stream generator -/

/-- The four rounds of the generator (R188). -/
def genRounds : Nat → W64 → W64 → W64
  | 0, x, _ => x
  | k + 1, x, y =>
    let a := x + y
    let b := (a ^^^ (a >>> 31)) * 0x9C4FA31D57E260B9
    genRounds k b (y + 0x6A3D9F05C1B28E47)

/-- A draw (R188). -/
def genDraw (key : W64) (stream step idx : W32) : W64 :=
  let x := genRounds 4 (step ++ idx) (key ^^^ (stream.zeroExtend 64 * 0xA24BAED4963EE407))
  x ^^^ (x >>> 29)

/-- A draw as an element (R189). -/
def genEl (et : Nat) (r : W64) : Nat :=
  if et = 7 then fp64.round (.fin false (r.toNat / 2 ^ 11) (-53)) else if et = 6 then fp32.round (.fin false (r.toNat / 2 ^ 40) (-24))
  else if et = 4 then fp16.round (.fin false (r.toNat / 2 ^ 53) (-11)) else if et = 5 then bf16.round (.fin false (r.toNat / 2 ^ 56) (-8))
  else r.toNat / 2 ^ (64 - etSew et)

/-- The elements vgen writes (R188). -/
def genEls (m : Bool) (vd : Nat) (key : W64) (stream step base : W32) (c : Core) : List VEl × Bool :=
  ((c.lanes m).map (fun i =>
    { reg := vd, w := c.sew, i := i, val := genEl c.et (genDraw key stream step (base + BitVec.ofNat 32 i)), mark := c.gmark m i }), false)

/-- VGEN (R188). -/
def execVgen (n : Nat) (c : Cond) (m : Bool) (vd : Fin 32) (dk ds dt db : Fin 16) (s : State) : Host.Outcome State Fault Refusal :=
  vecIssue n c 4 (fun _ => maskOk m vd.val && quadReg dk.val && evenReg ds.val && evenReg dt.val && evenReg db.val)
    (fun c => grpOk vd.val c.grp) (fun s =>
      let c := s.core n
      vecEls n .vmul 4 false (maskReg m) (regsOf vd.val c.grp)
        (genEls m vd.val (c.dquad dk.val) (c.dpair ds.val) (c.dpair dt.val) (c.dpair db.val)) s) s

/-! ## Top-k -/

/-- Whether a value ranks above another (R187). -/
def ranksAbove (et x y : Nat) : Bool := match etFmt et with
  | some f => if isNan f x then false else if isNan f y then true else (f.decode y).lt (f.decode x)
  | none => decide (signedOf (etSew et) y < signedOf (etSew et) x)

/-- Placing a candidate below every one that it does not rank above. -/
def rankIn (et : Nat) (x : Nat × Nat) : List (Nat × Nat) → List (Nat × Nat)
  | [] => [x]
  | y :: r => if ranksAbove et x.1 y.1 then x :: y :: r else y :: rankIn et x r

/-- The value of an empty slot (R187). -/
def emptySlot (et : Nat) : Nat := match etFmt et with
  | some f => f.canon
  | none => 2 ^ (etSew et - 1)

/-- The number of segments (R187). -/
def topkSegs (vl seg : Nat) : Nat := if seg = 0 then 1 else cdiv vl seg

/-- The elements vtopk writes (R187); nothing when PROG stands at or past VL (R152, R162). -/
def topkEls (m : Bool) (vd vp va k seg : Nat) (c : Core) : List VEl × Bool :=
  let w := c.sew
  let len := if seg = 0 then c.vlen else seg
  let one (j : Nat) : List VEl :=
    let is := (List.range len).filter (fun p => decide (j * len + p < c.vlen))
    let cand := is.filter (fun p => !m || c.mbit 0 (j * len + p))
    let best := cand.foldl (fun l p => rankIn c.et (c.vel va w (j * len + p), p) l) []
    let mk := is.any (fun p => c.gmark m (j * len + p)) || cand.any (fun p => c.vmark va w (j * len + p))
    ((List.range k).map (fun t =>
      let x := best.getD t (emptySlot c.et, 0xFFFF)
      [{ reg := vd, w := w, i := j * k + t, val := x.1, mark := mk }, { reg := vp, w := 16, i := j * k + t, val := x.2, mark := mk }])).flatten
  (if c.vlen ≤ c.prog.toNat then [] else ((List.range (topkSegs c.vlen seg)).map one).flatten, false)

/-- The rules of R187 under VTYPE and VL. -/
def topkLegal (vd vp va k seg : Nat) (c : Core) : Bool :=
  let g := c.grp
  let slots := topkSegs c.vlen seg * k
  grpOk vd g && grpOk vp g && grpOk va g && decide (slots ≤ c.vlmax) &&
  decide (slots ≤ 256 * g) && apart vd g vp g && apart vd g va g && apart vp g va g

/-- VTOPK (R187): the field holds k − 1; serialising (R169). -/
def execVtopk (n : Nat) (c : Cond) (m : Bool) (vd vp va : Fin 32) (k : BitVec 6) (seg : BitVec 13) (s : State) :
    Host.Outcome State Fault Refusal :=
  vecIssue n c 4 (fun _ => decide (seg.toNat ≤ 4096) && maskOk m vd.val && maskOk m vp.val)
    (topkLegal vd.val vp.val va.val (k.toNat + 1) seg.toNat) (fun s =>
    let g := (s.core n).grp
    vecEls n .vxu 1 true (maskReg m ++ regsOf va.val g) (regsOf vd.val g ++ regsOf vp.val g)
      (topkEls m vd.val vp.val va.val (k.toNat + 1) seg.toNat) s) s

/-! ## Slice-combine -/

/-- The elements vscomb writes (R190). -/
def scombEls (vd va ve nl : Nat) (c : Core) : List VEl × Bool :=
  let g := c.grp
  ((c.lanes false).map (fun i =>
    let v : Int := ((List.range nl).map (fun l => signedOf 32 (c.vel (va + l * g) 32 i) * 2 ^ (8 * (nl - 1 - l)))).sum
    let e : Int := signedOf 32 (c.vel ve 32 i) - 8 * (nl - 1 : Nat)
    { reg := vd, w := 64, i := i, val := fp64.round ((Num.ofInt v).scale e),
      mark := c.vmark ve 32 i || (List.range nl).any (fun l => c.vmark (va + l * g) 32 i) }), false)

/-- VSCOMB (R190): the field holds NL − 1. -/
def execVscomb (n : Nat) (c : Cond) (vd va ve : Fin 32) (nl : BitVec 3) (s : State) : Host.Outcome State Fault Refusal :=
  let k := nl.toNat + 1
  vecIssue n c 4 (fun _ => true) (fun c => c.et == 2 && decide (c.grp ≤ 4) && grpOk vd.val (2 * c.grp) && va.val % c.grp == 0 &&
      decide (va.val + k * c.grp ≤ 32) && grpOk ve.val c.grp && apart vd.val (2 * c.grp) va.val (k * c.grp) &&
      apart vd.val (2 * c.grp) ve.val c.grp) (fun s =>
    let g := (s.core n).grp
    vecEls n .vfma 6 false (regsOf va.val (k * g) ++ regsOf ve.val g) (regsOf vd.val (2 * g)) (scombEls vd.val va.val ve.val k) s) s

end Sys2Proof.Machine
end

