-- ==== Sys2Proof/Machine/VecMem.lean ====
section
/-! DEFINITION. Sys2Proof/Machine/VecMem.lean: vector loads and stores (R174 to R178, R193, R194), and the completion of a vector instruction
in its unit (R168, R169). -/

namespace Sys2Proof.Machine

/-! ## Forms -/

/-- The forms of Table 6-8: unit stride, a stride in words, structures of nf fields, and a register of word offsets. -/
inductive VForm where
  | unit | strided (by_ : W64) | seg (nf : Nat) | index (vi : Nat)
deriving DecidableEq, Repr

/-- Fields of a structure, and whether the form is always serialising (R169). -/
def VForm.fields : VForm → Nat
  | .seg nf => nf
  | _ => 1
def VForm.serial : VForm → Bool
  | .unit => false
  | _ => true

/-- Words of an access: one for two elements of 8 bits. -/
def accW (sew : Nat) : Nat := if sew < 16 then 1 else sew / 16

/-- The word address of field f of element or structure i (Table 6-8). -/
def VForm.addr (k : VForm) (c : Core) (an : W64) (i f : Nat) : W64 := match k with
  | .unit => an + BitVec.ofNat 64 (i * c.sew / 16)
  | .strided d => an + BitVec.ofNat 64 i * d
  | .seg nf => an + BitVec.ofNat 64 ((i * nf + f) * c.sew / 16)
  | .index vi => an + BitVec.ofNat 64 (c.vel vi 32 i)

/-- Registers of the index group (R175), the registers it names, and whether element i of it is marked. -/
def idxSpan (g sew : Nat) : Nat := if g * 32 / sew = 0 then 1 else g * 32 / sew
def VForm.idxRegs (k : VForm) (c : Core) : List Nat := match k with
  | .index vi => regsOf vi (idxSpan c.grp c.sew)
  | _ => []
def VForm.idxMark (k : VForm) (c : Core) (i : Nat) : Bool := match k with
  | .index vi => c.vmark vi 32 i
  | _ => false

/-- The span that UP adds to An (Table 6-8). -/
def VForm.span (k : VForm) (c : Core) : W64 := match k with
  | .unit => BitVec.ofNat 64 (cdiv (c.vlen * c.sew) 16)
  | .seg nf => BitVec.ofNat 64 (c.vlen * nf * c.sew / 16)
  | _ => 0

/-- The registers that hold the data: field f of structure i in group vd + f × G (R175). -/
def VForm.dataRegs (k : VForm) (c : Core) (vd : Nat) : List Nat := regsOf vd (k.fields * c.grp)

/-- What the encoding of a load or store must meet (R164, R174). -/
def vmemEnc (k : VForm) (load m : Bool) (vd : Nat) (up : Bool) : Bool :=
  (!load || maskOk m vd) && (match k with
    | .unit => true
    | .seg _ => true
    | .strided _ => !up
    | .index _ => !up)

/-- The rules of R161, R175 and R176 under VTYPE. -/
def vmemLegal (k : VForm) (vd : Nat) (c : Core) : Bool :=
  let g := c.grp
  vd % g == 0 && decide (vd + k.fields * g ≤ 32) &&
  (match k with
    | .unit => true
    | .seg _ => decide (16 ≤ c.sew)
    | .strided _ => decide (16 ≤ c.sew)
    | .index vi => decide (16 ≤ c.sew) && decide (idxSpan g c.sew ≤ 8) && grpOk vi (idxSpan g c.sew))

/-! ## One element -/

/-- Why a vector access stops before an element: a fault of checks 5 and 6 or a later one, with FADDR (R177), a table walk (R305), or an entry
that waits (R194). -/
inductive VStop where
  | fault (c : Cause) (faddr : W64) | late (c : Cause) (faddr : W64) | walk (ea : W64) | entry
deriving DecidableEq, Repr

/-- Where an element lies: local memory by physical address, or a device. -/
inductive VPlace where
  | mem (pa : Nat) | dev (r : Region) (pa : Nat)
deriving DecidableEq, Repr

/-- Checks 5 to 7 of one element (R177, R178). -/
def State.vplace (s : State) (n sew : Nat) (ea : W64) (write : Bool) : Except VStop VPlace :=
  match s.lsTarget ea (accW sew) with
  | .bad c => .error (.fault c ea)
  | .local_ => .ok (.mem (physOf n (localOf ea)))
  | .device r =>
    if sew ≠ 32 then .error (.fault .misaligned ea)
    else if !s.xlOn n (s.core n).sup then .ok (.dev r (localOf ea))
    else match s.tlbFind n (localOf ea) with
      | none => .error (.walk ea)
      | some e => match s.leafCheck e (localOf ea) write (.direct r) with
        | some c => .error (.late c ea)
        | none => .ok (.dev r (e.pa (localOf ea)))

/-- Where the fields of element or structure i lie, with their addresses, or why it is not performed; check 8 last. -/
def State.vplaces (s : State) (n : Nat) (k : VForm) (c : Core) (an : W64) (i : Nat) (write : Bool) :
    Except VStop (List (W64 × VPlace)) :=
  let rec go : List Nat → Except VStop (List (W64 × VPlace))
    | [] => if k.idxMark c i then .error (.late .poison an) else .ok []
    | f :: r =>
      let ea := k.addr c an i f
      match s.vplace n c.sew ea write, go r with
      | .error x, _ => .error x
      | _, .error x => .error x
      | .ok p, .ok ps => .ok ((ea, p) :: ps)
  go (List.range k.fields)

/-- The TLB before element or structure i is placed, where it names a device and is translated (R307). -/
def State.vfresh (s : State) (n : Nat) (k : VForm) (c : Core) (an : W64) (i : Nat) : State :=
  (List.range k.fields).foldl (fun s f =>
    let va := localOf (k.addr c an i f)
    if devRegion va && s.xlOn n c.sup then s.fresh n va else s) s

/-- How far a vector access came: the state, what it still has to write, and why and before which element it stopped. -/
structure VRun where
  s    : State
  els  : List VEl
  out  : List (Nat × Nat × Nat × Bool)
  stop : Option (Nat × VStop)

/-- The elements that a serialising access performs before it stops at an element boundary for an entry that waits, with the one it stops
before (R147, R194). Whether and where it stops is free; the first element is performed always. -/
def State.untilEntry (s : State) (n : Nat) (serial : Bool) (is : List Nat) : List Nat × Option Nat × State :=
  if serial && s.entryWaits n && decide (1 < is.length) then
    let (x, t) := s.free
    let k := x.toNat % is.length + 1
    (is.take k, is[k]?, t)
  else (is, none, s)

/-- A run that was cut for an entry stops there, if nothing stopped it before. -/
def VRun.cut (x : VRun) (at_ : Option Nat) : VRun := { x with stop := x.stop.orElse (fun _ => at_.map (fun i => (i, .entry))) }

/-! ## Loads -/

/-- Reading one field: the value of an element and its mark. -/
def State.vread (s : State) (sew i : Nat) : VPlace → State × Nat × Bool
  | .mem pa =>
    let t := s.touchAll (addrs pa (accW sew))
    let x := natOfWords (t.words pa (accW sew))
    (t, if sew < 16 then elAt x 8 (i % 2) else x, t.anyMark pa (accW sew))
  | .dev r pa => (s.devSees r pa, ((s.devSees r pa).devRead r pa).toNat, false)

/-- Loading the elements of a list in order (R177); quiet makes no fault (R167). -/
def vloadLoop (n : Nat) (k : VForm) (c : Core) (m quiet : Bool) (vd : Nat) (an : W64) : List Nat → VRun → VRun
  | [], x => x
  | i :: is, x =>
    let x : VRun := { x with s := x.s.vfresh n k c an i }
    match x.s.vplaces n k c an i false with
    | .error e => if quiet then vloadLoop n k c m quiet vd an is x else { x with stop := some (i, e) }
    | .ok ps =>
      let one (x : VRun) (p : (W64 × VPlace) × Nat) : VRun :=
        let r := x.s.vread c.sew i p.1.2
        let e : VEl := { reg := vd + p.2 * c.grp, w := c.sew, i := i, val := r.2.1, mark := r.2.2 || c.gmark m i || k.idxMark c i }
        { x with s := r.1, els := x.els ++ [e] }
      vloadLoop n k c m quiet vd an is (ps.zipIdx.foldl one x)

/-- Whether an access of the instruction names a device: it is then serialising (R169). -/
def VForm.anyDev (k : VForm) (c : Core) (m : Bool) (an : W64) : Bool :=
  (c.lanes m).any (fun i => (List.range k.fields).any (fun f => devRegion (localOf (k.addr c an i f))))

/-- A vector access stops before element i with PROG there; where i is not the first it was to perform, it has performed one, and an interrupt
may stop it again (R177, R194). -/
def Core.stopsAt (c : Core) (head : Option Nat) (i : Nat) : Core :=
  { c with prog := BitVec.ofNat 32 i, resumed := c.resumed && decide (head = some i) }

/-- The end of a vector access: the instruction completes and updates An (R174), or stops with PROG at an element (R177, R194): one that
stopped for an entry issues again, after the entry's return or at once. One that reset its own core leaves that core as the reset left it
(R56). -/
def vmemEnd (n : Nat) (k : VForm) (an : Fin 8) (up : Bool) (took : Core → Core) (head : Option Nat) (x : VRun) (s : State) : Res :=
  if (s.core n).resetting then .taken s
  else match x.stop with
  | none =>
    .done (s.modCore n (fun c => took (if up then c.send 1 (.a an.val) (c.areg an.val + k.span c) else c)))
  | some (i, .fault y f) =>
    let t := s.modCore n (fun c => c.stopsAt head i)
    if head = some i then .first t y f else .partial_ t y f
  | some (i, .late y f) => .partial_ (s.modCore n (fun c => c.stopsAt head i)) y f
  | some (i, .walk ea) => .held ((s.modCore n (fun c => c.stopsAt head i)).holdWalk n ea false)
  | some (i, .entry) => .held (s.modCore n (fun c => c.stopsAt head i))

/-- A vector load (R174 to R178). A busy unit holds it back, but not the checks of its first element that an entry at its boundary waits for
(R145). -/
def vloadBody (k : VForm) (n : Nat) (m : Bool) (vd : Nat) (an : Fin 8) (up : Bool) (s : State) : Res :=
  let c := s.core n
  let a := c.areg an.val
  let reads := maskReg m ++ k.idxRegs c
  let dst := k.dataRegs c vd
  let dev := k.anyDev c m a
  let serial := k.serial || dev
  if !c.vAccept .vls serial (reads ++ dst) && !c.peek then .held s
  else
    let (seen, u) := s.vSeen n reads
    let (is, cut, t) := u.untilEntry n serial (seen.lanes m)
    let quiet := !(c.earlyRegs reads).isEmpty
    let x := (vloadLoop n k seen m quiet vd a is { s := t, els := [], out := [], stop := none }).cut cut
    vmemEnd n k an up (fun c => c.vTook .vls (if serial then 1 else 6) serial dst) is.head? x (x.s.vecWrite n x.els)

/-! ## Stores -/

/-- Writing words whose halves are given: key 2 × address + half for elements of 8 bits; the other half is the word's own (R176). -/
def State.vhalves (s : State) (hs : List (Nat × Nat × Bool)) : List (Nat × Word × Bool) :=
  let ws := (hs.map (fun h => h.1 / 2)).dedup
  ws.map (fun a =>
    let lo := (hs.filter (fun h => h.1 == 2 * a)).getLast?
    let hi := (hs.filter (fun h => h.1 == 2 * a + 1)).getLast?
    let old := (s.word a).toNat
    let whole := lo.isSome && hi.isSome
    let l := (lo.map (fun h => h.2.1)).getD (old % 256)
    let h := (hi.map (fun h => h.2.1)).getD (old / 256)
    (a, BitVec.ofNat 16 (l % 256 + 256 * h),
     (lo.map (fun h => h.2.2)).getD false || (hi.map (fun h => h.2.2)).getD false || (!whole && s.poisoned a)))

/-- The words of a word address that two or more elements of 16 bits or more give. -/
def vwordsOf (sew pa v : Nat) (mark : Bool) : List (Nat × Word × Bool) := runOf pa (wordsOfNat (sew / 16) v) mark

/-- The words that a vector store of core n writes: they follow every earlier store of it, and fetch that follows sees them and no older words
(R171; assumption log 22). -/
def State.vwrite (s : State) (n : Nat) (ws : List (Nat × Word × Bool)) : State :=
  (s.modCore n (fun c => { c with unfetched := c.unfetched.filter (fun u => !ws.any (fun w => w.1 == u.addr)) })).writeMarked ws

/-- Writing what a unit-stride or structure store of core n gathered, as one write. -/
def State.vflush (s : State) (n sew : Nat) (out : List (Nat × Nat × Nat × Bool)) : State :=
  if sew < 16 then
    let hs := out.map (fun o => (2 * o.1 + o.2.1, o.2.2.1, o.2.2.2))
    let t := s.touchAll (out.map (fun o => o.1))
    t.vwrite n (t.vhalves hs)
  else s.vwrite n ((out.map (fun o => vwordsOf sew o.1 o.2.2.1 o.2.2.2)).flatten)

/-- Where the fields of element i of a store lie: a store that reset its own core places the elements that are left by the translations that it
had before (R56; assumption log 133). -/
def State.vplacesBy (s : State) (n : Nat) (k : VForm) (c : Core) (an : W64) (i : Nat) : Except VStop (List (W64 × VPlace)) :=
  (if (s.core n).resetting then s.setCore n c else s).vplaces n k c an i true

/-- Storing the elements of a list in order (R177): an element of a strided form or a scatter is written at once, the others are gathered;
a marked element that goes to a device faults (R193). A store that reads its mask, its offsets (quiet) or its data (qdata) too early writes no
device register: an undefined effect reaches the task's memory, registers and tiles only (R22, R167). -/
def vstoreLoop (n : Nat) (k : VForm) (c : Core) (m quiet qdata : Bool) (vd : Nat) (an : W64) : List Nat → VRun → VRun
  | [], x => x
  | i :: is, x =>
    let val (f : Nat) : Nat := c.vel (vd + f * c.grp) c.sew i
    let mk (f : Nat) : Bool := c.vmark (vd + f * c.grp) c.sew i || c.gmark m i || k.idxMark c i
    let x : VRun := { x with s := x.s.vfresh n k c an i }
    match x.s.vplacesBy n k c an i with
    | .error e => if quiet then vstoreLoop n k c m quiet qdata vd an is x else { x with stop := some (i, e) }
    | .ok ps =>
      match ps.zipIdx.find? (fun p => mk p.2 && !qdata && (match p.1.2 with
        | .dev _ _ => true
        | .mem _ => false)) with
      | some p => { x with stop := some (i, .late .poison p.1.1) }
      | none =>
        let one (x : VRun) (p : (W64 × VPlace) × Nat) : VRun := match p.1.2 with
          | .dev r pa => if quiet || qdata then x else { x with s := x.s.devWrite n c.sup r pa (BitVec.ofNat 32 (val p.2)) }
          | .mem pa => { x with out := x.out ++ [(pa, i % 2, val p.2, mk p.2)] }
        let y := ps.zipIdx.foldl one x
        let z : VRun := match k with
          | .strided _ => { y with s := y.s.vflush n c.sew y.out, out := [] }
          | .index _ => { y with s := y.s.vflush n c.sew y.out, out := [] }
          | _ => y
        vstoreLoop n k c m quiet qdata vd an is z

/-- A vector store (R174 to R178). One that resets its own core, at once or by a reset that is held, completes: the elements that an entry would
have stopped it before follow (R56, R58). Such a core is at supervisor level, so none of them waits for a table walk (R56, R300). -/
def vstoreBody (k : VForm) (n : Nat) (m : Bool) (vd : Nat) (an : Fin 8) (up : Bool) (s : State) : Res :=
  let c := s.core n
  let a := c.areg an.val
  let ctl := maskReg m ++ k.idxRegs c
  let reads := ctl ++ k.dataRegs c vd
  let serial := k.serial || k.anyDev c m a
  if !c.vAccept .vls serial reads && !c.peek then .held s
  else
    let (seen, u) := s.vSeen n reads
    let (is, cut, t) := u.untilEntry n serial (seen.lanes m)
    let quiet := !(c.earlyRegs ctl).isEmpty
    let qdata := !(c.earlyRegs reads).isEmpty
    let y := vstoreLoop n k seen m quiet qdata vd a is { s := t, els := [], out := [], stop := none }
    let x := if ((y.s.core n).resetting || (y.s.core n).stopReq) && y.stop.isNone then vstoreLoop n k seen m quiet qdata vd a ((seen.lanes m).drop is.length) y else y.cut cut
    vmemEnd n k an up (fun c => c.vTook .vls 1 serial []) is.head? x (x.s.vflush n c.sew x.out)

/-! ## The instructions -/

/-- VLD (R174). -/
def execVld (n : Nat) (c : Cond) (m : Bool) (vd : Fin 32) (an : Fin 8) (up : Bool) (s : State) : Host.Outcome State Fault Refusal :=
  vecIssue n c 2 (fun _ => vmemEnc .unit true m vd.val up) (vmemLegal .unit vd.val) (vloadBody .unit n m vd.val an up) s

/-- VST (R174). -/
def execVst (n : Nat) (c : Cond) (m : Bool) (vd : Fin 32) (an : Fin 8) (up : Bool) (s : State) : Host.Outcome State Fault Refusal :=
  vecIssue n c 2 (fun _ => vmemEnc .unit false m vd.val up) (vmemLegal .unit vd.val) (vstoreBody .unit n m vd.val an up) s

/-- The strided form with the stride a pair holds. -/
def Core.stridedBy (c : Core) (dk : Nat) : VForm := .strided ((c.dpair dk).signExtend 64)

/-- VLDS (R174). -/
def execVlds (n : Nat) (c : Cond) (m : Bool) (vd : Fin 32) (an : Fin 8) (dk : Fin 16) (up : Bool) (s : State) :
    Host.Outcome State Fault Refusal :=
  vecIssue n c 2 (fun _ => evenReg dk.val && vmemEnc (.strided 0) true m vd.val up) (vmemLegal (.strided 0) vd.val)
    (fun s => vloadBody ((s.core n).stridedBy dk.val) n m vd.val an up s) s

/-- VSTS (R174). -/
def execVsts (n : Nat) (c : Cond) (m : Bool) (vd : Fin 32) (an : Fin 8) (dk : Fin 16) (up : Bool) (s : State) :
    Host.Outcome State Fault Refusal :=
  vecIssue n c 2 (fun _ => evenReg dk.val && vmemEnc (.strided 0) false m vd.val up) (vmemLegal (.strided 0) vd.val)
    (fun s => vstoreBody ((s.core n).stridedBy dk.val) n m vd.val an up s) s

/-- Whether a field of NF − 2 is legal: NF is 2 to 4. -/
def nfOk (nf : BitVec 2) : Bool := decide (nf.toNat ≤ 2)

/-- VLDSEG (R175). -/
def execVldseg (n : Nat) (c : Cond) (m : Bool) (vd : Fin 32) (an : Fin 8) (nf : BitVec 2) (up : Bool) (s : State) :
    Host.Outcome State Fault Refusal :=
  vecIssue n c 2 (fun _ => nfOk nf && vmemEnc (.seg (nf.toNat + 2)) true m vd.val up) (vmemLegal (.seg (nf.toNat + 2)) vd.val)
    (vloadBody (.seg (nf.toNat + 2)) n m vd.val an up) s

/-- VSTSEG (R175). -/
def execVstseg (n : Nat) (c : Cond) (m : Bool) (vd : Fin 32) (an : Fin 8) (nf : BitVec 2) (up : Bool) (s : State) :
    Host.Outcome State Fault Refusal :=
  vecIssue n c 2 (fun _ => nfOk nf && vmemEnc (.seg (nf.toNat + 2)) false m vd.val up) (vmemLegal (.seg (nf.toNat + 2)) vd.val)
    (vstoreBody (.seg (nf.toNat + 2)) n m vd.val an up) s

/-- VLDX (R177). -/
def execVldx (n : Nat) (c : Cond) (m : Bool) (vd : Fin 32) (an : Fin 8) (vi : Fin 32) (up : Bool) (s : State) :
    Host.Outcome State Fault Refusal :=
  vecIssue n c 2 (fun _ => vmemEnc (.index vi.val) true m vd.val up) (vmemLegal (.index vi.val) vd.val) (vloadBody (.index vi.val) n m vd.val an up) s

/-- VSTX (R177). -/
def execVstx (n : Nat) (c : Cond) (m : Bool) (vd : Fin 32) (an : Fin 8) (vi : Fin 32) (up : Bool) (s : State) :
    Host.Outcome State Fault Refusal :=
  vecIssue n c 2 (fun _ => vmemEnc (.index vi.val) false m vd.val up) (vmemLegal (.index vi.val) vd.val) (vstoreBody (.index vi.val) n m vd.val an up) s

/-! ## Completion -/

/-- A unit of core n has finished the instruction it accepted; with the last one, no serialising instruction is in flight (R168, R169). -/
def State.vecDone (s : State) (n : Nat) (u : VUnit) : State :=
  s.modCore n (fun c =>
    let b := c.vbusy.erase u
    { c with vbusy := b, vserial := c.vserial && !b.isEmpty })

/-- VECTOR_COMPLETE (R169). -/
def execVectorComplete (n : Nat) (u : VUnit) (s : State) : Host.Outcome State Fault Refusal :=
  command (fun s => if n < 192 then s.vecDone n u else s) s

end Sys2Proof.Machine
end

