-- ==== Sys2Proof/Machine/Entry.lean ====
section
/-! DEFINITION. Sys2Proof/Machine/Entry.lean: a core that fetches its own next instruction (R90, R113 to R115), and the entries that look at the
instruction at their boundary: interrupts and deferred faults (R141, R145 to R148). -/

namespace Sys2Proof.Machine

/-! ## Fetch -/

/-- The meaning of a core instruction that fetch has decoded. -/
def coreExec (i : Instr) (s : State) : Host.Outcome State Fault Refusal :=
  match i with
  | .ld n c rg an am x => execLd n c rg an am x s
  | .ldP n c rg an am x => execLdP n c rg an am x s
  | .ldQ n c rg an am x => execLdQ n c rg an am x s
  | .ldA n c rg an am x => execLdA n c rg an am x s
  | .st n c rg an am x => execSt n c rg an am x s
  | .stP n c rg an am x => execStP n c rg an am x s
  | .stQ n c rg an am x => execStQ n c rg an am x s
  | .stA n c rg an am x => execStA n c rg an am x s
  | .add n c f w d a b => execAdd n c f w d a b s
  | .adc n c f w d a b => execAdc n c f w d a b s
  | .sub n c f w d a b => execSub n c f w d a b s
  | .sbc n c f w d a b => execSbc n c f w d a b s
  | .and n c f w d a b => execAnd n c f w d a b s
  | .or n c f w d a b => execOr n c f w d a b s
  | .xor n c f w d a b => execXor n c f w d a b s
  | .andn n c f w d a b => execAndn n c f w d a b s
  | .cmp n c f w d a b => execCmp n c f w d a b s
  | .tst n c f w d a b => execTst n c f w d a b s
  | .mov n c f w d a b => execMov n c f w d a b s
  | .neg n c f w d a b => execNeg n c f w d a b s
  | .not n c f w d a b => execNot n c f w d a b s
  | .min n c f w d a b => execMin n c f w d a b s
  | .max n c f w d a b => execMax n c f w d a b s
  | .moviW n c d imm => execMoviW n c d imm s
  | .moviP n c d imm => execMoviP n c d imm s
  | .shl n c f w d a b => execShl n c f w d a b s
  | .shr n c f w d a b => execShr n c f w d a b s
  | .sar n c f w d a b => execSar n c f w d a b s
  | .ror n c f w d a b => execRor n c f w d a b s
  | .mulL n c d a b => execMulL n c d a b s
  | .mulS n c d a b => execMulS n c d a b s
  | .mulU n c d a b => execMulU n c d a b s
  | .mulP n c d a b => execMulP n c d a b s
  | .cmpp n c cd w p a b => execCmpp n c cd w p a b s
  | .addaImm n c ad aa imm => execAddaImm n c ad aa imm s
  | .addaIdx n c ad aa di sv ng => execAddaIdx n c ad aa di sv ng s
  | .mova n c ad dn => execMova n c ad dn s
  | .movd n c dn aa => execMovd n c dn aa s
  | .leapc n c ad disp => execLeapc n c ad disp s
  | .moviA n c ad imm => execMoviA n c ad imm s
  | .br n c disp => execBr n c disp s
  | .call n c disp => execCall n c disp s
  | .jmp n c aa => execJmp n c aa s
  | .callr n c aa => execCallr n c aa s
  | .ret n c => execRet n c s
  | .loop n c dn off => execLoop n c dn off s
  | .loopi n c count off => execLoopi n c count off s
  | .nop n c => execNop n c s
  | .trap n c code => execTrap n c code s
  | .rte n c => execRte n c s
  | .movcRead n c crn k rg => execMovcRead n c crn k rg s
  | .movcWrite n c crn k rg => execMovcWrite n c crn k rg s
  | .fence n c mask => execFence n c mask s
  | .tlbi n c kind aa => execTlbi n c kind aa s
  | .tend n c => execTend n c s
  | .mcopy n c ad as dn dm sv => execMcopy n c ad as dn dm sv s
  | .vsetvl n c dd dn grp et => execVsetvl n c dd dn grp et s
  | .vwait n c => execVwait n c s
  | .vmvX n c dd va dn => execVmvX n c dd va dn s
  | .vins n c vd dm dn => execVins n c vd dm dn s
  | .vredsum n c m vd va vb => execVredsum n c m vd va vb s
  | .vredmax n c m vd va vb => execVredmax n c m vd va vb s
  | .vredmin n c m vd va vb => execVredmin n c m vd va vb s
  | .vany n c p vb => execVany n c p vb s
  | .vall n c p vb => execVall n c p vb s
  | .vpopc n c dd vb => execVpopc n c dd vb s
  | .vslideup n c m vd va dn => execVslideup n c m vd va dn s
  | .vslidedown n c m vd va dn => execVslidedown n c m vd va dn s
  | .vgatherv n c m vd va vb => execVgatherv n c m vd va vb s
  | .vcompress n c vd va vb => execVcompress n c vd va vb s
  | .vcvt n c m vd va tf => execVcvt n c m vd va tf s
  | .vgen n c m vd dk ds dt db => execVgen n c m vd dk ds dt db s
  | .vtopk n c m vd vp va k seg => execVtopk n c m vd vp va k seg s
  | .vscomb n c vd va ve nl => execVscomb n c vd va ve nl s
  | .vadd n c m vd va b => execVadd n c m vd va b s
  | .vsub n c m vd va b => execVsub n c m vd va b s
  | .vand n c m vd va b => execVand n c m vd va b s
  | .vor n c m vd va b => execVor n c m vd va b s
  | .vxor n c m vd va b => execVxor n c m vd va b s
  | .vshl n c m vd va b => execVshl n c m vd va b s
  | .vshr n c m vd va b => execVshr n c m vd va b s
  | .vsar n c m vd va b => execVsar n c m vd va b s
  | .vmin n c m vd va b => execVmin n c m vd va b s
  | .vmax n c m vd va b => execVmax n c m vd va b s
  | .vminu n c m vd va b => execVminu n c m vd va b s
  | .vmaxu n c m vd va b => execVmaxu n c m vd va b s
  | .vmov n c m vd va b => execVmov n c m vd va b s
  | .vdiv n c m vd va b => execVdiv n c m vd va b s
  | .vdivu n c m vd va b => execVdivu n c m vd va b s
  | .vmul n c m vd va b => execVmul n c m vd va b s
  | .vmulh n c m vd va b => execVmulh n c m vd va b s
  | .vmulhu n c m vd va b => execVmulhu n c m vd va b s
  | .vmacc n c m vd va b => execVmacc n c m vd va b s
  | .vwmul n c m vd va b => execVwmul n c m vd va b s
  | .vwmulu n c m vd va b => execVwmulu n c m vd va b s
  | .vwmulsu n c m vd va b => execVwmulsu n c m vd va b s
  | .vwmacc n c m vd va b => execVwmacc n c m vd va b s
  | .vsadd n c m vd va b => execVsadd n c m vd va b s
  | .vsaddu n c m vd va b => execVsaddu n c m vd va b s
  | .vssub n c m vd va b => execVssub n c m vd va b s
  | .vssubu n c m vd va b => execVssubu n c m vd va b s
  | .vaadd n c m vd va b => execVaadd n c m vd va b s
  | .vaaddu n c m vd va b => execVaaddu n c m vd va b s
  | .vsmul n c m vd va b => execVsmul n c m vd va b s
  | .vssra n c m vd va b => execVssra n c m vd va b s
  | .vssrl n c m vd va b => execVssrl n c m vd va b s
  | .vnclip n c m vd va b => execVnclip n c m vd va b s
  | .vnclipu n c m vd va b => execVnclipu n c m vd va b s
  | .vdotQ n c m vd va b => execVdotQ n c m vd va b s
  | .vdotuQ n c m vd va b => execVdotuQ n c m vd va b s
  | .vfadd n c m vd va b => execVfadd n c m vd va b s
  | .vfsub n c m vd va b => execVfsub n c m vd va b s
  | .vfmul n c m vd va b => execVfmul n c m vd va b s
  | .vfmacc n c m vd va b => execVfmacc n c m vd va b s
  | .vfmin n c m vd va b => execVfmin n c m vd va b s
  | .vfmax n c m vd va b => execVfmax n c m vd va b s
  | .vfdiv n c m vd va b => execVfdiv n c m vd va b s
  | .vfsqrt n c m vd va b => execVfsqrt n c m vd va b s
  | .vfdotD n c m vd va b => execVfdotD n c m vd va b s
  | .vcmpeq n c m vd va b => execVcmpeq n c m vd va b s
  | .vcmpne n c m vd va b => execVcmpne n c m vd va b s
  | .vcmplt n c m vd va b => execVcmplt n c m vd va b s
  | .vcmpge n c m vd va b => execVcmpge n c m vd va b s
  | .vcmpltu n c m vd va b => execVcmpltu n c m vd va b s
  | .vcmpgeu n c m vd va b => execVcmpgeu n c m vd va b s
  | .vld n c m vd an up => execVld n c m vd an up s
  | .vst n c m vd an up => execVst n c m vd an up s
  | .vlds n c m vd an dk up => execVlds n c m vd an dk up s
  | .vsts n c m vd an dk up => execVsts n c m vd an dk up s
  | .vldseg n c m vd an nf up => execVldseg n c m vd an nf up s
  | .vstseg n c m vd an nf up => execVstseg n c m vd an nf up s
  | .vldx n c m vd an vi up => execVldx n c m vd an vi up s
  | .vstx n c m vd an vi up => execVstx n c m vd an vi up s
  | .tcfg n c t dn => execTcfg n c t dn s
  | .tzero n c t => execTzero n c t s
  | .tmvVt n c t va row => execTmvVt n c t va row s
  | .tmvTv n c t vd row => execTmvTv n c t vd row s
  | .tmask n c t va => execTmask n c t va s
  | .tmeta n c t vd k => execTmeta n c t vd k s
  | .tsave n c t an => execTsave n c t an s
  | .trest n c t an => execTrest n c t an s
  | .tld n c t an dk up w => execTld n c t an dk up w s
  | .tileStore n c t an dk up w => execTileStore n c t an dk up w s
  | .mma n c q tw ta dc => execMma n c q tw ta dc s
  | .accOpen n c q g acc tree z it dn => execAccOpen n c q g acc tree z it dn s
  | .accClose n c q g => execAccClose n c q g s
  | .accZero n c q acc ix => execAccZero n c q acc ix s
  | .accDrt n c q acc t dc => execAccDrt n c q acc t dc s
  | .accDrm n c q acc an dk dc => execAccDrm n c q acc an dk dc s
  | .accDrj n c q acc dj dc => execAccDrj n c q acc dj dc s
  | .accLd n c q acc an dk dc => execAccLd n c q acc an dk dc s
  | .semAdd n c an dn => execSemAdd n c an dn s
  | .semSub n c an dn => execSemSub n c an dn s
  | .semWait n c an dn => execSemWait n c an dn s
  | .semTake n c an dn => execSemTake n c an dn s
  | .semAddi n c an imm => execSemAddi n c an imm s
  | .semSubi n c an imm => execSemSubi n c an imm s
  | .semWaiti n c an imm => execSemWaiti n c an imm s
  | .semTakei n c an imm => execSemTakei n c an imm s
  | .barArr n c dn an => execBarArr n c dn an s
  | .barWait n c an dn => execBarWait n c an dn s
  | _ => .next s

/-- The parcel at a local-memory address as fetch sees it (R92, R113). -/
def State.parcel (s : State) (n : Nat) (pc : W64) : Nat :=
  (s.fetchWord n (physOf n (localOf pc))).toNat + 65536 * (s.fetchWord n (physOf n (localOf (pc + 1)))).toNat

/-- The instruction at the PC of core n, none for an illegal encoding (R114, R115). -/
def State.instrAt (s : State) (n : Nat) : Option Instr :=
  decodeParcels n (s.parcel n (s.core n).pc) (s.parcel n ((s.core n).pc + 2))

/-- Core n fetches the instruction at its PC, and it issues; an illegal encoding faults with ILLEGAL_OP whatever its condition (R84, R115). -/
def State.fetchRun (s : State) (n : Nat) : Host.Outcome State Fault Refusal :=
  match s.instrAt n with
  | some i => coreExec i s
  | none => issue n .al (s.lengthAt n (s.core n).pc) (fun _ => false) [] (fun s => .done s) s

/-- Every core that can issue fetches and issues one instruction, in the order of their numbers (assumption log 125). -/
def State.runCores (s : State) : Host.Outcome State Fault Refusal :=
  (List.range 192).foldl (fun (o : Host.Outcome State Fault Refusal) n => match o with
    | .next t => if t.issues n then t.fetchRun n else .next t
    | stop => stop) (.next s)

/-! ## Entries -/

/-- The state after core n has decided, at a boundary, between its next instruction's fault and an entry: a fault of its fetch or of checks 1, 2
and 4 to 6 is taken, and is then what happens there (R145). An instruction that issue holds on has passed them. -/
def State.boundary (s : State) (n : Nat) : Option State :=
  if (s.core n).hold.isSome then none
  else match (s.modCore n (fun c => { c with peek := true })).fetchRun n with
    | .next t => if (t.core n).peek then none else some t
    | _ => none

/-- INTERRUPT_ENTRY (R145). -/
def execInterruptEntry (n : Nat) (s : State) : Host.Outcome State Fault Refusal :=
  command (fun s => if s.irqReady n then (s.boundary n).getD (s.interrupt n) else s) s

/-- DEFERRED_FAULT_ENTRY (R141). -/
def execDeferredFaultEntry (n : Nat) (s : State) : Host.Outcome State Fault Refusal :=
  command (fun s => if s.deferredReady n then (s.boundary n).getD (s.deferredEntry n) else s) s

end Sys2Proof.Machine
end

