-- ==== Sys2Proof/Machine/HostBus.lean ====
section
/-! DEFINITION. Sys2Proof/Machine/HostBus.lean: the host's accesses to the BARs in the order they arrive (R460), with those that wait for the host's
answer to a back-invalidate snoop (R463, R470). -/

namespace Sys2Proof.Machine

/-- The model's numbering of the port's registers, as REGISTER_WRITE from the host names them: BAR0 from 0, BAR4 and configuration space above it
(assumption log 143). -/
abbrev offBar4 : Nat := 0x1800000
abbrev offCfg : Nat := 0x2000000

/-- A write of the host at an offset of that numbering (R11, R459). -/
def State.portWrite (s : State) (off bytes : Nat) (w : BitVec 64) : State :=
  if off < offBar4 then s.registerWrite .host off bytes w
  else if off < offBar4 + 0x20000 then s.bar4Write (off - offBar4) bytes w
  else if offCfg ≤ off ∧ bytes = 4 ∧ off % 4 = 0 then s.cfgSet (off - offCfg) (w.extractLsb' 0 32)
  else s

/-! ## The registers of the host's own page, and any register -/

/-- BPCTL_WRITE (R461). -/
def execBpctlWrite (src : Src) (w : BitVec 32) (s : State) : Host.Outcome State Fault Refusal :=
  command (fun s => s.inTurn src (.bpctlWrite w) (fun s => s.bpctlWrite w)) s

/-- BP_REG_WRITE (R461). -/
def execBpRegWrite (src : Src) (reg : BpReg) (w : BitVec 32) (s : State) : Host.Outcome State Fault Refusal :=
  command (fun s => s.inTurn src (.bpRegWrite reg w) (fun s => s.bpRegWrite reg w)) s

/-- HSIG_WRITE (R474). -/
def execHsigWrite (src : Src) (w : BitVec 32) (s : State) : Host.Outcome State Fault Refusal :=
  command (fun s => s.inTurn src (.hsigWrite w) (fun s => s.hsig w)) s

/-- REGISTER_WRITE (R19). -/
def execRegisterWrite (src : Src) (off bytes : Nat) (w : BitVec 64) (s : State) : Host.Outcome State Fault Refusal :=
  command (fun s => s.inTurn src (.registerWrite off bytes w)
    (fun s => if src = .host then s.portWrite off bytes w else s.registerWrite src off bytes w)) s

/-- A write of a register by its row of the opcode table, which has come to its turn. -/
def rowRun (i : HostRow) (s : State) : Host.Outcome State Fault Refusal :=
  match i with
  | .computeReset w => execComputeReset .host w s
  | .fireflyRestart w => execFireflyRestart .host w s
  | .globalCfgWrite w => execGlobalCfgWrite .host w s
  | .pgIrqEnWrite page w => execPgIrqEnWrite .host page w s
  | .pgLock page => execPgLock .host page s
  | .pgErrClr page arriving => execPgErrClr .host page arriving s
  | .registerWrite off bytes w => execRegisterWrite .host off bytes w s
  | .coreHalt n => execCoreHalt .host n s
  | .coreResume n => execCoreResume .host n s
  | .coreReset n w => execCoreReset .host n w s
  | .coreSwi n w => execCoreSwi .host n w s
  | .mouldTake => execMouldTake .host s
  | .stepCommit => execStepCommit .host s
  | .stepRollback => execStepRollback .host s
  | .slogWrite hi w => execSlogWrite .host hi w s
  | .xrootLoWrite n w => execXrootLoWrite .host n w s
  | .xrootHiWrite n w => execXrootHiWrite .host n w s
  | .jrootLoWrite w => execJrootLoWrite .host w s
  | .jrootHiWrite w => execJrootHiWrite .host w s
  | .queueDoorbell w => execQueueDoorbell .host w s
  | .coreDoorbell w => execCoreDoorbell .host w s
  | .queueEnable q => execQueueEnable .host q s
  | .queueDisable q => execQueueDisable .host q s
  | .qeWrite i w => execQeWrite .host i w s
  | .preempt w => execPreempt .host w s
  | .dvfsWrite w => execDvfsWrite .host w s
  | .hopAdd k => execHopAdd .host k s
  | .hopSub k => execHopSub .host k s
  | .hopSet k => execHopSet .host k s
  | .hopArrive k => execHopArrive .host k s
  | .tclr w => execTclr .host w s
  | .bCtlWrite b w => execBCtlWrite .host b w s
  | .bNextWrite b w => execBNextWrite .host b w s
  | .bCtxWrite b reg w => execBCtxWrite .host b reg w s
  | .linkEnable l => execLinkEnable .host l s
  | .linkDisable l => execLinkDisable .host l s
  | .linkRetrain l => execLinkRetrain .host l s
  | .linkAdmit l => execLinkAdmit .host l s
  | .discoveryRound => execDiscoveryRound .host s
  | .remoteDoorbellStore n w => execRemoteDoorbellStore .host n w s
  | .jcmdOpen pg idx => execJcmdOpen .host pg idx s
  | .jcmdClose pg idx => execJcmdClose .host pg idx s
  | .jeWrite pg i w => execJeWrite .host pg i w s
  | .xgoEnable pg => execXgoEnable .host pg s
  | .xgoDisable pg => execXgoDisable .host pg s
  | .xgoSend pg count => execXgoSend .host pg count s
  | .xgoReturn pg => execXgoReturn .host pg s
  | .xeWrite pg i w => execXeWrite .host pg i w s
  | .scaleRoll n hi w => execScaleRoll .host n hi w s
  | .scAmaxwWrite n e w => execScAmaxwWrite .host n e w s
  | .lossScaleCurWrite w => execLossScaleCurWrite .host w s
  | .srsvCommit => execSrsvCommit .host s
  | .srsvSkip => execSrsvSkip .host s
  | .srsvRefused => execSrsvRefused .host s
  | .srsvAbandoned => execSrsvAbandoned .host s
  | .restoreGo => execRestoreGo .host s
  | .sctlWrite w => execSctlWrite .host w s
  | .stepnWrite w => execStepnWrite .host w s
  | .bpctlWrite w => execBpctlWrite .host w s
  | .bpRegWrite reg w => execBpRegWrite .host reg w s
  | .hsigWrite w => execHsigWrite .host w s
  | .rpRow => execRpRow .host s
  | .rpAcol w => execRpAcol .host w s
  | .logClr => execLogClr .host s
  | .scrubGo w => execScrubGo .host w s

/-! ## Order -/

/-- A read of a BAR by the host finds the errors of the entry of a table that the register shows (R495). -/
def State.hostSees (s : State) (off bytes : Nat) : State :=
  if offBar4 ≤ off ∨ bytes = 0 ∨ 8 < bytes ∨ off % bytes ≠ 0 then s
  else if bytes = 8 then (s.mmioSees (off / 4 * 4)).mmioSees (off / 4 * 4 + 4) else s.mmioSees (off / 4 * 4)

/-- An access to a BAR performed. -/
def State.burstGo (s : State) : Burst → State
  | .write p off data => s.bpWrite p off data
  | .read p off bytes => s.bpRead p off bytes
  | .queueBell bytes w => s.bar4 State.queueDoorbell bytes w
  | .coreBell bytes w => s.bar4 State.coreDoorbell bytes w
  | .cmd i => match rowRun i s with
    | .next t => t
    | _ => s
  | .regRead off bytes =>
    let s := s.hostSees off bytes
    s.hostAnswer (if off < offBar4 then s.bar0Read off bytes else s.bar4Read (off - offBar4) bytes) false

/-- Accesses performed in the order they arrived, up to one that waits for the host's answer to a snoop (R460, R463, R470). -/
def burstRun : List Burst → State → State
  | [], s => s
  | b :: r, s =>
    if s.biHeld (inList (s.burstReach b)) then { s.biAsk (inList (s.burstReach b)) with bursts := b :: r }
    else burstRun r (s.burstGo b)

/-- An access to a BAR arrives: it waits behind those that wait. -/
def State.burstTake (s : State) (b : Burst) : State :=
  if s.bursts = [] then burstRun [b] s else { s with bursts := s.bursts ++ [b] }

/-- A read of BAR0 or of BAR4 by the host: it returns after every posted write that arrived before it (R460). No row of the opcode table makes such a
read. -/
def State.bar0Take (s : State) (off bytes : Nat) : State := s.burstTake (.regRead off bytes)
def State.bar4Take (s : State) (o bytes : Nat) : State := s.burstTake (.regRead (offBar4 + o) bytes)

/-- The accesses that waited are tried again. -/
def State.retryBursts (s : State) : State := burstRun s.bursts { s with bursts := [] }

/-! ## Commands -/

/-- BP_BURST_WRITE (R463). -/
def execBpBurstWrite (port : BitVec 8) (off : BitVec 16) (data : List (BitVec 8)) (s : State) : Host.Outcome State Fault Refusal :=
  command (fun s => s.burstTake (.write port.toNat off.toNat data)) s

/-- BP_BURST_READ (R463). -/
def execBpBurstRead (port : BitVec 8) (off : BitVec 16) (len : Nat) (s : State) : Host.Outcome State Fault Refusal :=
  command (fun s => s.burstTake (.read port.toNat off.toNat len)) s

/-- HOST_QUEUE_DOORBELL (R467). -/
def execHostQueueDoorbell (bytes : Nat) (w : BitVec 64) (s : State) : Host.Outcome State Fault Refusal :=
  command (fun s => s.burstTake (.queueBell bytes w)) s

/-- HOST_CORE_DOORBELL (R467). -/
def execHostCoreDoorbell (bytes : Nat) (w : BitVec 64) (s : State) : Host.Outcome State Fault Refusal :=
  command (fun s => s.burstTake (.coreBell bytes w)) s

/-- The host answers a back-invalidate snoop (R470): what waited is tried again. -/
def State.biAnswer (s : State) (line : Nat) (dirty : Option (List Byte)) : State :=
  if line ∉ s.biWait then s else (s.biGone line dirty).snoopDone.retryMem.retryBursts

/-- BI_SNOOP_ANSWER (R470). -/
def execBiSnoopAnswer (line : Nat) (dirty : Option (List (BitVec 8))) (s : State) : Host.Outcome State Fault Refusal :=
  command (fun s => s.biAnswer line dirty) s

end Sys2Proof.Machine
end

