-- ==== Sys2Proof/Machine/Dispatch.lean ====
section
/-! DEFINITION. Sys2Proof/Machine/Dispatch.lean: one arm for each command, one direct call of its meaning. -/

namespace Sys2Proof.Machine

/-- What a command does to everything but the queue of waiting commands. -/
def exec (i : Instr) (s : State) : Host.Outcome State Fault Refusal :=
  match i with
  | .powerOn => Sys2Proof.Machine.execPowerOn s
  | .internalResetWaitEnd straps => Sys2Proof.Machine.execInternalResetWaitEnd straps s
  | .coldReset => Sys2Proof.Machine.execColdReset s
  | .strapSample straps => Sys2Proof.Machine.execStrapSample straps s
  | .powerRemoval => Sys2Proof.Machine.execPowerRemoval s
  | .brownOut => Sys2Proof.Machine.execBrownOut s
  | .brownOutRecovery straps => Sys2Proof.Machine.execBrownOutRecovery straps s
  | .sensorRead t => Sys2Proof.Machine.execSensorRead t s
  | .hostReset perst => Sys2Proof.Machine.execHostReset perst s
  | .tapReset => Sys2Proof.Machine.execTapReset s
  | .cableInsert k => Sys2Proof.Machine.execCableInsert k s
  | .cableRemove k => Sys2Proof.Machine.execCableRemove k s
  | .bisqueReached lpFail => Sys2Proof.Machine.execBisqueReached lpFail s
  | .imageRead => Sys2Proof.Machine.execImageRead s
  | .stackTraining stFail lpFail => Sys2Proof.Machine.execStackTraining stFail lpFail s
  | .linkFullRateStep => Sys2Proof.Machine.execLinkFullRateStep s
  | .glazeReached => Sys2Proof.Machine.execGlazeReached s
  | .computeReset src w => Sys2Proof.Machine.execComputeReset src w s
  | .fireflyRestart src w => Sys2Proof.Machine.execFireflyRestart src w s
  | .globalCfgWrite src w => Sys2Proof.Machine.execGlobalCfgWrite src w s
  | .pgIrqEnWrite src page w => Sys2Proof.Machine.execPgIrqEnWrite src page w s
  | .pgLock src page => Sys2Proof.Machine.execPgLock src page s
  | .pgErrClr src page arriving => Sys2Proof.Machine.execPgErrClr src page arriving s
  | .registerWrite src off bytes w => Sys2Proof.Machine.execRegisterWrite src off bytes w s
  | .coreHalt src n => Sys2Proof.Machine.execCoreHalt src n s
  | .coreResume src n => Sys2Proof.Machine.execCoreResume src n s
  | .coreReset src n w => Sys2Proof.Machine.execCoreReset src n w s
  | .coreResetEnd n => Sys2Proof.Machine.execCoreResetEnd n s
  | .coreSwi src n w => Sys2Proof.Machine.execCoreSwi src n w s
  | .ld n c rg an am x => Sys2Proof.Machine.execLd n c rg an am x s
  | .ldP n c rg an am x => Sys2Proof.Machine.execLdP n c rg an am x s
  | .ldQ n c rg an am x => Sys2Proof.Machine.execLdQ n c rg an am x s
  | .ldA n c rg an am x => Sys2Proof.Machine.execLdA n c rg an am x s
  | .st n c rg an am x => Sys2Proof.Machine.execSt n c rg an am x s
  | .stP n c rg an am x => Sys2Proof.Machine.execStP n c rg an am x s
  | .stQ n c rg an am x => Sys2Proof.Machine.execStQ n c rg an am x s
  | .stA n c rg an am x => Sys2Proof.Machine.execStA n c rg an am x s
  | .mmioLoadReturn n => Sys2Proof.Machine.execMmioLoadReturn n s
  | .add n c f w d a b => Sys2Proof.Machine.execAdd n c f w d a b s
  | .adc n c f w d a b => Sys2Proof.Machine.execAdc n c f w d a b s
  | .sub n c f w d a b => Sys2Proof.Machine.execSub n c f w d a b s
  | .sbc n c f w d a b => Sys2Proof.Machine.execSbc n c f w d a b s
  | .and n c f w d a b => Sys2Proof.Machine.execAnd n c f w d a b s
  | .or n c f w d a b => Sys2Proof.Machine.execOr n c f w d a b s
  | .xor n c f w d a b => Sys2Proof.Machine.execXor n c f w d a b s
  | .andn n c f w d a b => Sys2Proof.Machine.execAndn n c f w d a b s
  | .cmp n c f w d a b => Sys2Proof.Machine.execCmp n c f w d a b s
  | .tst n c f w d a b => Sys2Proof.Machine.execTst n c f w d a b s
  | .mov n c f w d a b => Sys2Proof.Machine.execMov n c f w d a b s
  | .neg n c f w d a b => Sys2Proof.Machine.execNeg n c f w d a b s
  | .not n c f w d a b => Sys2Proof.Machine.execNot n c f w d a b s
  | .min n c f w d a b => Sys2Proof.Machine.execMin n c f w d a b s
  | .max n c f w d a b => Sys2Proof.Machine.execMax n c f w d a b s
  | .moviW n c d imm => Sys2Proof.Machine.execMoviW n c d imm s
  | .moviP n c d imm => Sys2Proof.Machine.execMoviP n c d imm s
  | .shl n c f w d a b => Sys2Proof.Machine.execShl n c f w d a b s
  | .shr n c f w d a b => Sys2Proof.Machine.execShr n c f w d a b s
  | .sar n c f w d a b => Sys2Proof.Machine.execSar n c f w d a b s
  | .ror n c f w d a b => Sys2Proof.Machine.execRor n c f w d a b s
  | .mulL n c d a b => Sys2Proof.Machine.execMulL n c d a b s
  | .mulS n c d a b => Sys2Proof.Machine.execMulS n c d a b s
  | .mulU n c d a b => Sys2Proof.Machine.execMulU n c d a b s
  | .mulP n c d a b => Sys2Proof.Machine.execMulP n c d a b s
  | .cmpp n c cd w p a b => Sys2Proof.Machine.execCmpp n c cd w p a b s
  | .addaImm n c ad aa imm => Sys2Proof.Machine.execAddaImm n c ad aa imm s
  | .addaIdx n c ad aa di sv ng => Sys2Proof.Machine.execAddaIdx n c ad aa di sv ng s
  | .mova n c ad dn => Sys2Proof.Machine.execMova n c ad dn s
  | .movd n c dn aa => Sys2Proof.Machine.execMovd n c dn aa s
  | .leapc n c ad disp => Sys2Proof.Machine.execLeapc n c ad disp s
  | .moviA n c ad imm => Sys2Proof.Machine.execMoviA n c ad imm s
  | .br n c disp => Sys2Proof.Machine.execBr n c disp s
  | .call n c disp => Sys2Proof.Machine.execCall n c disp s
  | .jmp n c aa => Sys2Proof.Machine.execJmp n c aa s
  | .callr n c aa => Sys2Proof.Machine.execCallr n c aa s
  | .ret n c => Sys2Proof.Machine.execRet n c s
  | .loop n c dn off => Sys2Proof.Machine.execLoop n c dn off s
  | .loopi n c count off => Sys2Proof.Machine.execLoopi n c count off s
  | .nop n c => Sys2Proof.Machine.execNop n c s
  | .trap n c code => Sys2Proof.Machine.execTrap n c code s
  | .rte n c => Sys2Proof.Machine.execRte n c s
  | .movcRead n c crn k rg => Sys2Proof.Machine.execMovcRead n c crn k rg s
  | .movcWrite n c crn k rg => Sys2Proof.Machine.execMovcWrite n c crn k rg s
  | .fence n c mask => Sys2Proof.Machine.execFence n c mask s
  | .fenceRelease n => Sys2Proof.Machine.execFenceRelease n s
  | .tlbi n c kind aa => Sys2Proof.Machine.execTlbi n c kind aa s
  | .tend n c => Sys2Proof.Machine.execTend n c s
  | .mcopy n c ad as dn dm sv => Sys2Proof.Machine.execMcopy n c ad as dn dm sv s
  | .feederBlockPlace n => Sys2Proof.Machine.execFeederBlockPlace n s
  | .feederBlockComplete n id => Sys2Proof.Machine.execFeederBlockComplete n id s
  | .tableWalk n => Sys2Proof.Machine.execTableWalk n s
  | .combAnswer n => Sys2Proof.Machine.execCombAnswer n s
  | .interruptEntry n => Sys2Proof.Machine.execInterruptEntry n s
  | .deferredFaultEntry n => Sys2Proof.Machine.execDeferredFaultEntry n s
  | .vsetvl n c dd dn grp et => Sys2Proof.Machine.execVsetvl n c dd dn grp et s
  | .vwait n c => Sys2Proof.Machine.execVwait n c s
  | .vmvX n c dd va dn => Sys2Proof.Machine.execVmvX n c dd va dn s
  | .vins n c vd dm dn => Sys2Proof.Machine.execVins n c vd dm dn s
  | .vredsum n c m vd va vb => Sys2Proof.Machine.execVredsum n c m vd va vb s
  | .vredmax n c m vd va vb => Sys2Proof.Machine.execVredmax n c m vd va vb s
  | .vredmin n c m vd va vb => Sys2Proof.Machine.execVredmin n c m vd va vb s
  | .vany n c p vb => Sys2Proof.Machine.execVany n c p vb s
  | .vall n c p vb => Sys2Proof.Machine.execVall n c p vb s
  | .vpopc n c dd vb => Sys2Proof.Machine.execVpopc n c dd vb s
  | .vslideup n c m vd va dn => Sys2Proof.Machine.execVslideup n c m vd va dn s
  | .vslidedown n c m vd va dn => Sys2Proof.Machine.execVslidedown n c m vd va dn s
  | .vgatherv n c m vd va vb => Sys2Proof.Machine.execVgatherv n c m vd va vb s
  | .vcompress n c vd va vb => Sys2Proof.Machine.execVcompress n c vd va vb s
  | .vcvt n c m vd va tf => Sys2Proof.Machine.execVcvt n c m vd va tf s
  | .vgen n c m vd dk ds dt db => Sys2Proof.Machine.execVgen n c m vd dk ds dt db s
  | .vtopk n c m vd vp va k seg => Sys2Proof.Machine.execVtopk n c m vd vp va k seg s
  | .vscomb n c vd va ve nl => Sys2Proof.Machine.execVscomb n c vd va ve nl s
  | .vadd n c m vd va b => Sys2Proof.Machine.execVadd n c m vd va b s
  | .vsub n c m vd va b => Sys2Proof.Machine.execVsub n c m vd va b s
  | .vand n c m vd va b => Sys2Proof.Machine.execVand n c m vd va b s
  | .vor n c m vd va b => Sys2Proof.Machine.execVor n c m vd va b s
  | .vxor n c m vd va b => Sys2Proof.Machine.execVxor n c m vd va b s
  | .vshl n c m vd va b => Sys2Proof.Machine.execVshl n c m vd va b s
  | .vshr n c m vd va b => Sys2Proof.Machine.execVshr n c m vd va b s
  | .vsar n c m vd va b => Sys2Proof.Machine.execVsar n c m vd va b s
  | .vmin n c m vd va b => Sys2Proof.Machine.execVmin n c m vd va b s
  | .vmax n c m vd va b => Sys2Proof.Machine.execVmax n c m vd va b s
  | .vminu n c m vd va b => Sys2Proof.Machine.execVminu n c m vd va b s
  | .vmaxu n c m vd va b => Sys2Proof.Machine.execVmaxu n c m vd va b s
  | .vmov n c m vd va b => Sys2Proof.Machine.execVmov n c m vd va b s
  | .vdiv n c m vd va b => Sys2Proof.Machine.execVdiv n c m vd va b s
  | .vdivu n c m vd va b => Sys2Proof.Machine.execVdivu n c m vd va b s
  | .vmul n c m vd va b => Sys2Proof.Machine.execVmul n c m vd va b s
  | .vmulh n c m vd va b => Sys2Proof.Machine.execVmulh n c m vd va b s
  | .vmulhu n c m vd va b => Sys2Proof.Machine.execVmulhu n c m vd va b s
  | .vmacc n c m vd va b => Sys2Proof.Machine.execVmacc n c m vd va b s
  | .vwmul n c m vd va b => Sys2Proof.Machine.execVwmul n c m vd va b s
  | .vwmulu n c m vd va b => Sys2Proof.Machine.execVwmulu n c m vd va b s
  | .vwmulsu n c m vd va b => Sys2Proof.Machine.execVwmulsu n c m vd va b s
  | .vwmacc n c m vd va b => Sys2Proof.Machine.execVwmacc n c m vd va b s
  | .vsadd n c m vd va b => Sys2Proof.Machine.execVsadd n c m vd va b s
  | .vsaddu n c m vd va b => Sys2Proof.Machine.execVsaddu n c m vd va b s
  | .vssub n c m vd va b => Sys2Proof.Machine.execVssub n c m vd va b s
  | .vssubu n c m vd va b => Sys2Proof.Machine.execVssubu n c m vd va b s
  | .vaadd n c m vd va b => Sys2Proof.Machine.execVaadd n c m vd va b s
  | .vaaddu n c m vd va b => Sys2Proof.Machine.execVaaddu n c m vd va b s
  | .vsmul n c m vd va b => Sys2Proof.Machine.execVsmul n c m vd va b s
  | .vssra n c m vd va b => Sys2Proof.Machine.execVssra n c m vd va b s
  | .vssrl n c m vd va b => Sys2Proof.Machine.execVssrl n c m vd va b s
  | .vnclip n c m vd va b => Sys2Proof.Machine.execVnclip n c m vd va b s
  | .vnclipu n c m vd va b => Sys2Proof.Machine.execVnclipu n c m vd va b s
  | .vdotQ n c m vd va b => Sys2Proof.Machine.execVdotQ n c m vd va b s
  | .vdotuQ n c m vd va b => Sys2Proof.Machine.execVdotuQ n c m vd va b s
  | .vfadd n c m vd va b => Sys2Proof.Machine.execVfadd n c m vd va b s
  | .vfsub n c m vd va b => Sys2Proof.Machine.execVfsub n c m vd va b s
  | .vfmul n c m vd va b => Sys2Proof.Machine.execVfmul n c m vd va b s
  | .vfmacc n c m vd va b => Sys2Proof.Machine.execVfmacc n c m vd va b s
  | .vfmin n c m vd va b => Sys2Proof.Machine.execVfmin n c m vd va b s
  | .vfmax n c m vd va b => Sys2Proof.Machine.execVfmax n c m vd va b s
  | .vfdiv n c m vd va b => Sys2Proof.Machine.execVfdiv n c m vd va b s
  | .vfsqrt n c m vd va b => Sys2Proof.Machine.execVfsqrt n c m vd va b s
  | .vfdotD n c m vd va b => Sys2Proof.Machine.execVfdotD n c m vd va b s
  | .vcmpeq n c m vd va b => Sys2Proof.Machine.execVcmpeq n c m vd va b s
  | .vcmpne n c m vd va b => Sys2Proof.Machine.execVcmpne n c m vd va b s
  | .vcmplt n c m vd va b => Sys2Proof.Machine.execVcmplt n c m vd va b s
  | .vcmpge n c m vd va b => Sys2Proof.Machine.execVcmpge n c m vd va b s
  | .vcmpltu n c m vd va b => Sys2Proof.Machine.execVcmpltu n c m vd va b s
  | .vcmpgeu n c m vd va b => Sys2Proof.Machine.execVcmpgeu n c m vd va b s
  | .vld n c m vd an up => Sys2Proof.Machine.execVld n c m vd an up s
  | .vst n c m vd an up => Sys2Proof.Machine.execVst n c m vd an up s
  | .vlds n c m vd an dk up => Sys2Proof.Machine.execVlds n c m vd an dk up s
  | .vsts n c m vd an dk up => Sys2Proof.Machine.execVsts n c m vd an dk up s
  | .vldseg n c m vd an nf up => Sys2Proof.Machine.execVldseg n c m vd an nf up s
  | .vstseg n c m vd an nf up => Sys2Proof.Machine.execVstseg n c m vd an nf up s
  | .vldx n c m vd an vi up => Sys2Proof.Machine.execVldx n c m vd an vi up s
  | .vstx n c m vd an vi up => Sys2Proof.Machine.execVstx n c m vd an vi up s
  | .tcfg n c t dn => Sys2Proof.Machine.execTcfg n c t dn s
  | .tzero n c t => Sys2Proof.Machine.execTzero n c t s
  | .tmvVt n c t va row => Sys2Proof.Machine.execTmvVt n c t va row s
  | .tmvTv n c t vd row => Sys2Proof.Machine.execTmvTv n c t vd row s
  | .tmask n c t va => Sys2Proof.Machine.execTmask n c t va s
  | .tmeta n c t vd k => Sys2Proof.Machine.execTmeta n c t vd k s
  | .tsave n c t an => Sys2Proof.Machine.execTsave n c t an s
  | .trest n c t an => Sys2Proof.Machine.execTrest n c t an s
  | .tld n c t an dk up w => Sys2Proof.Machine.execTld n c t an dk up w s
  | .setterFire n id => Sys2Proof.Machine.execSetterFire n id s
  | .shelfFill n q weight => Sys2Proof.Machine.execShelfFill n q weight s
  | .mma n c q tw ta dc => Sys2Proof.Machine.execMma n c q tw ta dc s
  | .accOpen n c q g acc tree z it dn => Sys2Proof.Machine.execAccOpen n c q g acc tree z it dn s
  | .accClose n c q g => Sys2Proof.Machine.execAccClose n c q g s
  | .accZero n c q acc ix => Sys2Proof.Machine.execAccZero n c q acc ix s
  | .accDrt n c q acc t dc => Sys2Proof.Machine.execAccDrt n c q acc t dc s
  | .accDrm n c q acc an dk dc => Sys2Proof.Machine.execAccDrm n c q acc an dk dc s
  | .accDrj n c q acc dj dc => Sys2Proof.Machine.execAccDrj n c q acc dj dc s
  | .accLd n c q acc an dk dc => Sys2Proof.Machine.execAccLd n c q acc an dk dc s
  | .weightCopy n q => Sys2Proof.Machine.execWeightCopy n q s
  | .passStart n q => Sys2Proof.Machine.execPassStart n q s
  | .passComplete n q => Sys2Proof.Machine.execPassComplete n q s
  | .treeCloseComplete n q g => Sys2Proof.Machine.execTreeCloseComplete n q g s
  | .drainComplete n id => Sys2Proof.Machine.execDrainComplete n id s
  | .runAhead n => Sys2Proof.Machine.execRunAhead n s
  | .snapshotFirstTouch leaf => Sys2Proof.Machine.execSnapshotFirstTouch leaf s
  | .shadowFirstTouch leaf => Sys2Proof.Machine.execShadowFirstTouch leaf s
  | .pageCopyComplete leaf => Sys2Proof.Machine.execPageCopyComplete leaf s
  | .mouldTake src => Sys2Proof.Machine.execMouldTake src s
  | .snapSweepEnd => Sys2Proof.Machine.execSnapSweepEnd s
  | .stepCommit src => Sys2Proof.Machine.execStepCommit src s
  | .stepRollback src => Sys2Proof.Machine.execStepRollback src s
  | .stepCmdEnd => Sys2Proof.Machine.execStepCmdEnd s
  | .slogWrite src hi w => Sys2Proof.Machine.execSlogWrite src hi w s
  | .xrootLoWrite src n w => Sys2Proof.Machine.execXrootLoWrite src n w s
  | .xrootHiWrite src n w => Sys2Proof.Machine.execXrootHiWrite src n w s
  | .jrootLoWrite src w => Sys2Proof.Machine.execJrootLoWrite src w s
  | .jrootHiWrite src w => Sys2Proof.Machine.execJrootHiWrite src w s
  | .queueDoorbell src w => Sys2Proof.Machine.execQueueDoorbell src w s
  | .coreDoorbell src w => Sys2Proof.Machine.execCoreDoorbell src w s
  | .queueEnable src q => Sys2Proof.Machine.execQueueEnable src q s
  | .queueDisable src q => Sys2Proof.Machine.execQueueDisable src q s
  | .qeWrite src ix w => Sys2Proof.Machine.execQeWrite src ix w s
  | .preempt src w => Sys2Proof.Machine.execPreempt src w s
  | .descriptorRead q host => Sys2Proof.Machine.execDescriptorRead q host s
  | .dispatch => Sys2Proof.Machine.execDispatch s
  | .completionRecord n => Sys2Proof.Machine.execCompletionRecord n s
  | .pyroInterval t => Sys2Proof.Machine.execPyroInterval t s
  | .dvfsWrite src w => Sys2Proof.Machine.execDvfsWrite src w s
  | .semAdd n c an dn => Sys2Proof.Machine.execSemAdd n c an dn s
  | .semSub n c an dn => Sys2Proof.Machine.execSemSub n c an dn s
  | .semWait n c an dn => Sys2Proof.Machine.execSemWait n c an dn s
  | .semTake n c an dn => Sys2Proof.Machine.execSemTake n c an dn s
  | .semAddi n c an imm => Sys2Proof.Machine.execSemAddi n c an imm s
  | .semSubi n c an imm => Sys2Proof.Machine.execSemSubi n c an imm s
  | .semWaiti n c an imm => Sys2Proof.Machine.execSemWaiti n c an imm s
  | .semTakei n c an imm => Sys2Proof.Machine.execSemTakei n c an imm s
  | .barArr n c dn an => Sys2Proof.Machine.execBarArr n c dn an s
  | .barWait n c an dn => Sys2Proof.Machine.execBarWait n c an dn s
  | .combWindowAdd n sv v => Sys2Proof.Machine.execCombWindowAdd n sv v s
  | .hopAdd src sv => Sys2Proof.Machine.execHopAdd src sv s
  | .hopSub src sv => Sys2Proof.Machine.execHopSub src sv s
  | .hopSet src sv => Sys2Proof.Machine.execHopSet src sv s
  | .hopArrive src sv => Sys2Proof.Machine.execHopArrive src sv s
  | .tclr src w => Sys2Proof.Machine.execTclr src w s
  | .semPacket p => Sys2Proof.Machine.execSemPacket p s
  | .barrReceive p => Sys2Proof.Machine.execBarrReceive p s
  | .brelReceive p => Sys2Proof.Machine.execBrelReceive p s
  | .bCtlWrite src b w => Sys2Proof.Machine.execBCtlWrite src b w s
  | .bNextWrite src b w => Sys2Proof.Machine.execBNextWrite src b w s
  | .bCtxWrite src b reg w => Sys2Proof.Machine.execBCtxWrite src b reg w s
  | .linkEnable src l => Sys2Proof.Machine.execLinkEnable src l s
  | .linkDisable src l => Sys2Proof.Machine.execLinkDisable src l s
  | .linkRetrain src l => Sys2Proof.Machine.execLinkRetrain src l s
  | .linkAdmit src l => Sys2Proof.Machine.execLinkAdmit src l s
  | .linkLock l => Sys2Proof.Machine.execLinkLock l s
  | .trainTimeout l => Sys2Proof.Machine.execTrainTimeout l s
  | .downHoldEnd l => Sys2Proof.Machine.execDownHoldEnd l s
  | .helloReceive l p => Sys2Proof.Machine.execHelloReceive l p s
  | .certReceive l p => Sys2Proof.Machine.execCertReceive l p s
  | .rateReceive l p => Sys2Proof.Machine.execRateReceive l p s
  | .rateOfferTimeout l => Sys2Proof.Machine.execRateOfferTimeout l s
  | .rateDrainEnd l => Sys2Proof.Machine.execRateDrainEnd l s
  | .discoveryRound src => Sys2Proof.Machine.execDiscoveryRound src s
  | .flitReceive l bytes fec => Sys2Proof.Machine.execFlitReceive l bytes fec s
  | .idleFlit l => Sys2Proof.Machine.execIdleFlit l s
  | .windowMiss l => Sys2Proof.Machine.execWindowMiss l s
  | .packetRoute src p => Sys2Proof.Machine.execPacketRoute src p s
  | .multicastForward src p => Sys2Proof.Machine.execMulticastForward src p s
  | .rdRequest p => Sys2Proof.Machine.execRdRequest p s
  | .wrRequest p => Sys2Proof.Machine.execWrRequest p s
  | .dbPacket p => Sys2Proof.Machine.execDbPacket p s
  | .fabricAnswer p => Sys2Proof.Machine.execFabricAnswer p s
  | .requestTimeout tag => Sys2Proof.Machine.execRequestTimeout tag s
  | .remoteDoorbellStore src n w => Sys2Proof.Machine.execRemoteDoorbellStore src n w s
  | .imgqReceive l p => Sys2Proof.Machine.execImgqReceive l p s
  | .imgdReceive l p => Sys2Proof.Machine.execImgdReceive l p s
  | .imageTransferTimeout => Sys2Proof.Machine.execImageTransferTimeout s
  | .imageRetry => Sys2Proof.Machine.execImageRetry s
  | .jcmdOpen src pg idx => Sys2Proof.Machine.execJcmdOpen src pg idx s
  | .jcmdClose src pg idx => Sys2Proof.Machine.execJcmdClose src pg idx s
  | .jeWrite src pg ix w => Sys2Proof.Machine.execJeWrite src pg ix w s
  | .leafStage n id => Sys2Proof.Machine.execLeafStage n id s
  | .rsumReceive p => Sys2Proof.Machine.execRsumReceive p s
  | .rresReceive p => Sys2Proof.Machine.execRresReceive p s
  | .resultDelivered job tile => Sys2Proof.Machine.execResultDelivered job tile s
  | .participantTimeout job node tile => Sys2Proof.Machine.execParticipantTimeout job node tile s
  | .xgoEnable src pg => Sys2Proof.Machine.execXgoEnable src pg s
  | .xgoDisable src pg => Sys2Proof.Machine.execXgoDisable src pg s
  | .xgoSend src pg count => Sys2Proof.Machine.execXgoSend src pg count s
  | .xgoReturn src pg => Sys2Proof.Machine.execXgoReturn src pg s
  | .xeWrite src pg ix w => Sys2Proof.Machine.execXeWrite src pg ix w s
  | .xrowReceive p => Sys2Proof.Machine.execXrowReceive p s
  | .xcntReceive p => Sys2Proof.Machine.execXcntReceive p s
  | .xretReceive p => Sys2Proof.Machine.execXretReceive p s
  | .scaleRoll src n hi w => Sys2Proof.Machine.execScaleRoll src n hi w s
  | .scAmaxwWrite src n e w => Sys2Proof.Machine.execScAmaxwWrite src n e w s
  | .lossScaleCurWrite src w => Sys2Proof.Machine.execLossScaleCurWrite src w s
  | .srsvCommit src => Sys2Proof.Machine.execSrsvCommit src s
  | .srsvSkip src => Sys2Proof.Machine.execSrsvSkip src s
  | .srsvRefused src => Sys2Proof.Machine.execSrsvRefused src s
  | .srsvAbandoned src => Sys2Proof.Machine.execSrsvAbandoned src s
  | .restoreGo src => Sys2Proof.Machine.execRestoreGo src s
  | .sctlWrite src w => Sys2Proof.Machine.execSctlWrite src w s
  | .stepnWrite src w => Sys2Proof.Machine.execStepnWrite src w s
  | .bpBurstWrite port off data => Sys2Proof.Machine.execBpBurstWrite port off data s
  | .bpBurstRead port off len => Sys2Proof.Machine.execBpBurstRead port off len s
  | .bpctlWrite src w => Sys2Proof.Machine.execBpctlWrite src w s
  | .bpRegWrite src reg w => Sys2Proof.Machine.execBpRegWrite src reg w s
  | .bpComplete port => Sys2Proof.Machine.execBpComplete port s
  | .hostQueueDoorbell bytes w => Sys2Proof.Machine.execHostQueueDoorbell bytes w s
  | .hostCoreDoorbell bytes w => Sys2Proof.Machine.execHostCoreDoorbell bytes w s
  | .cxlMemRead o len cache => Sys2Proof.Machine.execCxlMemRead o len cache s
  | .cxlMemWrite o data poison => Sys2Proof.Machine.execCxlMemWrite o data poison s
  | .biSnoopAnswer line dirty => Sys2Proof.Machine.execBiSnoopAnswer line dirty s
  | .hsigWrite src w => Sys2Proof.Machine.execHsigWrite src w s
  | .hostLinkTrain => Sys2Proof.Machine.execHostLinkTrain s
  | .hostLinkRetry => Sys2Proof.Machine.execHostLinkRetry s
  | .getSvc ch payload => Sys2Proof.Machine.execGetSvc ch payload s
  | .getId ch payload => Sys2Proof.Machine.execGetId ch payload s
  | .getCert ch payload => Sys2Proof.Machine.execGetCert ch payload s
  | .quote ch payload => Sys2Proof.Machine.execQuote ch payload s
  | .slotInfo ch payload => Sys2Proof.Machine.execSlotInfo ch payload s
  | .load ch payload => Sys2Proof.Machine.execLoad ch payload s
  | .updBegin ch payload => Sys2Proof.Machine.execUpdBegin ch payload s
  | .updData ch payload => Sys2Proof.Machine.execUpdData ch payload s
  | .updEnd ch payload => Sys2Proof.Machine.execUpdEnd ch payload s
  | .updAbort ch payload => Sys2Proof.Machine.execUpdAbort ch payload s
  | .activate ch payload => Sys2Proof.Machine.execActivate ch payload s
  | .activationRestart => Sys2Proof.Machine.execActivationRestart s
  | .confirm ch payload => Sys2Proof.Machine.execConfirm ch payload s
  | .setGet ch payload => Sys2Proof.Machine.execSetGet ch payload s
  | .setPut ch payload => Sys2Proof.Machine.execSetPut ch payload s
  | .jtagBypass => Sys2Proof.Machine.execJtagBypass s
  | .jtagIdcode => Sys2Proof.Machine.execJtagIdcode s
  | .jtagSamplePreload => Sys2Proof.Machine.execJtagSamplePreload s
  | .jtagExtest => Sys2Proof.Machine.execJtagExtest s
  | .rpRow src => Sys2Proof.Machine.execRpRow src s
  | .rpAcol src w => Sys2Proof.Machine.execRpAcol src w s
  | .logClr src => Sys2Proof.Machine.execLogClr src s
  | .scrubGo src w => Sys2Proof.Machine.execScrubGo src w s
  | .scrubComplete => Sys2Proof.Machine.execScrubComplete s
  | .tileStore n c t an dk up w => Sys2Proof.Machine.execTileStore n c t an dk up w s
  | .vectorComplete n u => Sys2Proof.Machine.execVectorComplete n u s
  | .restoreComplete => Sys2Proof.Machine.execRestoreComplete s
  | .rpcmdComplete => Sys2Proof.Machine.execRpcmdComplete s
  | .hostLinkUp rate width => Sys2Proof.Machine.execHostLinkUp rate width s
  | .hostCacheSnoop line => Sys2Proof.Machine.execHostCacheSnoop line s
  | .fireflyRestartEnd => Sys2Proof.Machine.execFireflyRestartEnd s

end Sys2Proof.Machine
end

