-- ==== Sys2Proof/Machine/Step.lean ====
section
/-! DEFINITION. Sys2Proof/Machine/Step.lean: one step of the block: the command at the front of the queue, or a tick of the
module's reference in which the cores run. -/

namespace Sys2Proof.Machine

/-- A microsecond of the module reference passes (assumption log 2): no island's clock runs before step 1 of bring-up, so none is counted then
(R27, Table 2-6). -/
def State.tickUsec (s : State) : State :=
  if s.power = .running then { s.settle with usec := s.settle.usec + 1 } else s

/-- One step: the command at the front of the queue, with the queue's rest; on an empty queue time passes, and every core that can issue runs
the instruction at its PC (assumption log 125). -/
def step (s : State) : Host.Outcome State Fault Refusal :=
  match s.pending with
  | [] => s.tickUsec.runCores
  | c :: rest => exec c { s with pending := rest }

/-- The state with the command that a word spells put at the front of the queue. -/
def State.withFetchWord (s : State) (nbits w : Nat) : State :=
  match decodeTableWord nbits w with
  | some c => { s with pending := c :: s.pending }
  | none => s

end Sys2Proof.Machine
end

