-- ==== Sys2Proof/Safety.lean ====
section
/-! DEFINITION. Sys2Proof/Safety.lean: the terms the statements use: when an instruction of a core runs, arithmetic on plain
numbers, frames, and the invariants of the module. -/

namespace Sys2Proof.Safety

open Sys2Proof.Machine

/-- An instruction of len words with condition k runs on core n in state s, and t is the state after its fetch: the core issues, no
fetched word is marked, and the condition holds, with no mark on a predicate it reads (Table 4-4). No error lies in a register file or table, as in every
state that a run reaches from one without (EveryStepKeepsMemoryCanonical). -/
def Ready (s t : State) (n : Nat) (k : Cond) (len : Nat) : Prop :=
  s.issues n = true ∧ s.upsets = [] ∧ (s.core n).peek = false ∧ t = (s.fetched n len).modCore n (fun c => c.issuing (s.cycles n)) ∧
  t.fetchPoison n len = none ∧
  (condPreds k).any (t.core n).pp = false ∧ (t.core n).cond k = true

/-- Core n of state t after an instruction of len words whose effect on the core is f. -/
def after (t : State) (n len : Nat) (f : Core → Core) : State := t.modCore n (fun c => (f c).retire len)

/-- Where an access of core n to MMIO or a Comb window goes, and the state that the use of its TLB leaves: the address as it stands, or the one
that a hit of the core's TLB gives and its leaf admits (R300, R305; Table 4-4, check 7). -/
def DevPlace (t : State) (n : Nat) (ea : W64) (r : Region) (write : Bool) (v : State) (pa : Nat) : Prop :=
  (t.xlOn n (t.core n).sup = false ∧ v = t ∧ pa = localOf ea) ∨
  (t.xlOn n (t.core n).sup = true ∧ v = t.fresh n (localOf ea) ∧ ∃ e, v.tlbFind n (localOf ea) = some e ∧
    v.leafCheck e (localOf ea) write (.direct r) = none ∧ pa = e.pa (localOf ea))

/-! ## Arithmetic on plain numbers (Tables 3-5, 4-8, 4-12) -/

/-- The signed value of an m-bit number. -/
def sval (m x : Nat) : Int := if x < 2 ^ (m - 1) then (x : Int) else (x : Int) - (2 ^ m : Nat)

/-- Whether an exact signed result does not fit m bits. -/
def overflows (m : Nat) (r : Int) : Bool := decide (r < -((2 ^ (m - 1) : Nat) : Int)) || decide (((2 ^ (m - 1) : Nat) : Int) ≤ r)

/-- A result with its C and V flags. -/
structure Out where
  r : Nat
  c : Bool
  v : Bool
deriving DecidableEq, Repr

/-- N, Z, C and V of an m-bit result as SR holds them in bits 3 to 0. -/
def flagWord (m : Nat) (o : Out) : Nat :=
  (if 2 ^ (m - 1) ≤ o.r then 8 else 0) + (if o.r = 0 then 4 else 0) + (if o.c then 2 else 0) + (if o.v then 1 else 0)

/-- A function of Table 4-8: width, a, b and the carry. -/
abbrev AluSpec := Nat → Nat → Nat → Nat → Out

def addSpec : AluSpec := fun m x y _ => ⟨(x + y) % 2 ^ m, decide (2 ^ m ≤ x + y), overflows m (sval m x + sval m y)⟩
def adcSpec : AluSpec := fun m x y c => ⟨(x + y + c) % 2 ^ m, decide (2 ^ m ≤ x + y + c), overflows m (sval m x + sval m y + c)⟩
def subSpec : AluSpec := fun m x y _ => ⟨(x + 2 ^ m - y) % 2 ^ m, decide (x < y), overflows m (sval m x - sval m y)⟩
def sbcSpec : AluSpec := fun m x y c =>
  ⟨(x + 2 ^ m - y + 2 ^ m - c) % 2 ^ m, decide (x < y + c), overflows m (sval m x - sval m y - c)⟩
def andSpec : AluSpec := fun _ x y _ => ⟨x &&& y, false, false⟩
def orSpec : AluSpec := fun _ x y _ => ⟨x ||| y, false, false⟩
def xorSpec : AluSpec := fun _ x y _ => ⟨x ^^^ y, false, false⟩
def andnSpec : AluSpec := fun m x y _ => ⟨x &&& (2 ^ m - 1 - y), false, false⟩
def minSpec : AluSpec := fun m x y _ => ⟨if sval m x ≤ sval m y then x else y, false, false⟩
def maxSpec : AluSpec := fun m x y _ => ⟨if sval m x ≤ sval m y then y else x, false, false⟩
def movSpec : AluSpec := fun _ _ y _ => ⟨y, false, false⟩
def negSpec : AluSpec := fun m _ y _ => ⟨(2 ^ m - y) % 2 ^ m, decide (0 < y), overflows m (-sval m y)⟩
def notSpec : AluSpec := fun m _ y _ => ⟨2 ^ m - 1 - y, false, false⟩

/-- The bits of an ALU operation: 16, or 32 for a pair. -/
def bitsOfW (w : Bool) : Nat := if w then 32 else 16

/-- What an ALU or shift instruction does to the core: its result goes to Dd, and with F its flags to SR, at distance 1. -/
def aluAfter (f w : Bool) (d : Nat) (o : Out) (k : Core) : Core :=
  let k1 := k.sendW 1 w d (BitVec.ofNat 32 o.r)
  if f then k1.sendSr 1 0xF (BitVec.ofNat 32 (flagWord (bitsOfW w) o)) else k1

/-- The operands of an ALU instruction as numbers: Da, the second operand, the carry. -/
def aluOut (g : AluSpec) (w : Bool) (a : Nat) (b : AluSrc) (k : Core) : Out :=
  g (bitsOfW w) (k.aluReg w a).toNat (k.aluB w b).toNat (if k.carry then 1 else 0)

/-- Whether cmpp finds its condition on m-bit numbers x and y (R124, Table 3-6); it takes no other condition. -/
def cmppHit (cd : Cond) (m x y : Nat) : Bool := match cd with
  | .eq => decide (x = y)
  | .ne => decide (x ≠ y)
  | .lt => decide (sval m x < sval m y)
  | .ge => decide (sval m y ≤ sval m x)
  | .cs => decide (x < y)
  | .cc => decide (y ≤ x)
  | .mi => decide (2 ^ (m - 1) ≤ (x + 2 ^ m - y) % 2 ^ m)
  | _ => false

/-- Shifts of an m-bit number x by n. -/
abbrev ShiftSpec := Nat → Nat → Nat → Out
def shlSpec : ShiftSpec := fun m x n => ⟨x * 2 ^ n % 2 ^ m, decide (0 < n) && x.testBit (m - n), false⟩
def shrSpec : ShiftSpec := fun _ x n => ⟨x / 2 ^ n, decide (0 < n) && x.testBit (n - 1), false⟩
def sarSpec : ShiftSpec := fun m x n =>
  ⟨(sval m x / ((2 ^ n : Nat) : Int) % ((2 ^ m : Nat) : Int)).toNat, decide (0 < n) && x.testBit (n - 1), false⟩
def rorSpec : ShiftSpec := fun m x n =>
  ⟨x / 2 ^ n + x % 2 ^ n * 2 ^ (m - n) % 2 ^ m, decide (0 < n) && (x / 2 ^ n + x % 2 ^ n * 2 ^ (m - n) % 2 ^ m).testBit (m - 1), false⟩

/-- A Comb instruction of core n in state t names semaphore k (or context k) of this module's Comb, in An, with translation off or at
supervisor level (R348). -/
def NamesHere (t : State) (n : Nat) (a : W64) (ctx mayRemote : Bool) (k : Nat) : Prop :=
  t.combTarget a ctx mayRemote = .here a ∧ t.xlOn n (t.core n).sup = false ∧
  k = (localOf a - (if ctx then combBase + 0x100000 else combBase)) / (if ctx then 0x800 else 16)

/-- The count of semaphore k is changed to c by an operation of v, and its waiters are served; an operation of 0 does nothing (R342). -/
def counted (s : State) (k c v : Nat) : State := if v = 0 then s else s.semStore k { s.sem k with count := BitVec.ofNat 32 c }

/-- Core n holds issue, with an instruction of len words. -/
def holding (t : State) (n len : Nat) (h : Hold) : State := t.modCore n (fun c => { c with hold := some h, hlen := len })

/-- The module runs (R45, R48), and no error lies in a register file or table, as in every state that a run reaches from one without
(EveryStepKeepsMemoryCanonical). -/
abbrev On (s : State) : Prop := s.power = .running ∧ s.upsets = []

/-- t is s after every state was lost but what flash, fuses and the world outside hold (R42, R46 to R48, R510), in power state p. -/
def Wiped (s t : State) (p : Power) : Prop :=
  t.power = p ∧ t.pins.modPg = decide (p = .reset) ∧ t.pins.thermTripN = decide (p ≠ .tripped) ∧
  t.pins.cblPrsntN = s.pins.cblPrsntN ∧ t.pins.fwWpN = s.pins.fwWpN ∧
  t.regs = [] ∧ t.cores = [] ∧ t.mem = { cells := [], trained := none } ∧ t.psn = [] ∧ t.queues = [] ∧ t.sems = [] ∧ t.ctxs = [] ∧ t.links = [] ∧ t.routes = [] ∧
  t.mcast = [] ∧ t.jobs = [] ∧ t.swarms = [] ∧ t.ports = [] ∧ t.log = [] ∧ t.inbox = [] ∧ t.requests = [] ∧ t.session = none ∧
  t.flashA = s.flashA ∧ t.flashB = s.flashB ∧ t.settings = s.settings ∧ t.repairs = s.repairs ∧
  (∀ x, x ∈ t.fuses ↔ x ∈ s.fuses ∨ (x ∈ s.repairs ∧ x.isCol = true)) ∧ t.fieldRows = [] ∧ t.idKeys = [] ∧ t.upsets = [] ∧
  t.pending = s.pending

/-- Nothing waits at the Pugmills and the Swarm: no node, no held packet, no held command. -/
def Quiet (s : State) : Prop :=
  (∀ k, (s.job k).nodes = [] ∧ (s.job k).held = []) ∧ ∀ e, (s.swarm e).held = [] ∧ (s.swarm e).work = []

/-- Nothing waits for the host's answer to a snoop either: no resolution, no row repair and no request of the mailbox (R440, R470, R486, R511). -/
def Unheld (s : State) : Prop := Quiet s ∧ s.resolving = [] ∧ s.rowWait = none ∧ ∀ c, (s.box c).req = none

/-- Who writes the register that a command writes, for a row that names it. -/
def sourceOf (i : Instr) : Option Src := match i with
  | .computeReset x _ => some x | .fireflyRestart x _ => some x | .globalCfgWrite x _ => some x | .pgIrqEnWrite x _ _ => some x
  | .pgLock x _ => some x | .pgErrClr x _ _ => some x | .registerWrite x _ _ _ => some x | .coreHalt x _ => some x
  | .coreResume x _ => some x | .coreReset x _ _ => some x | .coreSwi x _ _ => some x | .mouldTake x => some x | .stepCommit x => some x
  | .stepRollback x => some x | .slogWrite x _ _ => some x | .xrootLoWrite x _ _ => some x | .xrootHiWrite x _ _ => some x
  | .jrootLoWrite x _ => some x | .jrootHiWrite x _ => some x | .queueDoorbell x _ => some x | .coreDoorbell x _ => some x
  | .queueEnable x _ => some x | .queueDisable x _ => some x | .qeWrite x _ _ => some x | .preempt x _ => some x | .dvfsWrite x _ => some x
  | .hopAdd x _ => some x | .hopSub x _ => some x | .hopSet x _ => some x | .hopArrive x _ => some x | .tclr x _ => some x
  | .bCtlWrite x _ _ => some x | .bNextWrite x _ _ => some x | .bCtxWrite x _ _ _ => some x | .linkEnable x _ => some x
  | .linkDisable x _ => some x | .linkRetrain x _ => some x | .linkAdmit x _ => some x | .discoveryRound x => some x
  | .remoteDoorbellStore x _ _ => some x | .jcmdOpen x _ _ => some x | .jcmdClose x _ _ => some x | .jeWrite x _ _ _ => some x
  | .xgoEnable x _ => some x | .xgoDisable x _ => some x | .xgoSend x _ _ => some x | .xgoReturn x _ => some x | .xeWrite x _ _ _ => some x
  | .scaleRoll x _ _ _ => some x | .scAmaxwWrite x _ _ _ => some x | .lossScaleCurWrite x _ => some x | .srsvCommit x => some x
  | .srsvSkip x => some x | .srsvRefused x => some x | .srsvAbandoned x => some x | .restoreGo x => some x | .sctlWrite x _ => some x
  | .stepnWrite x _ => some x | .bpctlWrite x _ => some x | .bpRegWrite x _ _ => some x | .hsigWrite x _ => some x | .rpRow x => some x
  | .rpAcol x _ => some x | .logClr x => some x | .scrubGo x _ => some x
  | _ => none

/-- The same row as an access of the host that waits its turn (R460). -/
def rowOf (i : Instr) : Option HostRow := match i with
  | .computeReset _ w => some (.computeReset w) | .fireflyRestart _ w => some (.fireflyRestart w)
  | .globalCfgWrite _ w => some (.globalCfgWrite w) | .pgIrqEnWrite _ page w => some (.pgIrqEnWrite page w)
  | .pgLock _ page => some (.pgLock page) | .pgErrClr _ page arriving => some (.pgErrClr page arriving)
  | .registerWrite _ off bytes w => some (.registerWrite off bytes w) | .coreHalt _ n => some (.coreHalt n)
  | .coreResume _ n => some (.coreResume n) | .coreReset _ n w => some (.coreReset n w) | .coreSwi _ n w => some (.coreSwi n w)
  | .mouldTake _ => some .mouldTake | .stepCommit _ => some .stepCommit | .stepRollback _ => some .stepRollback
  | .slogWrite _ hi w => some (.slogWrite hi w) | .xrootLoWrite _ n w => some (.xrootLoWrite n w)
  | .xrootHiWrite _ n w => some (.xrootHiWrite n w) | .jrootLoWrite _ w => some (.jrootLoWrite w)
  | .jrootHiWrite _ w => some (.jrootHiWrite w) | .queueDoorbell _ w => some (.queueDoorbell w)
  | .coreDoorbell _ w => some (.coreDoorbell w) | .queueEnable _ q => some (.queueEnable q) | .queueDisable _ q => some (.queueDisable q)
  | .qeWrite _ i w => some (.qeWrite i w) | .preempt _ w => some (.preempt w) | .dvfsWrite _ w => some (.dvfsWrite w)
  | .hopAdd _ s => some (.hopAdd s) | .hopSub _ s => some (.hopSub s) | .hopSet _ s => some (.hopSet s)
  | .hopArrive _ s => some (.hopArrive s) | .tclr _ w => some (.tclr w) | .bCtlWrite _ b w => some (.bCtlWrite b w)
  | .bNextWrite _ b w => some (.bNextWrite b w) | .bCtxWrite _ b reg w => some (.bCtxWrite b reg w)
  | .linkEnable _ l => some (.linkEnable l) | .linkDisable _ l => some (.linkDisable l) | .linkRetrain _ l => some (.linkRetrain l)
  | .linkAdmit _ l => some (.linkAdmit l) | .discoveryRound _ => some .discoveryRound
  | .remoteDoorbellStore _ n w => some (.remoteDoorbellStore n w) | .jcmdOpen _ pg idx => some (.jcmdOpen pg idx)
  | .jcmdClose _ pg idx => some (.jcmdClose pg idx) | .jeWrite _ pg i w => some (.jeWrite pg i w) | .xgoEnable _ pg => some (.xgoEnable pg)
  | .xgoDisable _ pg => some (.xgoDisable pg) | .xgoSend _ pg count => some (.xgoSend pg count) | .xgoReturn _ pg => some (.xgoReturn pg)
  | .xeWrite _ pg i w => some (.xeWrite pg i w) | .scaleRoll _ n hi w => some (.scaleRoll n hi w)
  | .scAmaxwWrite _ n e w => some (.scAmaxwWrite n e w) | .lossScaleCurWrite _ w => some (.lossScaleCurWrite w)
  | .srsvCommit _ => some .srsvCommit | .srsvSkip _ => some .srsvSkip | .srsvRefused _ => some .srsvRefused
  | .srsvAbandoned _ => some .srsvAbandoned | .restoreGo _ => some .restoreGo | .sctlWrite _ w => some (.sctlWrite w)
  | .stepnWrite _ w => some (.stepnWrite w) | .bpctlWrite _ w => some (.bpctlWrite w) | .bpRegWrite _ reg w => some (.bpRegWrite reg w)
  | .hsigWrite _ w => some (.hsigWrite w) | .rpRow _ => some .rpRow | .rpAcol _ w => some (.rpAcol w) | .logClr _ => some .logClr
  | .scrubGo _ w => some (.scrubGo w)
  | _ => none

/-- An access of a source to a register does not wait: it is not the host's, or none of the host's accesses waits (R460). -/
def InTurn (s : State) (src : Src) : Prop := src ≠ .host ∨ s.bursts = []

/-- Every core but those of a list is as it was. -/
def SameCores (s t : State) (but : List Nat) : Prop := ∀ m, m ∉ but → t.core m = s.core m

/-- Every register but those at a list of offsets is as it was. -/
def SameRegs (s t : State) (but : List Nat) : Prop := ∀ o, o ∉ but → t.reg o = s.reg o

/-- The n words from address a can be reached as physical addresses and none is held back: the job tables are off, and the host caches
nothing (R301, R470). -/
def Open (s : State) (a n : Nat) : Prop := s.bitReg rJrootLo 0 = false ∧ s.snoop = [] ∧ (addrs a n).all s.jobReach = true

/-! ## Vector functions (Tables 6-3, 6-5, 6-10, 6-11) -/

/-- What replaces a result outside its range: nothing, or the nearest limit, signed or unsigned (R179, R183). -/
inductive Limit where
  | wrap | signed | unsigned
deriving DecidableEq, Repr

/-- A result as a code of w bits, and whether a limit replaced it. -/
def limited (l : Limit) (w : Nat) (r : Int) : Nat × Bool := match l with
  | .wrap => ((r % (2 ^ w : Nat)).toNat, false)
  | .signed => ((max (-((2 ^ (w - 1) : Nat) : Int)) (min (((2 ^ (w - 1) : Nat) : Int) - 1) r) % (2 ^ w : Nat)).toNat, overflows w r)
  | .unsigned => ((max 0 (min (((2 ^ w : Nat) : Int) - 1) r)).toNat, decide (r < 0) || decide (((2 ^ w : Nat) : Int) ≤ r))

/-- v with its low s bits dropped under rounding mode x (R182, Table 6-10). -/
def dropBits (x : Nat) (v : Int) (s : Nat) : Int :=
  let u : Int := (2 ^ s : Nat)
  let q := v / u
  let f := v - q * u
  if x = 0 then (if 2 * f < u then q else if u < 2 * f then q + 1 else q + q % 2)
  else if x = 1 then (if 2 * f < u then q else q + 1)
  else if x = 2 then q
  else if f = 0 then q else q + (1 - q % 2)

/-- A function of Table 6-5 as the table gives it: its command, element types, unit and distance; how many times SEW are a and d, with 0
for a mask bit; whether it reads d, and whether it reads no a; and what it computes for ET, SEW, FXR, a, b and d, with whether that
saturated. -/
structure VecSpec where
  op   : Nat → Cond → Bool → Fin 32 → Fin 32 → VecSrc → Instr
  ets  : List Nat
  unit : VUnit
  dist : Nat
  ma   : Nat
  md   : Nat
  acc  : Bool
  one  : Bool
  f    : (et w x a b d : Nat) → Nat × Bool

/-- An integer function by its exact result. -/
def intSpec (op : Nat → Cond → Bool → Fin 32 → Fin 32 → VecSrc → Instr) (unit : VUnit) (dist : Nat) (l : Limit)
    (f : (w x a b : Nat) → Int) : VecSpec :=
  { op := op, ets := [0, 1, 2, 3], unit := unit, dist := dist, ma := 1, md := 1, acc := false, one := false,
    f := fun _ w x a b _ => limited l w (f w x a b) }

/-- A widening multiply: d has twice the width (R180). -/
def wideSpec (op : Nat → Cond → Bool → Fin 32 → Fin 32 → VecSrc → Instr) (acc : Bool) (f : (w a b d : Nat) → Int) : VecSpec :=
  { op := op, ets := [0, 1, 2], unit := .vmul, dist := 4, ma := 1, md := 2, acc := acc, one := false,
    f := fun _ w _ a b d => limited .wrap (2 * w) (f w a b d) }

/-- A comparison: of integers, and of floating-point values where it accepts them. -/
def cmpSpec (op : Nat → Cond → Bool → Fin 32 → Fin 32 → VecSrc → Instr) (fp : Bool) (fi : (w a b : Nat) → Bool) (ff : Machine.Num → Machine.Num → Bool) : VecSpec :=
  { op := op, ets := if fp then [0, 1, 2, 3, 4, 5, 6, 7] else [0, 1, 2, 3], unit := .valu, dist := 2, ma := 1, md := 0, acc := false, one := false,
    f := fun et w _ a b _ => (if (match etFmt et with
      | some g => ff (g.decode a) (g.decode b)
      | none => fi w a b) then 1 else 0, false) }

/-- A floating-point function of exact values, rounded once to the format of ET. -/
def floatSpec (op : Nat → Cond → Bool → Fin 32 → Fin 32 → VecSrc → Instr) (unit : VUnit) (dist : Nat) (acc one : Bool)
    (f : (a b d : Machine.Num) → Machine.Num) : VecSpec :=
  { op := op, ets := [4, 5, 6, 7], unit := unit, dist := dist, ma := 1, md := 1, acc := acc, one := one,
    f := fun et _ _ a b d => match etFmt et with
      | some g => (g.round (f (g.decode a) (g.decode b) (g.decode d)), false)
      | none => (0, false) }

/-- The integer functions and comparisons of Table 6-5, and vmov. -/
def vecIntSpecs : List VecSpec :=
  [intSpec .vadd .valu 2 .wrap (fun _ _ a b => a + b), intSpec .vsub .valu 2 .wrap (fun _ _ a b => (a : Int) - b),
   intSpec .vand .valu 2 .wrap (fun _ _ a b => (a &&& b : Nat)), intSpec .vor .valu 2 .wrap (fun _ _ a b => (a ||| b : Nat)),
   intSpec .vxor .valu 2 .wrap (fun _ _ a b => (a ^^^ b : Nat)),
   intSpec .vshl .valu 2 .wrap (fun w _ a b => (a : Int) * (2 ^ (b % w) : Nat)),
   intSpec .vshr .valu 2 .wrap (fun w _ a b => (a / 2 ^ (b % w) : Nat)),
   intSpec .vsar .valu 2 .wrap (fun w _ a b => sval w a / (2 ^ (b % w) : Nat)),
   intSpec .vmin .valu 2 .wrap (fun w _ a b => min (sval w a) (sval w b)), intSpec .vmax .valu 2 .wrap (fun w _ a b => max (sval w a) (sval w b)),
   intSpec .vminu .valu 2 .wrap (fun _ _ a b => (min a b : Nat)), intSpec .vmaxu .valu 2 .wrap (fun _ _ a b => (max a b : Nat)),
   intSpec .vdiv .vdiv 12 .wrap (fun w _ a b => if b = 0 then -1 else (sval w a).tdiv (sval w b)),
   intSpec .vdivu .vdiv 12 .wrap (fun _ _ a b => if b = 0 then -1 else (a / b : Nat)),
   intSpec .vmul .vmul 4 .wrap (fun _ _ a b => (a * b : Nat)), intSpec .vmulh .vmul 4 .wrap (fun w _ a b => sval w a * sval w b / (2 ^ w : Nat)),
   intSpec .vmulhu .vmul 4 .wrap (fun w _ a b => (a * b / 2 ^ w : Nat))] ++
  [intSpec .vsadd .valu 2 .signed (fun w _ a b => sval w a + sval w b), intSpec .vsaddu .valu 2 .unsigned (fun _ _ a b => (a : Int) + b),
   intSpec .vssub .valu 2 .signed (fun w _ a b => sval w a - sval w b), intSpec .vssubu .valu 2 .unsigned (fun _ _ a b => (a : Int) - b),
   intSpec .vaadd .valu 2 .wrap (fun w x a b => dropBits x (sval w a + sval w b) 1),
   intSpec .vaaddu .valu 2 .wrap (fun _ x a b => dropBits x ((a : Int) + b) 1),
   intSpec .vsmul .vmul 4 .signed (fun w x a b => dropBits x (sval w a * sval w b) (w - 1)),
   intSpec .vssra .vmul 4 .wrap (fun w x a b => dropBits x (sval w a) (b % w)), intSpec .vssrl .vmul 4 .wrap (fun w x a b => dropBits x a (b % w)),
   { intSpec .vnclip .vmul 4 .signed (fun w x a b => dropBits x (sval (2 * w) a) (b % (2 * w))) with ets := [0, 1, 2], ma := 2 },
   { intSpec .vnclipu .vmul 4 .unsigned (fun w x a b => dropBits x a (b % (2 * w))) with ets := [0, 1, 2], ma := 2 },
   { intSpec .vmacc .vmul 4 .wrap (fun _ _ _ _ => 0) with acc := true, f := fun _ w _ a b d => ((d + a * b) % 2 ^ w, false) },
   { intSpec .vmov .valu 2 .wrap (fun _ _ _ b => b) with ets := [0, 1, 2, 3, 4, 5, 6, 7], one := true },
   wideSpec .vwmul false (fun w a b _ => sval w a * sval w b), wideSpec .vwmulu false (fun _ a b _ => (a * b : Nat)),
   wideSpec .vwmulsu false (fun w a b _ => sval w a * b), wideSpec .vwmacc true (fun w a b d => d + sval w a * sval w b),
   cmpSpec .vcmpeq true (fun _ a b => a == b) Machine.Num.eq, cmpSpec .vcmpne true (fun _ a b => a != b) (fun a b => !a.eq b),
   cmpSpec .vcmplt true (fun w a b => decide (sval w a < sval w b)) Machine.Num.lt,
   cmpSpec .vcmpge true (fun w a b => decide (sval w b ≤ sval w a)) (fun a b => b.lt a || a.eq b),
   cmpSpec .vcmpltu false (fun _ a b => decide (a < b)) Machine.Num.lt, cmpSpec .vcmpgeu false (fun _ a b => decide (b ≤ a)) Machine.Num.lt]

/-- The smaller and the larger of two floating-point codes: NaN gives the other, and −0 is below +0 (R184). -/
def floatPick (large : Bool) (g : Fmt) (a b : Nat) : Nat :=
  if g.decode a = .nan then (if g.decode b = .nan then g.canon else b)
  else if g.decode b = .nan then a
  else
    let below := (g.decode a).lt (g.decode b) || ((g.decode a).eq (g.decode b) && g.neg a && !g.neg b)
    if below = large then b else a

/-- The floating-point functions of Table 6-5. -/
def vecFloatSpecs : List VecSpec :=
  [floatSpec .vfadd .vfma 4 false false (fun a b _ => a.add b), floatSpec .vfsub .vfma 4 false false (fun a b _ => a.add b.negate),
   floatSpec .vfmul .vfma 4 false false (fun a b _ => a.mul b), floatSpec .vfmacc .vfma 4 true false (fun a b d => (a.mul b).add d),
   floatSpec .vfdiv .vdiv 12 false false (fun a b _ => a.div b), floatSpec .vfsqrt .vdiv 12 false true (fun _ b _ => b.sqrt),
   { floatSpec .vfmin .vfma 4 false false (fun a _ _ => a) with f := fun et _ _ a b _ => ((etFmt et).elim 0 (fun g => floatPick false g a b), false) },
   { floatSpec .vfmax .vfma 4 false false (fun a _ _ => a) with f := fun et _ _ a b _ => ((etFmt et).elim 0 (fun g => floatPick true g a b), false) }]

/-- Element i of the second operand of a vector instruction, its mark, and its registers (R165). -/
def srcEl (c : Core) (b : VecSrc) (i : Nat) : Nat := match b with
  | .vec v => c.vel v.val c.sew i
  | .scalar d => c.vscalar d.val
def srcMark (c : Core) (b : VecSrc) (i : Nat) : Bool := match b with
  | .vec v => c.vmark v.val c.sew i
  | .scalar _ => false
def srcFits (c : Core) (b : VecSrc) (vd kd : Nat) (wide : Bool) : Prop := match b with
  | .vec v => v.val % c.grp = 0 ∧ v.val + c.grp ≤ 32 ∧ (wide = true → apart vd kd v.val c.grp = true)
  | .scalar d => c.vscalarOk d.val = true

/-- Element i is performed: below VL, from PROG on, and active (R152, R164). -/
def Performed (c : Core) (m : Bool) (i : Nat) : Prop := i < c.vlen ∧ c.prog.toNat ≤ i ∧ (m = true → c.mbit 0 i = true)

/-- The vector registers v and marks p that are those of core c with elements of w bits of the group at vd rewritten, out of the first cap:
the elements on take their values, everything else stays, and a group of 64 bits is marked as R192 states. -/
def VecWrites (c : Core) (v : Store Word) (p : Store Bool) (vd w cap : Nat) (on : Nat → Prop) (val : Nat → Nat) (mark : Nat → Bool) : Prop :=
  (∀ i < cap, (on i → Core.vel { c with v := v } vd w i = val i) ∧ (¬ on i → Core.vel { c with v := v } vd w i = c.vel vd w i)) ∧
  (∀ k, (k < 256 * vd ∨ 256 * vd + cap * w / 16 ≤ k) → look 0 v k = look 0 c.v k) ∧
  ∀ g, let has (i : Nat) : Prop := i < cap ∧ 64 * vd + i * w / 64 = g
    ((∃ i, has i ∧ on i ∧ mark i = true) → look false p g = true) ∧
    ((∀ i, has i → on i → mark i = false) →
      ((∃ i, has i) → (∀ i, has i → on i) → look false p g = false) ∧
      (((∀ i, has i → ¬ on i) ∨ ∃ i, has i ∧ ¬ on i) → look false p g = look false c.vpsn g))

/-- Core c after a vector instruction left v and p, set SAT or not, and was taken by a unit, which writes some registers (R162, R166, R183). -/
def vecTook (v : Store Word) (p : Store Bool) (sat : Bool) (u : VUnit) (dist : Nat) (serial : Bool) (writes : List Nat) (c : Core) : Core :=
  let c1 := { c with v := v, vpsn := p, vtype := if sat then c.vtype ||| 0x80000000 else c.vtype }
  if c.vlen = 0 then c1
  else { c1 with vbusy := u :: c.vbusy, vserial := serial, vpend := c.vpend ++ [{ left := dist, regs := writes, unit := u }] }

/-- A unit accepts a vector instruction that reads and writes some registers, and every result it reads has arrived (R167, R168). -/
def Accepts (c : Core) (u : VUnit) (serial : Bool) (reads writes : List Nat) : Prop :=
  c.vserial = false ∧ u ∉ c.vbusy ∧ (serial = true → c.vbusy = []) ∧ meets (reads ++ writes) c.vtv = false ∧
  ∀ r ∈ reads, ∀ x ∈ c.vpend, r ∉ x.regs

/-- The rules of R161, R164, R165, R173 and R180 for a function of Table 6-5. -/
def VecFits (e : VecSpec) (c : Core) (m : Bool) (vd va : Fin 32) (b : VecSrc) : Prop :=
  let g := c.grp
  let kd := max 1 (e.md * g)
  c.vlen ≤ c.vlmax ∧ c.et ∈ e.ets ∧ (m = true → vd ≠ 0) ∧ (e.one = true → va = 0) ∧ (e.md = 2 → g ≤ 4) ∧
  (e.md ≠ 0 → vd.val % kd = 0 ∧ vd.val + kd ≤ 32) ∧ (e.one = false → va.val % (e.ma * g) = 0 ∧ va.val + e.ma * g ≤ 32) ∧
  srcFits c b vd.val kd (decide (e.md = 2)) ∧ (e.md = 2 → apart vd.val kd va.val g = true)

/-- What a function of Table 6-5 does: every performed element takes its value, VTYPE.SAT is set if one saturated, and the unit takes it. -/
def VecDoes (e : VecSpec) (s t : State) (n : Nat) (k : Cond) (m : Bool) (vd va : Fin 32) (b : VecSrc) : Prop :=
  let c := t.core n
  let g := c.grp
  let w := c.sew
  let wd := max 1 (e.md * w)
  let dst := if e.md = 0 then [vd.val] else regsOf vd.val (e.md * g)
  let reads := maskReg m ++ (if e.one then [] else regsOf va.val (e.ma * g)) ++ srcRegs b g ++ (if e.acc then dst else [])
  let el (i : Nat) : Nat × Bool :=
    e.f c.et w c.fxr (if e.one then 0 else c.vel va.val (e.ma * w) i) (srcEl c b i) (if e.acc then c.vel vd.val wd i else 0)
  VecFits e c m vd va b → Accepts c e.unit false reads dst →
  ∃ v p sat, (sat = true ↔ ∃ i, Performed c m i ∧ (el i).2 = true) ∧
    VecWrites c v p vd.val wd (if e.md = 0 then 4096 else c.vlmax) (Performed c m) (fun i => (el i).1)
      (fun i => c.gmark m i || srcMark c b i || (!e.one && c.vmark va.val (e.ma * w) i) || (e.acc && c.vmark vd.val wd i)) ∧
    exec (e.op n k m vd va b) s = .next (after t n 2 (vecTook v p sat e.unit e.dist false dst))

/-- Adjacent entries of one level of the reduction tree combined (R185). -/
def pairUp (op : Nat → Nat → Nat) : List (Option Nat) → List (Option Nat)
  | some a :: some b :: r => some (op a b) :: pairUp op r
  | none :: b :: r => b :: pairUp op r
  | some a :: none :: r => some a :: pairUp op r
  | l => l

/-- What vredsum, vredmax and vredmin combine by, for ET and SEW (R179, R184, R185). -/
def sumOp (et w x y : Nat) : Nat := match etFmt et with
  | some g => g.round ((g.decode x).add (g.decode y))
  | none => (x + y) % 2 ^ w
def pickOp (large : Bool) (et w x y : Nat) : Nat := match etFmt et with
  | some g => floatPick large g x y
  | none => if decide (sval w x < sval w y) = large then y else x

/-- Whether x ranks above y in vtopk (R187). -/
def ranks (et w x y : Nat) : Bool := match etFmt et with
  | some g => decide (g.decode x ≠ .nan) && (decide (g.decode y = .nan) || (g.decode y).lt (g.decode x))
  | none => decide (sval w y < sval w x)

/-- The draw of R188 on plain numbers below 2^64. -/
def drawSpec (key stream step idx : Nat) : Nat :=
  let go (z : Nat × Nat) : Nat × Nat :=
    let a := (z.1 + z.2) % 2 ^ 64
    ((a ^^^ a / 2 ^ 31) * 0x9C4FA31D57E260B9 % 2 ^ 64, (z.2 + 0x6A3D9F05C1B28E47) % 2 ^ 64)
  let z := go (go (go (go (step * 2 ^ 32 + idx, key ^^^ stream * 0xA24BAED4963EE407 % 2 ^ 64))))
  z.1 ^^^ z.1 / 2 ^ 29

/-- A draw as an element of ET (R189). -/
def drawEl (et w r : Nat) : Nat :=
  if et = 7 then fp64.round (.fin false (r / 2 ^ 11) (-53)) else if et = 6 then fp32.round (.fin false (r / 2 ^ 40) (-24))
  else if et = 4 then fp16.round (.fin false (r / 2 ^ 53) (-11)) else if et = 5 then bf16.round (.fin false (r / 2 ^ 56) (-8))
  else r / 2 ^ (64 - w)

/-- Table 7-5: source and destination of each TF[3:0], none for INT32, and the values of TF[4]. -/
def cvtTable : List (Option Fmt × Option Fmt × List Bool) :=
  [(some fp32, some bf16, [false, true]), (some fp32, some fp16, [false, true]), (some bf16, some fp32, [false]), (some fp16, some fp32, [false]),
   (some fp64, some fp32, [false, true]), (some fp32, some fp64, [false]), (some fp32, some e4m3, [false, true]),
   (some fp32, some e5m2, [false, true]), (some e4m3, some fp32, [false]), (some e5m2, some fp32, [false]),
   (some bf16, some e4m3, [false, true]), (some bf16, some e5m2, [false, true]), (some fp32, none, [true]), (none, some fp32, [false]),
   (some bf16, some e2m1, [true]), (some e2m1, some bf16, [false])]

/-- One conversion of Table 7-5: the code, and whether it sets VTYPE.SAT (R201 to R203, R205). -/
def cvtSpec (a b : Option Fmt) (sat : Bool) (x : Nat) : Nat × Bool := match a, b with
  | some a, some b =>
    let r := b.convert sat (a.decode x)
    let lim := sat || decide (b.kind = .finite)
    (r.1, match a.decode x with
      | .nan => decide (b.kind = .finite)
      | .inf _ => lim
      | .fin _ m e => lim && decide (b.top ≤ b.roundMag m e))
  | some a, none => match a.decode x with
    | .nan => (0, true)
    | .inf s => (if s then 2 ^ 31 else 2 ^ 31 - 1, true)
    | .fin s m e =>
      let k : Int := if 0 ≤ e then (m * 2 ^ e.toNat : Nat) else rneShift m (-e).toNat
      limited .signed 32 (if s then -k else k)
  | none, some b => (b.round (Machine.Num.ofInt (sval 32 x)), false)
  | none, none => (x, false)

/-- The value of a magnitude code of a format, with no upper exponent limit (R202). -/
def magVal (f : Fmt) (k : Nat) : ℚ :=
  if k / 2 ^ f.mb = 0 then (k : ℚ) * (2 : ℚ) ^ (1 - (f.bias : Int) - f.mb)
  else ((2 ^ f.mb + k % 2 ^ f.mb : Nat) : ℚ) * (2 : ℚ) ^ ((k / 2 ^ f.mb : Nat) - (f.bias : Int) - f.mb)

/-- r is the magnitude code nearest to a value, and even in a tie (R202). -/
def NearestMag (f : Fmt) (x : ℚ) (r : Nat) : Prop :=
  ∀ k, k ≠ r → |magVal f r - x| ≤ |magVal f k - x| ∧ (|magVal f r - x| = |magVal f k - x| → r % 2 = 0)

/-- The value of an exact finite number. -/
def numVal (neg : Bool) (m : Nat) (e : Int) : ℚ := (if neg then -1 else 1) * (m : ℚ) * (2 : ℚ) ^ e

/-- A form of Table 6-8: its load and its store, the fields of a structure, whether it serialises, the address of field f of element i, the
span that UP adds, and, in the indexed form, the index group. -/
structure VecForm where
  ld     : Instr
  st     : Instr
  nf     : Nat
  serial : Bool
  ea     : Core → W64 → Nat → Nat → W64
  span   : Core → Nat
  idx    : Option Nat

/-- The four forms for operands of an instruction of core n (Table 6-8). -/
def vecForms (n : Nat) (k : Cond) (m : Bool) (vd : Fin 32) (an : Fin 8) (up : Bool) (dk : Fin 16) (nf : BitVec 2) (vi : Fin 32) : List VecForm :=
  [{ ld := .vld n k m vd an up, st := .vst n k m vd an up, nf := 1, serial := false,
     ea := fun c a i _ => a + BitVec.ofNat 64 (i * c.sew / 16), span := fun c => (c.vlen * c.sew + 15) / 16, idx := none },
   { ld := .vlds n k m vd an dk up, st := .vsts n k m vd an dk up, nf := 1, serial := true,
     ea := fun c a i _ => BitVec.ofInt 64 (a.toNat + i * sval 32 (c.dpair dk.val).toNat), span := fun _ => 0, idx := none },
   { ld := .vldseg n k m vd an nf up, st := .vstseg n k m vd an nf up, nf := nf.toNat + 2, serial := true,
     ea := fun c a i f => a + BitVec.ofNat 64 ((i * (nf.toNat + 2) + f) * c.sew / 16),
     span := fun c => c.vlen * (nf.toNat + 2) * c.sew / 16, idx := none },
   { ld := .vldx n k m vd an vi up, st := .vstx n k m vd an vi up, nf := 1, serial := true,
     ea := fun c a i _ => a + BitVec.ofNat 64 (c.vel vi.val 32 i), span := fun _ => 0, idx := some vi.val }]

/-- Registers of the index group (R175). -/
def idxGroup (c : Core) : Nat := max 1 (c.grp * 32 / c.sew)

/-- The rules of R161, R164 and R174 to R176 for a form. -/
def FormFits (e : VecForm) (c : Core) (load m : Bool) (vd : Fin 32) (up : Bool) (dk : Fin 16) : Prop :=
  c.et < 8 ∧ c.vlen ≤ c.vlmax ∧ vd.val % c.grp = 0 ∧ vd.val + e.nf * c.grp ≤ 32 ∧ (load = true → m = true → vd ≠ 0) ∧ e.nf ≤ 4 ∧
  (e.serial = true → 16 ≤ c.sew) ∧ (e.serial = true → e.nf = 1 → up = false) ∧ evenReg dk.val = true ∧
  ∀ vi, e.idx = some vi → idxGroup c ≤ 8 ∧ vi % idxGroup c = 0 ∧ vi + idxGroup c ≤ 32

/-- The first byte in memory of field f of element i, of core n in state t. -/
def formByte (e : VecForm) (c : Core) (n : Nat) (a : W64) (i f : Nat) : Nat :=
  2 * physOf n (localOf (e.ea c a i f)) + (if c.sew = 8 then i % 2 else 0)

end Sys2Proof.Safety
end

