-- ==== Sys2Proof/Certificates/Slice0/Obligations.lean ====
section
/-! DEFINITION. Sys2Proof/Certificates/Slice0/Obligations.lean: the statements for the provers. -/

open Sys2Proof Sys2Proof.Machine Sys2Proof.Safety

/-! ## The scalar core -/

/-- R120, Table 4-8: add, adc, sub, sbc, and, or, xor, andn, min and max write their result to Dd, and with F their flags, computed here on
plain numbers of 16 or 32 bits. R120, R121, Table 4-8: mov, neg and not; cmp and tst, which write flags alone. R120, R121: an odd register
in a pair, F clear in cmp and tst, F set in mov, and a field that must be zero and is not, are illegal. -/
def Obligations.AluResults : Prop :=
  (
  ∀ (s t : State) (n : Nat) (k : Cond) (f w : Bool) (d a : Fin 16) (b : AluSrc),
    Ready s t n k 2 → (w = true → evenReg d.val = true ∧ evenReg a.val = true) → aluSrcOk w b = true →
    ∀ e ∈ [(Instr.add, addSpec), (Instr.adc, adcSpec), (Instr.sub, subSpec), (Instr.sbc, sbcSpec), (Instr.and, andSpec),
           (Instr.or, orSpec), (Instr.xor, xorSpec), (Instr.andn, andnSpec), (Instr.min, minSpec), (Instr.max, maxSpec)],
      exec (e.1 n k f w d a b) s = .next (after t n 2 (fun c => aluAfter f w d.val (aluOut e.2 w a.val b c) c))) ∧
  (
  ∀ (s t : State) (n : Nat) (k : Cond) (f w : Bool) (d a : Fin 16) (b : AluSrc),
    Ready s t n k 2 → (w = true → evenReg d.val = true ∧ evenReg a.val = true) → aluSrcOk w b = true →
    exec (.mov n k false w d 0 b) s = .next (after t n 2 (fun c => aluAfter false w d.val (aluOut movSpec w 0 b c) c)) ∧
    exec (.neg n k f w d 0 b) s = .next (after t n 2 (fun c => aluAfter f w d.val (aluOut negSpec w 0 b c) c)) ∧
    exec (.not n k f w d 0 b) s = .next (after t n 2 (fun c => aluAfter f w d.val (aluOut notSpec w 0 b c) c)) ∧
    exec (.cmp n k true w 0 a b) s = .next (after t n 2 (fun c =>
      c.sendSr 1 0xF (BitVec.ofNat 32 (flagWord (bitsOfW w) (aluOut subSpec w a.val b c))))) ∧
    exec (.tst n k true w 0 a b) s = .next (after t n 2 (fun c =>
      c.sendSr 1 0xF (BitVec.ofNat 32 (flagWord (bitsOfW w) (aluOut andSpec w a.val b c)))))) ∧
  (
  ∀ (s t : State) (n : Nat) (k : Cond) (f w : Bool) (d a : Fin 16) (b : AluSrc), Ready s t n k 2 →
    let bad : Host.Outcome State Fault Refusal := .next (t.syncFault n .illegalOp 0)
    (aluSrcOk w b = false ∨ w = true ∧ (evenReg d.val = false ∨ evenReg a.val = false) →
      ∀ e ∈ [Instr.add, .adc, .sub, .sbc, .and, .or, .xor, .andn, .min, .max], exec (e n k f w d a b) s = bad) ∧
    (aluSrcOk w b = false ∨ w = true ∧ evenReg d.val = false ∨ a ≠ 0 →
      exec (.neg n k f w d a b) s = bad ∧ exec (.not n k f w d a b) s = bad) ∧
    (aluSrcOk w b = false ∨ w = true ∧ evenReg d.val = false ∨ a ≠ 0 ∨ f = true → exec (.mov n k f w d a b) s = bad) ∧
    (aluSrcOk w b = false ∨ w = true ∧ evenReg a.val = false ∨ d ≠ 0 ∨ f = false →
      exec (.cmp n k f w d a b) s = bad ∧ exec (.tst n k f w d a b) s = bad))

/-- R122, Table 4-12: the four shifts by a register or an immediate amount. R123, Tables 3-8 and 4-13: the multiplies, whose results are
delivered to the third instruction after them. R120, R122, R123: an odd register where a pair is named, and an amount of 16 or more with W
clear, are illegal. -/
def Obligations.ShiftAndMultiplyResults : Prop :=
  (
  ∀ (s t : State) (n : Nat) (k : Cond) (f w : Bool) (d a : Fin 16) (b : ShiftSrc),
    Ready s t n k 2 → (w = true → evenReg d.val = true ∧ evenReg a.val = true) → shiftSrcOk w b = true →
    ∀ e ∈ [(Instr.shl, shlSpec), (Instr.shr, shrSpec), (Instr.sar, sarSpec), (Instr.ror, rorSpec)],
      exec (e.1 n k f w d a b) s = .next (after t n 2 (fun c =>
        aluAfter f w d.val (e.2 (bitsOfW w) (c.aluReg w a.val).toNat (c.shiftAmt w b)) c))) ∧
  (
  ∀ (s t : State) (n : Nat) (k : Cond) (d a b : Fin 16), Ready s t n k 2 →
    exec (.mulL n k d a b) s = .next (after t n 2 (fun c => c.sendD 3 d.val (BitVec.ofNat 16 ((c.dreg a.val).toNat * (c.dreg b.val).toNat)))) ∧
    (evenReg d.val = true →
      exec (.mulS n k d a b) s = .next (after t n 2 (fun c =>
        c.sendP 3 d.val (BitVec.ofInt 32 (sval 16 (c.dreg a.val).toNat * sval 16 (c.dreg b.val).toNat)))) ∧
      exec (.mulU n k d a b) s = .next (after t n 2 (fun c =>
        c.sendP 3 d.val (BitVec.ofNat 32 ((c.dreg a.val).toNat * (c.dreg b.val).toNat))))) ∧
    (evenReg d.val = true → evenReg a.val = true → evenReg b.val = true →
      exec (.mulP n k d a b) s = .next (after t n 2 (fun c =>
        c.sendP 3 d.val (BitVec.ofNat 32 ((c.dpair a.val).toNat * (c.dpair b.val).toNat)))))) ∧
  (
  ∀ (s t : State) (n : Nat) (k : Cond) (f w : Bool) (d a b : Fin 16) (v : ShiftSrc), Ready s t n k 2 →
    let bad : Host.Outcome State Fault Refusal := .next (t.syncFault n .illegalOp 0)
    (shiftSrcOk w v = false ∨ w = true ∧ (evenReg d.val = false ∨ evenReg a.val = false) →
      ∀ e ∈ [Instr.shl, .shr, .sar, .ror], exec (e n k f w d a v) s = bad) ∧
    (evenReg d.val = false → exec (.mulS n k d a b) s = bad ∧ exec (.mulU n k d a b) s = bad) ∧
    (evenReg d.val = false ∨ evenReg a.val = false ∨ evenReg b.val = false → exec (.mulP n k d a b) s = bad))

/-- Tables 4-9, 4-10, 4-15 and 4-19: the immediate moves, and nop, which only moves the PC on. R125, Table 4-14: address-register arithmetic
and moves. -/
def Obligations.MovesAndAddressResults : Prop :=
  (
  ∀ (s t : State) (n : Nat) (k : Cond),
    (Ready s t n k 2 → exec (.nop n k) s = .next (after t n 2 id) ∧
      ∀ (d : Fin 16) (v : BitVec 16), exec (.moviW n k d v) s = .next (after t n 2 (fun c => c.sendD 1 d.val v))) ∧
    (Ready s t n k 4 →
      (∀ (d : Fin 16) (v : BitVec 32), evenReg d.val = true →
        exec (.moviP n k d v) s = .next (after t n 4 (fun c => (c.sendD 1 d.val (v.truncate 16)).sendD 1 (d.val + 1) (v.extractLsb' 16 16)))) ∧
      ∀ (d : Fin 8) (v : BitVec 44),
        exec (.moviA n k d v) s = .next (after t n 4 (fun c => c.send 1 (.a d.val) (BitVec.ofNat 64 v.toNat))))) ∧
  (
  ∀ (s t : State) (n : Nat) (k : Cond) (ad aa : Fin 8) (dn : Fin 16), Ready s t n k 2 →
    (∀ imm : BitVec 16, exec (.addaImm n k ad aa imm) s = .next (after t n 2 (fun c =>
      c.send 1 (.a ad.val) (BitVec.ofInt 64 ((c.areg aa.val).toNat + sval 16 imm.toNat))))) ∧
    (∀ (sh : Fin 4) (ng : Bool), exec (.addaIdx n k ad aa dn sh ng) s = .next (after t n 2 (fun c =>
      c.send 1 (.a ad.val) (BitVec.ofInt 64 ((c.areg aa.val).toNat +
        (if ng then -(sval 16 (c.dreg dn.val).toNat * 2 ^ sh.val) else sval 16 (c.dreg dn.val).toNat * 2 ^ sh.val)))))) ∧
    (∀ disp : BitVec 19, exec (.leapc n k ad disp) s = .next (after t n 2 (fun c =>
      c.send 1 (.a ad.val) (BitVec.ofInt 64 (c.pc.toNat + sval 19 disp.toNat))))) ∧
    (quadReg dn.val = true →
      exec (.mova n k ad dn) s = .next (after t n 2 (fun c => c.send 1 (.a ad.val) (c.dquad dn.val))) ∧
      exec (.movd n k dn aa) s = .next (after t n 2 (fun c => c.sendQ 1 dn.val (c.areg aa.val)))))

/-- R124: cmpp COMPLETES, for each of its seven conditions and both widths: it writes Pi from the flags that the difference would set,
clears PPi, and leaves the flags; another condition or an odd pair is illegal. R84, R97, R115, R116, Table 4-4: an add, sub, and, max, rte or trap, or
an ld or st whose AM and X fields are 0, whose condition is false, with a legal encoding and place and no mark on what it tests, changes nothing but the
place in the program: it counts for the distances, and the core goes on at the next instruction. That such an instruction leaves PROG as it is, where R152
can be read otherwise, is the model's choice (assumption log 19). -/
def Obligations.PredicatesAndConditions : Prop :=
  (
  (∀ (s t : State) (n : Nat) (k cd : Cond) (w : Bool) (p : Fin 4) (a b : Fin 16), Ready s t n k 2 →
    cd ∈ [Cond.eq, .ne, .lt, .ge, .cs, .cc, .mi] → (w = true → evenReg a.val = true ∧ evenReg b.val = true) →
    exec (.cmpp n k cd w p a b) s = .next (after t n 2 (fun c =>
      c.sendSr 1 (BitVec.ofNat 32 (2 ^ (4 + p.val) + 2 ^ (16 + p.val)))
        (if cmppHit cd (bitsOfW w) (c.aluReg w a.val).toNat (c.aluReg w b.val).toNat then BitVec.ofNat 32 (2 ^ (4 + p.val)) else 0)))) ∧
  (∀ (s t : State) (n : Nat) (k cd : Cond) (w : Bool) (p : Fin 4) (a b : Fin 16), Ready s t n k 2 →
    (cd ∉ [Cond.eq, .ne, .lt, .ge, .cs, .cc, .mi] ∨ w = true ∧ ¬(evenReg a.val = true ∧ evenReg b.val = true)) →
    exec (.cmpp n k cd w p a b) s = .next (t.syncFault n .illegalOp 0))) ∧
  (
  ∀ (s t : State) (n : Nat) (k : Cond), s.issues n = true → (s.core n).peek = false →
    t = (s.fetched n 2).modCore n (fun c => c.issuing (s.cycles n)) → t.fetchPoison n 2 = none →
    (condPreds k).any (t.core n).pp = false → (t.core n).cond k = false →
    ∀ (f w : Bool) (d a : Fin 16) (b : AluSrc), aluLegal .full f w d a b = true →
    (∀ e ∈ [Instr.add, Instr.sub, Instr.and, Instr.max], exec (e n k f w d a b) s = .next (t.modCore n (fun c => c.advance 2))) ∧
    (∀ (rg : BitVec 4) (an : Fin 8), exec (.st n k rg an 0 0) s = .next (t.modCore n (fun c => c.advance 2)) ∧
      exec (.ld n k rg an 0 0) s = .next (t.modCore n (fun c => c.advance 2))) ∧
    exec (.rte n k) s = (if (t.core n).notInSlot then .next (t.modCore n (fun c => c.advance 2)) else .next (t.syncFault n .illegalOp 0)) ∧
    (∀ code : BitVec 8, exec (.trap n k code) s = .next (t.modCore n (fun c => c.advance 2))))

/-- R91 to R93: a result for a data or an address register, sent at any distance d, is seen by the d-th instruction after its producer and by none before
it, when no other result is on its way to that register. R93: of two results delivered at one instruction to one such register, the later one in
program order stays, be it of the same distance, of one instruction, or the shorter one of a later instruction; and a shorter result that is
delivered before an older, longer one stays until that one arrives. -/
def Obligations.ResultsAreDeliveredInOrder : Prop :=
  (∀ (k : Core) (i d : Nat) (v : Word), 0 < d → (∀ f ∈ k.flight, f.ref ≠ .d i) →
    (∀ j < d, (Nat.repeat Core.tick j (k.sendD d i v)).dreg i = k.dreg i) ∧ (Nat.repeat Core.tick d (k.sendD d i v)).dreg i = v) ∧
  (∀ (k : Core) (i d : Nat) (v : W64), 0 < d → (∀ f ∈ k.flight, f.ref ≠ .a i) →
    (∀ j < d, (Nat.repeat Core.tick j (k.send d (.a i) v)).areg i = k.areg i) ∧ (Nat.repeat Core.tick d (k.send d (.a i) v)).areg i = v) ∧
  (∀ (k : Core) (i j d : Nat) (v w : Word), 0 < d → (∀ f ∈ k.flight, f.ref ≠ .d i) →
    (Nat.repeat Core.tick d ((Nat.repeat Core.tick j (k.sendD (j + d) i v)).sendD d i w)).dreg i = w ∧
    ∀ e, 0 < e → (let c := Nat.repeat Core.tick d ((Nat.repeat Core.tick j (k.sendD (j + d + e) i v)).sendD d i w)
      (∀ m < e, (Nat.repeat Core.tick m c).dreg i = w) ∧ (Nat.repeat Core.tick e c).dreg i = v)) ∧
  (∀ (k : Core) (i j d : Nat) (v w : W64), 0 < d → (∀ f ∈ k.flight, f.ref ≠ .a i) →
    (Nat.repeat Core.tick d ((Nat.repeat Core.tick j (k.send (j + d) (.a i) v)).send d (.a i) w)).areg i = w ∧
    ∀ e, 0 < e → (let c := Nat.repeat Core.tick d ((Nat.repeat Core.tick j (k.send (j + d + e) (.a i) v)).send d (.a i) w)
      (∀ m < e, (Nat.repeat Core.tick m c).areg i = w) ∧ (Nat.repeat Core.tick e c).areg i = v))

/-- R96: after a taken branch the next instruction is the one that follows it, and the one after that is the target. R96, R103, R126: br and
jmp are taken when their condition holds and their target is an instruction address. That the loop levels that a branch leaves end as it issues, so
that its delay slot sees them ended, is the model's choice (assumption log 95). -/
def Obligations.BranchesHaveOneDelaySlot : Prop :=
  (
  ∀ (k : Core) (len m : Nat) (tgt : W64),
    (k.takeBranch len tgt).pc = k.tick.pc + BitVec.ofNat 64 len ∧ (k.takeBranch len tgt).redirect = some tgt ∧
    ((k.takeBranch len tgt).retire m).pc = tgt ∧ ((k.takeBranch len tgt).retire m).redirect = none) ∧
  (
  ∀ (s t : State) (n : Nat) (k : Cond) (i : Instr) (tgt : W64),
    Ready s t n k 2 → (t.core n).branchOk = true → t.fetchFault tgt = none →
    ((∃ d : BitVec 22, i = .br n k d ∧ tgt = BitVec.ofInt 64 ((t.core n).pc.toNat + 2 * sval 22 d.toNat)) ∨
     (∃ aa : Fin 8, i = .jmp n k aa ∧ tgt = (t.core n).areg aa.val)) →
    exec i s = .next (t.modCore n (fun c => (c.endLoops (pcOf tgt)).takeBranch 2 (pcOf tgt))))

/-- R101: the instruction at LEn of the innermost unheld active level: the count falls and the body starts again, or the level ends. R98,
R100, R128, R129: loop and loopi set up the lowest inactive level, and with a count of 0 activate nothing and go on after LEn. -/
def Obligations.HardwareLoops : Prop :=
  (
  ∀ (k : Core) (len i : Nat), k.flight = [] → k.redirect = none → k.inner = some i → k.ler i = k.pc → laLhOk k.la k.lh = true →
    (1 < (k.lcr i).toNat → (k.retire len).pc = pcOf (k.lsr i) ∧ (k.retire len).lcr i = k.lcr i - 1 ∧ (k.retire len).la = k.la ∧
      (k.retire len).lh = k.lh) ∧
    ((k.lcr i).toNat ≤ 1 → (k.retire len).pc = k.pc + BitVec.ofNat 64 len ∧ (k.retire len).lcr i = 0 ∧
      (k.retire len).la = k.la - 2 ^ i ∧ (k.retire len).lh = k.lh)) ∧
  (
  ∀ (s t : State) (n len : Nat) (k : Cond) (i : Instr) (count : W32) (off : W64),
    Ready s t n k len → (t.core n).notInSlot = true → levels (t.core n).la < 4 →
    ((∃ (dn : Fin 16) (o : BitVec 18), i = .loop n k dn o ∧ evenReg dn.val = true ∧ len = 2 ∧ count = (t.core n).dpair dn.val ∧
        off = o.zeroExtend 64) ∨
     (∃ (m : BitVec 16) (o : BitVec 22), i = .loopi n k m o ∧ len = 4 ∧ count = m.zeroExtend 32 ∧ off = o.zeroExtend 64)) →
    let ls := (t.core n).pc + BitVec.ofNat 64 len
    let le := (t.core n).pc + 2 * off
    let lev := levels (t.core n).la
    ls.toNat < le.toNat → (t.core n).nestsIn ls le = true →
    let regs (c : Core) : Core := ((c.send 1 (.ls lev) ls).send 1 (.le lev) le).send 1 (.lc lev) (count.zeroExtend 64)
    exec i s = .next (if count = 0 then
        t.modCore n (fun c => { (regs c).retire len with pc := le + BitVec.ofNat 64 (t.lengthAt n le) })
      else after t n len (fun c => (regs c).sendSr 1 (BitVec.ofNat 32 (2 ^ (24 + lev))) (BitVec.ofNat 32 (2 ^ (24 + lev))))))

/-- R127: call and callr push the address of the instruction after the delay slot with SR.LH in bits 63:60, A7 falls by 4, and SR.LH takes
SR.LA. R127: ret pops the word, ends the levels that are not held, and restores SR.LH with the new PC. -/
def Obligations.CallAndRet : Prop :=
  (
  ∀ (s t : State) (n : Nat) (k : Cond) (i : Instr) (tgt : W64),
    Ready s t n k 2 → (t.core n).branchOk = true →
    ((∃ d : BitVec 22, i = .call n k d ∧ tgt = BitVec.ofInt 64 ((t.core n).pc.toNat + 2 * sval 22 d.toNat)) ∨
     (∃ aa : Fin 8, i = .callr n k aa ∧ tgt = (t.core n).areg aa.val)) →
    let sp := (t.core n).areg 7 - 4
    t.callFault sp tgt = none →
    let ret := (t.core n).pc + 2 + BitVec.ofNat 64 (t.lengthAt n ((t.core n).pc + 2))
    let p := physOf n (localOf sp)
    exec i s = .next (((t.unfetch n p 4).writeRun p (wordsOf64 (ret ||| BitVec.ofNat 64 ((t.core n).lh * 2 ^ 60)))).modCore n
      (fun c => ((c.send 1 (.a 7) sp).sendSr 1 0x00F00000 (BitVec.ofNat 32 (c.la * 2 ^ 20))).takeBranch 2 (pcOf tgt)))) ∧
  (
  ∀ (s t : State) (n : Nat) (k : Cond), Ready s t n k 2 → (t.core n).branchOk = true →
    let sp := (t.core n).areg 7
    let p := physOf n (localOf sp)
    let u := t.touchAll (addrs p 4)
    let w := BitVec.ofNat 64 (natOfWords (u.words p 4))
    let la := (t.core n).la &&& (t.core n).lh
    t.stackFault sp = none → u.anyMark p 4 = false → u.fetchFault (setFld w 60 4 0) = none → laLhOk la (fld w 60 4) = true →
    exec (.ret n k) s = .next (u.modCore n (fun c =>
      ((c.send 1 (.a 7) (sp + 4)).sendSr 2 0x0FF00000 (BitVec.ofNat 32 (la * 2 ^ 24 + fld w 60 4 * 2 ^ 20))).takeBranch 2
        (pcOf (setFld w 60 4 0)))))

/-- R117, R118, Table 3-8: a load of local memory delivers the words read, least significant first, to the fifth instruction after it, and
the new An to the next. -/
def Obligations.LocalLoads : Prop :=
  ∀ (s t : State) (n : Nat) (k : Cond) (rg : BitVec 4) (an : Fin 8) (am : BitVec 3) (x : BitVec 12) (ea : W64) (up : Option W64),
    Ready s t n k 2 → (t.core n).scalarEa an.val am x = some (ea, up) →
    let pa := physOf n (localOf ea)
    let upd (c : Core) : Core := match up with
      | some v => c.send 1 (.a an.val) v
      | none => c
    ∀ e ∈ [(Instr.ld, LsSize.word, 1, fun (c : Core) (v : Nat) => c.sendD 5 rg.toNat (BitVec.ofNat 16 v)),
           (Instr.ldP, LsSize.pair, 2, fun c v => c.sendP 5 rg.toNat (BitVec.ofNat 32 v)),
           (Instr.ldQ, LsSize.quad, 4, fun c v => c.sendQ 5 rg.toNat (BitVec.ofNat 64 v)),
           (Instr.ldA, LsSize.addr, 4, fun c v => c.send 5 (.a rg.toNat) (BitVec.ofNat 64 v))],
      e.2.1.regOk rg = true → t.lsTarget ea e.2.2.1 = .local_ →
      let u := t.touchAll (addrs pa e.2.2.1)
      u.firstMark n ea e.2.2.1 = none →
      exec (e.1 n k rg an am x) s = .next (after u n 2 (fun c => e.2.2.2 (upd c) (natOfWords (u.words pa e.2.2.1))))

/-- R117, R118: a store to local memory writes the words of its register there, least significant first, and updates An. R118: what a store to
local memory leaves alone: every byte outside the words it stores to, every D register, every A register but An, tiles, accumulators,
vector registers, semaphores, contexts, and every other core. -/
def Obligations.LocalStoresAndTheirFrame : Prop :=
  (
  ∀ (s t : State) (n : Nat) (k : Cond) (rg : BitVec 4) (an : Fin 8) (am : BitVec 3) (x : BitVec 12) (ea : W64) (up : Option W64),
    Ready s t n k 2 → (t.core n).scalarEa an.val am x = some (ea, up) →
    let upd (c : Core) : Core := match up with
      | some v => c.send 1 (.a an.val) v
      | none => c
    let c := t.core n
    ∀ e ∈ [(Instr.st, LsSize.word, 1, [c.dreg rg.toNat]), (Instr.stP, LsSize.pair, 2, [c.dreg rg.toNat, c.dreg (rg.toNat + 1)]),
           (Instr.stQ, LsSize.quad, 4, [c.dreg rg.toNat, c.dreg (rg.toNat + 1), c.dreg (rg.toNat + 2), c.dreg (rg.toNat + 3)]),
           (Instr.stA, LsSize.addr, 4, wordsOf64 (c.areg rg.toNat))],
      e.2.1.regOk rg = true → t.lsTarget ea e.2.2.1 = .local_ →
      let p := physOf n (localOf ea)
      exec (e.1 n k rg an am x) s = .next (after ((t.unfetch n p e.2.2.1).writeRun p e.2.2.2) n 2 upd)) ∧
  (
  ∀ (s t u : State) (n : Nat) (k : Cond) (rg : BitVec 4) (an : Fin 8) (am : BitVec 3) (x : BitVec 12) (ea : W64) (up : Option W64),
    Ready s t n k 2 → (t.core n).flight = [] → (t.core n).scalarEa an.val am x = some (ea, up) →
    ∀ e ∈ [(Instr.st, LsSize.word, 1), (Instr.stP, LsSize.pair, 2), (Instr.stQ, LsSize.quad, 4), (Instr.stA, LsSize.addr, 4)],
      e.2.1.regOk rg = true → t.lsTarget ea e.2.2 = .local_ → exec (e.1 n k rg an am x) s = .next u →
      (∀ b, (b < 2 * physOf n (localOf ea) ∨ 2 * (physOf n (localOf ea) + e.2.2) ≤ b) → u.byte b = s.byte b) ∧
      (∀ i, (u.core n).dreg i = (s.core n).dreg i) ∧ (∀ i, i ≠ an.val → (u.core n).areg i = (s.core n).areg i) ∧
      (u.core n).tiles = (s.core n).tiles ∧ (u.core n).v = (s.core n).v ∧ (u.core n).arrs = (s.core n).arrs ∧
      (u.core n).escSp = (s.core n).escSp ∧ (u.core n).vbr = (s.core n).vbr ∧ (u.core n).record = (s.core n).record ∧
      (∀ m, m ≠ n → u.core m = s.core m) ∧ u.sems = s.sems ∧ u.ctxs = s.ctxs ∧ u.pending = s.pending)

/-- R105, R12: a load of MMIO or a Comb window holds issue, and MMIO_LOAD_RETURN delivers the value to the next instruction. R12, R105: a
store to MMIO or a Comb window writes its register pair there, the lower address first; that the command of the store performs it, and
nothing stands between, is the model's choice (R346 posts it; assumption log 8). R12: an access of one word there is misaligned. R300, R305,
Table 4-4: with translation on the access goes where a hit of the core's TLB says, a miss holds issue for a walk, and check 7 of a hit
faults; which entry serves after an uninvalidated change is the free choice of R307 (assumption log 25). -/
def Obligations.DeviceLoadsAndStores : Prop :=
  (
  (∀ (s t v : State) (n pa : Nat) (k : Cond) (rg : BitVec 4) (an : Fin 8) (am : BitVec 3) (x : BitVec 12) (ea : W64) (up : Option W64)
      (r : Region), Ready s t n k 2 → (t.core n).scalarEa an.val am x = some (ea, up) → DevPlace t n ea r false v pa →
    ∀ e ∈ [(Instr.ldP, LsSize.pair, 2), (Instr.ldQ, LsSize.quad, 4), (Instr.ldA, LsSize.addr, 4)],
      e.2.1.regOk rg = true → t.lsTarget ea e.2.2 = .device r →
      exec (e.1 n k rg an am x) s = .next (v.modCore n (fun c =>
        { c with hold := some (.load e.2.2 (e.2.1.ref rg) (BitVec.ofNat 64 pa) (up.map (fun v => (an.val, v)))), hlen := 2 }))) ∧
  (∀ (s : State) (n words : Nat) (dst : RegRef) (ea : W64) (up : Option (Nat × W64)), s.power = .running → n < 192 →
    (s.core n).hold = some (.load words dst ea up) →
    let v (a : Nat) : W32 := s.devRead (regionOf ea.toNat) a
    let upd (c : Core) : Core := match up with
      | some (j, w) => c.send 1 (.a j) w
      | none => c
    let go (f : Core → Core) : Host.Outcome State Fault Refusal := .next (s.modCore n (fun c => (f (upd { c with hold := none })).retire c.hlen))
    (∀ i, dst = .d i → words = 2 → exec (.mmioLoadReturn n) s = go (fun c => c.sendP 1 i (v ea.toNat))) ∧
    (∀ i, dst = .d i → words = 4 → exec (.mmioLoadReturn n) s = go (fun c => c.sendQ 1 i (v (ea.toNat + 2) ++ v ea.toNat))) ∧
    (∀ i, dst = .a i → words = 4 → exec (.mmioLoadReturn n) s = go (fun c => c.send 1 (.a i) (v (ea.toNat + 2) ++ v ea.toNat))))) ∧
  (
  ∀ (s t w : State) (n pa : Nat) (k : Cond) (rg : BitVec 4) (an : Fin 8) (am : BitVec 3) (x : BitVec 12) (ea : W64) (up : Option W64)
      (r : Region), Ready s t n k 2 → (t.core n).scalarEa an.val am x = some (ea, up) → DevPlace t n ea r true w pa →
    let c := t.core n
    let upd (c : Core) : Core := match up with
      | some v => c.send 1 (.a an.val) v
      | none => c
    let st (u : State) (o : Nat) (v : W32) : State := u.devWrite n c.sup r (pa + o) v
    (evenReg rg.toNat = true → t.lsTarget ea 2 = .device r → ((st w 0 (c.dpair rg.toNat)).core n).resetting = false →
      exec (.stP n k rg an am x) s = .next (after (st w 0 (c.dpair rg.toNat)) n 2 upd)) ∧
    (∀ (i : Instr) (v : W64), (i = .stQ n k rg an am x ∧ quadReg rg.toNat = true ∧ v = c.dquad rg.toNat) ∨
        (i = .stA n k rg an am x ∧ rg.toNat < 8 ∧ v = c.areg rg.toNat) → t.lsTarget ea 4 = .device r →
      ((st (st w 0 (v.truncate 32)) 2 (v.extractLsb' 32 32)).core n).resetting = false →
      exec i s = .next (after (st (st w 0 (v.truncate 32)) 2 (v.extractLsb' 32 32)) n 2 upd))) ∧
  (
  ∀ (s t : State) (n : Nat) (k : Cond) (rg : BitVec 4) (an : Fin 8) (am : BitVec 3) (x : BitVec 12) (ea : W64) (up : Option W64)
      (r : Region), Ready s t n k 2 → (t.core n).scalarEa an.val am x = some (ea, up) →
    (r ∈ [Region.mmio, .comb] → regionOf (localOf ea) = r → t.isHere ea = true →
      exec (.ld n k rg an am x) s = .next (t.syncFault n .misaligned ea) ∧ exec (.st n k rg an am x) s = .next (t.syncFault n .misaligned ea)) ∧
    (t.xlOn n (t.core n).sup = true →
      let u := t.fresh n (localOf ea)
      ∀ e ∈ [(Instr.ldP, LsSize.pair, 2, false), (Instr.ldQ, LsSize.quad, 4, false), (Instr.ldA, LsSize.addr, 4, false),
             (Instr.stP, LsSize.pair, 2, true), (Instr.stQ, LsSize.quad, 4, true), (Instr.stA, LsSize.addr, 4, true)],
        e.2.1.regOk rg = true → t.lsTarget ea e.2.2.1 = .device r →
        (u.tlbFind n (localOf ea) = none →
          exec (e.1 n k rg an am x) s = .next (u.modCore n (fun c => { c with hold := some (.walk ea e.2.2.2), hlen := 2 }))) ∧
        (∀ h f, u.tlbFind n (localOf ea) = some h → u.leafCheck h (localOf ea) e.2.2.2 (.direct r) = some f →
          exec (e.1 n k rg an am x) s = .next (u.syncFault n f ea))))

/-! ## Exceptions and system instructions -/

/-- R149, Tables 5-7 and 5-8: an entry that does not escalate delivers the results in flight, writes the frame below A7, records EP, enters
supervisor level with MASK set and no loop level active, and continues at VBR + 8 × CAUSE, the VBR before any movc write of it that is still in
flight (Table 3-8; the model's reading, assumption log 106); FADDR of a deferred fault is the model's reading too (log 105). -/
def Obligations.ExceptionEntry : Prop :=
  ∀ (s : State) (n : Nat) (cause : Cause) (e : EntryInfo),
    let c := (s.core n).drain
    let f := c.areg 7 - 80
    let p := physOf n (localOf f)
    let v := (s.core n).vbr + BitVec.ofNat 64 (8 * cause.code)
    (e.kind ≠ 0 ∨ c.masked = false) → c.record.length < 15 → f.toNat % 4 = 0 → s.inWindow f 80 = true → s.fetchFault v = none →
    let u := s.enter n cause e
    let ds : Nat := if c.redirect.isSome then 1 else 0
    (u.core n).vbr = c.vbr ∧ (u.core n).pc = pcOf v ∧ (u.core n).areg 7 = f ∧
    (u.core n).record = { ep := c.sup, esc := false } :: c.record ∧
    (u.core n).sup = true ∧ (u.core n).masked = true ∧ (u.core n).la = 0 ∧ (u.core n).lh = 0 ∧ (u.core n).prog = 0 ∧
    (u.core n).hold = none ∧ (u.core n).redirect = none ∧
    u.words p 80 = wordsOf32 c.sr ++ wordsOf32 (BitVec.ofNat 32 (cause.code + 256 * e.kind + 1024 * ds + 65536 * e.code)) ++ wordsOf64 c.pc ++
      wordsOf64 (c.redirect.getD 0) ++ wordsOf64 (faddrOf e.kind cause e.faddr) ++ wordsOf32 c.prog ++ wordsOf32 e.tsw ++ wordsOf32 e.opid ++
      wordsOf32 c.vl ++ wordsOf32 c.vtype ++ List.replicate 6 0 ++
      wordsOf64 (c.lsr 0) ++ wordsOf64 (c.lsr 1) ++ wordsOf64 (c.lsr 2) ++ wordsOf64 (c.lsr 3) ++
      wordsOf64 (c.ler 0) ++ wordsOf64 (c.ler 1) ++ wordsOf64 (c.ler 2) ++ wordsOf64 (c.ler 3) ++
      wordsOf32 (c.lcr 0) ++ wordsOf32 (c.lcr 1) ++ wordsOf32 (c.lcr 2) ++ wordsOf32 (c.lcr 3) ++ List.replicate 8 0 ∧
    (∀ i, (u.core n).dreg i = c.dreg i) ∧ (∀ i, i ≠ 7 → (u.core n).areg i = c.areg i) ∧ (∀ m, m ≠ n → u.core m = s.core m) ∧
    (∀ b, (b < 2 * p ∨ 2 * (p + 80) ≤ b) → u.byte b = s.byte b)

/-- R133: trap completes, and then takes the exception TRAP with its code, whose frame names the instruction after it. R81, R143: rte, tlbi
and movc of a supervisor-only control register fault with PRIVILEGE at user level, and have no effect. -/
def Obligations.TrapsAndPrivilege : Prop :=
  (
  ∀ (s t : State) (n : Nat) (k : Cond) (code : BitVec 8), Ready s t n k 2 →
    exec (.trap n k code) s = .next ((t.modCore n (fun c => c.retire 2)).enter n .trap
      { kind := 0, code := code.toNat, faddr := 0, opid := 0, tsw := 0 })) ∧
  (
  ∀ (s t : State) (n : Nat) (k : Cond), Ready s t n k 2 → (t.core n).sup = false →
    ((t.core n).notInSlot = true → exec (.rte n k) s = .next (t.syncFault n .privilege 0)) ∧
    (∀ (kind : BitVec 2) (aa : Fin 8), kind.toNat < 2 → exec (.tlbi n k kind aa) s = .next (t.syncFault n .privilege 0)) ∧
    (∀ (crn : BitVec 6) (kk : BitVec 2) (rg : BitVec 4), crn.toNat ∈ [0x18, 0x19, 0x20, 0x21, 0x22, 0x23, 0x24] → movcLegal crn kk rg = true →
      exec (.movcRead n k crn kk rg) s = .next (t.syncFault n .privilege 0) ∧
      (crn.toNat ≠ 0x22 → exec (.movcWrite n k crn kk rg) s = .next (t.syncFault n .privilege 0))))

/-- R155, R157: rte at supervisor level with a whole, unmarked and legal frame restores SR, PROG, VL, VTYPE and the loop registers, pops the
entry record, moves the frame's stack pointer up by 80, and goes on at the frame's PC, with DSPC pending behind it when DS is set. -/
def Obligations.RteRestoresTheFrame : Prop :=
  ∀ (s t : State) (n : Nat) (k : Cond), Ready s t n k 2 → (t.core n).notInSlot = true → (t.core n).sup = true → (t.core n).flight = [] →
    let c := t.core n
    let at_ := c.frameAt
    let p := physOf n (localOf at_)
    let u := t.touchAll (addrs p 80)
    let f : Frame := { ws := u.words p 80 }
    at_.toNat % 4 = 0 → t.inWindow at_ 80 = true → u.anyMark p 80 = false → u.frameFault c.topRec.1 f = none →
    f.opid.getLsbD 31 = false →
    ∃ x, exec (.rte n k) s = .next x ∧
      (x.core n).sr = f.w32 0 &&& 0xCFFF00FF ∧ (x.core n).pc = pcOf (f.w64 4) ∧
      (x.core n).redirect = (if (f.w32 2).getLsbD 10 then some (pcOf (f.w64 8)) else none) ∧
      (x.core n).prog = f.w32 0x10 ∧ (x.core n).vl = f.w32 0x16 &&& 0x1FFF ∧ (x.core n).vtype = f.w32 0x18 &&& 0x80000C3F ∧
      (∀ i < 4, (x.core n).lsr i = f.w64 (0x20 + 4 * i) ∧ (x.core n).ler i = f.w64 (0x30 + 4 * i) ∧
        (x.core n).lcr i = f.w32 (0x40 + 2 * i)) ∧
      (x.core n).record = c.record.drop 1 ∧
      (if c.topRec.2 then (x.core n).escSp = at_ + 80 ∧ (x.core n).areg 7 = c.areg 7
       else (x.core n).areg 7 = at_ + 80 ∧ (x.core n).escSp = c.escSp) ∧
      (∀ i, (x.core n).dreg i = c.dreg i) ∧ (∀ i, i < 7 → (x.core n).areg i = c.areg i) ∧ (∀ m, m ≠ n → x.core m = s.core m) ∧
      (∀ b, x.byte b = s.byte b)

/-- R130, R131, R143: movc reads a control register into a pair, a quad or an address register at distance 1. R79, R92, R104, R130, R131: movc
writes SR at distance 1, its condition flags and predicates alone at user level, and every other control register at distance 3. -/
def Obligations.ControlRegisters : Prop :=
  (
  ∀ (s t : State) (n : Nat) (k : Cond) (crn : BitVec 6) (kk : BitVec 2) (rg : BitVec 4), Ready s t n k 2 → (t.core n).mayCr crn = true →
    let c := t.core n
    let narrow : List (Nat × W32) := [(0x00, c.sr), (0x0C, c.lcr 0), (0x0D, c.lcr 1), (0x0E, c.lcr 2), (0x0F, c.lcr 3), (0x10, c.vl),
      (0x11, c.vtype), (0x19, c.prog), (0x22, BitVec.ofNat 32 c.record.length), (0x23, t.ipendWord n), (0x24, c.ien)]
    let wide : List (Nat × W64) := [(0x04, c.lsr 0), (0x05, c.lsr 1), (0x06, c.lsr 2), (0x07, c.lsr 3), (0x08, c.ler 0), (0x09, c.ler 1),
      (0x0A, c.ler 2), (0x0B, c.ler 3), (0x18, c.escSp), (0x20, c.vbr), (0x21, c.escLim)]
    (∀ e ∈ narrow, crn.toNat = e.1 → kk = 0 → evenReg rg.toNat = true →
      exec (.movcRead n k crn kk rg) s = .next (after t n 2 (fun c => c.sendP 1 rg.toNat e.2))) ∧
    (∀ e ∈ wide, crn.toNat = e.1 → kk = 1 → quadReg rg.toNat = true →
      exec (.movcRead n k crn kk rg) s = .next (after t n 2 (fun c => c.sendQ 1 rg.toNat e.2))) ∧
    (∀ e ∈ wide, crn.toNat = e.1 → kk = 2 → rg.toNat < 8 →
      exec (.movcRead n k crn kk rg) s = .next (after t n 2 (fun c => c.send 1 (.a rg.toNat) e.2)))) ∧
  (
  ∀ (s t : State) (n : Nat) (k : Cond) (crn : BitVec 6) (kk : BitVec 2) (rg : BitVec 4), Ready s t n k 2 →
    let c := t.core n
    (crn = 0 → kk = 0 → evenReg rg.toNat = true → (c.sup = true → laLhOk (fld (c.dpair rg.toNat) 24 4) (fld (c.dpair rg.toNat) 20 4) = true) →
      exec (.movcWrite n k crn kk rg) s =
        .next (after t n 2 (fun c => c.sendSr 1 (if c.sup then 0xCFFF00FF else 0xFF) (c.dpair rg.toNat)))) ∧
    (c.mayCr crn = true → ∀ e ∈ [(0x0C, RegRef.lc 0), (0x0D, .lc 1), (0x0E, .lc 2), (0x0F, .lc 3), (0x10, .vl), (0x11, .vtype), (0x19, .prog),
        (0x23, .ipend), (0x24, .ien)], crn.toNat = e.1 → kk = 0 → evenReg rg.toNat = true →
      exec (.movcWrite n k crn kk rg) s = .next (after t n 2 (fun c => c.send 3 e.2 ((c.dpair rg.toNat).zeroExtend 64)))) ∧
    (c.mayCr crn = true → ∀ e ∈ [(0x04, RegRef.ls 0), (0x05, .ls 1), (0x06, .ls 2), (0x07, .ls 3), (0x08, .le 0), (0x09, .le 1), (0x0A, .le 2),
        (0x0B, .le 3), (0x18, .escSp), (0x20, .vbr), (0x21, .escLim)], crn.toNat = e.1 →
      (kk = 1 → quadReg rg.toNat = true → c.loopWriteOk crn.toNat (c.dquad rg.toNat) = true →
        exec (.movcWrite n k crn kk rg) s = .next (after t n 2 (fun c => c.send 3 e.2 (c.dquad rg.toNat)))) ∧
      (kk = 2 → rg.toNat < 8 → c.loopWriteOk crn.toNat (c.areg rg.toNat) = true →
        exec (.movcWrite n k crn kk rg) s = .next (after t n 2 (fun c => c.send 3 e.2 (c.areg rg.toNat))))))

/-- R132, R295, R392, Table 4-21: a fence completes when what it waits for has completed, with MW the answers to the core's stores to other
modules, and holds issue until FENCE_RELEASE finds that so; with IF fetch then sees every earlier store. R134,
R135, R295, R323: tlbi drops the TLB entries it names and the run-ahead data; tend ends the task of a core in TASK, and leaves a core in
RUN idle. What FD and MW wait for, and that tlbi KIND 0b01 drops the entry of An's local part whatever its chip field, are the model's choice (assumption
logs 33 and 134). -/
def Obligations.FencesTlbiAndTend : Prop :=
  (
  (∀ (s t : State) (n : Nat) (k : Cond) (mask : BitVec 4), Ready s t n k 2 →
    let done := (mask.getLsbD 0 = true → (t.core n).feederDone = true) ∧ (mask.getLsbD 1 = true → (t.core n).setterDone = true) ∧
      (mask.getLsbD 2 = true → t.storesOut n = false)
    (done → exec (.fence n k mask) s = .next (after t n 2 (fun c =>
      { c with runAhead := if mask.getLsbD 0 || mask.getLsbD 1 then [] else c.runAhead,
               unfetched := if mask.getLsbD 3 then [] else c.unfetched }))) ∧
    (¬ done → exec (.fence n k mask) s = .next (t.modCore n (fun c => { c with hold := some (.fence mask), hlen := 2 })))) ∧
  (∀ (s : State) (n : Nat) (mask : BitVec 4), s.power = .running → n < 192 → (s.core n).hold = some (.fence mask) →
    s.fenceOk n mask = true →
    exec (.fenceRelease n) s = .next (s.modCore n (fun c => (Core.fenced { c with hold := none } mask).retire c.hlen)))) ∧
  (
  ∀ (s t : State) (n : Nat) (k : Cond), Ready s t n k 2 →
    ((t.core n).sup = true → ∀ aa : Fin 8,
      exec (.tlbi n k 0 aa) s = .next (after t n 2 (fun c => { c with runAhead := [], tlb := [] })) ∧
      exec (.tlbi n k 1 aa) s = .next (after t n 2 (fun c =>
        { c with runAhead := [], tlb := c.tlb.filter (fun e => !e.hits (localOf (c.areg aa.val))) }))) ∧
    ((t.core n).tendOk = true →
      (∀ x, (t.core n).dst = .task → (t.core n).task = some x → exec (.tend n k) s = .next (t.modCore n (fun c =>
        { c.retire 2 with tended := true, dst := .ending, task := some { x with endAs := some .tend } }))) ∧
      ((t.core n).dst = .run → exec (.tend n k) s = .next (t.modCore n (fun c => { c.retire 2 with tended := true, dst := .idle })))))

/-! ## The Comb -/

/-- R340, R347, R349, Table 12-1: sem.add and sem.sub and their long forms change the count of an unmarked semaphore, serve its waiters, and
hold until COMB_ANSWER, with which the instruction completes. Table 12-1, R344: a Comb instruction that would take a count past its ends,
or that meets a poison mark, faults and changes nothing. -/
def Obligations.SemaphoreArithmetic : Prop :=
  (
  (∀ (s t : State) (n len : Nat) (k : Cond) (an : Fin 8) (dn : Fin 16) (imm v : BitVec 32) (i : Instr) (add : Bool) (j : Nat),
    Ready s t n k len → NamesHere t n ((t.core n).areg an.val) false true j → (t.sem j).mark = false →
    (len = 2 ∧ evenReg dn.val = true ∧ v = (t.core n).dpair dn.val ∧ i = (if add then .semAdd n k an dn else .semSub n k an dn) ∨
     len = 4 ∧ v = imm ∧ i = (if add then .semAddi n k an imm else .semSubi n k an imm)) →
    let c := (t.sem j).count.toNat
    (if add then c + v.toNat ≤ 0x7FFFFFFF else v.toNat ≤ c) →
    exec i s = .next (holding (counted t j (if add then c + v.toNat else c - v.toNat) v.toNat) n len (.comb none 0))) ∧
  (∀ (s : State) (n : Nat) (dst : Option Nat) (v : Word), On s → (s.core n).hold = some (.comb dst v) →
    exec (.combAnswer n) s = .next (s.modCore n (fun c => ((match dst with
      | some i => { c with hold := none }.sendD 1 i v
      | none => { c with hold := none }).retire c.hlen)))) ∧
  (∀ (s : State) (n j : Nat) (x : Bool), On s → (s.core n).hold = some (.wait true x j) →
    exec (.combAnswer n) s = .next (s.modCore n (fun c => { c with hold := none, runAhead := [] }.retire c.hlen)))) ∧
  (
  ∀ (s t : State) (n : Nat) (k : Cond) (an : Fin 8) (v : BitVec 32) (j : Nat),
    Ready s t n k 4 → (∀ r, NamesHere t n ((t.core n).areg an.val) false r j) →
    let a := (t.core n).areg an.val
    ((t.sem j).mark = true → exec (.semAddi n k an v) s = .next (t.syncFault n .poison a) ∧
      exec (.semSubi n k an v) s = .next (t.syncFault n .poison a)) ∧
    ((t.sem j).mark = false → 0x7FFFFFFF < (t.sem j).count.toNat + v.toNat → v ≠ 0 →
      exec (.semAddi n k an v) s = .next (t.syncFault n .semOverflow a)) ∧
    ((t.sem j).mark = false → (t.sem j).count.toNat < v.toNat → exec (.semSubi n k an v) s = .next (t.syncFault n .semUnderflow a)) ∧
    (0x7FFFFFFF < v.toNat → exec (.semWaiti n k an v) s = .next (t.syncFault n .semOverflow a) ∧
      exec (.semTakei n k an v) s = .next (t.syncFault n .semOverflow a)))

/-- R106, R342: sem.wait and sem.take and their long forms end at once when the count suffices (a take with an empty FIFO, which it lowers),
and otherwise join the waiters and hold the core, clock-gated. R342: serving a semaphore ends every wait that the count satisfies and no
other, and takes from the head of the FIFO for as long as the count allows: what is left of the count and what was taken add up to what it
was, and the new head cannot be served. -/
def Obligations.SemaphoreWaiting : Prop :=
  (
  ∀ (s t : State) (n len : Nat) (k : Cond) (an : Fin 8) (dn : Fin 16) (imm v : BitVec 32) (j : Nat),
    Ready s t n k len → NamesHere t n ((t.core n).areg an.val) false false j → (t.sem j).mark = false → v.toNat ≤ 0x7FFFFFFF →
    let q := t.sem j
    let form (short long : Instr) (i : Instr) : Prop :=
      (len = 2 ∧ evenReg dn.val = true ∧ v = (t.core n).dpair dn.val ∧ i = short) ∨ (len = 4 ∧ v = imm ∧ i = long)
    (∀ i, form (.semWait n k an dn) (.semWaiti n k an imm) i →
      (v.toNat ≤ q.count.toNat → exec i s = .next (after t n len (fun c => { c with runAhead := [] }))) ∧
      (q.count.toNat < v.toNat →
        exec i s = .next (holding ((t.setSem j { q with waits := q.waits ++ [(n, v)] }).gate n) n len (.wait false false j)))) ∧
    (∀ i, form (.semTake n k an dn) (.semTakei n k an imm) i →
      (q.fifo = [] → v.toNat ≤ q.count.toNat →
        exec i s = .next (after (t.semStore j { q with count := q.count - v }) n len (fun c => { c with runAhead := [] }))) ∧
      (q.fifo ≠ [] ∨ q.count.toNat < v.toNat →
        exec i s = .next (holding ((t.setSem j { q with fifo := q.fifo ++ [(n, v)] }).gate n) n len (.wait false false j))))) ∧
  (
  ∀ q : Sem, let r := q.serve.1
    let taken := q.fifo.take (q.fifo.length - r.fifo.length)
    r.waits = q.waits.filter (fun e => decide (q.count.toNat < e.2.toNat)) ∧
    q.fifo = taken ++ r.fifo ∧
    r.count.toNat + (taken.map (fun e => e.2.toNat)).sum = q.count.toNat ∧
    (∀ e, r.fifo.head? = some e → r.count.toNat < e.2.toNat) ∧
    q.serve.2 = (q.waits.filter (fun e => decide (e.2.toNat ≤ q.count.toNat))).map (·.1) ++ taken.map (·.1) ∧
    r.mark = q.mark)

/-- R346, R350, R352, Tables 12-1, 12-3 and 12-7: the other ways to a semaphore: window stores, COMB_HOP, COMB_TCLR and packets. R357, Table
12-7: the registers of a context: B_CTL while EN is 0, whether it sets EN or leaves it 0, and while EN is 1 changing ARM alone or clearing EN alone;
B_NEXT; and B_PARENT and B_MASK while EN is 0; while EN is 1 a write of one of these, and one of B_CTL that changes another field, is ignored and
PG_ERR records CTX_ENABLED. -/
def Obligations.CombRegisterOperations : Prop :=
  (
  ∀ (s : State) (src : Src) (k : BitVec 16), On s → InTurn s src → (s.sem k.toNat).mark = false →
    let q := s.sem k.toNat
    let h := (s.reg rHopv).toNat
    (∀ (n : Nat) (v : BitVec 32), q.count.toNat + v.toNat ≤ 0x7FFFFFFF →
      exec (.combWindowAdd n k v) s = .next (counted s k.toNat (q.count.toNat + v.toNat) v.toNat)) ∧
    (q.count.toNat + h ≤ 0x7FFFFFFF → exec (.hopAdd src k) s = .next (counted s k.toNat (q.count.toNat + h) h)) ∧
    (h ≤ q.count.toNat → exec (.hopSub src k) s = .next (counted s k.toNat (q.count.toNat - h) h)) ∧
    (src = .host ∨ src = .mgmt → h ≤ 0x7FFFFFFF →
      exec (.hopSet src k) s = .next (s.semStore k.toNat { q with count := BitVec.ofNat 32 h })) ∧
    (∀ w : BitVec 32, fld w 0 8 < 192 → ∃ t, exec (.tclr src w) s = .next t ∧
      (∀ i < 16, (t.sem (16 * fld w 0 8 + i)).count = 0 ∧ (t.sem (16 * fld w 0 8 + i)).fifo = (s.sem (16 * fld w 0 8 + i)).fifo) ∧
      (∀ j, j < 16 * fld w 0 8 ∨ 16 * fld w 0 8 + 16 ≤ j → t.sem j = s.sem j) ∧ t.cores = s.cores ∧ t.mem = s.mem ∧ t.regs = s.regs) ∧
    (∀ p : Packet, s.bitReg rJrootLo 0 = false → p.addr = combBase + 16 * k.toNat → fld p.tsf 62 2 = 1 →
      q.count.toNat + fld p.tsf 0 32 ≤ 0x7FFFFFFF →
      exec (.semPacket p) s = .next ((counted (s.consume p) k.toNat (q.count.toNat + fld p.tsf 0 32) (fld p.tsf 0 32)).originate
        (answerSpec p 0 [])))) ∧
  (
  ∀ (s : State) (src : Src) (b : Fin 64) (w : BitVec 32), On s → InTurn s src → (s.ctx b.val).mark = false →
    (s.bEn b.val = false → w.getLsbD 31 = true → ∃ t, exec (.bCtlWrite src b w) s = .next t ∧ t.reg (rBctl b.val) = w &&& 0xF0FFFFFF ∧
      t.bGen b.val = 0 ∧ (t.ctx b.val).now = Arrivals.none_ ∧ (t.ctx b.val).next = Arrivals.none_ ∧ t.cores = s.cores) ∧
    ((s.bEn b.val = false ∧ w.getLsbD 31 = false ∨ s.bEn b.val = true ∧ w.getLsbD 31 = true ∧ (w ^^^ s.reg (rBctl b.val)) &&& 0x60FFFFFF = 0) →
      ∃ t, exec (.bCtlWrite src b w) s = .next t ∧ t.reg (rBctl b.val) = w &&& 0xF0FFFFFF ∧ SameRegs s t [rBctl b.val] ∧
        t.ctx b.val = s.ctx b.val ∧ t.cores = s.cores ∧ t.mem = s.mem) ∧
    (s.bEn b.val = true → (w ^^^ s.reg (rBctl b.val)) &&& 0x60FFFFFF ≠ 0 → exec (.bCtlWrite src b w) s = .next (s.barErr b.val 6)) ∧
    (s.bEn b.val = true → w &&& 0xF0FFFFFF = s.reg (rBctl b.val) &&& 0x7FFFFFFF → ∃ t, exec (.bCtlWrite src b w) s = .next t ∧
      t.bEn b.val = false ∧ (t.ctx b.val).now = Arrivals.none_ ∧ (t.ctx b.val).waits = (s.ctx b.val).waits ∧ t.cores = s.cores) ∧
    (∃ t : State, exec (.bNextWrite src b w) s = .next (State.ctxWrote (if s.bEn b.val then t else t.retryPug) b.val 2) ∧
      t.fldReg (rBnext b.val) 0 16 = fld w 0 16 ∧ (Quiet s → t.retryPug = t) ∧
      t.bEpoch b.val = (if s.bEn b.val then s.bEpoch b.val else fld w 0 16) ∧ t.bGen b.val = s.bGen b.val ∧ t.cores = s.cores) ∧
    (s.bEn b.val = false → (∃ t, exec (.bCtxWrite src b .parent w) s = .next t ∧ t.reg (rBparent b.val) = w &&& 0xFFFFF ∧ t.cores = s.cores) ∧
      ∀ k : Fin 6, ∃ t, exec (.bCtxWrite src b (.mask k) w) s = .next t ∧ t.reg (rBmask b.val k.val) = w ∧ t.cores = s.cores) ∧
    (s.bEn b.val = true → s.fldReg (pageBase .comb + oErr) 0 16 = 0 → ∀ r : CtxReg, ∃ t, exec (.bCtxWrite src b r w) s = .next t ∧
      t.fldReg (pageBase .comb + oErr) 0 16 = 6 ∧ (t.ctx b.val) = s.ctx b.val ∧
      t.reg (rBparent b.val) = s.reg (rBparent b.val) ∧ ∀ k : Fin 6, t.reg (rBmask b.val k.val) = s.reg (rBmask b.val k.val)))

/-- R353, R354: an arrival at an enabled context that does not complete its generation is counted: of a named core or of the host for GEN, or
for GEN + 1 where it has arrived for GEN, with the generation in a core's Dn; of a child for the generation its packet names. A third arrival, one
of a core or a host that is not named, a child's for another generation, and one at a context that is not enabled are counted for none, and
PG_ERR records BAR_AHEAD, BAR_MASK or BAR_OFF. R355: bar.wait ends at once when its generation is over, and otherwise waits
in the context, clock-gated. R353, R355, R359: a release that reaches an enabled context for its generation, with no mode armed and no
step to resolve, raises GEN by one modulo 2^16, turns the arrivals counted for the next generation into its own, and ends the waits whose
generation is over. R389: a release that is still to be forwarded is forwarded first. -/
def Obligations.Barriers : Prop :=
  (
  (∀ (s t : State) (n : Nat) (k : Cond) (dn : Fin 16) (an : Fin 8) (b : Nat), Ready s t n k 2 →
    NamesHere t n ((t.core n).areg an.val) true false b →
    let c := t.ctx b
    let g1 := (t.bGen b + 1) % 65536
    let gives (u : State) (g : Nat) : Prop := exec (.barArr n k dn an) s = .next (holding u n 2 (.comb (some dn.val) (BitVec.ofNat 16 g)))
    let with_ (a : Arrivals) : Arrivals :=
      { a with cores := setBit a.cores n true, early := a.early ++ (t.midJobs b).filter (fun j => !a.early.contains j) }
    (t.bEn b = false → gives (t.barErr b 7) (t.bGen b)) ∧
    (t.bEn b = true → t.bMask b n = false → gives (t.barErr b 4) (t.bGen b)) ∧
    (t.bEn b = true → t.bMask b n = true → (t.bArm b = true → t.midJobs b = []) →
      (c.now.cores.getLsbD n = false → t.allHere b (with_ c.now) = false → gives (t.setCtx b { c with now := with_ c.now }) (t.bGen b)) ∧
      (c.now.cores.getLsbD n = true → (c.sent = true ∨ t.allHere b c.now = false) →
        (c.next.cores.getLsbD n = false → gives (t.setCtx b { c with next := with_ c.next }) g1) ∧
        (c.next.cores.getLsbD n = true → gives (t.barErr b 5) g1)))) ∧
  (∀ (s : State) (src : Src) (w : BitVec 16), On s → InTurn s src → let b := w.toNat % 64
    let c := s.ctx b
    let gives (u : State) : Prop := exec (.hopArrive src w) s = .next u
    (s.bEn b = false → gives (s.barErr b 7)) ∧
    (s.bEn b = true → s.bHost b = false → gives (s.barErr b 4)) ∧
    (s.bEn b = true → s.bHost b = true → (s.bArm b = true → s.midJobs b = []) →
      let with_ (a : Arrivals) : Arrivals := { a with host := true, early := a.early ++ (s.midJobs b).filter (fun j => !a.early.contains j) }
      (c.now.host = false → s.allHere b (with_ c.now) = false → gives (s.setCtx b { c with now := with_ c.now })) ∧
      (c.now.host = true → (c.sent = true ∨ s.allHere b c.now = false) →
        (c.next.host = false → gives (s.setCtx b { c with next := with_ c.next })) ∧
        (c.next.host = true → gives (s.barErr b 5))))) ∧
  (∀ (s : State) (p : Packet), On s → let t := s.consume p
    let b := fld p.tsf 16 6
    let g := fld p.tsf 0 16
    let c := t.ctx b
    let with_ (a : Arrivals) : Arrivals := { a with child := a.child + 1, refuse := a.refuse || p.tsf.getLsbD 32 }
    let gives (u : State) : Prop := exec (.barrReceive p) s = .next u
    (t.bEn b = false → gives (t.barErr b 7)) ∧
    (t.bEn b = true → g ≠ t.bGen b → g ≠ (t.bGen b + 1) % 65536 → gives (t.barErr b 5)) ∧
    (t.bEn b = true → g = t.bGen b → t.allHere b (with_ c.now) = false → gives (t.setCtx b { c with now := with_ c.now })) ∧
    (t.bEn b = true → g = (t.bGen b + 1) % 65536 → (c.sent = true ∨ t.allHere b c.now = false) →
      gives (t.setCtx b { c with next := with_ c.next })))) ∧
  (
  ∀ (s t : State) (n : Nat) (k : Cond) (dn : Fin 16) (an : Fin 8) (b : Nat), Ready s t n k 2 →
    NamesHere t n ((t.core n).areg an.val) true false b →
    let d := (t.core n).dreg dn.val
    let isOver := 1 ≤ (t.bGen b + 65536 - d.toNat) % 65536 ∧ (t.bGen b + 65536 - d.toNat) % 65536 ≤ 0x7FFF
    (isOver → exec (.barWait n k an dn) s = .next (after t n 2 (fun c => { c with runAhead := [] }))) ∧
    (¬ isOver → exec (.barWait n k an dn) s =
      .next (holding ((t.setCtx b { t.ctx b with waits := (t.ctx b).waits ++ [(n, d)] }).gate n) n 2 (.wait false true b)))) ∧
  (
  ∀ (s : State) (p : Packet), On s → let t := s.consume p
    let b := fld p.tsf 16 6
    let c := t.ctx b
    let g := (t.bGen b + 1) % 65536
    (∀ r, s.inbox.find? (fun r => r.pkt == p && !r.copy) = some r →
      let v := if s.mayLeave p then s.mcForward r.link p else s
      v.inbox.any (fun r => r.pkt == p && r.copy) = false → exec (.brelReceive p) s = .next v) ∧
    ((∀ r ∈ s.inbox, r.pkt = p → r.copy = true) →
    t.bEn b = true → t.bRoot b = false → fld p.tsf 0 16 = t.bGen b → t.isStep b = false → t.bArm b = false →
    t.allHere b c.next = false →
    ∃ u, exec (.brelReceive p) s = .next u ∧ u.bGen b = g ∧ u.bEpoch b = t.bEpoch b ∧ (u.ctx b).now = c.next ∧
      (u.ctx b).next = Arrivals.none_ ∧ (u.ctx b).sent = false ∧ (u.ctx b).waits = c.waits.filter (fun w => !barOver g w.2) ∧
      (∀ w ∈ c.waits, barOver g w.2 = true → (t.core w.1).hold = some (.wait false true b) →
        (u.core w.1).hold = some (.wait true true b) ∧ (u.core w.1).gated = false) ∧
      u.mem = t.mem ∧ u.sems = t.sems))

/-! ## Bring-up, resets and core control -/

/-- R35, R41 to R48, R52, R510, Tables 1-9 and 2-6: what power, a cold reset and the thermal trip leave, and what leaving internal reset does:
the straps are sampled, each pin at the level driven or else its factory level, GLOBAL_CFG and CHIP are loaded, step 1 starts, and every
link trains or has no cable. A brown-out recovers by itself while MOD_RST_N is high, and else holds internal reset; that it also ends a
thermal trip is the model's choice (assumption log 117). -/
def Obligations.PowerColdResetAndStraps : Prop :=
  ∀ s : State,
    (s.power = .off → ∃ t, exec .powerOn s = .next t ∧ Wiped s t .reset) ∧ (∃ t, exec .powerRemoval s = .next t ∧ Wiped s t .off) ∧
    (s.power = .reset ∨ s.power = .running → ∃ t, exec .coldReset s = .next t ∧ Wiped s t .reset) ∧
    (s.power = .tripped ∨ s.power = .tripHeld → ∃ t, exec .coldReset s = .next t ∧ Wiped s t .tripHeld) ∧
    (s.power ≠ .off → ∃ t, exec .brownOut s = .next t ∧ Wiped s t .brownOut) ∧
    (∀ r : Sensors, On s →
      ((∃ x ∈ r.dies ++ r.clusters, 110 ≤ x) → ∃ t, exec (.sensorRead r) s = .next t ∧ Wiped s t .tripped) ∧
      ((∀ x ∈ r.dies ++ r.clusters, x < 110) → exec (.sensorRead r) s = .next { s with
        sensors := r, pins := { s.pins with alertN := (r.dies ++ r.clusters).all (fun x => decide (x < 105)) && s.stage != 0xF } })) ∧
    (∀ (straps : BitVec 15) (c : Instr), s.links = [] →
      (((c = .strapSample straps ∨ c = .internalResetWaitEnd straps) ∧ (s.power = .reset ∨ s.power = .tripHeld)) ∨
        (c = .brownOutRecovery straps ∧ s.power = .brownOut ∧ s.pins.modRstN = true)) →
      ∃ (t : State) (x : BitVec 15), (∀ i < 15, x.getLsbD i = if s.pins.strapDriven.getLsbD i then straps.getLsbD i else decide (i = 10)) ∧
        exec c s = .next t ∧ t.power = .running ∧ t.reg rStrap = x.zeroExtend 32 ∧ t.reg rCfg = x.zeroExtend 32 ∧
        t.bitReg rSvc 16 = true ∧ t.chip = t.fldReg rFabSeed 0 12 * 256 + fld x 0 8 ∧
        ∀ l < 96, t.lk l = if s.cable l then 2 else 1) ∧
    (∀ straps : BitVec 15, s.power = .brownOut → s.pins.modRstN = false →
      ∃ t, exec (.brownOutRecovery straps) s = .next t ∧ Wiped s t .reset)

/-- R59, R62, R64 to R66, R58, Table 2-6: the five steps of bring-up, where no compute reset is held: where each leads, and the bits and
values it leaves. That an LPDDR6 failure leads to FAILED also under STRAP_BOOT 0b11, that GLOBAL_ILV takes its value also when a training fails, and that
the CXL link reads as down while it retrains are the model's choice (assumption logs 118, 84 and 120). -/
def Obligations.BringUpSteps : Prop :=
  ∀ s : State, On s → s.heldReset = false →
    (∀ f : BitVec 32, s.stage = 1 → s.bitReg rSvc 16 = true → ∃ t, exec (.bisqueReached f) s = .next t ∧ t.bitReg rSvc 17 = true ∧
      t.stage = (if f ≠ 0 then 0xF else if s.fldReg rStrap 8 2 = 3 then 0xE else 2) ∧
      ∀ c < 32, f.getLsbD c = true → t.bitReg (rLpStat c) 0 = true) ∧
    (s.stage = 2 → s.fldReg rStrap 8 2 = 0 → ∃ t, exec .imageRead s = .next t ∧
      match s.bootOrder.find? (fun b => s.slotStatus b == 0) with
      | none => t.stage = 0xF ∧ t.pins.alertN = false
      | some b => t.stage = 3 ∧ t.bitReg rSvc 18 = true ∧ t.running = some b ∧ t.fldReg rSvc 24 4 = (if b then 1 else 0)) ∧
    (∀ (sf : BitVec 8) (lf : BitVec 32), s.stage = 3 → s.bitReg rSvc 19 = false → s.bitReg rSvc 20 = false →
      ∃ t, exec (.stackTraining sf lf) s = .next t ∧ t.reg rIlv = BitVec.ofNat 32 s.ilvSet ∧
        t.bitReg rSvc 19 = decide (sf = 0) ∧ t.bitReg rSvc 20 = decide (lf = 0) ∧ t.stage = (if sf = 0 ∧ lf = 0 then 3 else 0xF) ∧
        (∀ x, x ∈ t.fieldRows ↔ x ∈ s.repairs ∧ ∃ st b r, x = .row st b r) ∧
        ∀ a, stagingBase ≤ a → a < 0x20000000000 → t.word a = s.word a) ∧
    (s.stage = 3 → s.bitReg rSvc 19 = true → s.bitReg rSvc 20 = true → s.bitReg rSvc 21 = false →
      (∀ l < 96, s.lk l ≠ 2 ∧ s.lk l ≠ 3 ∧ (s.lk l = 4 → (s.link l).full = true)) →
      ∃ t, exec .linkFullRateStep s = .next t ∧ t.bitReg rSvc 21 = true ∧ t.stage = 3 ∧
        (s.pins.perstN = true → t.linkTrain = true ∧ t.reg rLstat = 0) ∧ t.cores = s.cores ∧ t.mem = s.mem) ∧
    (s.stage = 3 → s.bitReg rSvc 21 = true → ∃ t, exec .glazeReached s = .next t ∧ t.stage = 4 ∧ t.bitReg rSvc 22 = true ∧
      t.svcStop = some (s.usec - s.strapAt) ∧ (∀ n < 192, (t.core n).step = s.fldReg rPyDvfs 5 5) ∧
      (∀ n < 192, ∀ e < 64, t.reg (rScCtl n e) = 0x01000000 ∧ t.reg (rScAmax n e) = 0) ∧ t.reg rLsCur = 16 ∧ t.mem = s.mem)

/-- R55 to R58, R112, R361, R476, R491: the resets of parts of the module. A compute reset, taken once the module is in Glaze, HOLD or
FAILED, leaves every core resetting and halted with no task, the Comb's counts, waiters, enables and generations at zero, and memory alone;
a Firefly restart ends the update session and answers what was not completed; with both bits set the compute reset comes first; a Firefly restart
written before that arrival is ignored and recorded as BUSY. -/
def Obligations.ResetsOfParts : Prop :=
  ∀ s : State, On s →
    (∀ p : Bool, ∃ t : State, exec (.hostReset p) s = .next t.snoopDone ∧ (Unheld s → t.snoopDone = t) ∧ t.hdmBase = none ∧ t.msixPend = 0 ∧
      t.msixMask = BitVec.allOnes 32 ∧ t.hostCfg = State.reset.hostCfg ∧ t.memWait = [] ∧
      t.hostLines = [] ∧ t.snoop = [] ∧ t.biWait = [] ∧ t.bursts = [] ∧ t.linkTrain = false ∧ t.j1Lanes = [] ∧ t.bpDone = 0 ∧ t.reg rLstat = 0 ∧
      (∀ i, (t.port i).ctl.getLsbD 31 = false ∧ (t.port i).addr = (s.port i).addr ∧ (t.port i).cnt = (s.port i).cnt) ∧
      t.cores = s.cores ∧ t.mem = s.mem ∧ t.sems = s.sems ∧ t.links = s.links) ∧
    exec .tapReset s = .next { s with tap := .idcode, tapDr := 0x1096A3C5 } ∧
    (∀ (src : Src) (w : BitVec 32), InTurn s src → Src.user src = false → fld w 24 8 = 0xA5 →
      (w.getLsbD 0 = true → w.getLsbD 1 = false → s.stage = 4 ∨ s.stage = 0xE ∨ s.stage = 0xF →
        ∃ t, exec (.computeReset src w) s = .next t ∧ t.heldReset = false ∧
          (∀ n < 192, (t.core n).resetting = true ∧ (t.core n).dst = .off ∧ (t.core n).hold = none ∧ (t.core n).setter = [] ∧
            (t.core n).fops = [] ∧ (t.core n).blocks = [] ∧ (t.core n).task = none ∧ t.bitReg (rRun n) 0 = true) ∧
          (∀ k, (t.sem k).count = 0 ∧ (t.sem k).fifo = [] ∧ (t.sem k).waits = []) ∧
          (∀ b < 64, t.bEn b = false ∧ t.bGen b = 0) ∧ (∀ d, look 0 t.res d = 0) ∧ t.mem = s.mem) ∧
      (w.getLsbD 0 = true → w.getLsbD 1 = false → s.stage ≠ 4 → s.stage ≠ 0xE → s.stage ≠ 0xF →
        ∃ t, exec (.computeReset src w) s = .next t ∧ t.heldReset = true ∧ t.sems = s.sems ∧ t.mem = s.mem ∧ t.regs = s.regs) ∧
      (w.getLsbD 0 = false → w.getLsbD 1 = true → s.stage = 4 ∨ s.stage = 0xE ∨ s.stage = 0xF →
        ∃ t, exec (.fireflyRestart src w) s = .next t ∧ t.flyDown = true ∧ t.session = none ∧ t.activating = none ∧
          t.boxH.busy = false ∧ t.boxM.busy = false ∧ (s.boxH.busy = true → t.boxH.status = 0x0F) ∧
          (s.boxM.busy = true → t.boxM.status = 0x0F) ∧ t.cores = s.cores ∧ t.mem = s.mem) ∧
      (w.getLsbD 0 = false → w.getLsbD 1 = true → s.stage ≠ 4 → s.stage ≠ 0xE → s.stage ≠ 0xF →
        exec (.fireflyRestart src w) s = .next (s.err .global 0x40)) ∧
      (w.getLsbD 0 = true → w.getLsbD 1 = true → s.stage = 4 ∨ s.stage = 0xE ∨ s.stage = 0xF →
        ∀ c ∈ [Instr.computeReset src w, .fireflyRestart src w], ∃ t u, exec (.computeReset src (w &&& 0xFFFFFFFD)) s = .next t ∧
          exec (.fireflyRestart src (w &&& 0xFFFFFFFE)) t = .next u ∧ exec c s = .next u ∧ u.flyDown = true) ∧
      (w.getLsbD 0 = true → w.getLsbD 1 = true → s.stage ≠ 4 → s.stage ≠ 0xE → s.stage ≠ 0xF →
        (∀ n b, src ≠ .core n b) → exec (.computeReset src w) s = .next ({ s with heldReset := true }.err .global 0x40)))

/-- R54, R364, R368, R369: a cable seen or removed moves the links of its connector, and no other; a write of GLOBAL_CFG takes ADDR_SEED and
SPARE, and a change of SPARE loads CHIP again. -/
def Obligations.CablesAndConfiguration : Prop :=
  ∀ s : State, On s →
    (∀ k < 12, ∃ t, exec (.cableInsert k) s = .next t ∧ t.pins.cblPrsntN.getLsbD k = false ∧
      (∀ l, t.lk l = if l / 8 = k ∧ s.lk l = 1 then 2 else s.lk l)) ∧
    (∀ k < 12, ∃ t, exec (.cableRemove k) s = .next t ∧ t.pins.cblPrsntN.getLsbD k = true ∧
      (∀ l, t.lk l = if l / 8 = k then 1 else s.lk l) ∧
      ∀ l, l / 8 = k → s.lk l ≠ 1 → t.fldReg (rLkStat l) 23 3 = 6) ∧
    (∀ (src : Src) (w : BitVec 32), InTurn s src → ∃ t, exec (.globalCfgWrite src w) s = .next t ∧ t.fldReg rCfg 0 8 = fld w 0 8 ∧
      t.bitReg rCfg 14 = w.getLsbD 14 ∧ t.fldReg rCfg 15 17 = 0 ∧
      (∀ e ∈ [(8, 2), (10, 2), (12, 1), (13, 1)], fld w e.1 e.2 = s.fldReg rCfg e.1 e.2 → t.fldReg rCfg e.1 e.2 = s.fldReg rCfg e.1 e.2) ∧
      (w.getLsbD 14 ≠ s.bitReg rCfg 14 → t.chip = s.fldReg rFabSeed 0 12 * 256 + fld w 0 8) ∧
      (w.getLsbD 14 = s.bitReg rCfg 14 → t.reg rFabId = s.reg rFabId) ∧ t.cores = s.cores ∧ t.mem = s.mem)

/-- R11, R15, R16, R18 to R21, R460: the page header and plain registers. PG_IRQ latches the sources that are high as their enables rise, and
vector 0 is sent if the OR of the interrupts rises; PG_IRQ_EN holds the bits of sources that the page has; LOCK stays set; ERR_CLR clears
PG_ERR for an error that arrives; the first error stays; a write of a register takes its writable bits, clears what is W1C, and changes nothing where
it is read-only, narrow or misaligned; an odd CORE_START offset, which is reserved, leaves a free value; a write of the host waits behind its accesses
that wait. Which sources a page has, what a misaligned write of the host does, and that a register write waits are the model's choice (assumption logs
17, 18 and 78). -/
def Obligations.PageHeaderAndRegisterWrites : Prop :=
  (∀ (s : State) (src : Src) (p : Page), On s → InTurn s src → pageExists p = true →
    (∀ w : BitVec 32, let set := w &&& pageSources p &&& ~~~(s.reg (pageBase p + oIrqEn)) &&& s.irqRaw p
      ∃ t, exec (.pgIrqEnWrite src p w) s = .next t ∧ t.reg (pageBase p + oIrqEn) = w &&& pageSources p ∧
        t.reg (pageBase p + oIrq) = s.reg (pageBase p + oIrq) ||| set ∧ SameRegs s t [pageBase p + oIrqEn, pageBase p + oIrq] ∧
        (s.anyIrq = false → set ≠ 0 → s.msixMask.getLsbD 0 = false → t.msixSent = s.msixSent ++ [0]) ∧
        (s.anyIrq = false → set ≠ 0 → s.msixMask.getLsbD 0 = true → t.msixPend.getLsbD 0 = true) ∧
        (s.anyIrq = true → t.msixSent = s.msixSent ∧ t.msixPend = s.msixPend) ∧ t.cores = s.cores ∧ t.mem = s.mem) ∧
    (∃ t, exec (.pgLock src p) s = .next t ∧ t.reg (pageBase p + oCtl) = s.reg (pageBase p + oCtl) ||| 0x80000000 ∧
      SameRegs s t [pageBase p + oCtl] ∧ t.cores = s.cores ∧ t.mem = s.mem) ∧
    (∀ e : BitVec 16, ∃ t, exec (.pgErrClr src p e) s = .next t ∧ t.reg (pageBase p + oErr) = e.zeroExtend 32 ∧
      SameRegs s t [pageBase p + oErr, pageBase p + oIrq] ∧ t.cores = s.cores ∧ t.mem = s.mem) ∧
    (∀ c, 0 < c → c < 65536 → (s.err p c).fldReg (pageBase p + oErr) 0 16 =
      (if s.fldReg (pageBase p + oErr) 0 16 = 0 then c else s.fldReg (pageBase p + oErr) 0 16))) ∧
  (∀ i x, sourceOf i = some x → ∃ r, rowOf i = some r) ∧
  (∀ (s : State) (i : Instr) (r : HostRow), sourceOf i = some .host → rowOf i = some r → rowRun r s = exec i s ∧
    (On s → s.bursts ≠ [] → exec i s = .next { s with bursts := s.bursts ++ [.cmd r] })) ∧
  (∀ s : State, s.bursts ≠ [] → ∀ o k : Nat, s.bar0Take o k = { s with bursts := s.bursts ++ [.regRead o k] } ∧
    s.bar4Take o k = { s with bursts := s.bursts ++ [.regRead (0x1800000 + o) k] }) ∧
  (∀ (s : State) (src : Src) (w : BitVec 64), On s → InTurn s src →
    (∀ off bytes, off < 0x800000 → (bytes < 4 ∨ off % bytes ≠ 0) → exec (.registerWrite src off bytes w) s = .next s) ∧
    (∀ e ∈ [(rAge, 0xFFFF), (rHopv, 0xFFFFFFFF), (rLsctx, 0x3F), (rFabSeed, 0xFFF), (rFabRto, 0xFFFF), (rLogsel, 0x3F), (rBpsel, 0xFF),
        (rDisp 191, 0xFFFFE), (rJrootHi, 0xFFF), (rIrqRoute, 0x800000FF)],
      exec (.registerWrite src e.1 4 w) s = .next (s.setReg e.1 (w.truncate 32 &&& e.2))) ∧
    (w.getLsbD 0 = false → exec (.registerWrite src (rStart 191) 4 w) s = .next (s.setReg (rStart 191) (w.truncate 32 &&& 0xFFFFF))) ∧
    (w.getLsbD 0 = true → ∃ t v, exec (.registerWrite src (rStart 191) 4 w) s = .next t ∧ t.reg (rStart 191) = BitVec.ofNat 32 v ∧ v < 2 ^ 20 ∧
      SameRegs s t [rStart 191] ∧ t.cores = s.cores ∧ t.mem = s.mem) ∧
    (∀ o ∈ [rStrap, rPyIn, rErrq, rErrsem, rFabId, rFabErrdst, rSlast, rStopinfo 191, rLkStat 95, rScrScan, rLstat, rErrport, 0xFFC, 0x8040],
      exec (.registerWrite src o 4 w) s = .next s) ∧
    (∀ n < 192, exec (.registerWrite src (rNf n) 4 w) s = .next (s.setReg (rNf n) (s.reg (rNf n) &&& ~~~(w.truncate 32)))) ∧
    exec (.registerWrite src 0x400040 8 w) s = .next ((s.setReg 0x400040 (w.truncate 32)).setReg 0x400044 (w.extractLsb' 32 32)))

/-- R109 to R111, R144, R323, Tables 3-12 and 3-13: halting, resuming and resetting a core, and its software interrupt. -/
def Obligations.CoreControl : Prop :=
  ∀ (s : State) (src : Src) (n : Nat), On s → InTurn s src → n < 192 →
    (∃ t, exec (.coreHalt src n) s = .next t ∧ t.bitReg (rRun n) 0 = true ∧
      (t.core n).dst = (match (s.core n).dst with
        | .run => .off
        | .idle => .off
        | .task => .paused
        | d => d) ∧
      (t.core n).hold = (match (s.core n).hold with
        | some (.fence _) => none
        | some .mcopy => none
        | some (.wait false _ _) => none
        | h => h) ∧
      (t.core n).pc = (s.core n).pc ∧ (t.core n).d = (s.core n).d ∧ (t.core n).a = (s.core n).a ∧ (t.core n).sr = (s.core n).sr ∧
      (t.core n).setter = (s.core n).setter ∧ (t.core n).task = (s.core n).task ∧ t.mem = s.mem) ∧
    ((s.core n).resetting = false → exec (.coreResume src n) s = .next ((s.setFldReg (rRun n) 0 1 0).modCore n (fun c =>
      { c with
          dst := (match c.dst with
          | .off => .run
          | .paused => .task
          | d => d)
          tended := c.tended && c.dst != .off }))) ∧
    (∀ w : BitVec 32, fld w 24 8 = 0xA5 → w.getLsbD 0 = true → (s.core n).resetting = false →
      ∃ t, exec (.coreReset src n w) s = .next t ∧ (t.core n).resetting = true ∧ (t.core n).sr = 0xC0000000 ∧
        (t.core n).pc = BitVec.ofNat 64 (winBase + s.fldReg (rStart n) 0 20) ∧ (t.core n).d = [] ∧ (t.core n).a = [] ∧
        (t.core n).record = [] ∧ (t.core n).ien = 0 ∧ (t.core n).ipend = 0 ∧ (t.core n).setter = [] ∧ (t.core n).blocks = [] ∧
        (t.core n).fops = [] ∧ (t.core n).deferred = [] ∧ (t.core n).hold = none ∧ (t.core n).dst = .off ∧
        t.bitReg (rRun n) 0 = true ∧ t.reg (rStopinfo n) = 0 ∧ t.reg (rNf n) = 0 ∧ t.reg (pageBase (.core n) + oErr) = 0 ∧
        t.mem = s.mem) ∧
    (∀ w : BitVec 32, (fld w 24 8 ≠ 0xA5 ∨ w.getLsbD 0 = false) → exec (.coreReset src n w) s = .next s) ∧
    ((s.core n).resetting = true → exec (.coreResetEnd n) s =
      .next ((s.modCore n (fun c => { c with resetting := false })).setFldReg (rRun n) 0 1 1)) ∧
    (∀ w : BitVec 32, exec (.coreSwi src n w) s = .next (if w.getLsbD 0 then
      s.modCore n (fun c => { c with ipend := c.ipend ||| 8 }) else s))

/-! ## Links and the fabric -/

/-- R364, R365, R367, R374, R375, R395, Tables 13-1 and 13-12: what moves a link from one state to another, with the reason it records.
That the full rate at the end of a down hold asks for Glaze and the peer's STG is the model's choice (assumption log 72). -/
def Obligations.LinkStates : Prop :=
  ∀ (s : State) (src : Src) (l : Nat), On s → InTurn s src → l < 96 →
    (∃ t, exec (.linkEnable src l) s = .next t ∧ t.bitReg (rLkCtl l) 31 = true ∧
      t.lk l = (if s.lk l ≠ 0 then s.lk l else if s.cable l then 2 else 1)) ∧
    (∃ t, exec (.linkDisable src l) s = .next t ∧ t.bitReg (rLkCtl l) 31 = false ∧ t.lk l = 0 ∧
      (s.lk l ≠ 0 → t.fldReg (rLkStat l) 23 3 = 7)) ∧
    (2 ≤ s.lk l → ∃ t, exec (.linkRetrain src l) s = .next t ∧ t.lk l = 7 ∧ t.fldReg (rLkStat l) 23 3 = 5 ∧
      t.bitReg (rLkFlags l) 1 = true ∧ (t.link l).unacked = [] ∧ (t.link l).txq = []) ∧
    (s.lk l < 2 → exec (.linkRetrain src l) s = .next s) ∧
    (s.lk l = 6 → ∃ t, exec (.linkAdmit src l) s = .next t ∧ t.lk l = (if (s.link l).full = false ∧ s.stage = 4 then 5 else 4)) ∧
    (s.lk l ≠ 6 → exec (.linkAdmit src l) s = .next s) ∧
    (s.lk l = 2 → (∃ t, exec (.linkLock l) s = .next t ∧ t.lk l = 3 ∧ t.fldReg (rLkStat l) 26 2 = (if (s.link l).full then 2 else 1) ∧
        (t.link l).nonce = Config.randomDraw s.rngCtr ∧ (t.link l).hello2 = none) ∧
      (∃ t, exec (.trainTimeout l) s = .next t ∧ t.lk l = 7 ∧ t.fldReg (rLkStat l) 23 3 = 3)) ∧
    (s.lk l = 7 → ∃ t, exec (.downHoldEnd l) s = .next t ∧ t.lk l = 2 ∧
      (t.link l).full = (decide (s.stage = 4) && decide (s.fldReg (rLkPeer l) 30 2 = 1))) ∧
    (s.lk l = 4 → (s.link l).offered = true → (s.link l).peerOff = false → (s.link l).full = false →
      ∃ t, exec (.rateOfferTimeout l) s = .next t ∧ t.lk l = 5) ∧
    (s.lk l = 4 ∨ s.lk l = 5 →
      (∀ p : Packet, p.tsf.getLsbD 0 = true → ∃ t, exec (.rateReceive l p) s = .next t ∧ t.lk l = s.lk l ∧ (t.link l).peerOff = true ∧
        ((s.link l).offered = true → (t.link l).draining = true)) ∧
      ((s.link l).draining = true → (s.link l).unacked = [] → (s.link l).txq = [] →
        ∃ t, exec (.rateDrainEnd l) s = .next t ∧ t.lk l = 2 ∧ (t.link l).full = true)) ∧
    (3 ≤ s.lk l → s.lk l ≤ 6 → ∃ t, exec (.windowMiss l) s = .next t ∧
      (if (s.link l).missed = 2 then t.lk l = 7 ∧ t.fldReg (rLkStat l) 23 3 = 1
       else t.lk l = s.lk l ∧ (t.link l).missed = (s.link l).missed + 1))

/-- R366 to R369: a first HELLO is answered by a second that echoes its nonce and by the certificate, after a first HELLO of this side's own
where none is out; a second is kept; a certificate that passes the checks gives the peer's identity and admits or holds the link, as AUTO and the
identity last accepted say, and one that does not takes it down; a discovery round loads CHIP and sends new HELLOs on live and held links alone. R371 to R374: a bad flit asks
for a resend, once, with a flit whose NAK is 1 and whose ACK names the last good one, and does nothing else; a good data flit in sequence,
with nothing to resend, is acknowledged and its packets join the receive buffer; it ends a run of missed windows unless data flits stay
unacknowledged and its ACK does not advance; the flit of every microsecond carries up to 1,023 of a lane's credits. -/
def Obligations.DiscoveryAndFlits : Prop :=
  (
  ∀ (s : State) (l : Nat) (p : Packet), On s → l < 96 → 3 ≤ s.lk l → s.lk l ≤ 6 →
    let u := s.consume p
    (pktWords p 12 4 = 0 → let v := if (s.link l).asked then u else u.hello1 l
      exec (.helloReceive l p) s = .next
      ((v.sendLocal l (localSpec 0x20 0 (v.helloData l (v.link l).nonce (BitVec.ofNat 64 (pktWords p 8 4))))).sendLocal l
        (localSpec 0x21 0 (wordsOfBytes certificate)))) ∧
    (pktWords p 12 4 ≠ 0 → exec (.helloReceive l p) s = .next (u.modLink l (fun k => { k with hello2 := some p }))) ∧
    (u.certOk l p = false → ∃ t, exec (.certReceive l p) s = .next t ∧ t.lk l = 7 ∧ t.fldReg (rLkStat l) 23 3 = 4 ∧
      t.bitReg (rLkFlags l) 2 = true) ∧
    (∀ h, (s.link l).hello2 = some h → u.certOk l p = true → ∃ t, exec (.certReceive l p) s = .next t ∧
      t.fldReg (rLkPeer l) 0 20 = pktWords h 4 2 % 2 ^ 20 ∧ t.fldReg (rLkPeer l) 30 2 = pktWords h 6 2 / 2 ^ 30 % 4 ∧
      (t.reg (rLkPidHi l) ++ t.reg (rLkPidLo l)).toNat = pktWords h 0 4 ∧ (t.link l).asked = false ∧
      (s.lk l ≠ 3 → t.lk l = s.lk l) ∧ (s.lk l = 3 → s.bitReg (rLkCtl l) 30 = false → t.lk l = 6) ∧
      (s.lk l = 3 → s.bitReg (rLkCtl l) 30 = true →
        ((∀ o, (s.link l).lastPid = some o → o.1.toNat = pktWords h 0 4 ∧ o.2.toNat = pktWords h 4 2 % 2 ^ 20) →
          t.lk l = if (s.link l).full = false ∧ s.stage = 4 then 5 else 4) ∧
        (∀ o, (s.link l).lastPid = some o → o.1.toNat ≠ pktWords h 0 4 ∨ o.2.toNat ≠ pktWords h 4 2 % 2 ^ 20 → t.lk l = 6))) ∧
    (∀ src : Src, InTurn s src → ∃ t, exec (.discoveryRound src) s = .next t ∧ t.chip = s.fldReg rFabSeed 0 12 * 256 + s.fldReg rCfg 0 8 ∧
      (∀ k, t.lk k = s.lk k) ∧ (∀ k, (s.lk k < 4 ∨ s.lk k = 7) → t.link k = s.link k) ∧
      (∀ k < 96, 4 ≤ s.lk k → s.lk k ≤ 6 → (t.link k).hello2 = none ∧ (t.link k).asked = true) ∧ t.cores = s.cores ∧ t.mem = s.mem)) ∧
  (
  ∀ (s : State) (l : Nat) (bytes : List (BitVec 8)), On s → l < 96 → 3 ≤ s.lk l → s.lk l ≤ 6 →
    (∃ t, exec (.flitReceive l bytes .uncorrectable) s = .next t ∧ (t.link l).nakSent = true ∧ (t.link l).rxSeq = (s.link l).rxSeq ∧
      (t.link l).unacked = (s.link l).unacked ∧ (t.link l).txq = (s.link l).txq ∧ t.inbox = s.inbox ∧ t.regs = s.regs ∧
      (∀ k, k ≠ l → t.link k = s.link k) ∧
      ((s.link l).nakSent = true → (t.link l).out = (s.link l).out) ∧
      ((s.link l).nakSent = false → ∃ f, (t.link l).out = (s.link l).out ++ [f] ∧ f.nak = true ∧ f.ft = 1 ∧
        f.ack = (s.link l).rxSeq - 1)) ∧
    (bytes.length = 256 → let h := natOfBytes (bytes.take 12)
      crc32 (bytes.take 252) = BitVec.ofNat 32 (natOfBytes (bytes.drop 252)) → h / 2 ^ 24 % 16 = 0 → h % 2 ^ 12 = (s.link l).rxSeq.toNat →
      ∀ fec : FecEvent, fec ≠ .uncorrectable → ∃ t, exec (.flitReceive l bytes fec) s = .next t ∧ (t.link l).rxSeq = (s.link l).rxSeq + 1 ∧
        (t.link l).nakSent = false ∧ (∃ x, t.inbox = s.inbox ++ x ∧ ∀ r ∈ x, r.link = some l) ∧ t.lk l = s.lk l ∧
        (t.link l).missed = (if (s.link l).unacked = [] ∨ ∃ f ∈ (s.link l).unacked, f.seq.toNat = h / 2 ^ 12 % 2 ^ 12 then 0
          else (s.link l).missed) ∧
        (∀ k, fec = .corrected k → t.fldReg rLinkFec 0 32 = min (s.fldReg rLinkFec 0 32 + k) (2 ^ 32 - 1)) ∧
        t.cores = s.cores ∧ t.mem = s.mem) ∧
    (∀ a k, (s.link l).owed = [(a, k)] → ∃ t, exec (.idleFlit l) s = .next t ∧ look 0 (t.link l).owed a = k - 1023 ∧ t.lk l = s.lk l ∧
      (t.link l).rxSeq = (s.link l).rxSeq ∧ t.inbox = s.inbox ∧ t.cores = s.cores ∧ t.mem = s.mem))

/-- R378, R382 to R386, R388, Tables 13-5, 13-7 and 13-8: a unicast packet for this module stays here, and another goes out on the link its routing
entry gives, with HOP one less, in the order of its class, source and destination; one that has no hop left, or no live candidate, is recorded, and a
request of class 0 is answered UNREACH; a multicast packet goes out on each live link of its entry but the one it came on, and here; one with no hop left
stays here alone, and one without an entry is dropped, and both are recorded; a link-local packet is not routed. -/
def Obligations.RoutingAndMulticast : Prop :=
  ∀ (s : State) (src : Option Nat) (p : Packet), On s →
    let u := s.consume p
    (p.hdr.getLsbD 20 = false → p.class? = some 3 → exec (.packetRoute src p) s = .next s) ∧
    (p.hdr.getLsbD 20 = false → p.class? ≠ some 3 →
      (s.mayLeave p = false → exec (.packetRoute src p) s = .next (s.keep p)) ∧
      (p.dst = s.chip → ∃ t, exec (.packetRoute src p) s = .next t ∧ (∃ r ∈ t.inbox, r.pkt = p) ∧ t.links = s.links ∧ t.cores = s.cores) ∧
      (p.dst ≠ s.chip → p.hop ≠ 0 → s.mayLeave p = true →
        let lane := 2 * p.class?.getD 0 + u.subLane src p
        let e := u.routeEntry p.dst
        ∀ l, u.chooseLink e (u.liveCands e src) p lane = some l → (u.link l).draining = false →
          exec (.packetRoute src p) s = .next (u.enqueue l lane (p.hop - 1) src p)) ∧
      (p.dst ≠ s.chip → s.mayLeave p = true → ∀ k, (p.hop = 0 ∧ k = 2) ∨ (p.hop ≠ 0 ∧ u.liveCands (u.routeEntry p.dst) src = [] ∧ k = 1) →
        let v := u.fabErr k p.dst
        (p.class? ≠ some 0 → exec (.packetRoute src p) s = .next v) ∧
        (p.class? = some 0 → p.src = s.chip → exec (.packetRoute src p) s = .next (v.completeReq p.tag 1 [])) ∧
        (p.class? = some 0 → p.src ≠ s.chip → exec (.packetRoute src p) s = .next (v.originate (answerSpec p 1 []))))) ∧
    (p.hdr.getLsbD 20 = true → s.mayLeave p = true → (s.mcEntry p.mcg).attr.getLsbD 31 = false ∨ (s.mcEntry p.mcg).mark = true →
      exec (.multicastForward src p) s = .next ((s.consumeAs p false).fabErr 3 p.mcg)) ∧
    (p.hdr.getLsbD 20 = true → p.hop = 0 → s.mayLeave p = true → (s.mcEntry p.mcg).attr.getLsbD 31 = true → (s.mcEntry p.mcg).mark = false →
      (∃ l < 96, (s.mcEntry p.mcg).links.getLsbD l = true ∧ some l ≠ src) →
      let rx := s.inbox.find? (fun r => r.pkt == p && !r.copy)
      let v : State := if (s.mcEntry p.mcg).attr.getLsbD 30 then { s with inbox := rx.elim s.inbox s.inbox.erase } else s.consumeAs p false
      let t := v.fabErr 2 p.mcg
      exec (.multicastForward src p) s = .next (if (s.mcEntry p.mcg).attr.getLsbD 30 then
        { t with inbox := t.inbox ++ [{ link := rx.bind (fun r => r.link), lane := rx.elim (2 * p.class?.getD 0 + p.subl) (fun r => r.lane),
                                        pkt := p, copy := true }] } else t)) ∧
    (p.hdr.getLsbD 20 = true → p.hop ≠ 0 → s.mayLeave p = true →
      let rx := s.inbox.find? (fun r => r.pkt == p && !r.copy)
      let here := (s.mcEntry p.mcg).attr.getLsbD 30
      let v := if here then { s with inbox := rx.elim s.inbox s.inbox.erase } else s.consumeAs p false
      (v.mcEntry p.mcg).attr.getLsbD 31 = true → (v.mcEntry p.mcg).mark = false →
      let out := (List.range 96).filter (fun l => (v.mcEntry p.mcg).links.getLsbD l && decide (some l ≠ src))
      (∀ l ∈ out, (s.lk l = 4 ∨ s.lk l = 5) ∧ (s.link l).draining = false) →
      let t := out.foldl (fun (t : State) l => t.enqueue l (4 + v.subLane src p) (p.hop - 1) src p) v
      exec (.multicastForward src p) s = .next (if here then
        { t with inbox := t.inbox ++ [{ link := rx.bind (fun r => r.link), lane := rx.elim (2 * p.class?.getD 0 + p.subl) (fun r => r.lane),
                                        pkt := p, copy := true }] } else t))

/-- R379 to R381, R391, R392, Tables 13-6 and 13-7: what this module does for the requests of others where the job tables are off, and what
the answers to its own do: the tag frees, and the block or the core that waits takes the words or the failure. That a request carries at
most 128 words, the FADDR of a refused doorbell and the OP of a refused Comb operation, and FADDR 0 of a failed semaphore operation, are the model's
choice (assumption logs 79 and 105). -/
def Obligations.RequestsAndAnswers : Prop :=
  ∀ (s : State) (p : Packet), On s →
    let u := s.consume p
    let n := min 128 (fld p.tsf 0 8)
    (Open s p.addr n → let v := s.touchAll (addrs p.addr n)
      exec (.rdRequest p) s = .next ((v.consume p).originate (answerSpec p 0 (v.readRun p.addr n)))) ∧
    (s.bitReg rJrootLo 0 = false → (addrs p.addr n).all s.jobReach = false → exec (.rdRequest p) s =
      .next (u.originate (answerSpec p 4 []))) ∧
    (Open s p.addr n → p.addr + n ≤ 2 ^ 44 →
      let ws := (List.range n).map (fun i => (p.addr + i, p.data.getD i 0, p.pmask.getLsbD (i / 8)))
      exec (.wrRequest p) s = .next (((s.writeMarked ws).consume p).originate (answerSpec p 0 []))) ∧
    (p.tsf.getLsbD 32 = true → fld p.tsf 0 8 < 192 → exec (.dbPacket p) s = .next
      ((u.modCore (fld p.tsf 0 8) (fun c => { c with ipend := c.ipend ||| 2 })).originate (answerSpec p 0 []))) ∧
    (p.tsf.getLsbD 32 = false → exec (.dbPacket p) s = .next
      ((u.queueDoorbell (p.tsf.truncate 32)).originate (answerSpec p 0 []))) ∧
    (∀ r, s.requests.find? (fun r => r.tag == p.tag) = some r →
      let rest := s.requests.filter (fun q => q.tag ≠ p.tag)
      (∀ k fa, r.owner = .posted k fa →
        (p.stat = 0 → exec (.fabricAnswer p) s = .next (State.sendWaiting { u with requests := rest })) ∧
        (p.stat ≠ 0 → exec (.fabricAnswer p) s = .next (State.sendWaiting (State.modCore { u with requests := rest } k (fun c =>
          { c with deferred := c.deferred ++ [{ cause := statCause p.stat, faddr := if p.stat = 5 ∨ p.stat = 6 then 0 else fa,
                                                op := 3, susp := none }] })))) ∧
        exec (.requestTimeout p.tag) s = .next (State.modCore
          { s with requests := s.requests.map (fun q => if q.tag = p.tag then { q with owner := .gone } else q) } k (fun c =>
          { c with deferred := c.deferred ++ [{ cause := .busError, faddr := fa, op := 3, susp := none }] }))) ∧
      (r.owner = .gone → exec (.fabricAnswer p) s = .next (State.sendWaiting { u with requests := rest })) ∧
      (∀ k id, r.owner = .block k id → s.unsent = [] → ∃ t, exec (.fabricAnswer p) s = .next t ∧ t.requests = rest ∧ SameCores s t [k] ∧
        ∀ b ∈ (s.core k).blocks, b.id = id → ∃ b' ∈ (t.core k).blocks, b'.id = id ∧ b'.tags = b.tags.filter (fun x => x ≠ p.tag) ∧
          b'.got = b.got ++ (List.range (min r.len p.data.length)).map (fun i => (r.off + i, p.data.getD i 0, p.pmask.getLsbD (i / 8))) ∧
          b'.fail = (if p.stat = 0 ∨ b.fail.isSome then b.fail else some (statCause p.stat, r.addr)))) ∧
    (∀ (src : Src) (k : Nat) (w : BitVec 32), InTurn s src → k < 192 → s.unsent ≠ [] ∨ s.freeTag = none →
      let fa := BitVec.ofNat 64 (mmioBase + (0x7804 + 8 * k) / 2)
      let q := reqSpec (s.fldReg (rRdbd k) 0 20) 7 0 (BitVec.ofNat 64 (s.fldReg (rRdbd k) 20 1 * 2 ^ 32 + w.toNat)) []
      exec (.remoteDoorbellStore src k w) s = .next { s with unsent := s.unsent ++ [{ owner := .posted k fa, addr := fa, spec := q }] }) ∧
    (∀ (src : Src) (k : Nat) (w : BitVec 32) (g : Nat), InTurn s src → k < 192 → s.chip ≠ 0 → s.unsent = [] → s.freeTag = some g →
      let fa := BitVec.ofNat 64 (mmioBase + (0x7804 + 8 * k) / 2)
      exec (.remoteDoorbellStore src k w) s = .next (State.route { s with
          nextTag := (g + 1) % 40960
          requests := s.requests ++ [{ tag := BitVec.ofNat 17 g, owner := .posted k fa, addr := fa, off := 0, len := 0 }]
        } none (mkPacket s.chip s.hops { reqSpec (s.fldReg (rRdbd k) 0 20) 7 0
          (BitVec.ofNat 64 (s.fldReg (rRdbd k) 20 1 * 2 ^ 32 + w.toNat)) [] with tag := g })))

/-- R62, R394: a module that offers its image sends it to a neighbour that asks; the words received go to the staging area, and after the
last the image is verified; a transfer that fails moves on to the next link that offers one, and a retry begins at the first again. -/
def Obligations.ImageService : Prop :=
  ∀ (s : State) (l : Nat) (p : Packet), On s →
    let u := s.consume p
    (l < 96 → 3 ≤ s.lk l → s.lk l ≤ 6 → s.flyDown = false → s.stage = 4 → s.bitReg rFabCtl 30 = true → ∀ b, s.running = some b →
      exec (.imgqReceive l p) s = .next ((imageSpecs (s.imageWords b)).foldl (fun (s : State) k => s.sendLocal l k) u)) ∧
    (s.imgLink = some l → s.fldReg rStrap 8 2 = 2 → s.stage = 2 → let off := fld p.tsf 0 24
      let v := u.writeRun (stagingBase + off) (p.data.take (16777216 - off))
      let k := v.stagingRead.stagingStatus.1
      (p.tsf.getLsbD 63 = false → exec (.imgdReceive l p) s = .next v) ∧
      (p.tsf.getLsbD 63 = true → k = 0 → ∃ t, exec (.imgdReceive l p) s = .next t ∧ t.stage = 3 ∧ t.bitReg rSvc 18 = true ∧
        t.fldReg rSvc 24 4 = 3 ∧ t.running = none) ∧
      (p.tsf.getLsbD 63 = true → k ≠ 0 → ∃ t, exec (.imgdReceive l p) s = .next t ∧ t.stage = 2 ∧ l ∈ t.imgTried ∧
        t.imgLink ≠ some l)) ∧
    (s.imgLink = some l → ∃ t, exec .imageTransferTimeout s = .next t ∧ l ∈ t.imgTried ∧ t.imgLink ≠ some l ∧ t.mem = s.mem) ∧
    (s.imgLink = none → ∃ t, exec .imageRetry s = .next t ∧ t.imgTried = [] ∧ t.mem = s.mem ∧
      t.imgLink = if s.fldReg rStrap 8 2 = 2 ∧ s.stage = 2 then (List.range 96).find? s.offers else none)

/-! ## Reduction and expert dispatch -/

/-- R398 to R402, R360, Table 14-1: opening and closing a job, and writing its entry: a mode word of the staged copy at any time and of the
live one while its context is not enabled (while it is, the job and its modes are left undefined, whatever is written), the sticky flags by writing
ones, a fixed field while the job is closed. That a mode word takes what is written also where RANK lies above NMODM1, which is reserved, and what an
undefined mode state takes in are the model's choice (assumption logs 13 and 64). -/
def Obligations.ReductionJobs : Prop :=
  ∀ (s : State) (src : Src) (pg : Fin 2), On s → InTurn s src →
    (∀ idx : BitVec 11, let j := 2048 * pg.val + idx.toNat
      let q := s.job j
      (s.stage = 4 → q.ntile * q.leavesPer ≤ 65536 → ∃ t, exec (.jcmdOpen src pg idx) s = .next t ∧ (t.job j).open_ = true ∧
        (t.job j).nodes = [] ∧ (t.job j).held = [] ∧ (t.job j).dlv = [] ∧ (t.job j).nodePar = [] ∧ (t.job j).dlvPar = [] ∧
        (∀ i, i ≠ 4 → (t.job j).je i = q.je i) ∧ (∀ k, k ≠ j → t.job k = s.job k) ∧ t.cores = s.cores ∧ t.mem = s.mem) ∧
      (s.stage ≠ 4 → exec (.jcmdOpen src pg idx) s = .next (s.jobErr j 1)) ∧
      (s.stage = 4 → 65536 < q.ntile * q.leavesPer → exec (.jcmdOpen src pg idx) s = .next (s.jobErr j 4)) ∧
      (∃ t : State, exec (.jcmdClose src pg idx) s = .next t.retryPug ∧ (Quiet s → t.retryPug = t) ∧ (t.job j).open_ = false ∧
        (t.job j).nodes = [] ∧ (t.job j).held = [] ∧
        (∀ i, i ≠ 4 → (t.job j).je i = q.je i) ∧ (∀ k, k ≠ j → t.job k = s.job k) ∧ t.cores = s.cores ∧ t.mem = s.mem)) ∧
    (∀ (i : Fin 14) (w : BitVec 32), let j := 2048 * pg.val + s.fldReg (rJsel pg.val) 0 11
      let q := s.job j
      (∀ e ∈ [(0, 0xFF000000), (1, 0x1FFFF), (2, 0x1FFFF), (3, 0xFFFF)], i.val = e.1 →
        (s.bitReg (rJsel pg.val) 31 = true → ∃ t, exec (.jeWrite src pg i w) s = .next t ∧ look 0 (t.job j).staged i.val = w &&& e.2 ∧
          (t.job j).live = q.live ∧ (t.job j).fixed = q.fixed) ∧
        (s.bitReg (rJsel pg.val) 31 = false → s.bEn q.ctx = false → ∃ t, exec (.jeWrite src pg i w) s = .next t ∧
          (t.job j).je i.val = w &&& e.2 ∧ (t.job j).staged = q.staged ∧ (t.job j).fixed = q.fixed)) ∧
      (∀ e ∈ [(5, 0xFFFFFFFF), (6, 0xFFFFFFFE), (7, 0xFFF), (8, 0xFFFFF800), (9, 0xFFF), (10, 0xFFFFF800), (11, 0xFFF), (12, 0x3F)],
        i.val = e.1 →
        (q.open_ = false → ∃ t, exec (.jeWrite src pg i w) s = .next t ∧ (t.job j).je i.val = w &&& e.2 ∧ (t.job j).live = q.live) ∧
        (q.open_ = true → exec (.jeWrite src pg i w) s = .next (s.jobErr j 2))) ∧
      (i = 4 → (q.open_ = true → exec (.jeWrite src pg i w) s = .next (s.jobErr j 2)) ∧
        (q.open_ = false → ∃ t, exec (.jeWrite src pg i w) s = .next t ∧ (t.job j).open_ = false ∧ (t.job j).fcore = fld w 21 8 ∧
          fld ((t.job j).je 4) 0 17 = fld w 0 17 ∧ (fld w 29 2 ≠ 3 → (t.job j).dmode = fld w 29 2) ∧ (t.job j).live = q.live ∧
          ∀ k, k ≠ 4 → (t.job j).je k = q.je k)) ∧
      (i.val < 4 → s.bitReg (rJsel pg.val) 31 = false → s.bEn q.ctx = true →
        ∃ t, (∀ x : BitVec 32, exec (.jeWrite src pg i x) s = .next t) ∧ (t.job j).und = true ∧ (t.job j).nodes = [] ∧
          (t.job j).staged = q.staged ∧ (t.job j).fixed = q.fixed ∧ (∀ k, k ≠ j → t.job k = s.job k) ∧ t.cores = s.cores ∧ t.mem = s.mem) ∧
      (i = 13 → ∃ t, exec (.jeWrite src pg i w) s = .next t ∧ (t.job j).je 13 = q.je 13 &&& ~~~(w &&& 0xF0000000) ∧
        (t.job j).live = q.live ∧ ∀ k, k ≠ 13 → (t.job j).je k = q.je k))

/-- R414, R416, R418 to R423, Tables 14-1 and 14-5: what an open job does with a packet: one of a later epoch is staged, a child's packet
enters its node, marked where its checksum fails, a result is written to memory; and what a delivered tile and an expired window do. That the delivery parity
also inverts after a result that could not be written is the model's choice (assumption log 63). -/
def Obligations.ReductionPackets : Prop :=
  (∀ (s : State) (p : Packet), On s → s.pugTurn p = true → let j := p.rJob
    let q := s.job j
    (∀ c, (c = Instr.rsumReceive p ∧ p.type = 0x10) ∨ (c = .rresReceive p ∧ p.type = 0x11) →
      (q.open_ = false → exec c s = .next ((s.jobErr j 3).consume p)) ∧
      (q.open_ = true → 0x7FFF < s.epochDiff q.ctx p → exec c s = .next ((s.jobErr j 8).consume p)) ∧
      (q.open_ = true → 0 < s.epochDiff q.ctx p → s.epochDiff q.ctx p ≤ 0x7FFF → s.stageRoom (j / 2048) q.held p = true →
        exec c s = .next ((s.modJob j (fun q => { q with held := q.held ++ [p] })).consume p))) ∧
    (q.open_ = true → s.epochDiff q.ctx p = 0 → Quiet s →
      (∀ lo n, p.type = 0x10 → rightParent 64 0 q.leaves p.rNode = some (lo, n) → lo / q.leavesPer = q.rank →
        p.rRp = look false q.nodePar (nodeKey lo n p.rTile) → s.slotsOf (j / 2048) < 2048 →
        ∃ t x, exec (.rsumReceive p) s = .next t ∧ (t.job j).nodes = [x] ∧ x.lo = lo ∧ x.size = n ∧ x.tile = p.rTile ∧
          x.left.pkts = [] ∧ x.right.pkts = [(p.rPkt, if wireCsum q.wire (Packet.codes p) == p.tsf then p else Packet.failed p)] ∧
          t.cores = s.cores ∧ t.mem = s.mem) ∧
      (p.type = 0x11 → p.rRp = look false q.dlvPar p.rTile → (look 0 q.dlv p.rTile).getLsbD p.rPkt = false → q.dmode ≠ 3 → q.und = false →
        s.bitReg rJrootLo 0 = false → s.snoop = [] → (s.resultWords q p).all (fun e => s.jobReach e.1) = true →
        ∃ t, exec (.rresReceive p) s = .next t ∧ look 0 (t.job j).dlv p.rTile = look 0 q.dlv p.rTile ||| BitVec.ofNat 32 (2 ^ p.rPkt) ∧
          (∀ e ∈ s.resultWords q p, t.word e.1 = e.2.1) ∧ (t.job j).nodes = [] ∧ t.cores = s.cores ∧
          (look false (t.job j).dlvNf p.rTile = (look false q.dlvNf p.rTile || p.rNf)) ∧
          (wireCsum q.wire (Packet.codes p) ≠ p.tsf → look false (t.job j).dlvCf p.rTile = true)))) ∧
  (∀ (s : State) (j k : Nat), On s → let q := s.job j
    (q.open_ = true → look 0 q.dlv k = BitVec.allOnes 32 → Quiet s →
      ∃ t, exec (.resultDelivered j k) s = .next t ∧ look 0 (t.job j).dlv k = 0 ∧ look false (t.job j).dlvPar k = !look false q.dlvPar k ∧
        (look false q.dlvNf k = true → ((t.job j).je 13).getLsbD 31 = true ∧ (q.lst = true → t.bitReg rLsCur 15 = true)) ∧
        (look false q.dlvCf k = true → ((t.job j).je 13).getLsbD 30 = true ∧ (q.lst = true → t.bitReg rSctl 29 = true) ∧
          (q.fcore < 192 → ∃ d ∈ (t.core q.fcore).deferred, d.cause = .reduceCsum ∧ localOf d.faddr = q.resultAddr k % 2 ^ 44)) ∧
        (look false q.dlvBad k = false → (s.sem q.rsem).mark = false → (s.sem q.rsem).count.toNat < 0x7FFFFFFF →
          t.sem q.rsem = (Sem.serve { s.sem q.rsem with count := (s.sem q.rsem).count + 1 }).1) ∧ t.mem = s.mem) ∧
    (∀ (lo : Nat) (x : Node), q.nodes.find? (fun x => x.lo == lo && x.tile == k && !x.ready && !x.tout) = some x →
      ∃ t, exec (.participantTimeout j lo k) s = .next t ∧ ((t.job j).je 13).getLsbD 29 = true ∧ { x with tout := true } ∈ (t.job j).nodes ∧
        t.cores = s.cores ∧ t.mem = s.mem))

/-- R427 to R431, Tables 14-6 and 14-8: a Swarm entry: its enable and registers; a SEND of one token with one choice, which writes STATUS and
sends the row's packets and then the count; a RETURN of one row; and what a row, a count and a returned row do here. That an enable before Glaze is
refused, that a SEND that sends no part of a row signals SSEM at once, and that a command that meets a held word waits whole, are the model's choice
(assumption logs 65 and 124). -/
def Obligations.ExpertDispatch : Prop :=
  (∀ (s : State) (src : Src) (pg : Fin 2), On s → InTurn s src → let e := 64 * pg.val + s.fldReg (rXsel pg.val) 0 6
    let q := s.swarm e
    (s.stage ≠ 4 → exec (.xgoEnable src pg) s = .next (s.swarmErr e 1)) ∧
    (s.stage = 4 → ∃ t, exec (.xgoEnable src pg) s = .next t ∧ (t.swarm e).en = true ∧ (t.swarm e).x 15 = 0 ∧ (t.swarm e).rows = [] ∧
      (t.swarm e).cnts = [] ∧ (t.swarm e).held = [] ∧ (t.swarm e).work = [] ∧ (∀ i, 0 < i → i < 15 → (t.swarm e).x i = q.x i) ∧
      ∀ k, k ≠ e → t.swarm k = s.swarm k) ∧
    (∃ t, exec (.xgoDisable src pg) s = .next t ∧ (t.swarm e).en = false ∧ (t.swarm e).rows = [] ∧ (t.swarm e).held = [] ∧
      (t.swarm e).work = [] ∧ (∀ i, 0 < i → (t.swarm e).x i = q.x i) ∧ ∀ k, k ≠ e → t.swarm k = s.swarm k) ∧
    (∀ (i : Fin 16) (w : BitVec 32), (q.en = true → exec (.xeWrite src pg i w) s = .next (s.swarmErr e 2)) ∧
      ∀ m ∈ [(0, 0x7FC1FFFF), (1, 0x1FFFF), (2, 0xFFFFFFFF), (3, 0xFFFFFFFF), (4, 0x0FFFFFFF), (5, 0xFFFFFFFE), (6, 0xFFF), (7, 0xFFFFF800),
          (8, 0xFFF), (9, 0xFFFFFFF0), (10, 0xFFF), (11, 0xFFFFF800), (12, 0xFFF), (13, 0xFFFFFFF0), (14, 0xFFF)],
        i.val = m.1 → q.en = false → (m.1 = 4 → fld w 0 16 ≤ 4096) → ∃ t, exec (.xeWrite src pg i w) s = .next t ∧ (t.swarm e).x i.val = w &&& m.2 ∧
          ∀ k, k ≠ i.val → (t.swarm e).x k = q.x k) ∧
    (q.en = false → ∀ n, exec (.xgoSend src pg n) s = .next (s.swarmErr e 3) ∧ exec (.xgoReturn src pg) s = .next (s.swarmErr e 3)) ∧
    (q.en = true → q.work = [] → s.latent = [] → s.psn = [] →
      (q.k = 1 → q.nexp = 1 → 0 < q.qr → Open s q.emap 2 → Open s q.list 16 → (q.emap + 2 ≤ q.list ∨ q.list + 16 ≤ q.emap) →
        let a : W64 := BitVec.ofNat 64 (natOfWords (s.words q.list 4))
        s.isHere a = true → Open s (localOf a) q.rlen → s.word (q.list + 4) = 0 →
        let m := natOfWords (s.words q.emap 2)
        let out := rowSpecs 0x18 (m % 2 ^ 20) (s.bEpoch q.ctx) 0 0 (m / 2 ^ 20) e q.rank 0 (s.readRun (localOf a) q.rlen) ++
          [swarmSpec 0x19 (m % 2 ^ 20) (s.bEpoch q.ctx) 0 0 (m / 2 ^ 20) e q.rank 1 0 []]
        let v := (s.writeRun (q.list + 12) [0, 0]).modSwarm e (fun q =>
          { q with pendRet := q.pendRet + q.parts, xe := put 0 q.xe 15 (q.x 15), work := [] })
        exec (.xgoSend src pg 1) s = .next (out.foldl (fun (s : State) k => s.originate k)
          (if q.rlen = 0 then v.semSignal q.ssem 1 else v))) ∧
      (q.nloc = 1 → q.nsrc = 1 → Open s q.rxb q.rlen → Open s q.tgb 4 → Open s (q.cntAddr 0 0) 2 → natOfWords (s.words (q.cntAddr 0 0) 2) = 1 →
        let m := natOfWords (s.words q.tgb 4)
        exec (.xgoReturn src pg) s = .next ((rowSpecs 0x1A (m % 2 ^ 20) (s.bEpoch q.ctx) (m / 2 ^ 20 % 2 ^ 24) (m / 2 ^ 44 % 8) 0 e 0 0
          (s.readRun q.rxb q.rlen)).foldl (fun (s : State) k => s.originate k) (s.modSwarm e (fun q => { q with work := [] })))))) ∧
  (∀ (s : State) (p : Packet), On s → let e := p.xEnt
    let q := s.swarm e
    q.en = true → s.epochDiff q.ctx p = 0 → s.pugTurn p = true → s.bitReg rJrootLo 0 = false → s.snoop = [] →
    let ws := runMarked (128 * p.xPart) (p.marked (q.partLen p.xPart))
    let slot := q.slot p.xEx p.xRank p.xRow
    let tagAt := q.tgb + 4 * slot
    (p.type = 0x18 → q.cnts = [] → 0 < q.nloc * q.nsrc →
      (∀ w ∈ ws, s.jobReach (q.rxb + slot * q.rlen + w.1) = true ∧ (q.rxb + slot * q.rlen + w.1 < tagAt ∨ tagAt + 4 ≤ q.rxb + slot * q.rlen + w.1)) →
      (addrs tagAt 4).all s.jobReach = true →
      ∃ t, exec (.xrowReceive p) s = .next t ∧ (∀ w ∈ ws, t.word (q.rxb + slot * q.rlen + w.1) = w.2.1) ∧
        natOfWords (t.words tagAt 4) = p.src + p.xTok * 2 ^ 20 + p.xChoice * 2 ^ 44 ∧
        look 0 (t.swarm e).rows (q.pair p.xEx p.xRank) = look 0 q.rows (q.pair p.xEx p.xRank) + 1) ∧
    (p.type = 0x19 → (addrs (q.cntAddr p.xEx p.xRank) 2).all s.jobReach = true →
      ∃ t, exec (.xcntReceive p) s = .next t ∧ natOfWords (t.words (q.cntAddr p.xEx p.xRank) 2) = p.xRow) ∧
    (p.type = 0x1A → (∀ w ∈ ws, s.jobReach (q.retb + (p.xTok * q.k + p.xChoice) * q.rlen + w.1) = true) →
      ∃ t, exec (.xretReceive p) s = .next t ∧ (∀ w ∈ ws, t.word (q.retb + (p.xTok * q.k + p.xChoice) * q.rlen + w.1) = w.2.1) ∧
        (t.swarm e).pendRet = q.pendRet - 1 ∧ (q.pendRet = 1 → (s.sem q.ssem).mark = false → (s.sem q.ssem).count.toNat < 0x7FFFFFFF →
          t.sem q.ssem = (Sem.serve { s.sem q.ssem with count := (s.sem q.ssem).count + 1 }).1)))

/-! ## Snapshots, steps, scales -/

/-- R305, R309 to R312, Tables 10-7 to 10-10: page copies, the snapshot and step commands, and the registers of the Mould's tables. -/
def Obligations.SnapshotsAndSteps : Prop :=
  ∀ (s : State) (src : Src), On s → InTurn s src → Src.user src = false →
    (∀ leaf : BitVec 44, let a := leaf.toNat
      (s.waitsOn a = none → exec (.snapshotFirstTouch leaf) s = .next s ∧ exec (.shadowFirstTouch leaf) s = .next s) ∧
      (∀ e, s.waitsOn a = some e → s.copies.all (fun c => c.leaf != a) = true → s.copies.length < 8 →
        (entSm e = false → exec (.snapshotFirstTouch leaf) s =
          .next { s with copies := s.copies ++ [{ leaf := a, shadow := false, src := entPa e, dst := entAux e, entry := e }] }) ∧
        (entSm e = true → s.bitReg rStep 29 = true → exec (.shadowFirstTouch leaf) s = .next s) ∧
        (entSm e = true → s.bitReg rStep 29 = false → s.slogRoom = true → exec (.shadowFirstTouch leaf) s =
          .next { s with copies := s.copies ++ [{ leaf := a, shadow := true, src := entPa e, dst := entAux e, entry := e }] }) ∧
        (entSm e = true → s.bitReg rStep 29 = false → s.slogRoom = false → exec (.shadowFirstTouch leaf) s = .next (s.err .mould 3))) ∧
      (∀ c, s.copies.find? (fun c => c.leaf == a) = some c → s.snoop = [] → c.shadow = false → (a + 8 ≤ c.dst ∨ c.dst + 65536 ≤ a) →
        s.entryAt a ≠ c.entry → ∃ t : State, exec (.pageCopyComplete leaf) s = .next t.retryPug ∧
          (∀ i < 65536, t.word (c.dst + i) = s.word (c.src + i)) ∧ t.entryAt a = s.entryAt a ∧ t.copies = s.copies.filter (fun x => x.leaf ≠ a)) ∧
      (∀ c, s.copies.find? (fun c => c.leaf == a) = some c → s.snoop = [] → c.shadow = false → (a + 8 ≤ c.dst ∨ c.dst + 65536 ≤ a) →
        s.entryAt a = c.entry → ∃ t : State, exec (.pageCopyComplete leaf) s = .next t.retryPug ∧ (Quiet s → t.retryPug = t) ∧
          (∀ i < 65536, t.word (c.dst + i) = s.word (c.src + i)) ∧
          entSgen (t.entryAt a) = s.fldReg rSnap 0 16 ∧ entPa (t.entryAt a) = entPa (s.entryAt a) ∧ t.copies = s.copies.filter (fun x => x.leaf ≠ a) ∧
          (∀ n, ∀ x ∈ (t.core n).tlb, x.leaf ≠ a) ∧ ∀ x ∈ t.jtlb, x.leaf ≠ a)) ∧
    (s.bitReg rSnap 30 = true → exec (.mouldTake src) s = .next (s.err .mould 1)) ∧
    (s.bitReg rSnap 30 = false → s.bitReg rDrecLo 0 = false → s.drecWait = none → ∃ t, exec (.mouldTake src) s = .next t ∧
      t.bitReg rSnap 30 = s.bitReg rJrootLo 0 ∧
      t.fldReg rSnap 0 16 = (s.fldReg rSnap 0 16 + 1) % 65536 ∧ t.mem = s.mem ∧ t.cores = s.cores) ∧
    (s.bitReg rSnap 30 = true → s.copies.all (fun c => c.shadow) = true → s.bitReg rJrootLo 0 = false → s.drecWait = none →
      ∃ t : State, exec .snapSweepEnd s = .next t.retryPug ∧ (Quiet s → t.retryPug = t) ∧
      t.bitReg rSnap 30 = false ∧ t.fldReg rSnap 0 16 = s.fldReg rSnap 0 16 ∧ t.mem = s.mem ∧ t.cores = s.cores) ∧
    (∀ c b, (c = Instr.stepCommit src ∧ b = true) ∨ (c = .stepRollback src ∧ b = false) →
      (s.bitReg rStep 29 = true → exec c s = .next (s.err .mould 2)) ∧
      (s.bitReg rStep 29 = false → ∃ t, exec c s = .next t ∧ t.bitReg rStep 29 = true ∧ t.stepCmd = some b ∧ t.slogCnt = s.slogCnt ∧
        t.mem = s.mem ∧ t.cores = s.cores)) ∧
    (∀ b, s.stepCmd = some b → s.resolving = [] → s.snoop = [] → s.latent = [] → s.slogCnt = 1 → s.anyMark s.slogBase 4 = false →
      let leaf := natOfWords (s.words s.slogBase 4)
      let e := s.entryAt leaf
      ∃ t : State, exec .stepCmdEnd s = .next t.retryPug ∧ (Quiet s → t.retryPug = t) ∧
        t.bitReg rStep 29 = false ∧ t.bitReg rStep 28 = false ∧ t.slogCnt = 0 ∧ t.stepCmd = none ∧
        entT (t.entryAt leaf) = false ∧ entPa (t.entryAt leaf) = (if b then entAux e else entPa e) ∧
        entAux (t.entryAt leaf) = (if b then entPa e else entAux e) ∧ ∀ n, ∀ x ∈ (t.core n).tlb, x.leaf ≠ leaf) ∧
    (∀ w : BitVec 32, (s.slogCnt ≠ 0 → ∀ h, exec (.slogWrite src h w) s = .next (s.err .mould 6)) ∧
      (s.slogCnt = 0 → exec (.slogWrite src true w) s = .next (s.setReg rSlogHi (w &&& 0xFFF)) ∧
        (fld w 0 5 ≤ 24 → exec (.slogWrite src false w) s = .next (s.setReg rSlogLo (w &&& 0xFFFFE01F)))) ∧
      (∀ n < 192, exec (.xrootHiWrite src n w) s = .next (s.setReg (rXrootHi n) (w &&& 0xFFF)) ∧
        exec (.xrootLoWrite src n w) s = .next ((s.setReg (rXrootLo n) (w &&& 0xFFFFE001)).modCore n (fun c =>
          { c with rootUse := (s.reg (rXrootHi n)).truncate 12, tlb := [], runAhead := [] }))) ∧
      exec (.jrootHiWrite src w) s = .next (s.setReg rJrootHi (w &&& 0xFFF)) ∧
      exec (.jrootLoWrite src w) s = .next { s.setReg rJrootLo (w &&& 0xFFFFE001) with jrootUse := (s.reg rJrootHi).truncate 12, jtlb := [] })

/-- R211, R212, R215, R437, R440, R441, R448, Tables 7-7, 7-12 and 15-8: scale entries, the loss scale, a step resolved by hand, and restore. -/
def Obligations.ScalesStepsAndRestore : Prop :=
  ∀ (s : State) (src : Src), On s → InTurn s src → Src.user src = false →
    (∀ e ∈ [(Instr.srsvCommit src, 1), (.srsvSkip src, 2), (.srsvRefused src, 3), (.srsvAbandoned src, 4)],
      (s.resolveWaits = true → ∃ r, exec e.1 s = .next (s.awaitResolve r) ∧ r.ctx = none ∧ r.op = e.2) ∧
      (s.bitReg rStep 29 = false → s.resolving = [] → s.bitReg rJctxLo 0 = false → ∃ t, exec e.1 s = .next t ∧ t.bitReg rStep 29 = true ∧
        t.stepCmd = some (decide (e.2 = 1)) ∧ t.fldReg rSlast 29 3 = e.2 ∧ t.bitReg rSlast 28 = s.bitReg rLsCur 15 ∧
        t.bitReg rSlast 27 = s.bitReg rStep 28 ∧ t.bitReg rSlast 26 = s.bitReg rSctl 29 ∧ t.bitReg rSlast 25 = s.bitReg rSctl 30 ∧
        t.reg rStepn = (if e.2 ≤ 2 then s.reg rStepn + 1 else s.reg rStepn) ∧ t.bitReg rLsCur 15 = false ∧
        t.bitReg rSctl 30 = false ∧ t.bitReg rSctl 29 = false ∧ t.mem = s.mem ∧ t.cores = s.cores)) ∧
    (s.bitReg rRcmd 30 = false → let u := s.restoreRead
      let held := s.restoreReads && s.biHeld s.restoreLines
      (s.latent = [] → u = s) ∧ (s.snoop = [] → held = false) ∧
      (held = true → ∃ t, exec (.restoreGo src) s = .next t ∧ t.bitReg rRcmd 30 = true ∧ t.restWait = true ∧ t.mem = s.mem ∧ t.cores = s.cores ∧
        SameRegs s t [rRcmd]) ∧
      (∀ k, held = false → u.restoreCheck = .error k → exec (.restoreGo src) s = .next (u.setFldReg rRcmd 20 4 k)) ∧
      (∀ rr dr, held = false → u.restoreCheck = .ok (rr, dr) → ∃ t, exec (.restoreGo src) s = .next t ∧ t.bitReg rRcmd 30 = true ∧
        t.reg rStepn = rec32 rr 2 ∧ t.fldReg rSlast 29 3 = 0 ∧ t.reg rLsPol = rec32 dr 4 &&& 0xBF3FFFFF ∧
        t.reg rLsCur = rec32 dr 6 &&& 0xFFFF003F ∧ t.reg rLsSkip = rec32 dr 8 ∧ t.reg rLsPolStg = rec32 dr 10 &&& 0xBF3FFFFF ∧
        t.reg rLsCurStg = rec32 dr 12 &&& 0x3F ∧
        (∀ n < 192, ∀ e < 64, let o := 64 + 1280 * n + 20 * e
          t.reg (rScCtl n e) = rec32 dr o &&& 0xCFFF00FF ∧ t.reg (rScAmax n e) = rec32 dr (o + 2) ∧
          ∀ k < 8, t.reg (rScHist n e k) = rec32 dr (o + 4 + 2 * k)))) ∧
    (s.bitReg rRcmd 30 = true → exec (.restoreGo src) s = .next s ∧ (s.restWait = false → ∃ t,
      exec .restoreComplete s = .next t ∧ t.bitReg rRcmd 30 = false ∧ t.fldReg rRcmd 20 4 = 0 ∧ SameRegs s t [rRcmd] ∧ t.mem = s.mem ∧ t.cores = s.cores)) ∧
    (∀ w : BitVec 32, ∃ t, exec (.sctlWrite src w) s = .next t ∧ t.bitReg rSctl 30 = w.getLsbD 30 ∧ t.bitReg rSctl 29 = s.bitReg rSctl 29 ∧
      (if s.bitReg rSctl 31 && s.bEn (s.fldReg rSctl 0 6) then t.bitReg rSctl 31 = true ∧ t.fldReg rSctl 0 6 = s.fldReg rSctl 0 6
       else t.bitReg rSctl 31 = w.getLsbD 31 ∧ t.fldReg rSctl 0 6 = fld w 0 6) ∧ SameRegs s t [rSctl]) ∧
    (∀ w : BitVec 32, exec (.stepnWrite src w) s = .next (if s.bitReg rSctl 31 then s else s.setReg rStepn w)) ∧
    (∀ (n : Nat) (hi : Bool) (w : BitVec 32), n < 192 → ∃ t, exec (.scaleRoll src n hi w) s = .next t ∧
      ∀ i < 32, let e := i + (if hi then 32 else 0)
        (w.getLsbD i = true → t.reg (rScAmax n e) = 0 ∧ t.reg (rScHist n e 0) = s.reg (rScAmax n e) ∧
          (∀ k < 7, t.reg (rScHist n e (k + 1)) = s.reg (rScHist n e k)) ∧
          (s.bitReg (rScCtl n e) 23 = false → t.reg (rScCtl n e) = s.reg (rScCtl n e))) ∧
        (w.getLsbD i = false → t.reg (rScAmax n e) = s.reg (rScAmax n e) ∧ t.reg (rScCtl n e) = s.reg (rScCtl n e) ∧
          ∀ k < 8, t.reg (rScHist n e k) = s.reg (rScHist n e k))) ∧
    (∀ (n : Nat) (e : Fin 64) (w : BitVec 32), n < 192 → let old := s.reg (rScAmax n e.val)
      (w.toNat < 0x7F800000 → old.toNat < 0x7F800000 → exec (.scAmaxwWrite src n e w) s =
        .next (if old.toNat < w.toNat then s.setReg (rScAmax n e.val) w else s)) ∧
      (0x80000000 ≤ w.toNat → w.toNat < 0xFF800000 → exec (.scAmaxwWrite src n e w) s = .next s) ∧
      (0x7F800000 ≤ w.toNat % 2 ^ 31 → exec (.scAmaxwWrite src n e w) s = .next (s.setFldReg (rScCtl n e.val) 31 1 1))) ∧
    (∀ w : BitVec 32, s.bEn (s.fldReg rLsctx 0 6) = false → fld w 0 6 ≤ 40 → ∃ t, exec (.lossScaleCurWrite src w) s = .next t ∧
      t.fldReg rLsCur 0 6 = fld w 0 6 ∧ t.bitReg rLsCur 15 = s.bitReg rLsCur 15 ∧
      t.fldReg rLsCur 16 16 = (if s.fldReg rLsCur 0 6 = fld w 0 6 then s.fldReg rLsCur 16 16 else 0) ∧ SameRegs s t [rLsCur])

/-! ## Host interface, stored data, service controller -/

/-- R460 to R466: the registers of a Bulk Port, its bursts and its completion. A burst within the count, of words that can be reached and
that the host does not cache, moves its words and advances the port; one that arrives while others wait for the host's answer to a snoop waits
behind them, as a write of a port's registers by the host does. That a burst waits behind a read and behind a burst of another port is the model's
choice (assumption log 78). -/
def Obligations.BulkPorts : Prop :=
  ∀ s : State, On s →
    (∀ (pt : BitVec 8) (off : BitVec 16) (n : Nat), let x := s.port pt.toNat
      let a := x.addr.toNat
      off.toNat % 2 = 0 → 16 ≤ n → n ≤ 2048 → x.ctl.getLsbD 31 = true → n ≤ x.cnt.toNat → a + n ≤ 2 ^ 44 → s.snoop = [] → s.bursts = [] →
      (addrs a n).all s.jobReach = true →
      let y : Port := { x with addr := x.addr + BitVec.ofNat 44 n, cnt := x.cnt - BitVec.ofNat 32 n }
      (∀ data : List (BitVec 8), data.length = 2 * n → x.ctl.getLsbD 30 = false →
        exec (.bpBurstWrite pt off data) s = .next ((s.writeRun a (wordsOfBytes data)).setPort pt.toNat y)) ∧
      (x.ctl.getLsbD 30 = true → ∃ t, exec (.bpBurstRead pt off (2 * n)) s = .next t ∧
        t.hostRead = s.hostRead ++ [(bytesOfWords (s.words a n), (s.touchAll (addrs a n)).anyMark a n)] ∧ t.port pt.toNat = y ∧ t.mem = s.mem)) ∧
    (∀ (pt : BitVec 8) (off : BitVec 16) (data : List (BitVec 8)), data.length % 2 = 0 → 32 ≤ data.length → data.length ≤ 4096 →
      off.toNat % 2 = 0 → (s.port pt.toNat).ctl.getLsbD 31 = false → s.bursts = [] →
      exec (.bpBurstWrite pt off data) s = .next (s.errWith .host 2 (fun t => t.setReg rErrport (BitVec.ofNat 32 pt.toNat)))) ∧
    (∀ (pt : BitVec 8) (off : BitVec 16) (n : Nat) (data : List (BitVec 8)), s.bursts ≠ [] →
      exec (.bpBurstWrite pt off data) s = .next { s with bursts := s.bursts ++ [.write pt.toNat off.toNat data] } ∧
      exec (.bpBurstRead pt off n) s = .next { s with bursts := s.bursts ++ [.read pt.toNat off.toNat n] }) ∧
    (∀ pt : BitVec 8, let x := s.port pt.toNat
      x.ctl.getLsbD 31 = true → x.cnt = 0 → ∃ t, exec (.bpComplete pt) s = .next t ∧ (t.port pt.toNat).ctl.getLsbD 31 = false ∧
        t.bpDone.getLsbD pt.toNat = true ∧ (∀ k, k ≠ pt.toNat → t.port k = s.port k) ∧ t.mem = s.mem ∧
        (x.ctl.getLsbD 29 = true → (s.sem (fld x.ctl 0 16)).mark = false → (s.sem (fld x.ctl 0 16)).count.toNat < 0x7FFFFFFF →
          t.sem (fld x.ctl 0 16) = (Sem.serve { s.sem (fld x.ctl 0 16) with count := (s.sem (fld x.ctl 0 16)).count + 1 }).1)) ∧
    (∀ (w : BitVec 32) (r : BpReg), s.bursts ≠ [] →
      exec (.bpctlWrite .host w) s = .next { s with bursts := s.bursts ++ [.cmd (.bpctlWrite w)] } ∧
      exec (.bpRegWrite .host r w) s = .next { s with bursts := s.bursts ++ [.cmd (.bpRegWrite r w)] }) ∧
    (∀ (src : Src) (w : BitVec 32), InTurn s src → let p := s.fldReg rBpsel 0 8
      let x := s.port p
      let v := w &&& 0xE000FFFF
      (x.ctl.getLsbD 31 = false → w.getLsbD 31 = false → exec (.bpctlWrite src w) s = .next (s.setPort p { x with ctl := v })) ∧
      (x.ctl.getLsbD 31 = false → w.getLsbD 31 = true → x.cnt ≠ 0 → ∃ t, exec (.bpctlWrite src w) s = .next t ∧
        t.port p = { x with ctl := v } ∧ t.bpDone.getLsbD p = false ∧ t.sems = s.sems ∧ t.mem = s.mem) ∧
      (x.ctl.getLsbD 31 = true → v = x.ctl &&& 0x7FFFFFFF → exec (.bpctlWrite src w) s =
        .next (s.setPort p { x with ctl := x.ctl &&& 0x7FFFFFFF })) ∧
      (x.ctl.getLsbD 31 = true → ∀ r, exec (.bpRegWrite src r w) s =
        .next (s.errWith .host 5 (fun t => t.setReg rErrport (BitVec.ofNat 32 p)))) ∧
      (x.ctl.getLsbD 31 = false → exec (.bpRegWrite src .cnt w) s = .next (s.setPort p { x with cnt := w }) ∧
        exec (.bpRegWrite src .addrLo w) s = .next (s.setPort p { x with addr := BitVec.ofNat 44 (x.addr.toNat / 2 ^ 32 * 2 ^ 32 + w.toNat) }) ∧
        exec (.bpRegWrite src .addrHi w) s =
          .next (s.setPort p { x with addr := BitVec.ofNat 44 (w.toNat % 2 ^ 12 * 2 ^ 32 + x.addr.toNat % 2 ^ 32) })))

/-- R33, R45, R458, R459, R467, R469 to R474, R475, R477: doorbells of BAR4, the MSI-X table, host-managed device memory once the decoder is committed,
back-invalidate snoops, HOST_HSIG and the host link with its lanes. A doorbell that arrives while bursts wait for the host's answer to a snoop waits
behind them (R460). That a write of part of a word writes nothing, what is tried again as a snoop's answer arrives, that a read that finds the filter
full waits, that a link reads as down while it retrains, and the numbering of the port's registers beside BAR0 are the model's choice (assumption logs
78, 119, 120, 124 and 143). -/
def Obligations.HostLinkAndDeviceMemory : Prop :=
  ∀ s : State, On s →
    (∀ w : BitVec 64, (s.bursts ≠ [] → ∀ k : Nat,
        exec (.hostQueueDoorbell k w) s = .next { s with bursts := s.bursts ++ [.queueBell k w] } ∧
        exec (.hostCoreDoorbell k w) s = .next { s with bursts := s.bursts ++ [.coreBell k w] }) ∧
      (s.bursts = [] → (fld w 0 12 ≠ 0 → ∃ t, exec (.hostQueueDoorbell 4 w) s = .next t ∧
        (t.queue (fld w 12 20)).tail = ((s.queue (fld w 12 20)).tail + fld w 0 12) % 2 ^ 24 ∧ t.cores = s.cores ∧ t.mem = s.mem) ∧
      (fld w 0 8 < 192 → exec (.hostCoreDoorbell 4 w) s = .next (s.modCore (fld w 0 8) (fun c => { c with ipend := c.ipend ||| 2 }))) ∧
      ∀ k < 4, exec (.hostQueueDoorbell k w) s = .next (s.err .host 7) ∧ exec (.hostCoreDoorbell k w) s = .next (s.err .host 7))) ∧
    (∀ (o len : Nat) (ca : Bool), let b := if o < 2 ^ 40 then o else o + 2 ^ 40
      (o + len ≤ 2 ^ 40 ∨ 2 ^ 40 ≤ o) → o + len ≤ 3 * 2 ^ 40 →
      (s.stage = 4 → s.hdmBase = none → exec (.cxlMemRead o len ca) s = .next s ∧ ∀ d k, exec (.cxlMemWrite o d k) s = .next s) ∧
      (s.stage = 4 → s.hdmBase ≠ none →
        let new := s.newLines (b / 2) ((b + len + 1) / 2 - b / 2)
        (0 < len → ∀ l, l ∈ new ↔ l ∉ s.snoop ∧ ∃ x, b ≤ x ∧ x < b + len ∧ x / 64 = l) ∧
        (ca = false ∨ new = [] ∨ s.snoop.length + new.length ≤ 1048576 → ∃ t k, exec (.cxlMemRead o len ca) s = .next t ∧
          t.hostRead = s.hostRead ++ [((List.range len).map (fun i => s.byte (b + i)), k)] ∧
          (ca = true → t.snoop = s.snoop ++ new) ∧ (ca = false → t.snoop = s.snoop) ∧ t.mem = s.mem ∧ t.cores = s.cores) ∧
        (ca = true → new ≠ [] → 1048576 < s.snoop.length + new.length → ∃ t, exec (.cxlMemRead o len ca) s = .next t ∧ t.snoop = s.snoop ∧
          t.memWait = s.memWait ++ [(o, len)] ∧ t.hostRead = s.hostRead ∧ t.mem = s.mem ∧
          ∀ l, s.snoop.head? = some l → t.biWait = if l ∈ s.biWait then s.biWait else s.biWait ++ [l]) ∧
        ∀ (data : List (BitVec 8)) (psn : Bool), data.length = len →
          (o % 2 = 0 → len % 2 = 0 → ∃ t, exec (.cxlMemWrite o data psn) s = .next t ∧
            (∀ x, t.byte x = if b ≤ x ∧ x < b + len then data.getD (x - b) 0 else s.byte x) ∧
            (psn = true → ∀ x, b ≤ x → x < b + len → t.poisoned (x / 2) = true) ∧ t.cores = s.cores) ∧
          ((o % 2 ≠ 0 ∨ len % 2 ≠ 0) → exec (.cxlMemWrite o data psn) s = .next s)) ∧
      (s.stage ≠ 4 → ∃ t, exec (.cxlMemRead o len ca) s = .next t ∧ t.hostRead = s.hostRead ++ [(List.replicate len 0xFF, true)] ∧
        t.mem = s.mem)) ∧
    (∀ l ∈ s.biWait, (let t : State := { s with biWait := s.biWait.filter (fun x => x ≠ l), snoop := s.snoop.filter (fun x => x ≠ l) }
        exec (.biSnoopAnswer l none) s = .next t.snoopDone.retryMem.retryBursts ∧
        (Unheld s → s.memWait = [] → s.bursts = [] → t.snoopDone.retryMem.retryBursts = t)) ∧
      ∀ d : List (BitVec 8), d.length = 64 → ∃ t : State, exec (.biSnoopAnswer l (some d)) s = .next t.snoopDone.retryMem.retryBursts ∧ t.words (32 * l) 32 = wordsOfBytes d ∧
        l ∉ t.biWait ∧ l ∉ t.snoop ∧ ∀ x, (x < 64 * l ∨ 64 * l + 64 ≤ x) → t.byte x = s.byte x) ∧
    (∀ l : Nat, ∃ t, exec (.hostCacheSnoop l) s = .next t ∧ look false t.hostLines l = false ∧
      (∀ k, k ≠ l → look false t.hostLines k = look false s.hostLines k) ∧ t.mem = s.mem) ∧
    (∀ (src : Src) (w : BitVec 32), InTurn s src → let v := fld w 0 5
      (v = 0 → exec (.hsigWrite src w) s = .next s) ∧
      (v ≠ 0 → s.msixMask.getLsbD v = false → exec (.hsigWrite src w) s = .next { s with msixSent := s.msixSent ++ [BitVec.ofNat 5 v] }) ∧
      (v ≠ 0 → s.msixMask.getLsbD v = true → exec (.hsigWrite src w) s =
        .next { s with msixPend := s.msixPend ||| BitVec.ofNat 32 (2 ^ v) })) ∧
    exec .hostLinkTrain s = .next { s with linkTrain := true, pins := { s.pins with perstN := true } } ∧
    (s.pins.perstN = true → (s.bitReg rLstat 31 = false ∨ s.stage = 4 ∧ s.fldReg rLstat 29 2 ≠ 3) →
      exec .hostLinkRetry s = .next { s.setReg rLstat 0 with linkTrain := true, j1Lanes := [] }) ∧
    (∀ rate width : BitVec 2, s.linkTrain = true → rate = 0 ∨ width = 0 ∧ (s.stage = 4 ∨ rate = 1) →
      exec (.hostLinkUp rate width) s = .next { s.setReg rLstat 0 with linkTrain := false, j1Lanes := [] }) ∧
    (s.bursts = [] →
      (∀ o < 0x10000, ∀ w : BitVec 64, (∀ k, 0 < k → k < 4 → exec (.registerWrite .host (0x1800000 + o) k w) s = .next (s.err .host 7)) ∧
        (o % 4 = 0 → o < 0x8000 → exec (.registerWrite .host (0x1800000 + o) 4 w) s = .next (s.queueDoorbell (w.truncate 32)) ∧
          (o + 4 < 0x8000 → exec (.registerWrite .host (0x1800000 + o) 8 w) s =
            .next ((s.queueDoorbell (w.truncate 32)).queueDoorbell (w.extractLsb' 32 32)))) ∧
        (o % 4 = 0 → 0x8000 ≤ o → exec (.registerWrite .host (0x1800000 + o) 4 w) s = .next (s.coreDoorbell (w.truncate 32)) ∧
          (o + 4 < 0x10000 → exec (.registerWrite .host (0x1800000 + o) 8 w) s =
            .next ((s.coreDoorbell (w.truncate 32)).coreDoorbell (w.extractLsb' 32 32))))) ∧
      (∀ v < 32, ∀ w : BitVec 64, ∃ t, exec (.registerWrite .host (0x181000C + 16 * v) 4 w) s = .next t ∧ t.msixMask.getLsbD v = w.getLsbD 0 ∧
        (w.getLsbD 0 = false → s.msixPend.getLsbD v = true → t.msixPend.getLsbD v = false ∧ t.msixSent = s.msixSent ++ [BitVec.ofNat 5 v]) ∧
        (w.getLsbD 0 = true ∨ s.msixPend.getLsbD v = false → t.msixPend = s.msixPend ∧ t.msixSent = s.msixSent) ∧ t.cores = s.cores ∧ t.mem = s.mem) ∧
      (s.bitReg rSvc 17 = true → ∀ w : BitVec 64, exec (.registerWrite .host 0x2000220 4 w) s =
        .next { s with hdmBase := if w.getLsbD 9 then some s.hostCfg.base else none })) ∧
    (∀ rate width : BitVec 2, s.linkTrain = true → rate ≠ 0 → width ≠ 0 → (s.stage = 4 ∨ rate = 1) → ∃ t,
      exec (.hostLinkUp rate width) s = .next t ∧ t.bitReg rLstat 31 = true ∧ t.fldReg rLstat 29 2 = rate.toNat ∧
      t.fldReg rLstat 27 2 = width.toNat ∧ t.linkTrain = false ∧ t.mem = s.mem ∧ t.cores = s.cores ∧
      t.j1Lanes = (List.range (2 ^ (width.toNat + 1))).map (fun i => if (s.reg rStrap).getLsbD 12 then 15 - i else i))

/-- R479, R495, R496, R499, R502, R504, R505, R507 to R512, Tables 18-5 and 18-6: the address log, a scrub of one codeword and its counters, what an error
of a register file or control structure does to the read that finds it, row and column repairs, whose entries stand in both flash devices, and the JTAG
instructions. That write protection comes before a full log, what a read finds an error with, and that one found uncorrectable acts once, are the
model's choice (assumption logs 81 and 145). -/
def Obligations.ScrubRepairAndJtag : Prop :=
  (∀ (s : State) (x : Site) (ue : Bool), s.upsets = [{ site := x, ue := ue }] → let r := rRasSram x.die
    (∀ f : Site → Bool, f x = false → s.finds f = (s, [])) ∧
    (∀ f : Site → Bool, f x = true → let t := (s.finds f).1
      t.mem = s.mem ∧ t.cores = s.cores ∧ SameRegs s t [r] ∧
      (ue = false → x.parity = false → (s.finds f).2 = [] ∧ t.upsets = s.upsets ∧ t.fldReg r 16 16 = min (s.fldReg r 16 16 + 1) 65535) ∧
      (ue = true ∨ x.parity = true → (s.finds f).2 = [x] ∧ t.upsets = [] ∧ t.fldReg r 0 16 = min (s.fldReg r 0 16 + 1) 65535)) ∧
    (s.over (fun y => y == x)).upsets = [] ∧
    (ue = true →
      (∀ k, x = .sem k → let t := s.readSem k; (t.sem k).mark = true ∧ (t.sem k).count = (s.sem k).count ∧ (t.sem k).waits = (s.sem k).waits) ∧
      (∀ b < 64, x = .ctx b → let t := s.readCtx b
        t.bEn b = false ∧ (t.ctx b).mark = true ∧ (t.ctx b).now = Arrivals.none_ ∧ t.bGen b = s.bGen b) ∧
      (∀ q, x = .queue q → let t := s.readQueue q; (t.queue q).en = false ∧ fld (t.queue q).qe3 24 3 = 1 ∧ (t.queue q).mark = true) ∧
      (∀ (src : Src) (w : BitVec 32), s.power = .running → InTurn s src → w.toNat % 4096 ≠ 0 → x = .queue (w.toNat / 4096) →
        ∃ t, exec (.queueDoorbell src w) s = .next t ∧ (t.queue (w.toNat / 4096)).en = false ∧ (t.queue (w.toNat / 4096)).mark = true) ∧
      (Quiet s → ∀ j, x = .job j → let t := s.readJob j; (t.job j).open_ = false ∧ (t.job j).mark = true) ∧
      (Quiet s → ∀ e, x = .swarm e → let t := s.readSwarm e; (t.swarm e).en = false ∧ (t.swarm e).mark = true) ∧
      (∀ dst, x = .route (s.routeKey dst) → let t := s.readRoute (s.routeKey dst); t.routes = s.routes ∧ look false t.routeMark (s.routeKey dst) = true) ∧
      (∀ g, x = .mcast g false → ((s.readMcast g false).mcEntry g).valid = false) ∧
      (∀ j p, x = .held j p → (s.readHeld j p).2 = Packet.allMarked p) ∧
      (∀ e p, x = .heldRow e p → (s.readRow e p).2 = Packet.allMarked p) ∧
      (∀ (j k : Nat) (y : Node), y.tag = none → x = .node j y.lo y.size y.tile false k → ∀ e ∈ y.left.pkts, e.1 = k →
        (k, Packet.allMarked e.2) ∈ (s.readNode j y).2.left.pkts)) ∧
    (let t := s.regReads (fun y => y == x);
      (ue = true → (∀ n i row, row < 64 → x = .tile n i row → ((t.core n).tile i).pm.getLsbD row = true) ∧
        (∀ n q a row, q < 4 → row < 64 → x = .acc n q a row → (((t.core n).arr q).acc1 a).marks.getLsbD row = true) ∧
        (∀ n g, x = .vec n g → look false (t.core n).vpsn g = true)) ∧
      (∀ n q h, q < 4 → x = .shelf n q true → ((s.core n).arr q).shelfW = some h → ((t.core n).arr q).shelfW = some { h with
        tile := { h.tile with pm := BitVec.allOnes 64 } }))) ∧
  ∀ (s : State) (src : Src), On s → InTurn s src →
    (∃ t, exec (.logClr src) s = .next t ∧ t.log = [] ∧ t.fldReg rLogctl 0 24 = 0 ∧ t.mem = s.mem ∧ t.psn = s.psn ∧ t.cores = s.cores) ∧
    (∀ w : BitVec 32, (s.bitReg rScrCtl 30 = true → exec (.scrubGo src w) s = .next (s.err .scrub 1)) ∧
      (s.bitReg rScrCtl 30 = false → 0 < s.scrubCnt → (addrs s.scrubBase s.scrubCnt).all s.jobReach = true →
        ∃ t, exec (.scrubGo src w) s = .next t ∧ t.bitReg rScrCtl 30 = true ∧ t.scrub = some (s.scrubBase, s.scrubCnt) ∧
          t.fldReg rScrCtl 0 16 = fld w 0 16 ∧ (∀ r ∈ [rScrScan, rScrCorr, rScrUe, rScrPsn, rScrClrd], t.reg r = 0) ∧ t.mem = s.mem)) ∧
    (∀ base, s.scrub = some (base, 1) → s.snoop = [] → s.bitReg rScrCtl 28 = false → let c := cwOf base
      let count (t : State) (r k : Nat) : Prop := t.fldReg r 0 32 = min (s.fldReg r 0 32 + k) (2 ^ 32 - 1)
      ∃ t, exec .scrubComplete s = .next t ∧ t.bitReg rScrCtl 30 = false ∧ t.scrub = none ∧ count t rScrScan 1 ∧ look .none t.latent c = .none ∧
        (look .none s.latent c = .ce → count t rScrCorr 1 ∧ (s.poisoned base = false → t.poisoned base = false ∧ t.mem = s.mem)) ∧
        (look .none s.latent c = .ue → s.poisoned base = false → count t rScrUe 1) ∧
        (look .none s.latent c = .ue → s.bitReg rScrCtl 29 = false → t.poisoned base = true ∧ t.mem = s.mem) ∧
        (look .none s.latent c = .none → s.poisoned base = true → count t rScrPsn 1 ∧ count t rScrUe 0) ∧
        ((look .none s.latent c = .ue ∨ s.poisoned base = true) → s.bitReg rScrCtl 29 = true → count t rScrClrd 1 ∧ t.poisoned base = false ∧
          ∀ a, cwOf a = c → t.word a = 0)) ∧
    (s.bitReg rRpcmd 29 = false → s.stage = 4 → regionOf s.rpa = .stacked → let m := stackedMap s s.rpa
      s.sparesUsed m.1 (m.2.1 * 32 + m.2.2.1) < 8 → s.snoop = [] → ∃ t, exec (.rpRow src) s = .next t ∧ t.rowWait = none ∧ t.bitReg rRpcmd 29 = true ∧
        t.repairing = some (.row m.1 (m.2.1 * 32 + m.2.2.1) m.2.2.2) ∧ t.fieldRows = s.fieldRows ++ [.row m.1 (m.2.1 * 32 + m.2.2.1) m.2.2.2] ∧
        t.mem = s.mem) ∧
    (∀ w : BitVec 32, s.bitReg rRpcmd 29 = false → (fld w 12 8 < 192 → ∃ t, exec (.rpAcol src w) s = .next t ∧ t.bitReg rRpcmd 29 = true ∧
        t.repairing = some (.col (fld w 12 8) (fld w 10 2) (fld w 0 6)) ∧ t.mem = s.mem) ∧
      (192 ≤ fld w 12 8 → ∃ t, exec (.rpAcol src w) s = .next t ∧ t.fldReg rRpcmd 20 4 = 3 ∧ t.repairing = s.repairing)) ∧
    (∀ x, s.repairing = some x → s.rowWait = none → s.flyDown = false → ∃ t, exec .rpcmdComplete s = .next t ∧
      (s.pins.fwWpN = true → s.repairs.length < 4096 → ∀ b : Bool, t.slotBytes b (0x3FE0000 + 16 * s.repairs.length) 16 = x.bytes) ∧
      (s.pins.fwWpN = false ∨ 4096 ≤ s.repairs.length → t.flashA = s.flashA ∧ t.flashB = s.flashB) ∧ t.repairing = none ∧ t.bitReg rRpcmd 29 = false ∧
      t.fldReg rRpcmd 20 4 = (if s.pins.fwWpN = false then 2 else if 4096 ≤ s.repairs.length then 4 else 0) ∧
      t.repairs = (if s.pins.fwWpN = true ∧ s.repairs.length < 4096 then s.repairs ++ [x] else s.repairs)) ∧

    exec .jtagBypass s = .next { s with tap := .bypass, tapDr := 0 } ∧ exec .jtagIdcode s = .next { s with tap := .idcode, tapDr := 0x1096A3C5 } ∧
    (∃ t, exec .jtagSamplePreload s = .next t ∧ t.tap = .sample ∧ t.regs = s.regs ∧ t.cores = s.cores ∧ t.mem = s.mem) ∧
    (∃ t, exec .jtagExtest s = .next t ∧ t.tap = (if s.stage = 0xE then .extest else .bypass) ∧ t.regs = s.regs ∧ t.cores = s.cores ∧
      t.mem = s.mem)

/-- R62, R481, R482, R488, R492, R493, Tables 17-4, 17-6 and 17-10: what the mailbox answers on a free channel while the Firefly runs. The product's
constants, the private key that is taken as the digest, and that the settings records are held apart from the flash bytes are the model's choice
(assumption log 5): flashA and flashB are the bytes outside the settings area, which a SET_PUT leaves as they are, while its record goes into the
settings of both devices (R488). That a SET_GET without a record answers 0 is the model's choice too (assumption log 83). -/
def Obligations.MailboxAnswers : Prop :=
  ∀ (s : State) (c : Chan), On s → (s.box c).busy = false → s.flyDown = false →
    let done (i : Instr) (d : List (BitVec 8)) (p : State → Prop) : Prop :=
      ∃ t, exec i s = .next t ∧ (t.box c).busy = false ∧ (t.box c).status = 0 ∧ (t.box c).resp = d ∧ t.cores = s.cores ∧ p t
    done (.getSvc c []) (bytesOfNat 4 ((s.reg rSvc).toNat / 65536 * 65536 + s.elapsedMs)) (fun t => t.mem = s.mem) ∧
    done (.getId c []) (bytesOfNat 8 Config.pid.toNat ++ ([0x01, 0xA1, 0x96, 0x00] : List (BitVec 8))) (fun t => t.mem = s.mem) ∧
    done (.getCert c [0]) (([1, 0, 160, 0] : List (BitVec 8)) ++ bytesOfNat 8 Config.pid.toNat ++ ([0x01, 0xA1, 0x96, 0x00] : List (BitVec 8)) ++
      (List.range 32).map Config.identityPublic ++ (sha512 Config.deviceRootKey).take 8 ++ List.replicate 40 0 ++
      (List.range 64).map Config.certificateSig) (fun t => t.mem = s.mem) ∧
    (∀ nonce : List (BitVec 8), nonce.length = 32 → ∃ d g : List (BitVec 8), d.length = 200 ∧ g.length = 64 ∧
      g = (List.range 64).map (Config.ed25519Byte (s.idKeys.getD 0 []) d) ∧
      d.take 52 = ([1, 0, 8, 1] : List (BitVec 8)) ++ bytesOfNat 8 Config.pid.toNat ++ nonce ++ bytesOfNat 4 s.svcWord.toNat ++
        bytesOfNat 4 (s.reg rStrap).toNat ∧
      (s.bitReg rSvc 18 = false → d.drop 52 = List.replicate 148 0) ∧
      done (.quote c (nonce ++ [0])) (if c = .h then d ++ g else (d ++ g).take 240) (fun t => t.mem = s.mem) ∧
      (c = .m → done (.quote c (nonce ++ [1])) (g.drop 40) (fun t => t.mem = s.mem))) ∧
    done (.slotInfo c [])
      (s.slotBytes false 196 2 ++ s.slotBytes false 192 4 ++ s.slotBytes false 4 4 ++ s.slotBytes false 12 4 ++
       s.slotBytes true 196 2 ++ s.slotBytes true 192 4 ++ s.slotBytes true 4 4 ++ s.slotBytes true 12 4 ++
       ([match s.running with
        | some false => 0
        | some true => 1
        | none => 0xFF] : List (BitVec 8))) (fun t => t.mem = s.mem) ∧
    (c = .h → s.bitReg rSvc 18 = false → s.fldReg rStrap 8 2 = 1 → s.stage = 2 →
      let k := s.stagingRead.stagingStatus.1
      (k = 0 → done (.load c []) [] (fun t => t.stage = 3 ∧ t.bitReg rSvc 18 = true ∧ t.running = none ∧ t.fldReg rSvc 24 4 = 2)) ∧
      (k ≠ 0 → s.fldReg (pageBase .global + oErr) 0 16 = 0 → ∃ t, exec (.load c []) s = .next t ∧ (t.box c).busy = false ∧
        (t.box c).status.toNat = k % 256 ∧ t.stage = 2 ∧ t.fldReg (pageBase .global + oErr) 0 16 = 3)) ∧
    (s.bitReg rSvc 18 = true →
      done (.setGet c [1, 0]) (bytesOfNat 4 (s.setting 1)) (fun t => t.settings = s.settings) ∧
      ∀ v < 512, s.pins.fwWpN = true → s.slotState false ≠ 0x7F → s.slotState true ≠ 0x7F →
        done (.setPut c ([1, 0] ++ bytesOfNat 4 v)) [] (fun t => t.setting 1 = v ∧ t.flashA = s.flashA ∧ t.flashB = s.flashB))

/-- R485 to R487, R489 to R491, R55: an update from UPD_BEGIN to UPD_END or UPD_ABORT, the activation of a slot, with the pause in which channel M takes
no request, its confirmation, and the end of a Firefly restart. That BASE is compared as the delta header arrives is the model's choice (assumption log
144), as are the pause of channel M from ACTIVATE to ACTIVATION_RESTART, which FIREFLY_RESTART_END does not end, and the slot that ACTIVATE takes
(assumption log 83). -/
def Obligations.UpdatesAndActivation : Prop :=
  ∀ (s : State) (c : Chan), On s →
    (∀ (r : Bool), (s.box c).busy = false → s.flyDown = false → s.bitReg rSvc 18 = true → s.running = some r → s.pins.fwWpN = true →
      let done (i : Instr) (p : State → Prop) : Prop :=
        ∃ t, exec i s = .next t ∧ (t.box c).busy = false ∧ (t.box c).status = 0 ∧ t.cores = s.cores ∧ t.mem = s.mem ∧ p t
      (s.session = none → s.stage ≠ 0xE → s.stage ≠ 0xF → ∀ a b : BitVec 8, done (.updBegin c [a, b]) (fun t =>
        t.slotState (!r) = 0xFF ∧ t.session = some { chan := c, target := !r, full := a.getLsbD 0, hdr := [], part := [], count := 0, blocks := 0 } ∧
        (∀ i n, t.slotBytes r i n = s.slotBytes r i n))) ∧
      (∀ k, s.session = some k → k.chan = c →
        done (.updAbort c []) (fun t => t.session = none ∧ t.flashA = s.flashA ∧ t.flashB = s.flashB) ∧
        (k.count < 2 ^ 31 → ∀ d : List (BitVec 8), d.length ≤ 236 →
          (k.hdr = [] → k.part.length + d.length < 272 →
            done (.updData c (bytesOfNat 4 k.count ++ d)) (fun t =>
              t.session = some { k with part := k.part ++ d, count := k.count + d.length } ∧ t.flashA = s.flashA ∧ t.flashB = s.flashB ∧
              (t.box c).resp = bytesOfNat 4 (k.count + d.length) ++ bytesOfNat 4 k.blocks)) ∧
          (k.hdr ≠ [] → k.blocks < hdrField k.hdr 264 4 → k.blocks < 256 → k.part = [] → d.length = 8 → hdrField d 0 1 = 3 →
            crc32c (List.replicate 65536 0) = BitVec.ofNat 32 (hdrField d 4 4) →
            done (.updData c (bytesOfNat 4 k.count ++ d)) (fun t =>
              t.session = some { k with part := [], count := k.count + 8, blocks := k.blocks + 1 } ∧
              t.slotBytes k.target (4096 + 65536 * k.blocks) 65536 = List.replicate 65536 0))) ∧
        (k.hdr.length = 272 → hdrField k.hdr 264 4 ≤ k.blocks →
          sha512 (s.slotBytes k.target 4096 (65536 * k.blocks)) = ((k.hdr.drop 72).drop 16).take 64 →
          sha512 Config.firmwareKey = Config.firmwareKeyDigest →
          Config.ed25519Verify Config.firmwareKey ((k.hdr.drop 72).take 128) ((k.hdr.drop 200).take 64) = true →
          done (.updEnd c []) (fun t => t.session = none ∧ t.slotState k.target = 0x7F ∧ t.slotTries k.target = 7 ∧
            t.slotBytes k.target 0 192 = (k.hdr.drop 72).take 192))) ∧
      (s.session = none → s.stage = 4 → ∀ b, s.pendingSlot = some b → s.slotStatus b = 0 →
        ∃ t, exec (.activate c []) s = .next t ∧ (t.box c).busy = true ∧ t.activating = some (c, b) ∧ t.slotTries b = s.slotTries b / 2 ∧
          t.slotState b = s.slotState b ∧ t.running = s.running ∧ t.flyDown = true ∧ t.mem = s.mem ∧
          ∀ d, exec (.getId .m d) t = .next t) ∧
      (s.slotState r = 0x7F → done (.confirm c []) (fun t => t.slotState r = 0x3F ∧
        t.slotState (!r) = (if s.slotState (!r) = 0x3F then 0x1F else s.slotState (!r))))) ∧
    (∀ b, s.activating = some (c, b) → s.flyDown = true → (c = .h ∨ s.boxH.req = none) → ∃ t, exec .activationRestart s = .next t ∧
      t.running = some b ∧ t.activating = none ∧ t.session = none ∧ t.flyDown = false ∧
      (t.box c).busy = false ∧ (t.box c).status = 0 ∧ t.cores = s.cores ∧ t.mem = s.mem) ∧
    (s.flyDown = true → s.activating = none → ∃ t, exec .fireflyRestartEnd s = .next t ∧ t.flyDown = false ∧ t.boxM = s.boxM ∧
      (s.boxH.req = none → t = { s with flyDown := false })) ∧
    (s.activating ≠ none → exec .fireflyRestartEnd s = .next s)

/-! ## The vector unit -/

/-- R152, R160 to R162, R164 to R166, R168, R173, R179, R180, R182, R183, R192, Tables 6-3, 6-5, 6-10 and 6-11: the integer functions, the
comparisons and vmov, on plain numbers. -/
def Obligations.VectorIntegerFunctions : Prop :=
  ∀ (s t : State) (n : Nat) (k : Cond) (m : Bool) (vd va : Fin 32) (b : VecSrc), Ready s t n k 2 →
    ∀ e ∈ vecIntSpecs, VecDoes e s t n k m vd va b

/-- R181, R184, Table 6-5: the floating-point functions, rounded once, and the dot products. -/
def Obligations.VectorFloatFunctionsAndDotProducts : Prop :=
  ∀ (s t : State) (n : Nat) (k : Cond) (m : Bool) (vd va : Fin 32) (b : VecSrc), Ready s t n k 2 →
    (∀ e ∈ vecFloatSpecs, VecDoes e s t n k m vd va b) ∧
    let c := t.core n
    let g := c.grp
    let w := c.sew
    let a := c.vel va.val w
    let d := c.vel vd.val 32
    let x := srcEl c b
    ∀ e ∈ [(Instr.vdotQ, 4, [0], VUnit.vmul, fun j => ((d j + (sval 8 (a (4 * j)) * sval 8 (x (4 * j)) +
              sval 8 (a (4 * j + 1)) * sval 8 (x (4 * j + 1)) + sval 8 (a (4 * j + 2)) * sval 8 (x (4 * j + 2)) +
              sval 8 (a (4 * j + 3)) * sval 8 (x (4 * j + 3)))) % (2 ^ 32 : Int)).toNat),
           (.vdotuQ, 4, [0], .vmul, fun j => (d j + (a (4 * j) * x (4 * j) + a (4 * j + 1) * x (4 * j + 1) + a (4 * j + 2) * x (4 * j + 2) +
              a (4 * j + 3) * x (4 * j + 3))) % 2 ^ 32),
           (.vfdotD, 2, [4, 5], .vfma, fun j => match etFmt c.et with
              | some f => fp32.round (((fp32.decode (d j)).add ((f.decode (a (2 * j))).mul (f.decode (x (2 * j))))).add
                  ((f.decode (a (2 * j + 1))).mul (f.decode (x (2 * j + 1)))))
              | none => 0)],
      c.et ∈ e.2.2.1 → c.vlen ≤ c.vlmax → c.vlen % e.2.1 = 0 → (m = true → vd ≠ 0) → vd.val % g = 0 → vd.val + g ≤ 32 →
      va.val % g = 0 → va.val + g ≤ 32 → apart vd.val g va.val g = true → srcFits c b vd.val g true →
      Accepts c e.2.2.2.1 false (maskReg m ++ regsOf va.val g ++ srcRegs b g ++ regsOf vd.val g) (regsOf vd.val g) →
      ∃ v p, VecWrites c v p vd.val 32 (c.vlmax / e.2.1)
          (fun j => j < c.vlen / e.2.1 ∧ c.prog.toNat ≤ j ∧ (m = true → c.mbit 0 j = true)) e.2.2.2.2
          (fun j => c.gmark m j || c.vmark vd.val 32 j ||
            (List.range e.2.1).any (fun i => c.vmark va.val w (e.2.1 * j + i) || srcMark c b (e.2.1 * j + i))) ∧
        exec (e.1 n k m vd va b) s = .next (after t n 2 (vecTook v p false e.2.2.2.1 4 false (regsOf vd.val g)))

/-- R184, R195, R202, Table 7-4: rounding is to nearest with ties to even in every format, with the overflow of Table 7-4, and a sum, a
product and a quotient are rounded from their exact value. -/
def Obligations.RoundingIsToNearestEven : Prop :=
  (∀ f ∈ [fp64, fp32, bf16, fp16, e4m3, e5m2, e3m2, e2m3, e2m1], ∀ (sat neg : Bool) (m : Nat) (e : Int),
    ∃ r, NearestMag f ((m : ℚ) * (2 : ℚ) ^ e) r ∧ (f.convert sat (.fin neg m e)).1 =
      (if neg then 2 ^ (f.eb + f.mb) else 0) + (if r < f.top then r else if sat = true ∨ f.kind = .finite then f.top - 1 else f.top)) ∧
  (∀ (s t : Bool) (m n : Nat) (e g : Int),
    (∃ z q x, Machine.Num.add (.fin s m e) (.fin t n g) = .fin z q x ∧ numVal z q x = numVal s m e + numVal t n g ∧
      (q = 0 → (z = true ↔ s = true ∧ t = true))) ∧
    (∃ z q x, Machine.Num.mul (.fin s m e) (.fin t n g) = .fin z q x ∧ numVal z q x = numVal s m e * numVal t n g ∧ z = (s != t)) ∧
    (n ≠ 0 → ∀ f ∈ [fp64, fp32, bf16, fp16], ∃ r, NearestMag f ((m : ℚ) * (2 : ℚ) ^ e / ((n : ℚ) * (2 : ℚ) ^ g)) r ∧
      f.round (Machine.Num.div (.fin s m e) (.fin t n g)) = (if s = t then 0 else 2 ^ (f.eb + f.mb)) + min r f.top))

/-- R108, R152, R161 to R163, R165, R168, R170, R171, R193, Table 6-6: vsetvl and vwait, and the fault of a reserved ET; single elements, with a
free upper byte at SEW 8 (assumption log 3) and a free value of vmv.x at VL = 0 (log 43); mask queries; an instruction past which PROG
stands does nothing; and the end of a vector instruction in its unit. That PROG counts as the start index also of vmv.x, vins and the queries, that
vwait and vsetvl fault under a reserved ET, and FADDR 0 of the POISON fault of vmv.x and vpopc are the model's choice (assumption logs 39, 42 and 136). -/
def Obligations.VectorControlAndQueries : Prop :=
  (∀ (s t : State) (n : Nat) (k : Cond), Ready s t n k 2 →
    let c := t.core n
    let w := c.sew
    (8 ≤ c.et → exec (.vwait n k) s = .next (t.syncFault n .illegalOp 0)) ∧
    (∀ (dd dn : Fin 16) (grp : BitVec 2) (et : BitVec 4), (8 ≤ c.et ∨ 8 ≤ et.toNat ∨ evenReg dd.val = false ∨ evenReg dn.val = false) →
      exec (.vsetvl n k dd dn grp et) s = .next (t.syncFault n .illegalOp 0)) ∧
    (c.et < 8 → ∀ (dd dn : Fin 16) (grp : BitVec 2) (et : BitVec 4), evenReg dd.val = true → evenReg dn.val = true →
      ∀ sew, (et.toNat, sew) ∈ [(0, 8), (1, 16), (2, 32), (3, 64), (4, 16), (5, 16), (6, 32), (7, 64)] →
      let vl := min (c.dpair dn.val).toNat (4096 * 2 ^ grp.toNat / sew)
      exec (.vsetvl n k dd dn grp et) s = .next (after t n 2 (fun c =>
        ((c.send 1 .vet (BitVec.ofNat 64 (16 * grp.toNat + et.toNat))).send 1 .vl (BitVec.ofNat 64 vl)).sendP 1 dd.val (BitVec.ofNat 32 vl)))) ∧
    (c.et < 8 → c.vbusy = [] → exec (.vwait n k) s = .next (after t n 2 id)) ∧
    (c.et < 8 → c.vlen ≤ c.vlmax →
      (∀ (d dn : Fin 16) (va : Fin 32), c.vscalarOk d.val = true → va.val % c.grp = 0 → va.val + c.grp ≤ 32 →
        Accepts c .vxu false (regsOf va.val c.grp) [] →
        let i := (c.dreg dn.val).toNat
        let x := if i < c.vlmax then c.vel va.val w i else 0
        let u : State := { t with freeCtr := t.freeCtr + 1 }
        (i < c.prog.toNat → exec (.vmvX n k d va dn) s = .next (after t n 2 id)) ∧
        (c.prog.toNat ≤ i → i < c.vlmax → c.vlen ≠ 0 → c.vmark va.val w i = true → exec (.vmvX n k d va dn) s =
          .next (t.syncFault n .poison 0)) ∧
        (c.prog.toNat ≤ i → i < c.vlmax → c.vlen = 0 → ∃ y : BitVec 64, exec (.vmvX n k d va dn) s = .next (after u n 2 (fun c =>
          if w ≤ 16 then c.sendD 2 d.val (y.truncate 16) else if w = 32 then c.sendP 2 d.val (y.truncate 32) else c.sendQ 2 d.val y))) ∧
        (c.prog.toNat ≤ i → (i < c.vlmax → c.vlen ≠ 0 ∧ c.vmark va.val w i = false) →
          (w = 8 → ∃ y : Word, y.toNat % 256 = x ∧ exec (.vmvX n k d va dn) s = .next (after u n 2 (fun c => c.sendD 2 d.val y))) ∧
          (w = 16 → exec (.vmvX n k d va dn) s = .next (after u n 2 (fun c => c.sendD 2 d.val (BitVec.ofNat 16 x)))) ∧
          (w = 32 → exec (.vmvX n k d va dn) s = .next (after u n 2 (fun c => c.sendP 2 d.val (BitVec.ofNat 32 x)))) ∧
          (w = 64 → exec (.vmvX n k d va dn) s = .next (after u n 2 (fun c => c.sendQ 2 d.val (BitVec.ofNat 64 x)))))) ∧
      (∀ (vd : Fin 32) (dm dn : Fin 16), c.vscalarOk dm.val = true → vd.val % c.grp = 0 → vd.val + c.grp ≤ 32 →
        Accepts c .valu false [] (regsOf vd.val c.grp) →
        let i := (c.dreg dn.val).toNat
        (c.vlmax ≤ i ∨ i < c.prog.toNat → exec (.vins n k vd dm dn) s = .next (after t n 2 id)) ∧
        (i < c.vlmax → c.prog.toNat ≤ i → ∃ v p, VecWrites c v p vd.val w c.vlmax (fun j => j = i) (fun _ => c.vscalar dm.val) (fun _ => false) ∧
          exec (.vins n k vd dm dn) s = .next (after t n 2 (fun c => { c with
            v := v, vpsn := p, vbusy := .valu :: c.vbusy, vserial := false,
            vpend := c.vpend ++ [{ left := 2, regs := regsOf vd.val c.grp, unit := .valu }] })))) ∧
      (∀ vb : Fin 32, Accepts c .vxu false [vb.val] [] →
        let mark := (List.range c.vlen).any (fun i => c.mmark vb.val i)
        let sr (p : Fin 4) (hit : Bool) (c : Core) : Core := c.sendSr 2 (BitVec.ofNat 32 (2 ^ (4 + p.val) + 2 ^ (16 + p.val)))
          (BitVec.ofNat 32 ((if hit then 2 ^ (4 + p.val) else 0) + (if mark then 2 ^ (16 + p.val) else 0)))
        (0 < c.prog.toNat → c.vlen ≤ c.prog.toNat → ∀ (p : Fin 4) (d : Fin 16), evenReg d.val = true →
          exec (.vany n k p vb) s = .next (after t n 2 id) ∧ exec (.vall n k p vb) s = .next (after t n 2 id) ∧
          exec (.vpopc n k d vb) s = .next (after t n 2 id)) ∧
        (c.prog.toNat = 0 ∨ c.prog.toNat < c.vlen → (∀ p : Fin 4, exec (.vany n k p vb) s = .next (after t n 2 (sr p (decide (∃ i < c.vlen, c.mbit vb.val i = true)))) ∧
          exec (.vall n k p vb) s = .next (after t n 2 (sr p (decide (∀ i < c.vlen, c.mbit vb.val i = true))))) ∧
        (∀ d : Fin 16, evenReg d.val = true →
          (mark = false → exec (.vpopc n k d vb) s = .next (after t n 2 (fun c =>
            c.sendP 2 d.val (BitVec.ofNat 32 ((List.range c.vlen).countP (fun i => c.mbit vb.val i)))))) ∧
          (mark = true → exec (.vpopc n k d vb) s = .next (t.syncFault n .poison 0))))))) ∧
  (∀ (s : State) (n : Nat) (u : VUnit), On s → n < 192 → exec (.vectorComplete n u) s = .next (s.modCore n (fun c =>
    { c with vbusy := c.vbusy.erase u, vserial := c.vserial && !(c.vbusy.erase u).isEmpty })))

/-- R152, R164, R185 to R190, R192, R204, R205, Tables 6-6, 6-7 and 7-5: reductions over their fixed tree, permutes, vtopk, vgen, vcvt and
vscomb. The mark rule of vcompress, vtopk and the reductions, and what PROG at or past VL does to them, are the model's choice
(assumption logs 44 and 39). -/
def Obligations.VectorCrossLaneResults : Prop :=
  ∀ (s t : State) (n : Nat) (k : Cond) (m : Bool) (vd va vb : Fin 32),
    let c := t.core n
    let g := c.grp
    let w := c.sew
    let el := c.vel va.val w
    let fits (v : Fin 32) (r : Nat) : Prop := v.val % r = 0 ∧ v.val + r ≤ 32
    c.et < 8 → (m = true → vd ≠ 0) →
    (c.vlen ≤ c.vlmax → fits vd g → fits va g → Ready s t n k 2 →
      (fits vb g → Accepts c .vxu false (maskReg m ++ regsOf va.val g ++ regsOf vb.val g) (regsOf vd.val g) →
        ∀ h, c.vlen ≤ 2 ^ h → (∀ j < h, 2 ^ j < c.vlen) →
        let act (i : Nat) : Bool := decide (i < c.vlen) && (!m || c.mbit 0 i)
        let tree (op : Nat → Nat → Nat) : Option Nat := (Nat.repeat (pairUp op) h
          ((List.range (2 ^ h)).map (fun i => if act i then some (c.vel vb.val w i) else none))).headD none
        ∀ e ∈ [(Instr.vredsum, sumOp), (.vredmax, pickOp true), (.vredmin, pickOp false)],
          ∃ v p, VecWrites c v p vd.val w c.vlmax (fun i => i = 0 ∧ c.prog.toNat < c.vlen)
              (fun _ => ((tree (e.2 c.et w)).map (e.2 c.et w (el 0))).getD (el 0))
              (fun _ => c.vmark va.val w 0 ||
                (List.range c.vlen).any (fun i => c.gmark m i || (act i && c.vmark vb.val w i))) ∧
            exec (e.1 n k m vd va vb) s = .next (after t n 2 (vecTook v p false .vxu 3 false (regsOf vd.val g)))) ∧
      (∀ dn : Fin 16, Accepts c .vxu false (maskReg m ++ regsOf va.val g) (regsOf vd.val g) →
        let sl := (c.dreg dn.val).toNat
        (apart vd.val g va.val g = true → ∃ v p, VecWrites c v p vd.val w c.vlmax (fun i => Performed c m i ∧ sl ≤ i) (fun i => el (i - sl))
            (fun i => c.gmark m i || c.vmark va.val w (i - sl)) ∧
          exec (.vslideup n k m vd va dn) s = .next (after t n 2 (vecTook v p false .vxu 3 false (regsOf vd.val g)))) ∧
        ∃ v p, VecWrites c v p vd.val w c.vlmax (Performed c m) (fun i => if i + sl < c.vlen then el (i + sl) else 0)
            (fun i => c.gmark m i || (decide (i + sl < c.vlen) && c.vmark va.val w (i + sl))) ∧
          exec (.vslidedown n k m vd va dn) s = .next (after t n 2 (vecTook v p false .vxu 3 false (regsOf vd.val g)))) ∧
      (fits vb g → apart vd.val g va.val g = true → apart vd.val g vb.val g = true →
        Accepts c .vxu true (maskReg m ++ regsOf va.val g ++ regsOf vb.val g) (regsOf vd.val g) →
        let ix := c.vel vb.val w
        ∃ v p, VecWrites c v p vd.val w c.vlmax (Performed c m) (fun i => if ix i < c.vlmax then el (ix i) else 0)
            (fun i => c.gmark m i || c.vmark vb.val w i || (decide (ix i < c.vlmax) && c.vmark va.val w (ix i))) ∧
          exec (.vgatherv n k m vd va vb) s = .next (after t n 2 (vecTook v p false .vxu 1 true (regsOf vd.val g)))) ∧
      (apart vd.val g va.val g = true → apart vd.val g vb.val 1 = true →
        Accepts c .vxu true (vb.val :: regsOf va.val g) (regsOf vd.val g) →
        let is := (List.range c.vlen).filter (fun i => c.mbit vb.val i)
        ∃ v p, VecWrites c v p vd.val w c.vlmax (fun i => i < is.length ∧ c.prog.toNat < c.vlen) (fun i => el (is.getD i 0))
            (fun i => c.vmark va.val w (is.getD i 0) || (List.range (is.getD i 0 + 1)).any (fun j => c.mmark vb.val j)) ∧
          exec (.vcompress n k vd va vb) s = .next (after t n 2 (vecTook v p false .vxu 1 true (regsOf vd.val g))))) ∧
    (Ready s t n k 2 → ∀ (tf : BitVec 5) (a b : Option Fmt) (modes : List Bool), cvtTable[fld tf 0 4]? = some (a, b, modes) →
      tf.getLsbD 4 ∈ modes →
      let wa := a.elim 32 Fmt.bits
      let wb := b.elim 32 Fmt.bits
      let ww := max wa wb
      let ka := max 1 (g * wa / ww)
      let kb := max 1 (g * wb / ww)
      let r (i : Nat) : Nat × Bool := cvtSpec a b (tf.getLsbD 4) (c.vel va.val wa i)
      c.vlen ≤ 4096 * g / ww → fits va ka → fits vd kb → (wa ≠ wb → apart vd.val kb va.val ka = true) →
      Accepts c .vfma false (maskReg m ++ regsOf va.val ka) (regsOf vd.val kb) →
      ∃ v p sat, (sat = true ↔ ∃ i, Performed c m i ∧ (r i).2 = true) ∧
        VecWrites c v p vd.val wb (4096 * g / ww) (Performed c m) (fun i => (r i).1) (fun i => c.gmark m i || c.vmark va.val wa i) ∧
        exec (.vcvt n k m vd va tf) s = .next (after t n 2 (vecTook v p sat .vfma 4 false (regsOf vd.val kb)))) ∧
    (c.vlen ≤ c.vlmax → fits vd g → Ready s t n k 4 →
      (∀ dk ds dt db : Fin 16, quadReg dk.val = true → evenReg ds.val = true → evenReg dt.val = true → evenReg db.val = true →
        Accepts c .vmul false (maskReg m) (regsOf vd.val g) →
        ∃ v p, VecWrites c v p vd.val w c.vlmax (Performed c m) (fun i => drawEl c.et w (drawSpec (c.dquad dk.val).toNat (c.dpair ds.val).toNat
            (c.dpair dt.val).toNat (((c.dpair db.val).toNat + i) % 2 ^ 32))) (fun i => c.gmark m i) ∧
          exec (.vgen n k m vd dk ds dt db) s = .next (after t n 4 (vecTook v p false .vmul 4 false (regsOf vd.val g)))) ∧
      (∀ (vp : Fin 32) (kf : BitVec 6) (seg : BitVec 13), fits vp g → fits va g → (m = true → vp ≠ 0) → seg.toNat ≤ 4096 →
        let kk := kf.toNat + 1
        let len := if seg = 0 then c.vlen else seg.toNat
        let segs := if seg = 0 then 1 else (c.vlen + seg.toNat - 1) / seg.toNat
        segs * kk ≤ c.vlmax → segs * kk ≤ 256 * g → apart vd.val g vp.val g = true → apart vd.val g va.val g = true →
        apart vp.val g va.val g = true → Accepts c .vxu true (maskReg m ++ regsOf va.val g) (regsOf vd.val g ++ regsOf vp.val g) →
        let x (j q : Nat) : Nat := el (j * len + q)
        let cand (j : Nat) : List Nat := (List.range len).filter (fun q => decide (j * len + q < c.vlen) && (!m || c.mbit 0 (j * len + q)))
        let mark (i : Nat) : Bool := (List.range len).any (fun q => decide (i / kk * len + q < c.vlen) && c.gmark m (i / kk * len + q)) ||
          (cand (i / kk)).any (fun q => c.vmark va.val w (i / kk * len + q))
        ∃ (best : Nat → List Nat) (v1 v : Store Word) (p1 p : Store Bool),
          (∀ j, (best j).Perm (cand j) ∧ (best j).Pairwise (fun q r =>
            ranks c.et w (x j q) (x j r) = true ∨ (ranks c.et w (x j r) (x j q) = false ∧ q < r))) ∧
          VecWrites c v1 p1 vd.val w c.vlmax (fun i => i < segs * kk ∧ c.prog.toNat < c.vlen)
            (fun i => ((best (i / kk))[i % kk]?).elim ((etFmt c.et).elim (2 ^ (w - 1)) Fmt.canon) (x (i / kk))) mark ∧
          VecWrites { c with v := v1, vpsn := p1 } v p vp.val 16 (256 * g) (fun i => i < segs * kk ∧ c.prog.toNat < c.vlen)
            (fun i => ((best (i / kk))[i % kk]?).getD 0xFFFF) mark ∧
          exec (.vtopk n k m vd vp va kf seg) s =
            .next (after t n 4 (vecTook v p false .vxu 1 true (regsOf vd.val g ++ regsOf vp.val g))))) ∧
    (c.vlen ≤ c.vlmax → Ready s t n k 4 → ∀ nl : BitVec 3, let l := nl.toNat + 1
      c.et = 2 → g ≤ 4 → fits vd (2 * g) → va.val % g = 0 → va.val + l * g ≤ 32 → fits vb g → apart vd.val (2 * g) va.val (l * g) = true →
      apart vd.val (2 * g) vb.val g = true → Accepts c .vfma false (regsOf va.val (l * g) ++ regsOf vb.val g) (regsOf vd.val (2 * g)) →
      let sum (i : Nat) : Int := ((List.range l).map (fun j => sval 32 (c.vel (va.val + j * g) 32 i) * 2 ^ (8 * (l - 1 - j)))).sum
      ∃ v p, VecWrites c v p vd.val 64 c.vlmax (Performed c false)
          (fun i => fp64.round (.fin (decide (sum i < 0)) (sum i).natAbs (sval 32 (c.vel vb.val 32 i) - 8 * (l - 1 : Nat))))
          (fun i => c.vmark vb.val 32 i || (List.range l).any (fun j => c.vmark (va.val + j * g) 32 i)) ∧
        exec (.vscomb n k vd va vb nl) s = .next (after t n 4 (vecTook v p false .vfma 6 false (regsOf vd.val (2 * g)))))

/-- R160, R164, R169, R174 to R177, R194, Table 6-8: the loads and stores of local memory in every form. A load gives each performed element the
bytes at its address; a store puts each there, the highest index last, and leaves every other byte. While an entry waits that the core can take,
a serialising form may also stop before an element, with PROG at it (R147); which of the two happens is free (assumption log 38). -/
def Obligations.VectorLoadsAndStores : Prop :=
  ∀ (s t : State) (n : Nat) (k : Cond) (m : Bool) (vd : Fin 32) (an : Fin 8) (up : Bool) (dk : Fin 16) (nf : BitVec 2) (vi : Fin 32),
    Ready s t n k 2 → t.latent = [] →
    ∀ e ∈ vecForms n k m vd an up dk nf vi, let c := t.core n
      let g := c.grp
      let w := c.sew
      let a := c.areg an.val
      let ctl := maskReg m ++ e.idx.elim [] (fun v => regsOf v (idxGroup c))
      let data := regsOf vd.val (e.nf * g)
      let at_ (i f j : Nat) : Nat := formByte e c n a i f + j
      let upd (c : Core) : Core := if up then c.send 1 (.a an.val) (a + BitVec.ofNat 64 (e.span c)) else c
      (∀ i f, Performed c m i → f < e.nf → t.lsTarget (e.ea c a i f) (max 1 (w / 16)) = .local_) →
      (∀ i v, Performed c m i → e.idx = some v → c.vmark v 32 i = false) →
      let mayStop : Prop := e.serial = true ∧ t.entryWaits n = true
      let stops (i : Instr) : Prop := ∃ u, exec i s = .next u ∧
        ((∃ i, Performed c m i ∧ (u.core n).prog = BitVec.ofNat 32 i ∧ (u.core n).pc = c.pc ∧ (u.core n).vserial = false) ∨
          (u.core n).prog = 0 ∧ (u.core n).vserial = true)
      (FormFits e c true m vd up dk → Accepts c .vls e.serial ctl data → mayStop → c.vlen ≠ 0 → stops e.ld) ∧
      (FormFits e c false m vd up dk → Accepts c .vls e.serial (ctl ++ data) [] → mayStop → c.vlen ≠ 0 → stops e.st) ∧
      (FormFits e c true m vd up dk → Accepts c .vls e.serial ctl data → ¬ mayStop →
        ∃ v p, (∀ f < e.nf, ∀ i < c.vlmax, let new := Core.vel { c with v := v } (vd.val + f * g) w i
            (Performed c m i → new = natOfBytes ((List.range (w / 8)).map (fun j => t.byte (at_ i f j)))) ∧
            (¬ Performed c m i → new = c.vel (vd.val + f * g) w i) ∧
            (Performed c m i → (c.gmark m i = true ∨ t.poisoned (at_ i f 0 / 2) = true) →
              Core.vmark { c with vpsn := p } (vd.val + f * g) w i = true)) ∧
          (∀ x, (x < 256 * vd.val ∨ 256 * (vd.val + e.nf * g) ≤ x) → look 0 v x = look 0 c.v x) ∧
          exec e.ld s = .next (after t n 2 (fun c => vecTook v p false .vls (if e.serial then 1 else 6) e.serial data (upd c)))) ∧
      (FormFits e c false m vd up dk → Accepts c .vls e.serial (ctl ++ data) [] → ¬ mayStop →
        ∃ mm pp uf, let u := { t.modCore n (fun c => { c with unfetched := uf }) with mem := mm, psn := pp }
          uf.Sublist c.unfetched ∧
          (∀ x, x ∈ uf ↔ x ∈ c.unfetched ∧ ∀ i f j, Performed c m i → f < e.nf → j < w / 8 → at_ i f j / 2 ≠ x.addr) ∧
          (∀ i f j, Performed c m i → f < e.nf → j < w / 8 →
            (∀ i' f' j', Performed c m i' → f' < e.nf → j' < w / 8 → at_ i' f' j' = at_ i f j → i' ≤ i) →
            (u.byte (at_ i f j)).toNat = c.vel (vd.val + f * g) w i / 2 ^ (8 * j) % 256) ∧
          (∀ x, (∀ i f j, Performed c m i → f < e.nf → j < w / 8 → at_ i f j ≠ x) → u.byte x = t.byte x) ∧
          exec e.st s = .next (after u n 2 (fun c => vecTook c.v c.vpsn false .vls 1 e.serial [] (upd c))))

/-! ## The feeder and what interrupts a core -/

/-- R136, R288 to R290, R292, R294, R301: an mcopy of words that one DRAM frame of 2,048 words holds on each side, with translation off, places
one block and completes; a held one completes as its last block is placed; the block then copies its words and nothing else, and the
mcopy's signal follows; and a stream that is all placed is run ahead of by a block. -/
def Obligations.McopyAndItsBlocks : Prop :=
  (∀ (s t : State) (n : Nat) (k : Cond) (ad as_ : Fin 8) (dn dm : Fin 16) (sg : Bool), Ready s t n k 2 → evenReg dn.val = true →
    let c := t.core n
    let a := c.areg as_.val
    let d := c.areg ad.val
    let cnt := (c.dpair dn.val).toNat
    let sem := if sg then some (c.dreg dm.val) else none
    c.prog = 0 →
    (cnt = 0 → (sg = true → (t.sem (c.dreg dm.val).toNat).mark = false ∧ (t.sem (c.dreg dm.val).toNat).count.toNat < 0x7FFFFFFF) →
      (∀ f ∈ c.fops, f.id < c.nextId) → (∀ b ∈ c.blocks, b.fop < c.nextId) →
      let u := t.modCore n (fun c => { c with nextId := c.nextId + 1 })
      let q := (c.dreg dm.val).toNat
      exec (.mcopy n k ad as_ dn dm sg) s = .next (after (if sg then counted u q ((t.sem q).count.toNat + 1) 1 else u) n 2 id)) ∧
    (0 < cnt → c.fops = [] → c.blocks = [] → t.xlOn n c.sup = false → t.isHere a = true → t.isHere d = true → t.tierOk (physOf n (localOf a)) = true →
      t.tierOk (physOf n (localOf d)) = true → a.toNat % 2048 + cnt ≤ 2048 → d.toNat % 2048 + cnt ≤ 2048 →
      let pa := physOf n (localOf a)
      let pd := physOf n (localOf d)
      let r : Run := { va := a, addr := BitVec.ofNat 64 pa, len := cnt, leaf := none }
      let w : Run := { va := d, addr := BitVec.ofNat 64 pd, len := cnt, leaf := none }
      exec (.mcopy n k ad as_ dn dm sg) s = .next (after t n 2 (fun c => { c with
        fops := [FOp.mk c.nextId (.mcopy a d cnt sem c.sup) cnt true false false [] []],
        blocks := [Block.mk (c.nextId + 1) c.nextId 0 cnt [r] [w] (t.banksOf [r, w]) [] [] [] [] false none],
        nextId := c.nextId + 2, runAhead := c.runAhead.take 63 })))) ∧
  (∀ (s : State) (n id : Nat) (a d : W64) (cnt : Nat) (sem : Option Word) (sup : Bool) (f : FOp), On s → n < 192 →
    f.kind = .mcopy a d cnt sem sup → f.failed = false → f.cut = false →
    (let c := s.core n
      let x := a + BitVec.ofNat 64 f.next
      let y := d + BitVec.ofNat 64 f.next
      let len := cnt - f.next
      c.fops = [f] → f.placed = false → f.next < cnt → c.hold = some .mcopy → c.blocks.length < 16 → s.xlOn n sup = false →
      s.isHere x = true → s.isHere y = true → s.tierOk (physOf n (localOf x)) = true → s.tierOk (physOf n (localOf y)) = true →
      x.toNat % 2048 + len ≤ 2048 → y.toNat % 2048 + len ≤ 2048 →
      ∃ b : Block, b.id = c.nextId ∧ b.fop = f.id ∧ b.start = f.next ∧ b.len = len ∧ b.tags = [] ∧ b.fail = none ∧
        b.srcs = [{ va := x, addr := BitVec.ofNat 64 (physOf n (localOf x)), len := len, leaf := none }] ∧
        b.dsts = [{ va := y, addr := BitVec.ofNat 64 (physOf n (localOf y)), len := len, leaf := none }] ∧
        exec (.feederBlockPlace n) s = .next (s.modCore n (fun c => Core.retire { c with
          fops := [{ f with next := cnt, placed := true }], blocks := c.blocks ++ [b], nextId := c.nextId + 1,
          runAhead := c.runAhead.take (63 - c.blocks.length), hold := none } c.hlen))) ∧
    (∀ (b : Block) (pa pd len : Nat), (s.core n).fops = [f] → (s.core n).blocks = [b] → f.placed = true →
      (∀ x ∈ (pa, len) :: f.rd, ∀ y ∈ (pd, len) :: f.wr, x.1 + x.2 ≤ y.1 ∨ y.1 + y.2 ≤ x.1) → b.id = id →
      b.fop = f.id → b.tags = [] → b.fail = none → s.snoop = [] → s.latent = [] → pa + len ≤ 2 ^ 44 → pd + len ≤ 2 ^ 44 →
      b.srcs = [{ va := a, addr := BitVec.ofNat 64 pa, len := len, leaf := none }] →
      b.dsts = [{ va := d, addr := BitVec.ofNat 64 pd, len := len, leaf := none }] →
      (∀ q, sem = some q → (s.sem q.toNat).mark = false ∧ (s.sem q.toNat).count.toNat < 0x7FFFFFFF) →
      ∃ t, exec (.feederBlockComplete n id) s = .next t ∧ (t.core n).fops = [] ∧ (t.core n).blocks = [] ∧
        (∀ i < len, t.word (pd + i) = s.word (pa + i) ∧ (cwOf (pd + i) = pd + i → cwLen (pd + i) + i ≤ len →
          t.poisoned (pd + i) = (List.range (cwLen (pd + i))).any (fun j => s.poisoned (pa + i + j)))) ∧
        (∀ x, (x < 2 * pd ∨ 2 * (pd + len) ≤ x) → t.byte x = s.byte x) ∧ t.regs = s.regs ∧
        (∀ q, sem = some q → t.sems = (counted s q.toNat ((s.sem q.toNat).count.toNat + 1) 1).sems)) ∧
    (∀ b : Block, (s.core n).fops = [f] → (s.core n).blocks = [b] → f.placed = true → b.fop = f.id →
      (s.core n).runAhead = [] → s.xlOn n sup = false →
      let last := a + BitVec.ofNat 64 (cnt - 1)
      s.isHere last = true →
      let x := localOf last / 2048 * 2048 + 2048
      x / 65536 = localOf last / 65536 → tableTier x = true → s.tierOk x = true →
      exec (.runAhead n) s = .next (s.modCore n (fun c => { c with runAhead := [x / 2048] }))))

/-- R141, R144 to R146, R148, R194, R303, R305, Tables 5-4 and 10-6: the end of a table walk, with a leaf of level 3 or level 2 or an entry that
is not valid; an interrupt, which is the lowest bit that is pending and enabled; and a deferred fault, the oldest first. Where the instruction
at the boundary faults in its fetch or in an early check, that fault is taken first (State.boundary); an illegal encoding there is one. That no fault of the
instruction comes first while issue holds on it is the model's choice (assumption log 35). -/
def Obligations.WalksInterruptsAndDeferredFaults : Prop :=
  ∀ (s : State) (n : Nat), On s → n < 192 →
    (∀ (va : W64) (b : Bool), (s.core n).hold = some (.walk va b) → s.snoop = [] → s.latent = [] → s.tlbFind n (localOf va) = none →
      let v := localOf va
      let a1 := s.xroot n + 8 * (v / 2 ^ 34 % 1024)
      let e1 := s.entryAt a1
      let a2 := entPa e1 + 8 * (v / 2 ^ 25 % 512)
      let e2 := s.entryAt a2
      let a3 := entPa e2 + 8 * (v / 2 ^ 16 % 512)
      let e3 := s.entryAt a3
      let reach (base a : Nat) : Prop := tableTier base = true ∧ s.tableOk a = true ∧ s.poisoned a = false ∧ s.poisoned (a + 4) = false
      let valid (e : BitVec 128) (leaf : Bool) : Prop := e.getLsbD 63 = true ∧ e.getLsbD 62 = leaf ∧ fld e 108 4 = 0 ∧ fld e 44 13 = 0
      let next (e : BitVec 128) : Prop := valid e false ∧ entPa e % 4096 = 0
      let fills (x : TlbEntry) : Prop := exec (.tableWalk n) s =
        .next (s.modCore n (fun c => { c with tlb := (x :: c.tlb).take 256, hold := none, walked := true }))
      reach (s.xroot n) a1 →
      (e1.getLsbD 63 = false →
        exec (.tableWalk n) s = .next ((s.modCore n (fun c => { c with hold := none })).syncFault n .pageFault va)) ∧
      (next e1 → reach (entPa e1) a2 →
        (valid e2 true → leafOk e2 true = true → fills { vpage := v / 2 ^ 25 * 2 ^ 25, big := true, entry := e2, leaf := a2 }) ∧
        (next e2 → reach (entPa e2) a3 → valid e3 true → leafOk e3 false = true →
          fills { vpage := v / 2 ^ 16 * 2 ^ 16, big := false, entry := e3, leaf := a3 }))) ∧
    (let c := s.core n;
      (c.dst = .run ∨ c.dst = .task) → s.bitReg (rRun n) 0 = false → c.stopReq = false → c.resetting = false → c.masked = false →
      c.record.length < 15 → c.redirect = none → c.walked = false →
      (c.hold = none ∨ (∃ m, c.hold = some (.fence m)) ∨ (∃ x y, c.hold = some (.wait false x y)) ∨ c.hold = some .mcopy) →
      let on (i : Nat) : Bool := c.ien.getLsbD i && (if i = 2 then s.pageIrqTo n else c.ipend.getLsbD i);
      (c.hold ≠ none → s.boundary n = none) ∧
      (c.deferred = [] → s.vecResumed n = false → ∀ i, on i = true → (∀ j < i, on j = false) →
        ∀ cause, [Cause.preempt, .doorbell, .page, .swi, .pyro][i]? = some cause →
        (s.boundary n = none → exec (.interruptEntry n) s =
          .next ((s.abandon n).enter n cause { kind := 2, code := 0, faddr := 0, opid := 0, tsw := 0 })) ∧
        (∀ u, s.boundary n = some u → exec (.interruptEntry n) s = .next u)) ∧
      (s.vecResumed n = true → exec (.interruptEntry n) s = .next s) ∧
      (∀ d r, c.deferred = d :: r → (∀ u, s.boundary n = some u → exec (.deferredFaultEntry n) s = .next u) ∧
        (s.boundary n = none → ∃ tsw, exec (.deferredFaultEntry n) s =
          .next (((s.abandon n).modCore n (fun c => { c with deferred := r })).enter n d.cause
            (EntryInfo.mk 1 0 d.faddr (BitVec.ofNat 32 (d.op.toNat * 2 ^ 28 + d.susp.elim 0 (fun t => 2 ^ 31 + t))) tsw)) ∧
        (d.susp = none → tsw = 0)))) ∧
    (s.instrAt n = none → s.issues n = true → (s.core n).peek = false → ∃ u, s.boundary n = some u) ∧
    ((s.core n).deferred = [] → exec (.deferredFaultEntry n) s = .next s)

/-! ## Tiles and arrays -/

/-- R219 to R221, R223, R225 to R227, R235, R239, R241 to R244, R250, Tables 8-4, 8-6, 8-7: when a tile instruction issues, the operation
that enters the Setter, and what it captures. -/
def Obligations.TileInstructionsEnterTheSetter : Prop :=
  (∀ (c : Core) (o : SOp), let d := c.enterSetter o
    (∃ l rel ri kw ka, d.setter = l ++
        [SEntry.mk c.nextId o ((o.readT ++ o.writeT).map (fun t => (t, c.shape t))) .waiting rel ri 0 0 0 [] [] [] none kw ka] ∧
      l.map (fun e => { e with keptW := none, keptA := none }) = c.setter.map (fun e => { e with keptW := none, keptA := none }) ∧
      (o.writeT = [] → l = c.setter) ∧
      ((∀ q tw ta w, o ≠ .mma q tw ta w) → rel = false ∧ ri = false ∧ kw = none ∧ ka = none) ∧
      (∀ q tw ta w, o = .mma q tw ta w → ∀ hw ha, (c.arr q).shelfW = some hw → (c.arr q).shelfA = some ha → hw.t = tw → ha.t = ta →
        hw.since ≤ c.nextId → ha.since ≤ c.nextId → hw.upTo = none → ha.upTo = none → rel = true)) ∧
    d.nextId = c.nextId + 1 ∧ d.tiles = c.tiles ∧ d.v = c.v ∧ d.d = c.d ∧ d.a = c.a ∧ d.sr = c.sr ∧ d.shapeI = c.shapeI ∧
    ∀ q < 4, ∀ h, (c.arr q).shelfW = some h → (d.arr q).acc = (c.arr q).acc ∧ (d.arr q).shelfW = some { h with
      upTo := if h.t ∈ o.writeT then some (min (h.upTo.getD c.nextId) c.nextId) else h.upTo
      idxTo := if h.idx ≠ none ∧ h.t + 1 ∈ o.writeT then some (min (h.idxTo.getD c.nextId) c.nextId) else h.idxTo }) ∧
  (∀ (h : W32), shapeOk h = true ↔
    (let f := h.toNat / 2 ^ 28
     let nr := h.toNat / 2 ^ 16 % 128
     let nc := h.toNat % 512
     let bs := h.getLsbD 27
     let sp := h.getLsbD 26
     f ≤ 9 ∧ h.toNat / 2 ^ 23 % 8 = 0 ∧ h.toNat / 2 ^ 9 % 128 = 0 ∧ 1 ≤ nr ∧ nr ≤ 64 ∧ 1 ≤ nc ∧
     nc ≤ [128, 128, 128, 256, 64, 64, 32, 32, 16, 64].getD f 0 ∧ (bs = true → (f = 1 ∨ f = 3) ∧ nc % 32 = 0) ∧
     (sp = true → f ∈ [0, 1, 2, 4, 5] ∧ nc % 8 = 0) ∧ (bs = true → sp = false))) ∧
  (∀ (s t : State) (n : Nat) (k : Cond) (x : Fin 64),
    let c := t.core n
    let enters (i : Instr) (o : SOp) : Prop := exec i s = .next (after t n 2 (fun c => c.enterSetter o))
    c.setter.length < 32 →
    (Ready s t n k 2 →
      (∀ dn : Fin 16, evenReg dn.val = true →
        (shapeOk (c.dpair dn.val) = true → exec (.tcfg n k x dn) s =
          .next (after t n 2 (fun c => (c.enterSetter (.tcfg x.val (c.dpair dn.val))).setShape x.val (c.dpair dn.val)))) ∧
        (shapeOk (c.dpair dn.val) = false → exec (.tcfg n k x dn) s = .next (t.syncFault n .tileShape 0))) ∧
      enters (.tzero n k x) (.tzero x.val) ∧
      (∀ (vd : Fin 32) (i : BitVec 2), enters (.tmeta n k x vd i) (.tmeta vd.val x.val i.toNat)) ∧
      (∀ (v : Fin 32) (row : BitVec 6), let r := 2 * row.toNat
        (r % 4 = 0 ∧ r + 4 * c.grp ≤ 64 ∧ v.val % c.grp = 0 ∧ v.val + c.grp ≤ 32) →
        enters (.tmvTv n k x v row) (.tmvTv v.val x.val r c.grp) ∧
        (Accepts c .valu false (regsOf v.val c.grp) [] →
          enters (.tmvVt n k x v row) (.tmvVt x.val r ((List.range (256 * c.grp)).map (fun i => look 0 c.v (256 * v.val + i)))
            ((List.range (64 * c.grp)).map (fun i => look false c.vpsn (64 * v.val + i)))))) ∧
      (∀ v : Fin 32, Accepts c .valu false [v.val] [] →
        enters (.tmask n k x v) (.tmask x.val (BitVec.ofNat 64 (c.vel v.val 64 0)) (c.vmark v.val 64 0))) ∧
      (∀ an : Fin 8, let a := c.areg an.val; let g : TArgs := TArgs.mk 0 0 a 0 0 0 0 true
        ∀ p ∈ [(Instr.tsave, SOp.tsave), (Instr.trest, SOp.trest)],
          (c.sup = false → exec (p.1 n k x an) s = .next (t.syncFault n .privilege 0)) ∧
          (c.sup = true → a.toNat % 4 ≠ 0 → exec (p.1 n k x an) s = .next (t.syncFault n .misaligned a)) ∧
          (c.sup = true → a.toNat % 4 = 0 → enters (p.1 n k x an) (p.2 x.val g)))) ∧
    (Ready s t n k 4 → ∀ (an : Fin 8) (dk : Fin 16) (up : Bool) (w : BitVec 32), evenReg dk.val = true →
      let h := c.shape x.val
      let f := shFmt h
      let tr := w.getLsbD 31
      let rows := if tr then shNc h else shNr h
      let els := if tr then shNr h else shNc h
      let p1 (lop : Nat) : W32 := BitVec.ofNat 32 (Machine.Cond.code k * 2 ^ 28 + 63 * 2 ^ 22 + lop * 2 ^ 16 + x.val * 2 ^ 10 + an.val * 2 ^ 7 + dk.val * 2 ^ 3 +
        (if up then 4 else 0))
      let fin (o : SOp) : Host.Outcome State Fault Refusal := .next (after t n 4 (fun c =>
        if up then (c.enterSetter o).send 1 (.a an.val) (c.areg an.val + BitVec.ofNat 64 rows * (c.dpair dk.val).signExtend 64)
        else c.enterSetter o))
      ((tr = true → shBs h = false ∧ shSp h = false) → w.toNat / 64 % 4 = 0 → w.getLsbD 0 = false →
        let m := w.toNat / 2 ^ 25 % 16
        let sl := w.toNat / 2 ^ 22 % 8
        let sat := w.getLsbD 29
        let scv := w.getLsbD 21
        (scv = true ∨ w.toNat / 2 ^ 15 % 64 = 0) → (w.getLsbD 5 = true ∨ w.toNat / 2 % 16 = 0) → (shBs h = true ∨ w.toNat / 2 ^ 8 % 128 = 0) →
        (sl = 0 → ((m ≤ 9 ∧ m = f) ∨ (shSp h = false ∧ ((m, f) ∈ [(4, 5), (5, 4), (6, 4), (6, 5)] ∨
            (sat = false ∧ ((m, f) ∈ [(4, 6), (5, 6), (10, 0)] ∨ ((m, f) ∈ [(11, 1), (12, 1)] ∧ shBs h = true)))))) ∧
          (scv = true → f ∈ [1, 2, 5] ∧ shBs h = false)) →
        (sl ≠ 0 → m = 8 ∧ sat = false ∧ scv = false ∧ x.val + sl ≤ 63 ∧ ∀ i ≤ sl, let y := c.shape (x.val + i)
          shFmt y = 0 ∧ shBs y = false ∧ shSp y = false ∧ shNr y = shNr h ∧ shNc y = shNc h) →
        exec (.tld n k x an dk up w) s = fin (.tld x.val (TArgs.mk (p1 0x20) w (c.areg an.val) (c.dpair dk.val) (c.dreg (w.toNat / 2 ^ 8 % 16))
          (c.dreg (w.toNat / 2 % 16)) (c.areg (w.toNat / 2 ^ 12 % 8)) c.sup))) ∧
      ((tr = true → shBs h = false ∧ shSp h = false) → w.toNat / 32 % 128 = 0 →
        let m := w.toNat / 2 ^ 26 % 16
        let sat := w.getLsbD 30
        let scv := w.getLsbD 25
        let writes := shBs h = true ∨ m ∈ [3, 11, 12] ∧ m ≠ f
        (scv = true ∨ w.toNat / 2 ^ 19 % 64 = 0) → (w.getLsbD 4 = true ∨ w.toNat % 16 = 0) → (writes ∨ w.toNat / 2 ^ 12 % 128 = 0) →
        ((m ≤ 9 ∧ m = f ∧ scv = false) ∨ (shSp h = false ∧ ((m, f) ∈ [(5, 6), (1, 6), (1, 4), (2, 6), (2, 4)] ∨
          ((m, f) = (4, 6) ∧ scv = false) ∨ ((m, f) = (10, 0) ∧ sat = false ∧ scv = false) ∨
          (m ∈ [3, 11, 12] ∧ f ∈ [4, 6] ∧ scv = true ∧ sat = false ∧ els % 32 = 0)))) →
        exec (.tileStore n k x an dk up w) s = fin (.tst x.val (TArgs.mk (p1 0x21) w (c.areg an.val) (c.dpair dk.val)
          (c.dreg (w.toNat / 2 ^ 12 % 16)) (c.dreg (w.toNat % 16)) (c.areg (w.toNat / 2 ^ 16 % 8)) c.sup)))))

/-- R220, R224, R230 to R232, R237, R241 to R243, R246, Tables 8-9 and 8-10: the effect of the tile operations that move no memory as the
Setter fires them, and of a tile load that copies dense rows which one feeder block holds: the end of the block completes it. -/
def Obligations.TileOperationsTakeEffect : Prop :=
  ∀ (s : State) (n : Nat) (e : SEntry), On s → n < 192 → (s.core n).setter = [e] →
    let c := s.core n
    (e.phase = .waiting → c.fops = [] →
      let fires (f : Core → Core) : Prop := exec (.setterFire n e.id) s = .next (s.modCore n (fun c => { f c with setter := [] }))
      (∀ t h, e.op = .tcfg t h → fires (fun c => c.setTile t (Tile.mk (c.tile t).data [] h ((c.tile t).tsw &&& ~~~0xFF80) 0
        (BitVec.allOnes 64) (c.tile t).pm))) ∧
      (∀ t, e.op = .tzero t → fires (fun c => c.setTile t (Tile.mk [] [] (c.tile t).shape ((c.tile t).tsw &&& ~~~0xFF80) (BitVec.allOnes 64)
        (c.tile t).rm 0))) ∧
      (∀ t m p, e.op = .tmask t m p → fires (fun c => c.setTile t (Tile.mk (c.tile t).data (c.tile t).side (c.tile t).shape (c.tile t).tsw
        (c.tile t).zm m (if p then BitVec.allOnes 64 else (c.tile t).pm)))) ∧
      (∀ t row g ws ms, e.op = .tmvVt t row ws ms → ws.length = 256 * g → ms.length = 64 * g → row + 4 * g ≤ 64 →
        ∃ y : Tile, fires (fun c => c.setTile t y) ∧ y.side = (c.tile t).side ∧ y.shape = (c.tile t).shape ∧ y.tsw = (c.tile t).tsw ∧
          y.rm = (c.tile t).rm ∧ ∀ r < 64,
          if row ≤ r ∧ r < row + 4 * g then
            y.zm.getLsbD r = false ∧ (y.pm.getLsbD r = true ↔ ∃ j < 16, ms[16 * (r - row) + j]? = some true) ∧
            ∀ i < 64, ws[64 * (r - row) + i]? = some (look 0 y.data (64 * r + i))
          else y.zm.getLsbD r = (c.tile t).zm.getLsbD r ∧ y.pm.getLsbD r = (c.tile t).pm.getLsbD r ∧
            ∀ i < 64, look 0 y.data (64 * r + i) = look 0 (c.tile t).data (64 * r + i)) ∧
      (∀ vd t row g, e.op = .tmvTv vd t row g → ∃ v p, fires (fun c => { c with v := v, vpsn := p }) ∧
        (∀ i, look 0 v i = if 256 * vd ≤ i ∧ i < 256 * (vd + g) then look 0 (c.tile t).data (64 * row + (i - 256 * vd)) else look 0 c.v i) ∧
        (∀ i, look false p i = if 64 * vd ≤ i ∧ i < 64 * (vd + g) then (c.tile t).pm.getLsbD (row + (i - 64 * vd) / 16) else look false c.vpsn i)) ∧
      (∀ vd t k, e.op = .tmeta vd t k → ∃ v p, fires (fun c => { c with v := v, vpsn := p }) ∧
        (∀ i, look 0 v i = if 256 * vd ≤ i ∧ i < 256 * (vd + 1) then (let j := i - 256 * vd
          let x := c.tile t
          if k < 3 then (if j < 4 then (if k = 0 then x.zm else if k = 1 then x.rm else x.pm).extractLsb' (16 * j) 16 else 0)
          else if j < 64 then look 0 x.side j else 0) else look 0 c.v i) ∧
        (∀ i, look false p i = if 64 * vd ≤ i ∧ i < 64 * (vd + 1) then false else look false c.vpsn i))) ∧
    (∀ (t : Nat) (a : TArgs) (f : FOp) (b : Block) (pa : Nat → Nat), e.op = .tld t a → e.phase = .fired → c.fops = [f] → c.blocks = [b] →
      f.kind = .setter e.id → b.fop = f.id → b.start = 0 → b.tags = [] → b.fail = none → b.dsts = [] → s.snoop = [] → s.latent = [] →
      e.base = 0 → e.done = 0 → e.rows = [] → e.flags = [] →
      let h := e.shapeOf t
      let els := shNc h
      let nr := shNr h
      let w := tileW (shFmt h)
      let len := (els * w + 15) / 16
      let row (i : Nat) : W64 := a.an + BitVec.ofNat 64 i * a.pitch.signExtend 64
      a.p2.getLsbD 31 = false → tldSl a.p2 = 0 → shBs h = false → shSp h = false → tldSrcf a.p2 = shFmt h → shFmt h ≤ 9 → 1 ≤ els →
      els * w ≤ 1024 → a.p2.getLsbD 5 = false → 1 ≤ nr → nr ≤ 64 → nr * len ≤ 2048 →
      (∀ i < nr, (row i).toNat / 2048 = (row 0).toNat / 2048 ∧ (row i).toNat % 2048 + len ≤ 2048 ∧ pa i + len ≤ 2 ^ 44) →
      b.srcs = (List.range nr).map (fun i => { va := row i, addr := BitVec.ofNat 64 (pa i), len := len, leaf := none }) →
      ∃ u y, exec (.feederBlockComplete n b.id) s = .next u ∧ (u.core n).blocks = [] ∧ (u.core n).setter = [] ∧ (u.core n).fops = [] ∧
        (u.core n).tile t = y ∧ (∀ k, k ≠ t → (u.core n).tile k = c.tile k) ∧ (∀ x, u.byte x = s.byte x) ∧ u.regs = s.regs ∧
        (∀ i < nr, (∀ j < els, elAt (y.row i) w j = elAt (natOfWords ((List.range len).map (fun k => s.word (pa i + k)))) w j) ∧
          (y.pm.getLsbD i = true ↔ (c.tile t).pm.getLsbD i = true ∨ ∃ k < len, s.poisoned (pa i + k) = true)) ∧
        (∀ k < 64, nr ≤ k → y.row k = (c.tile t).row k ∧ y.pm.getLsbD k = (c.tile t).pm.getLsbD k) ∧ y.tsw.getLsbD 7 = false ∧
        ∀ k < 64, y.zm.getLsbD k = if k < nr then
            a.p2.getLsbD 30 && !y.pm.getLsbD k && (List.range els).all (fun j => let x := elAt (y.row k) w j
              if shFmt h ∈ [0, 7, 9] then x == 0 else x % 2 ^ (w - 1) == 0)
          else (c.tile t).zm.getLsbD k)

/-- R252, R255, R256, R258, R264, R266, R270, R271, R273, R276 to R279, R281, Tables 9-1, 9-4 to 9-9: when an array or accumulator instruction
issues, the operation that enters the Setter, and what it faults with otherwise. -/
def Obligations.ArrayInstructionsEnterTheSetter : Prop :=
  ∀ (s t : State) (n : Nat) (k : Cond) (q : Fin 4), Ready s t n k 2 →
    let c := t.core n
    let x := c.arr q.val
    let typ (a : Nat) : Bool := look false x.accI a
    let held (a : Nat) : Prop := ∃ g < 8, let y := x.group g
      y.openI = true ∧ y.baseI ≤ a ∧ a ≤ y.baseI + (if y.treeI then Nat.clog 2 y.totI else 0)
    let into (gv : Bool) (g a : Nat) : Prop := if gv then (let y := x.group g
      y.openI = true ∧ y.baseI = a ∧ (y.treeI = true → y.usedI < y.totI)) else ¬held a
    let used (gv : Bool) (g : Nat) (x : Arr) : Arr := if gv then x.setGroup g { x.group g with usedI := (x.group g).usedI + 1 } else x
    let enters (i : Instr) (o : SOp) (f : Arr → Arr) : Prop := exec i s = .next (after t n 2 (fun c => (c.enterSetter o).modArr q.val f))
    let illegal (i : Instr) : Prop := exec i s = .next (t.syncFault n .illegalOp 0)
    let row (a : W64) (p : W32) (r : Nat) : W64 := a + BitVec.ofNat 64 r * p.signExtend 64
    (t.arrWidth n q.val = 0 → ∀ (tw ta x : Fin 64) (g : Fin 8) (a : Fin 32) (tr z i : Bool) (an : Fin 8) (dk dc : Fin 16),
      ∀ o ∈ [Instr.mma n k q tw ta dc, .accOpen n k q g a tr z i dc, .accClose n k q g, .accZero n k q a i, .accDrt n k q a x dc,
             .accDrm n k q a an dk dc, .accDrj n k q a dk dc, .accLd n k q a an dk dc],
        illegal o) ∧
    (t.arrWidth n q.val ≠ 0 → c.setter.length < 32 →
      (∀ (tw ta : Fin 64) (dc : Fin 16),
        let w := c.dreg dc.val
        let hw := c.shape tw.val
        let ha := c.shape ta.val
        let hx := c.shape (tw.val + 1)
        let spx := w.getLsbD 14
        let a := w.toNat % 32
        let g := w.toNat / 32 % 8
        let gv := w.getLsbD 8
        let ok : Prop := w.getLsbD 15 = false ∧
          (shFmt hw, shFmt ha) ∈ (if t.glaze then
            [(4, 4), (4, 5), (5, 4), (5, 5), (1, 1), (1, 2), (2, 1), (2, 2), (0, 0), (3, 3)] else [(4, 4), (0, 0)]) ∧
          shSp ha = false ∧ shNc ha = shNc hw ∧ (spx = true ∨ shSp hw = true → shNr ha % 2 = 0) ∧ shNr hw ≤ t.arrWidth n q.val ∧
          (spx = true → shFmt hw = 3 ∧ shSp hw = false ∧ tw.val < 63 ∧ shFmt hx = 0 ∧ shNr hx = shNr hw ∧ 4 * shNc hx = shNc hw) ∧
          (w.getLsbD 12 = true ∨ w.getLsbD 13 = true → shFmt hw = 0) ∧ (typ a = true ↔ shFmt hw = 0) ∧ into gv g a
        (ok → enters (.mma n k q tw ta dc) (.mma q.val tw.val ta.val w) (used gv g)) ∧
        (¬ok → illegal (.mma n k q tw ta dc))) ∧
      (∀ (g : Fin 8) (a : Fin 32) (tree z i : Bool) (dn : Fin 16),
        let b := (c.dreg dn.val).toNat + 1
        let d := if tree then Nat.clog 2 b else 0
        let ok : Prop := (x.group g.val).openI = false ∧ (tree = true → z = true ∧ a.val + d ≤ 31) ∧ (z = false → typ a.val = i)
        (¬ok → illegal (.accOpen n k q g a tree z i dn)) ∧
        (ok → (∃ j ≤ d, held (a.val + j)) → exec (.accOpen n k q g a tree z i dn) s = .next (t.syncFault n .accConflict 0)) ∧
        (ok → (∀ j ≤ d, ¬held (a.val + j)) → enters (.accOpen n k q g a tree z i dn) (.accOpen q.val g.val a.val tree z i b) (fun x =>
          let y := if z then { x with accI := (List.range (d + 1)).foldl (fun m j => put false m (a.val + j) i) x.accI } else x
          y.setGroup g.val (Machine.Group.mk true a.val tree i (if tree then b else 0) 0 (x.group g.val).base (x.group g.val).tree (x.group g.val).tot
            (x.group g.val).leaves)))) ∧
      (∀ g : Fin 8, let y := x.group g.val
        (y.openI = true ∧ (y.treeI = true → y.totI ≤ y.usedI) →
          enters (.accClose n k q g) (.accClose q.val g.val y.baseI (if y.treeI then Nat.clog 2 y.totI else 0))
            (fun x => x.setGroup g.val { x.group g.val with openI := false })) ∧
        (y.openI = false ∨ y.treeI = true ∧ y.usedI < y.totI → illegal (.accClose n k q g))) ∧
      (∀ (a : Fin 32) (i : Bool), (held a.val → illegal (.accZero n k q a i)) ∧ (¬held a.val →
        enters (.accZero n k q a i) (.accZero q.val a.val i) (fun x => { x with accI := put false x.accI a.val i }))) ∧
      (∀ (a : Fin 32) (dc : Fin 16),
        let w := c.dreg dc.val
        let sem := c.dreg (dc.val + 1)
        let half := w.getLsbD 13
        let scv := w.getLsbD 12
        let sat := w.getLsbD 14
        let m := w.toNat / 4 % 16
        let free : Prop := evenReg dc.val = true ∧ ¬held a.val ∧ w.getLsbD 0 = false
        (∀ x : Fin 64, let h := c.shape x.val
          let ok : Prop := free ∧ m = 0 ∧ shSp h = false ∧ shNr h = 64 ∧
            (if typ a.val then (shFmt h = 7 ∧ shBs h = false ∧ shNc h = 32 ∧ scv = false ∧ sat = false) ∨
                (shFmt h = 0 ∧ shBs h = false ∧ shNc h = 64 ∧ half = false ∧ scv = false ∧ sat = false)
              else (shFmt h = 6 ∧ shBs h = false ∧ shNc h = 32 ∧ scv = false ∧ sat = false) ∨
                (shNc h = 64 ∧ half = false ∧ ((shFmt h = 4 ∧ shBs h = false ∧ scv = false) ∨ (shFmt h ∈ [1, 2, 5] ∧ shBs h = false) ∨
                  (shFmt h = 3 ∧ shBs h = true ∧ scv = true ∧ sat = false))))
          (ok → enters (.accDrt n k q a x dc) (.accDrt q.val a.val x.val w sem) id) ∧ (¬ok → illegal (.accDrt n k q a x dc))) ∧
        (∀ (an : Fin 8) (dk : Fin 16),
          let r := row (c.areg an.val) (c.dpair dk.val)
          let ok : Prop := free ∧ evenReg dk.val = true ∧ half = false ∧
            ((m ∈ [0, 7] ∧ typ a.val = true ∧ scv = false ∧ sat = false) ∨ (typ a.val = false ∧ ((m = 6 ∧ scv = false ∧ sat = false) ∨
              (m = 4 ∧ scv = false) ∨ m ∈ [1, 2, 5])))
          let len := if m ∈ [0, 1, 2] then 32 else if m ∈ [4, 5] then 64 else 128
          (¬ok → illegal (.accDrm n k q a an dk dc)) ∧
          (ok → (∀ i < 64, t.inWindow (r i) len = true) →
            enters (.accDrm n k q a an dk dc) (.accDrm q.val a.val (c.areg an.val) (c.dpair dk.val) w sem) id) ∧
          (ok → ∀ i < 64, t.inWindow (r i) len = false → (∀ j < i, t.inWindow (r j) len = true) →
            exec (.accDrm n k q a an dk dc) s = .next (t.syncFault n .busError (r i)))) ∧
        (∀ dj : Fin 16,
          let ok : Prop := free ∧ evenReg dj.val = true ∧ w.toNat % 32768 / 4 = 0 ∧ (c.dreg dj.val).toNat < 4096 ∧ typ a.val = false
          (ok → enters (.accDrj n k q a dj dc) (.accDrj q.val a.val (c.dreg dj.val) (c.dreg (dj.val + 1)) w sem) id) ∧
          (¬ok → illegal (.accDrj n k q a dj dc)))) ∧
      (∀ (a : Fin 32) (an : Fin 8) (dk dc : Fin 16),
        let w := c.dreg dc.val
        let g := w.toNat % 8
        let gv := w.getLsbD 3
        let i := w.getLsbD 4
        let r := row (c.areg an.val) (c.dpair dk.val)
        let ok : Prop := evenReg dk.val = true ∧ w.toNat < 32 ∧ into gv g a.val ∧ (gv = true → (x.group g).intI = i)
        (¬ok → illegal (.accLd n k q a an dk dc)) ∧
        (ok → ∀ j < 64, t.inWindow (r j) 128 = false → (∀ m < j, t.inWindow (r m) 128 = true) →
          exec (.accLd n k q a an dk dc) s = .next (t.syncFault n .busError (r j))) ∧
        (ok → (∀ j < 64, t.inWindow (r j) 128 = true) →
          enters (.accLd n k q a an dk dc) (.accLd q.val a.val (c.areg an.val) (c.dpair dk.val) w)
            (fun x => if gv then used gv g x else { x with accI := put false x.accI a.val i }))))

/-- R246, R249, R250, R253, R254, R259 to R262, R264 to R268, R271, R275, R276: the events of an array: firing, Shelf fills, weight copies, the
start and the end of a dense pass of INT8 or BF16, the close of a TREE group in canonical order, and a drain of 32-bit integers. -/
def Obligations.ArrayEvents : Prop :=
  (∀ (int : Bool) (l : List W32), 2 ≤ l.length → let h := (l.length + 1) / 2
    canon int l.length l = addEl int (canon int h (l.take h)) (canon int (l.length - h) (l.drop h))) ∧
  (∀ (x y : W32), addEl true x y = x + y ∧ addEl false x y = BitVec.ofNat 32 (fp32.round ((fp32.decode x.toNat).add (fp32.decode y.toNat))) ∧
    canon true 1 [x] = x ∧ canon false 1 [x] = x) ∧
  ∀ (s : State) (n : Nat) (q : Fin 4) (e : SEntry), On s → n < 192 → (s.core n).setter = [e] → (s.core n).fops = [] →
    let c := s.core n
    let x := c.arr q.val
    let zero (i : Bool) : Acc := Acc.mk [] i 0 true 0
    let gives (i : Instr) (l : List SEntry) (y : Arr) : Prop :=
      exec i s = .next (s.modCore n (fun c => { c.setArr q.val y with setter := l }))
    (e.phase = .waiting →
      (∀ a i, e.op = .accZero q.val a i → gives (.setterFire n e.id) [] (x.setAcc a (zero i))) ∧
      (∀ g a tree z i b, e.op = .accOpen q.val g a tree z i b → ∃ acc, gives (.setterFire n e.id) []
          (Arr.setGroup { x with acc := acc } g { x.group g with base := a, tree := tree, tot := b, leaves := [] }) ∧
        ∀ j, look Acc.reset acc j = if z = true ∧ a ≤ j ∧ j ≤ a + (if tree then Nat.clog 2 b else 0) then zero i else x.acc1 j) ∧
      (∀ g a h, e.op = .accClose q.val g a h → (x.group g).tree = false →
        gives (.setterFire n e.id) [] (x.setGroup g { x.group g with base := 0, tree := false, tot := 0, leaves := [] })) ∧
      (∀ tw ta w, e.op = .mma q.val tw ta w → w.getLsbD 14 = false → e.released = false → e.relIdx = false → e.keptW = none → e.keptA = none →
        (x.active = none → x.shadow = none → x.shelfW = none → x.shelfA = none →
          gives (.shelfFill n q true) [e] { x with shelfW := some (Held.mk tw e.id none (c.tile tw) none none) } ∧
          gives (.shelfFill n q false) [e] { x with shelfA := some (Held.mk ta e.id none (c.tile ta) none none) }) ∧
        (∀ hw, hw.t = tw → hw.since ≤ e.id → hw.upTo = none →
          (x.active = none → x.shadow = none → x.shelfA = none → x.shelfW = some hw →
            gives (.weightCopy n q) [{ e with relIdx := true, keptW := some hw }] { x with shadow := some hw }) ∧
          (∀ ha, x.active = none → x.shadow = some hw → x.shelfA = some ha → ha.t = ta → ha.since ≤ e.id → ha.upTo = none → s.throttle = 0 →
            gives (.passStart n q) [{ e with phase := .fired, released := true, relIdx := true }]
              { x with active := some hw, shadow := none, passes := x.passes ++ [Pass.mk e.id hw ha], lastAt := s.cycles n + 1 })))) ∧
    (e.phase = .fired →
      (∀ tw ta w hw ha, e.op = .mma q.val tw ta w → x.passes = [Pass.mk e.id hw ha] → w.toNat / 256 % 16 = 0 → w.getLsbD 14 = false →
        let sw := e.shapeOf tw
        let sa := e.shapeOf ta
        let a := w.toNat % 32
        let o := x.acc1 a
        let kk := shNc sw
        let xs := hw.tile.xs + ha.tile.xs
        let in_ (i : Nat) : Bool := decide (i / 64 < shNr sa) && decide (i % 64 < shNr sw)
        shSp sw = false → shSp sa = false → shNc sa = kk → shNr sw ≤ 64 → shNr sa ≤ 64 → (o.fresh = true ∨ o.xeI = xs) →
        ∃ y el, gives (.passComplete n q) [] { (x.setAcc a y) with passes := [] } ∧
          y = Acc.mk el o.int (if o.fresh then BitVec.ofInt 16 xs else o.xe) false y.marks ∧
          (∀ m < 64, y.marks.getLsbD m = (o.marks.getLsbD m || (decide (m < shNr sa) && (decide (hw.tile.pm ≠ 0) || ha.tile.pm.getLsbD m)))) ∧
          (o.int = true → shFmt sw = 0 → ∀ i < 4096, look 0 el i = look 0 o.el i + (if in_ i then BitVec.ofInt 32
            ((List.range kk).map (fun j => let u := elAt (ha.tile.row (i / 64)) 8 j; let v := elAt (hw.tile.row (i % 64)) 8 j
              (if w.getLsbD 13 then (u : Int) else sval 8 u) * (if w.getLsbD 12 then (v : Int) else sval 8 v))).sum else 0)) ∧
          (o.int = false → shFmt sw = 4 → shFmt sa = 4 → shBs sw = false → shBs sa = false → ∀ i < 4096, look 0 el i = if in_ i then
            addEl false (look 0 o.el i) (BitVec.ofNat 32 (fp32.round ((List.range kk).foldl (fun (p : Machine.Num) j =>
              fp32.decode (fp32.round (p.add ((bf16.decode (elAt (ha.tile.row (i / 64)) 16 j)).mul (bf16.decode (elAt (hw.tile.row (i % 64)) 16 j))))))
              (.fin false 0 0)))) else look 0 o.el i)) ∧
      (∀ (g : Fin 8) (a h : Nat), e.op = .accClose q.val g.val a h → (x.group g.val).tree = true →
        let y := x.group g.val
        let b := y.base
        ∃ acc, gives (.treeCloseComplete n q g) []
            (Arr.setGroup { x with acc := acc } g.val { y with base := 0, tree := false, tot := 0, leaves := [] }) ∧
          (∃ el m, look Acc.reset acc b = { x.acc1 b with el := el, marks := m } ∧
            (∀ i < 4096, look 0 el i = canon (x.acc1 b).int y.leaves.length (y.leaves.map (fun l => look 0 l.el i))) ∧
            ∀ r < 64, (m.getLsbD r = true ↔ (∃ l ∈ y.leaves, l.marks.getLsbD r = true) ∨
              ∃ i ≤ Nat.clog 2 y.tot, (x.acc1 (b + i)).marks.getLsbD r = true)) ∧
          ∀ j ≠ b, look Acc.reset acc j = if b < j ∧ j ≤ b + Nat.clog 2 y.tot then zero (x.acc1 b).int else x.acc1 j) ∧
      (∀ a t w sem, e.op = .accDrt q.val a t w sem → w.getLsbD 1 = false → shFmt (e.shapeOf t) = 7 → shNc (e.shapeOf t) = 32 →
        shBs (e.shapeOf t) = false → w.getLsbD 12 = false → (x.acc1 a).int = true →
        ∃ y u, exec (.drainComplete n e.id) s = .next u ∧ (u.core n).setter = [] ∧ (u.core n).tile t = y ∧ (∀ k ≠ t, (u.core n).tile k = c.tile k) ∧
          (∀ r < 64, ∀ j < 32, elAt (y.row r) 32 j = (look 0 (x.acc1 a).el (64 * r + (if w.getLsbD 13 then 32 else 0) + j)).toNat) ∧
          y.pm = (x.acc1 a).marks ∧ y.zm = 0 ∧ y.rm = (c.tile t).rm ∧ y.tsw &&& 0xFF80 = 0 ∧
          ((u.core n).arr q.val).acc1 a = (if w.getLsbD 15 then zero true else x.acc1 a) ∧ u.mem = s.mem ∧ u.regs = s.regs))

/-- R213, R275, R278, R403, R406 to R411, R426: a drained tile enters the leaf stage of an open job whose tree is one node here: it fills the node's
left input with 32 packets of BF16 values, and a value of an unmarked row that BF16 cannot hold sets OVF of CORE_NF; a job that is not open fails the
drain. -/
def Obligations.LeafStage : Prop :=
  ∀ (s : State) (n : Nat) (e : SEntry) (q a : Nat) (job off dc sem : Word), On s → n < 192 → (s.core n).setter = [e] → (s.core n).fops = [] →
    e.op = .accDrj q a job off dc sem → e.phase = .fired → e.done = 0 →
    let x := ((s.core n).arr q).acc1 a
    let j := job.toNat % 4096
    let b := off.toNat
    let r := s.job j
    let el (i : Nat) : Machine.Num := fp32.decode (look 0 x.el i).toNat
    x.xe = 0 → (∀ i < 4096, (el i).isFin = true) →
    (r.open_ = false → exec (.leafStage n e.id) s = .next (((s.jobErr j 3).deferAction n .busError 0).sDone n e.id none)) ∧
    (r.open_ = true → r.leavesPer = 2 → r.leaves = 2 → r.rank = 0 → r.res = false → r.think = 0 → r.wire = false → r.nodes = [] → r.held = [] →
      s.slotsOf (j / 2048) < 2048 → b < r.ntile → r.leafBusy = [] → (∀ k ≠ j, (s.job k).nodes = [] ∧ (s.job k).held = []) →
      ∃ u nd, exec (.leafStage n e.id) s = .next u ∧ (u.core n).setter = [{ e with done := 1, released := true }] ∧ (u.job j).nodes = [nd] ∧
        (nd.lo, nd.size, nd.tile) = (0, 2, b) ∧ nd.right.pkts = [] ∧ nd.left.pkts.map (·.1) = List.range 32 ∧
        (∀ i < 32, let p := nd.left.pkt i
          p.rJob = j ∧ p.rTile = b ∧ p.rPkt = i ∧ p.rNode = 0 ∧ p.rCf = false ∧ p.rNf = (List.range 4096).any (fun i => wireNf false (bf16.convert false (el i)).1) ∧
          p.epoch = s.bEpoch r.ctx ∧ ∀ k < 128, (Packet.codes p)[k]? = some (
            let v := (bf16.convert false (el (128 * i + k))).1
            if v % 32768 = 0 then 0 else v)) ∧
        u.regs = (if (List.range 4096).any (fun i => wireNf false (bf16.convert false (el i)).1 && !x.marks.getLsbD (i / 64)) then (s.coreNf n 4).regs
          else s.regs) ∧
        u.mem = s.mem ∧ u.sems = s.sems)

/-! ## Queues, dispatch and power -/

/-- R314 to R322, R324 to R326, R328, Tables 11-1 to 11-5: doorbells, the queue table, the read of a head descriptor, a dispatch with one
candidate and one idle core, and the completion record of a task of a local ring. That a write of a queue's entry drops the descriptor that it holds
is the model's choice (assumption log 76). -/
def Obligations.QueuesAndDispatch : Prop :=
  ∀ s : State, On s →
    let cand (e : Queue) : Prop := e.qe1.getLsbD 13 = true ∧ e.qe2.toNat % 2 ^ 24 ≠ e.qe3.toNat % 2 ^ 24 ∧
      (e.qe3.getLsbD 27 = false ∨ e.qe1.getLsbD 14 = false) ∧ e.desc ≠ none ∧ e.mark = false
    let changes (s u : State) (q : Nat) (f : Queue → Queue) : Prop :=
      let e := s.queue q
      let g := f e
      u = { s with queues := u.queues } ∧ (∀ p ≠ q, u.queue p = s.queue p) ∧ ∃ r, u.queue q = { g with ready := r } ∧
        (cand g ∧ ¬(cand e ∧ e.qe3.toNat % 2 ^ 24 = g.qe3.toNat % 2 ^ 24) → r = s.usec) ∧
        (¬cand g ∨ (cand e ∧ e.qe3.toNat % 2 ^ 24 = g.qe3.toNat % 2 ^ 24) → r = e.ready)
    (∀ (src : Src) (w : BitVec 32), InTurn s src →
      (w.toNat % 4096 = 0 → exec (.queueDoorbell src w) s = .next s) ∧
      (w.toNat % 4096 ≠ 0 → ∃ u, exec (.queueDoorbell src w) s = .next u ∧ changes s u (w.toNat / 4096) (fun e =>
        { e with qe2 := BitVec.ofNat 32 (e.qe2.toNat / 2 ^ 24 * 2 ^ 24 + (e.qe2.toNat + w.toNat % 4096) % 2 ^ 24) })) ∧
      (let n := w.toNat % 256
       exec (.coreDoorbell src w) s = .next (if n < 192 then s.modCore n (fun c => { c with ipend := c.ipend ||| 2 }) else s) ∧
       exec (.preempt src w) s = .next (if n < 192 ∧ (s.core n).dst = .task then s.modCore n (fun c => { c with ipend := c.ipend ||| 1 }) else s))) ∧
    (∀ (src : Src) (q : BitVec 20), InTurn s src →
      (∃ u, exec (.queueEnable src q) s = .next u ∧
        changes s u q.toNat (fun e => { e with qe1 := e.qe1 ||| 0x2000, qe3 := e.qe3 &&& ~~~0x07000000 })) ∧
      (∃ u, exec (.queueDisable src q) s = .next u ∧ changes s u q.toNat (fun e => { e with qe1 := e.qe1 &&& ~~~0x2000 })) ∧
      (∀ (i : Fin 4) (w : BitVec 32), q.toNat = (s.reg rQsel).toNat % 2 ^ 20 →
        ((s.queue q.toNat).qe1.getLsbD 13 = true → exec (.qeWrite src i w) s = .next (s.err .scarab 1)) ∧
        ((s.queue q.toNat).qe1.getLsbD 13 = false → (i = 1 → w.toNat / 2 ^ 22 % 32 ≤ 24) →
          ∃ u, exec (.qeWrite src i w) s = .next u ∧ changes s u q.toNat (fun e =>
            let wr := e.wr ||| BitVec.ofNat 4 (2 ^ i.val)
            let e1 := if e.mark then (if wr = 15 then { e with desc := none, mark := false, wr := 0 } else { e with desc := none, wr := wr })
              else { e with desc := none }
            if i = 0 then { e1 with qe0 := w } else if i = 1 then { e1 with qe1 := w &&& 0x07FFDFFF }
            else if i = 2 then { e1 with qe2 := w &&& 0x00FFFFFF } else { e1 with qe3 := (e.qe3 &&& 0x0F000000) ||| (w &&& 0x00FFFFFF) })))) ∧
    (∀ (q : BitVec 20) (line : HostLine),
      let e := s.queue q.toNat
      let slot := e.qe3.toNat % 2 ^ 24 % 2 ^ (e.qe1.toNat / 2 ^ 22 % 32)
      let base := e.qe1.toNat % 4096 * 2 ^ 32 + e.qe0.toNat
      let a := (base / 128 * 128 + 32 * slot) % 2 ^ 44
      let takes (ws : List Word) : Prop := ∃ u, exec (.descriptorRead q line) s = .next u ∧
        changes s u q.toNat (fun e => { e with desc := some { words := ws } })
      let refused (k : Nat) : Prop := ∃ v, changes s v q.toNat (fun e =>
          { e with qe1 := e.qe1 &&& ~~~0x2000, qe3 := (e.qe3 &&& ~~~0x07000000) ||| BitVec.ofNat 32 (k * 2 ^ 24) }) ∧
        exec (.descriptorRead q line) s =
          .next ((if s.errqSet then v else { v.setReg rErrq (q.zeroExtend 32) with errqSet := true }).err .scarab 2)
      e.qe1.getLsbD 13 = true → e.qe2.toNat % 2 ^ 24 ≠ e.qe3.toNat % 2 ^ 24 → e.desc = none → e.mark = false →
      (e.qe1.getLsbD 12 = false →
        (s.slotOk a = false → refused 2) ∧
        (s.slotOk a = true → s.snoop = [] → s.latent = [] →
          (s.anyMark a 32 = true → refused 1) ∧
          (s.anyMark a 32 = false → (s.word a).toNat % 2048 ≠ 0 → refused 3) ∧
          (s.anyMark a 32 = false → (s.word a).toNat % 2048 = 0 → takes (s.words a 32)))) ∧
      (e.qe1.getLsbD 12 = true →
        (s.cacheUp = false → refused 2) ∧
        (s.cacheUp = true → line.poison = false → ∀ w ws, line.words = w :: ws → w.toNat % 2048 = 0 →
          ∃ u, exec (.descriptorRead q line) s = .next u ∧ look false u.hostLines (base * 4 + slot) = true ∧
            changes { s with hostLines := u.hostLines } u q.toNat (fun e => { e with desc := some { words := line.words } })))) ∧
    (∀ (q n : Nat) (e : Queue) (ws : List Word),
      let d := n / 48
      let c := s.core n
      let tctl := natOfWords (ws.take 2)
      let mbox := (s.reg (rMbox n)).toNat % 2 ^ 20
      n < 192 → s.queues = [(q, e)] → cand e → e.desc = some { words := ws } → 24 ≤ ws.length → e.qe1.getLsbD (18 + d) = true →
      c.dst = .idle → c.task = none → (∀ m < 192, m ≠ n → (s.core m).dst ≠ .idle) → s.res = [] → (s.reg rAge).toNat % 65536 = 0 →
      (∀ m y, (s.core m).task = some y → y.endAs = none) → (∀ m, ∀ y ∈ (s.core m).ended, y.elapsed ≠ none) →
      (∀ m, (s.core m).stopReq = false) →
      s.snoop = [] → (tctl / 4096 % 16 : Int) ≤ s.headroom d →
      ∃ u t, exec .dispatch s = .next u ∧
        (u.core n).dst = .task ∧ (u.core n).task = some t ∧ t.queue = q ∧ t.cone = tctl / 4096 % 16 ∧ t.sem.toNat = tctl / 65536 % 65536 ∧
        (t.sig = true ↔ tctl / 2048 % 2 = 1) ∧ t.cyc0 = none ∧
        (u.core n).sr = 0xC0000000 ∧ (u.core n).prog = 0 ∧ (u.core n).areg 0 = BitVec.ofNat 64 (0xE0000000000 + mbox) ∧
        (u.core n).pc = BitVec.ofNat 64 (0xE0000000000 + (s.reg (rDisp n)).toNat % 2 ^ 20) ∧
        (∀ i < 16, (u.core n).dreg i = c.drain.dreg i) ∧ (∀ i, i ≠ 0 → (u.core n).areg i = c.drain.areg i) ∧
        (∀ i < 24, ws[i]? = some (u.word (localAddr n (mbox + i)))) ∧
        (u.queue q).qe3 = BitVec.ofNat 32 (e.qe3.toNat / 2 ^ 24 % 8 * 2 ^ 24 + 2 ^ 27 + e.qe3.toNat / 2 ^ 28 * 2 ^ 28 +
          (e.qe3.toNat + 1) % 2 ^ 24) ∧ (u.queue q).desc = none ∧
        look 0 u.sums (3 * d) = look 0 s.sums (3 * d) + (tctl / 4096 % 16 : Nat) ∧ (∀ i < 16, (u.sem (16 * n + i)).count = 0) ∧
        (∀ m ≠ n, u.core m = s.core m) ∧ u.regs = s.regs) ∧
    (∀ (n : Nat) (t : Task) (e : TaskEnd) (cyc0 : Nat),
      let c := s.core n
      let el : W64 := BitVec.ofNat 64 (s.cycles n) - BitVec.ofNat 64 cyc0
      n < 192 → t.endAs = some e → t.cyc0 = some cyc0 → t.elapsed = none → t.host = false → cyc0 < 2 ^ 64 →
      t.addr + 32 ≤ 2 ^ 44 → s.snoop = [] → c.stopReq = false →
      (if e = .reset then c.ended = [t] ∧ c.resetting = false ∧ (∀ y, c.task = some y → y.endAs = none)
        else c.ended = [] ∧ c.task = some t ∧ c.setter = [] ∧ c.fops = [] ∧ c.blocks = []) →
      (t.sig = true → (s.sem t.sem.toNat).mark = false ∧ (s.sem t.sem.toNat).fifo = [] ∧ (s.sem t.sem.toNat).count.toNat < 0x7FFFFFFF ∧
        (s.sem t.sem.toNat).waits = []) →
      ∃ u, exec (.completionRecord n) s = .next u ∧
        u.words (t.addr + 24) 8 = [BitVec.ofNat 16 n, BitVec.ofNat 16 (2 ^ 15 + 2 ^ 12 * (match e with | .tend => 0 | .stopped => 1 | .reset => 2)), 0, 0,
          el.extractLsb' 0 16, el.extractLsb' 16 16, el.extractLsb' 32 16, el.extractLsb' 48 16] ∧
        (∀ b, (b < 2 * (t.addr + 24) ∨ 2 * (t.addr + 32) ≤ b) → u.byte b = s.byte b) ∧
        (u.core n).ended = [] ∧ (u.core n).task = (if e = .reset then c.task else none) ∧
        (u.core n).dst = (if e = .reset then c.dst else if e = .tend ∧ (s.reg (rRun n)).getLsbD 0 = false then .idle else .off) ∧
        look 0 u.sums (3 * (n / 48) + 1) = look 0 s.sums (3 * (n / 48) + 1) + (if e = .reset then 0 else t.cone) ∧
        ((∀ x ∈ s.cores, ∀ y, (x.2.task = some y ∨ y ∈ x.2.ended) → (x.1 = n ∧ y = t) ∨ y.queue ≠ t.queue) →
          (u.queue t.queue).qe3.getLsbD 27 = false) ∧
        (t.sig = true → (u.sem t.sem.toNat).count = (s.sem t.sem.toNat).count + 1) ∧ (t.sig = false → u.sems = s.sems))

/-- R330 to R335, R337, R338: an interval of the Pyrometer closes: the readings, E_d, the clock steps and the array throttle; and a write of
PYRO_DVFS. That CAP is floored to its unit, and that the temperatures are those of the last read of the sensors, are the model's choice
(assumption log 75). -/
def Obligations.PowerIntervals : Prop :=
  ∀ s : State, On s →
    (∀ (src : Src) (w : BitVec 32), InTurn s src → let lo := w.toNat % 32; let hi := w.toNat / 32 % 32
      (hi < lo ∨ 18 < hi ∨ 18 < lo → exec (.dvfsWrite src w) s = .next (s.err .pyro 1)) ∧
      (lo ≤ hi → hi ≤ 18 → exec (.dvfsWrite src w) s = .next (s.setReg rPyDvfs (w &&& 0x3FF)))) ∧
    ∀ t : Telemetry,
      let p (d : Nat) : Nat := t.dies.getD d 0
      let cap : Nat := if s.glaze then min (min (10 * ((s.reg rPyCap).toNat / 65536)) 28000) (6 * t.volt.toNat) else 4000
      let a : ℚ := (cap : ℚ) - (10 * (t.pwr : ℚ) - (p 0 + p 1 + p 2 + p 3 : Nat))
      let bud (d : Nat) : Nat := (s.reg (rPyBud d)).toNat % 65536
      let sum : Nat := bud 0 + bud 1 + bud 2 + bud 3
      let high : Prop := cap < 10 * t.pwr
      let x (d : Nat) : Nat := s.dieTemp d
      let e (d : Nat) : ℚ := ((s.eOf d).1 : ℚ) / (s.eOf d).2
      let busy (n : Nat) : Prop := ((s.core n).dst = .task ∨ (s.core n).dst = .run) ∧ (s.core n).gated = false ∧ (s.core n).waitsReset = false
      (∀ d < 4, 0 < (s.eOf d).2) →
      ∃ u, exec (.pyroInterval t) s = .next u ∧
        u.reg rPyIn = BitVec.ofNat 32 (t.volt.toNat * 65536 + min t.pwr 65535) ∧
        u.reg rPyCap = BitVec.ofNat 32 ((s.reg rPyCap).toNat / 65536 * 65536 + cap / 10) ∧
        (∀ d < 4, (u.reg (rPyPwr d)).toNat % 65536 = min (p d) 65535 ∧ u.reg (rPyTemp d) =
            BitVec.ofNat 32 ((if 105 ≤ x d then 512 else 0) + (if 95 ≤ x d then 256 else 0) + min (x d) 255) ∧
          u.pOf d = p d ∧ 0 < (u.eOf d).2 ∧ ((u.eOf d).1 : ℚ) / (u.eOf d).2 =
            (if sum = 0 then 0 else if a < 10 * sum then bud d * a / sum else 10 * bud d) *
            (if x d < 95 then 1 else if 105 ≤ x d then 0 else (105 - (x d : ℚ)) / 10)) ∧
        u.sums = [] ∧ u.mem = s.mem ∧ u.queues = s.queues ∧ u.sems = s.sems ∧
        (high → (s.glaze = false ∨ ∀ n < 192, busy n → (s.core n).step = 0) →
          u.throttle = if s.throttle = 0 then 128 else min (2 * s.throttle) 8192) ∧
        (20 * (10 * t.pwr) ≤ 19 * cap → u.throttle = 0) ∧
        (∀ n < 192, (u.core n).pwr = BitVec.ofNat 16 (min (t.cores.getD n 0) 65535) ∧
          (s.glaze = false → (u.core n).step = (s.core n).step) ∧
          (s.glaze = true → let d := n / 48
            let k := (s.core n).step
            let lo := (s.reg rPyDvfs).toNat % 32
            let hi := (s.reg rPyDvfs).toNat / 32 % 32
            ((u.core n).step ≠ k → (u.core n).ipend.getLsbD 4 = true) ∧
            (105 ≤ x d → (u.core n).step = 0) ∧ (x d < 105 → ¬busy n → (u.core n).step = k) ∧
            (x d < 105 → busy n → high → (u.core n).step = k - 1) ∧
            (x d < 105 → busy n → ¬high → e d < p d → (u.core n).step = if lo < k then k - 1 else k) ∧
            (x d < 105 → busy n → ¬high → (p d : ℚ) ≤ e d * 19 / 20 → (u.core n).step =
              if e d < p d then (if lo < k then k - 1 else k) else if k < hi then k + 1 else k)))

/-! ## The whole block -/

/-- A step runs the command at the front of the queue on the state with the queue's rest. On an empty queue a microsecond of the module
reference passes while the module runs, and the cores that can issue run, each the instruction at its PC, in the order of their numbers: those clauses
are the model's choice (assumption logs 2 and 125). -/
def Obligations.StepTakesTheFrontCommand : Prop :=
  (∀ (s : State) (c : Instr), step { s with pending := c :: s.pending } = exec c s) ∧
  (∀ s : State, s.pending = [] → let t : State := if s.power = .running then { s.settle with usec := s.settle.usec + 1 } else s
    step s = t.runCores ∧ ((∀ n < 192, t.issues n = false) → step s = .next t) ∧
    (∀ n < 192, ∀ u, t.issues n = true → t.fetchRun n = .next u → (∀ m < 192, m ≠ n → t.issues m = false ∧ u.issues m = false) →
      step s = .next u))

/-- Every command of the block is answered, and so is every step: none ends in a fault or a refusal. -/
def Obligations.EveryCommandAnswers : Prop :=
  (∀ (c : Instr) (s : State), ∃ t, exec c s = .next t) ∧ ∀ s : State, ∃ t, step s = .next t

/-- R42 to R44, R218, R263, R314, Tables 3-4 and 3-13: what reset leaves. The memory's zeros are the model's choice (assumption log 1). -/
def Obligations.ResetState : Prop :=
  Memory.wf State.reset.mem = true ∧ State.reset.mem = { cells := [], trained := none } ∧ State.reset.pending = [] ∧ State.reset.power = .reset ∧
  (∀ n, let c := State.reset.core n
    c.peek = false ∧ c.sr = 0xC0000000 ∧ c.pc = 0xE0000000000 ∧ c.vbr = 0 ∧ c.ien = 0 ∧ c.dst = .off ∧ c.setter = [] ∧ c.blocks = [] ∧
    (∀ i, c.dreg i = 0 ∧ c.areg i = 0) ∧
    (∀ t, (c.tile t).shape = 0x40400040 ∧ (c.tile t).data = [] ∧ (c.tile t).side = [] ∧ (c.tile t).pm = 0 ∧
      (c.tile t).zm = BitVec.allOnes 64 ∧ (c.tile t).rm = BitVec.allOnes 64 ∧ c.tswOf t = 0x80000000) ∧
    (∀ q a, (((c.arr q).acc1 a).el, ((c.arr q).acc1 a).int, ((c.arr q).acc1 a).xe, ((c.arr q).acc1 a).marks) = ([], false, 0, 0) ∧
      (c.arr q).heldI a = false)) ∧
  (∀ q, ((State.reset.queue q).qe0, (State.reset.queue q).qe1, (State.reset.queue q).qe2, (State.reset.queue q).qe3) = (0, 0, 0, 0)) ∧
  (∀ k, (State.reset.sem k).count = 0)

/-- Memory keeps its canonical form under every step: addresses strictly rising, and no entry equal to what an unlisted address reads
as. No step leaves a core looking at the instruction of a boundary, which the model's own field peek says and Safety.Ready supposes; and no step makes
an error in a register file or table, of which Safety.On supposes that there is none (R495, assumption log 145). -/
def Obligations.EveryStepKeepsMemoryCanonical : Prop :=
  ∀ s t : State, step s = .next t → (Memory.wf s.mem = true → Memory.wf t.mem = true) ∧ (s.upsets = [] → t.upsets = []) ∧
    ((∀ n, (s.core n).peek = false) → ∀ n, (t.core n).peek = false)
end

