-- ==== Sys2Proof/Laws/Store.lean ====
section
/-! SUPPORT. Sys2Proof/Laws/Store.lean: reading and writing a sparse table: a read after a write, and the canonical form. -/

namespace Sys2Proof.Laws

open Sys2Proof.Machine

variable {α : Type}

theorem look_insertKey_same (d : α) (m : Store α) (i : Nat) (v : α) (h : ∀ e ∈ m, e.1 ≠ i) : look d (insertKey i v m) i = v := by
  induction m with
  | nil => simp [insertKey, look]
  | cons e r ih =>
    obtain ⟨k, w⟩ := e
    have hk : k ≠ i := h (k, w) (by simp)
    have hr := ih (fun e he => h e (by simp [he]))
    unfold insertKey
    split <;> simp [look, hk.symm, hr]

theorem look_insertKey_ne (d : α) (m : Store α) (i j : Nat) (v : α) (h : j ≠ i) : look d (insertKey i v m) j = look d m j := by
  induction m with
  | nil => simp [insertKey, look, h]
  | cons e r ih =>
    obtain ⟨k, w⟩ := e
    unfold insertKey
    split <;> simp [look, h, ih]

theorem look_eraseKey_same (d : α) (m : Store α) (i : Nat) : look d (eraseKey i m) i = d := by
  induction m with
  | nil => rfl
  | cons e r ih =>
    obtain ⟨k, w⟩ := e
    simp only [eraseKey, List.filter_cons] at ih ⊢
    by_cases hk : k = i
    · simpa [hk] using ih
    · simpa [hk, look, Ne.symm hk] using ih

theorem look_eraseKey_ne (d : α) (m : Store α) (i j : Nat) (h : j ≠ i) : look d (eraseKey i m) j = look d m j := by
  induction m with
  | nil => rfl
  | cons e r ih =>
    obtain ⟨k, w⟩ := e
    simp only [eraseKey, List.filter_cons] at ih ⊢
    by_cases hk : k = i
    · subst hk; simpa [look, h] using ih
    · by_cases hj : j = k
      · simp [hk, look, hj]
      · simpa [hk, look, hj] using ih

theorem not_mem_eraseKey (m : Store α) (i : Nat) : ∀ e ∈ eraseKey i m, e.1 ≠ i := by
  intro e he
  simpa using (List.mem_filter.mp he).2

theorem eraseKey_insertKey (m : Store α) (i : Nat) (v : α) : eraseKey i (insertKey i v m) = eraseKey i m := by
  induction m with
  | nil => simp [insertKey, eraseKey]
  | cons e r ih =>
    obtain ⟨k, w⟩ := e
    unfold insertKey
    split
    · simp [eraseKey]
    · simp only [eraseKey, List.filter_cons] at ih ⊢
      split
      · rw [ih]
      · exact ih

theorem eraseKey_eraseKey (m : Store α) (i : Nat) : eraseKey i (eraseKey i m) = eraseKey i m := by
  simp [eraseKey, List.filter_filter]

variable [DecidableEq α]

/-- A read after a write of the same key gives the value written. -/
@[simp] theorem look_put_same (d : α) (m : Store α) (i : Nat) (v : α) : look d (put d m i v) i = v := by
  unfold put
  split
  · rename_i hv; rw [hv]; exact look_eraseKey_same d m i
  · exact look_insertKey_same d _ i v (not_mem_eraseKey m i)

/-- A write leaves every other key alone. -/
theorem look_put_ne (d : α) (m : Store α) (i j : Nat) (v : α) (h : j ≠ i) : look d (put d m i v) j = look d m j := by
  unfold put
  split
  · exact look_eraseKey_ne d m i j h
  · rw [look_insertKey_ne d _ i j v h, look_eraseKey_ne d m i j h]

/-- A write leaves every other key alone, whatever the defaults of the two keys are. -/
theorem look_put_ne_default (d e : α) (m : Store α) (i j : Nat) (v : α) (h : j ≠ i) : look e (put d m i v) j = look e m j := by
  unfold put
  split
  · exact look_eraseKey_ne e m i j h
  · rw [look_insertKey_ne e _ i j v h, look_eraseKey_ne e m i j h]

/-- A read after a write. -/
theorem look_put (d : α) (m : Store α) (i j : Nat) (v : α) : look d (put d m i v) j = if j = i then v else look d m j := by
  split
  · rename_i h; rw [h]; exact look_put_same d m i v
  · rename_i h; exact look_put_ne d m i j v h

/-- The second of two writes of one key wins, and the first leaves no trace. -/
@[simp] theorem put_put (d : α) (m : Store α) (i : Nat) (v w : α) : put d (put d m i v) i w = put d m i w := by
  have h : eraseKey i (put d m i v) = eraseKey i m := by
    unfold put
    split
    · exact eraseKey_eraseKey m i
    · rw [eraseKey_insertKey, eraseKey_eraseKey]
  unfold put at h ⊢
  rw [h]

theorem storeWfFrom_mono (d : Nat → α) (m : Store α) (a b : Nat) (h : a ≤ b) (hm : storeWfFrom d b m = true) :
    storeWfFrom d a m = true := by
  cases m with
  | nil => rfl
  | cons e r =>
    obtain ⟨k, w⟩ := e
    simp only [storeWfFrom, Bool.and_eq_true, decide_eq_true_eq] at hm ⊢
    exact ⟨⟨le_trans h hm.1.1, hm.1.2⟩, hm.2⟩

theorem storeWfFrom_filter (d : Nat → α) (p : Nat × α → Bool) (m : Store α) (b : Nat) (hm : storeWfFrom d b m = true) :
    storeWfFrom d b (m.filter p) = true := by
  induction m generalizing b with
  | nil => rfl
  | cons e r ih =>
    obtain ⟨k, w⟩ := e
    simp only [storeWfFrom, Bool.and_eq_true, decide_eq_true_eq] at hm
    rw [List.filter_cons]
    split
    · simp only [storeWfFrom, Bool.and_eq_true, decide_eq_true_eq]
      exact ⟨hm.1, ih (k + 1) hm.2⟩
    · exact ih b (storeWfFrom_mono d r b (k + 1) (by omega) hm.2)

/-- Leaving out entries keeps the canonical form. -/
theorem storeWf_filter (d : Nat → α) (p : Nat × α → Bool) (m : Store α) (hm : storeWf d m = true) :
    storeWf d (m.filter p) = true := storeWfFrom_filter d p m 0 hm

theorem storeWfFrom_insertKey (d : Nat → α) (m : Store α) (i : Nat) (v : α) (b : Nat) (hb : b ≤ i) (hv : v ≠ d i)
    (hi : ∀ e ∈ m, e.1 ≠ i) (hm : storeWfFrom d b m = true) : storeWfFrom d b (insertKey i v m) = true := by
  induction m generalizing b with
  | nil => simp [insertKey, storeWfFrom, hb, hv]
  | cons e r ih =>
    obtain ⟨k, w⟩ := e
    have hk : k ≠ i := hi (k, w) (by simp)
    simp only [storeWfFrom, Bool.and_eq_true, decide_eq_true_eq] at hm
    unfold insertKey
    split
    · rename_i h
      simp only [storeWfFrom, Bool.and_eq_true, decide_eq_true_eq]
      exact ⟨⟨hb, hv⟩, ⟨by omega, hm.1.2⟩, hm.2⟩
    · rename_i h
      simp only [storeWfFrom, Bool.and_eq_true, decide_eq_true_eq]
      exact ⟨hm.1, ih (k + 1) (by omega) (fun e he => hi e (by simp [he])) hm.2⟩

/-- A write keeps the canonical form. -/
theorem storeWf_put (d : Nat → α) (m : Store α) (i : Nat) (v : α) (hm : storeWf d m = true) :
    storeWf d (put (d i) m i v) = true := by
  have he : storeWf d (eraseKey i m) = true := storeWf_filter d _ m hm
  unfold put
  split
  · exact he
  · rename_i hv
    exact storeWfFrom_insertKey d _ i v 0 (Nat.zero_le i) hv (not_mem_eraseKey m i) he

end Sys2Proof.Laws
end

