-- ==== Sys2Proof/Laws/State.lean ====
section
/-! SUPPORT. Sys2Proof/Laws/State.lean: what each named update of the state leaves alone, field by field, and what it writes. -/

namespace Sys2Proof.Machine

open Sys2Proof.Laws

/-! setCore writes the field cores alone. -/

@[simp] theorem State.setCore_regs (s : State) (n : Nat) (c : Core) : (s.setCore n c).regs = s.regs := rfl
@[simp] theorem State.setCore_power (s : State) (n : Nat) (c : Core) : (s.setCore n c).power = s.power := rfl
@[simp] theorem State.setCore_pins (s : State) (n : Nat) (c : Core) : (s.setCore n c).pins = s.pins := rfl
@[simp] theorem State.setCore_usec (s : State) (n : Nat) (c : Core) : (s.setCore n c).usec = s.usec := rfl
@[simp] theorem State.setCore_strapAt (s : State) (n : Nat) (c : Core) : (s.setCore n c).strapAt = s.strapAt := rfl
@[simp] theorem State.setCore_svcStop (s : State) (n : Nat) (c : Core) : (s.setCore n c).svcStop = s.svcStop := rfl
@[simp] theorem State.setCore_heldReset (s : State) (n : Nat) (c : Core) : (s.setCore n c).heldReset = s.heldReset := rfl
@[simp] theorem State.setCore_uart (s : State) (n : Nat) (c : Core) : (s.setCore n c).uart = s.uart := rfl
@[simp] theorem State.setCore_ibi (s : State) (n : Nat) (c : Core) : (s.setCore n c).ibi = s.ibi := rfl
@[simp] theorem State.setCore_sensors (s : State) (n : Nat) (c : Core) : (s.setCore n c).sensors = s.sensors := rfl
@[simp] theorem State.setCore_closed (s : State) (n : Nat) (c : Core) : (s.setCore n c).closed = s.closed := rfl
@[simp] theorem State.setCore_mem (s : State) (n : Nat) (c : Core) : (s.setCore n c).mem = s.mem := rfl
@[simp] theorem State.setCore_psn (s : State) (n : Nat) (c : Core) : (s.setCore n c).psn = s.psn := rfl
@[simp] theorem State.setCore_latent (s : State) (n : Nat) (c : Core) : (s.setCore n c).latent = s.latent := rfl
@[simp] theorem State.setCore_upsets (s : State) (n : Nat) (c : Core) : (s.setCore n c).upsets = s.upsets := rfl
@[simp] theorem State.setCore_queues (s : State) (n : Nat) (c : Core) : (s.setCore n c).queues = s.queues := rfl
@[simp] theorem State.setCore_errqSet (s : State) (n : Nat) (c : Core) : (s.setCore n c).errqSet = s.errqSet := rfl
@[simp] theorem State.setCore_res (s : State) (n : Nat) (c : Core) : (s.setCore n c).res = s.res := rfl
@[simp] theorem State.setCore_sems (s : State) (n : Nat) (c : Core) : (s.setCore n c).sems = s.sems := rfl
@[simp] theorem State.setCore_ctxs (s : State) (n : Nat) (c : Core) : (s.setCore n c).ctxs = s.ctxs := rfl
@[simp] theorem State.setCore_links (s : State) (n : Nat) (c : Core) : (s.setCore n c).links = s.links := rfl
@[simp] theorem State.setCore_routes (s : State) (n : Nat) (c : Core) : (s.setCore n c).routes = s.routes := rfl
@[simp] theorem State.setCore_routeMark (s : State) (n : Nat) (c : Core) : (s.setCore n c).routeMark = s.routeMark := rfl
@[simp] theorem State.setCore_mcast (s : State) (n : Nat) (c : Core) : (s.setCore n c).mcast = s.mcast := rfl
@[simp] theorem State.setCore_mcastStg (s : State) (n : Nat) (c : Core) : (s.setCore n c).mcastStg = s.mcastStg := rfl
@[simp] theorem State.setCore_requests (s : State) (n : Nat) (c : Core) : (s.setCore n c).requests = s.requests := rfl
@[simp] theorem State.setCore_unsent (s : State) (n : Nat) (c : Core) : (s.setCore n c).unsent = s.unsent := rfl
@[simp] theorem State.setCore_nextTag (s : State) (n : Nat) (c : Core) : (s.setCore n c).nextTag = s.nextTag := rfl
@[simp] theorem State.setCore_inbox (s : State) (n : Nat) (c : Core) : (s.setCore n c).inbox = s.inbox := rfl
@[simp] theorem State.setCore_imgLink (s : State) (n : Nat) (c : Core) : (s.setCore n c).imgLink = s.imgLink := rfl
@[simp] theorem State.setCore_imgTried (s : State) (n : Nat) (c : Core) : (s.setCore n c).imgTried = s.imgTried := rfl
@[simp] theorem State.setCore_jobs (s : State) (n : Nat) (c : Core) : (s.setCore n c).jobs = s.jobs := rfl
@[simp] theorem State.setCore_swarms (s : State) (n : Nat) (c : Core) : (s.setCore n c).swarms = s.swarms := rfl
@[simp] theorem State.setCore_copies (s : State) (n : Nat) (c : Core) : (s.setCore n c).copies = s.copies := rfl
@[simp] theorem State.setCore_touchWait (s : State) (n : Nat) (c : Core) : (s.setCore n c).touchWait = s.touchWait := rfl
@[simp] theorem State.setCore_jtlb (s : State) (n : Nat) (c : Core) : (s.setCore n c).jtlb = s.jtlb := rfl
@[simp] theorem State.setCore_jrootUse (s : State) (n : Nat) (c : Core) : (s.setCore n c).jrootUse = s.jrootUse := rfl
@[simp] theorem State.setCore_resolving (s : State) (n : Nat) (c : Core) : (s.setCore n c).resolving = s.resolving := rfl
@[simp] theorem State.setCore_stepCyc (s : State) (n : Nat) (c : Core) : (s.setCore n c).stepCyc = s.stepCyc := rfl
@[simp] theorem State.setCore_stepCmd (s : State) (n : Nat) (c : Core) : (s.setCore n c).stepCmd = s.stepCmd := rfl
@[simp] theorem State.setCore_sums (s : State) (n : Nat) (c : Core) : (s.setCore n c).sums = s.sums := rfl
@[simp] theorem State.setCore_ebud (s : State) (n : Nat) (c : Core) : (s.setCore n c).ebud = s.ebud := rfl
@[simp] theorem State.setCore_pdie (s : State) (n : Nat) (c : Core) : (s.setCore n c).pdie = s.pdie := rfl
@[simp] theorem State.setCore_eref (s : State) (n : Nat) (c : Core) : (s.setCore n c).eref = s.eref := rfl
@[simp] theorem State.setCore_phist (s : State) (n : Nat) (c : Core) : (s.setCore n c).phist = s.phist := rfl
@[simp] theorem State.setCore_throttle (s : State) (n : Nat) (c : Core) : (s.setCore n c).throttle = s.throttle := rfl
@[simp] theorem State.setCore_overCap (s : State) (n : Nat) (c : Core) : (s.setCore n c).overCap = s.overCap := rfl
@[simp] theorem State.setCore_ports (s : State) (n : Nat) (c : Core) : (s.setCore n c).ports = s.ports := rfl
@[simp] theorem State.setCore_bpDone (s : State) (n : Nat) (c : Core) : (s.setCore n c).bpDone = s.bpDone := rfl
@[simp] theorem State.setCore_linkTrain (s : State) (n : Nat) (c : Core) : (s.setCore n c).linkTrain = s.linkTrain := rfl
@[simp] theorem State.setCore_j1Lanes (s : State) (n : Nat) (c : Core) : (s.setCore n c).j1Lanes = s.j1Lanes := rfl
@[simp] theorem State.setCore_hdmBase (s : State) (n : Nat) (c : Core) : (s.setCore n c).hdmBase = s.hdmBase := rfl
@[simp] theorem State.setCore_msixMask (s : State) (n : Nat) (c : Core) : (s.setCore n c).msixMask = s.msixMask := rfl
@[simp] theorem State.setCore_msixPend (s : State) (n : Nat) (c : Core) : (s.setCore n c).msixPend = s.msixPend := rfl
@[simp] theorem State.setCore_msixSent (s : State) (n : Nat) (c : Core) : (s.setCore n c).msixSent = s.msixSent := rfl
@[simp] theorem State.setCore_hostOut (s : State) (n : Nat) (c : Core) : (s.setCore n c).hostOut = s.hostOut := rfl
@[simp] theorem State.setCore_hostRead (s : State) (n : Nat) (c : Core) : (s.setCore n c).hostRead = s.hostRead := rfl
@[simp] theorem State.setCore_snoop (s : State) (n : Nat) (c : Core) : (s.setCore n c).snoop = s.snoop := rfl
@[simp] theorem State.setCore_biWait (s : State) (n : Nat) (c : Core) : (s.setCore n c).biWait = s.biWait := rfl
@[simp] theorem State.setCore_bursts (s : State) (n : Nat) (c : Core) : (s.setCore n c).bursts = s.bursts := rfl
@[simp] theorem State.setCore_drecWait (s : State) (n : Nat) (c : Core) : (s.setCore n c).drecWait = s.drecWait := rfl
@[simp] theorem State.setCore_restWait (s : State) (n : Nat) (c : Core) : (s.setCore n c).restWait = s.restWait := rfl
@[simp] theorem State.setCore_hostLines (s : State) (n : Nat) (c : Core) : (s.setCore n c).hostLines = s.hostLines := rfl
@[simp] theorem State.setCore_memWait (s : State) (n : Nat) (c : Core) : (s.setCore n c).memWait = s.memWait := rfl
@[simp] theorem State.setCore_hostCfg (s : State) (n : Nat) (c : Core) : (s.setCore n c).hostCfg = s.hostCfg := rfl
@[simp] theorem State.setCore_boxH (s : State) (n : Nat) (c : Core) : (s.setCore n c).boxH = s.boxH := rfl
@[simp] theorem State.setCore_boxM (s : State) (n : Nat) (c : Core) : (s.setCore n c).boxM = s.boxM := rfl
@[simp] theorem State.setCore_buf (s : State) (n : Nat) (c : Core) : (s.setCore n c).buf = s.buf := rfl
@[simp] theorem State.setCore_session (s : State) (n : Nat) (c : Core) : (s.setCore n c).session = s.session := rfl
@[simp] theorem State.setCore_running (s : State) (n : Nat) (c : Core) : (s.setCore n c).running = s.running := rfl
@[simp] theorem State.setCore_runHdr (s : State) (n : Nat) (c : Core) : (s.setCore n c).runHdr = s.runHdr := rfl
@[simp] theorem State.setCore_flyDown (s : State) (n : Nat) (c : Core) : (s.setCore n c).flyDown = s.flyDown := rfl
@[simp] theorem State.setCore_activating (s : State) (n : Nat) (c : Core) : (s.setCore n c).activating = s.activating := rfl
@[simp] theorem State.setCore_dynAddr (s : State) (n : Nat) (c : Core) : (s.setCore n c).dynAddr = s.dynAddr := rfl
@[simp] theorem State.setCore_idKeys (s : State) (n : Nat) (c : Core) : (s.setCore n c).idKeys = s.idKeys := rfl
@[simp] theorem State.setCore_flashA (s : State) (n : Nat) (c : Core) : (s.setCore n c).flashA = s.flashA := rfl
@[simp] theorem State.setCore_flashB (s : State) (n : Nat) (c : Core) : (s.setCore n c).flashB = s.flashB := rfl
@[simp] theorem State.setCore_settings (s : State) (n : Nat) (c : Core) : (s.setCore n c).settings = s.settings := rfl
@[simp] theorem State.setCore_ilvSet (s : State) (n : Nat) (c : Core) : (s.setCore n c).ilvSet = s.ilvSet := rfl
@[simp] theorem State.setCore_log (s : State) (n : Nat) (c : Core) : (s.setCore n c).log = s.log := rfl
@[simp] theorem State.setCore_fuses (s : State) (n : Nat) (c : Core) : (s.setCore n c).fuses = s.fuses := rfl
@[simp] theorem State.setCore_repairs (s : State) (n : Nat) (c : Core) : (s.setCore n c).repairs = s.repairs := rfl
@[simp] theorem State.setCore_fieldRows (s : State) (n : Nat) (c : Core) : (s.setCore n c).fieldRows = s.fieldRows := rfl
@[simp] theorem State.setCore_scrub (s : State) (n : Nat) (c : Core) : (s.setCore n c).scrub = s.scrub := rfl
@[simp] theorem State.setCore_repairing (s : State) (n : Nat) (c : Core) : (s.setCore n c).repairing = s.repairing := rfl
@[simp] theorem State.setCore_rowWait (s : State) (n : Nat) (c : Core) : (s.setCore n c).rowWait = s.rowWait := rfl
@[simp] theorem State.setCore_tap (s : State) (n : Nat) (c : Core) : (s.setCore n c).tap = s.tap := rfl
@[simp] theorem State.setCore_tapDr (s : State) (n : Nat) (c : Core) : (s.setCore n c).tapDr = s.tapDr := rfl
@[simp] theorem State.setCore_freeCtr (s : State) (n : Nat) (c : Core) : (s.setCore n c).freeCtr = s.freeCtr := rfl
@[simp] theorem State.setCore_rngCtr (s : State) (n : Nat) (c : Core) : (s.setCore n c).rngCtr = s.rngCtr := rfl
@[simp] theorem State.setCore_pending (s : State) (n : Nat) (c : Core) : (s.setCore n c).pending = s.pending := rfl

/-! modCore writes the field cores alone. -/

@[simp] theorem State.modCore_regs (s : State) (n : Nat) (f : Core → Core) : (s.modCore n f).regs = s.regs := rfl
@[simp] theorem State.modCore_power (s : State) (n : Nat) (f : Core → Core) : (s.modCore n f).power = s.power := rfl
@[simp] theorem State.modCore_pins (s : State) (n : Nat) (f : Core → Core) : (s.modCore n f).pins = s.pins := rfl
@[simp] theorem State.modCore_usec (s : State) (n : Nat) (f : Core → Core) : (s.modCore n f).usec = s.usec := rfl
@[simp] theorem State.modCore_strapAt (s : State) (n : Nat) (f : Core → Core) : (s.modCore n f).strapAt = s.strapAt := rfl
@[simp] theorem State.modCore_svcStop (s : State) (n : Nat) (f : Core → Core) : (s.modCore n f).svcStop = s.svcStop := rfl
@[simp] theorem State.modCore_heldReset (s : State) (n : Nat) (f : Core → Core) : (s.modCore n f).heldReset = s.heldReset := rfl
@[simp] theorem State.modCore_uart (s : State) (n : Nat) (f : Core → Core) : (s.modCore n f).uart = s.uart := rfl
@[simp] theorem State.modCore_ibi (s : State) (n : Nat) (f : Core → Core) : (s.modCore n f).ibi = s.ibi := rfl
@[simp] theorem State.modCore_sensors (s : State) (n : Nat) (f : Core → Core) : (s.modCore n f).sensors = s.sensors := rfl
@[simp] theorem State.modCore_closed (s : State) (n : Nat) (f : Core → Core) : (s.modCore n f).closed = s.closed := rfl
@[simp] theorem State.modCore_mem (s : State) (n : Nat) (f : Core → Core) : (s.modCore n f).mem = s.mem := rfl
@[simp] theorem State.modCore_psn (s : State) (n : Nat) (f : Core → Core) : (s.modCore n f).psn = s.psn := rfl
@[simp] theorem State.modCore_latent (s : State) (n : Nat) (f : Core → Core) : (s.modCore n f).latent = s.latent := rfl
@[simp] theorem State.modCore_upsets (s : State) (n : Nat) (f : Core → Core) : (s.modCore n f).upsets = s.upsets := rfl
@[simp] theorem State.modCore_queues (s : State) (n : Nat) (f : Core → Core) : (s.modCore n f).queues = s.queues := rfl
@[simp] theorem State.modCore_errqSet (s : State) (n : Nat) (f : Core → Core) : (s.modCore n f).errqSet = s.errqSet := rfl
@[simp] theorem State.modCore_res (s : State) (n : Nat) (f : Core → Core) : (s.modCore n f).res = s.res := rfl
@[simp] theorem State.modCore_sems (s : State) (n : Nat) (f : Core → Core) : (s.modCore n f).sems = s.sems := rfl
@[simp] theorem State.modCore_ctxs (s : State) (n : Nat) (f : Core → Core) : (s.modCore n f).ctxs = s.ctxs := rfl
@[simp] theorem State.modCore_links (s : State) (n : Nat) (f : Core → Core) : (s.modCore n f).links = s.links := rfl
@[simp] theorem State.modCore_routes (s : State) (n : Nat) (f : Core → Core) : (s.modCore n f).routes = s.routes := rfl
@[simp] theorem State.modCore_routeMark (s : State) (n : Nat) (f : Core → Core) : (s.modCore n f).routeMark = s.routeMark := rfl
@[simp] theorem State.modCore_mcast (s : State) (n : Nat) (f : Core → Core) : (s.modCore n f).mcast = s.mcast := rfl
@[simp] theorem State.modCore_mcastStg (s : State) (n : Nat) (f : Core → Core) : (s.modCore n f).mcastStg = s.mcastStg := rfl
@[simp] theorem State.modCore_requests (s : State) (n : Nat) (f : Core → Core) : (s.modCore n f).requests = s.requests := rfl
@[simp] theorem State.modCore_unsent (s : State) (n : Nat) (f : Core → Core) : (s.modCore n f).unsent = s.unsent := rfl
@[simp] theorem State.modCore_nextTag (s : State) (n : Nat) (f : Core → Core) : (s.modCore n f).nextTag = s.nextTag := rfl
@[simp] theorem State.modCore_inbox (s : State) (n : Nat) (f : Core → Core) : (s.modCore n f).inbox = s.inbox := rfl
@[simp] theorem State.modCore_imgLink (s : State) (n : Nat) (f : Core → Core) : (s.modCore n f).imgLink = s.imgLink := rfl
@[simp] theorem State.modCore_imgTried (s : State) (n : Nat) (f : Core → Core) : (s.modCore n f).imgTried = s.imgTried := rfl
@[simp] theorem State.modCore_jobs (s : State) (n : Nat) (f : Core → Core) : (s.modCore n f).jobs = s.jobs := rfl
@[simp] theorem State.modCore_swarms (s : State) (n : Nat) (f : Core → Core) : (s.modCore n f).swarms = s.swarms := rfl
@[simp] theorem State.modCore_copies (s : State) (n : Nat) (f : Core → Core) : (s.modCore n f).copies = s.copies := rfl
@[simp] theorem State.modCore_touchWait (s : State) (n : Nat) (f : Core → Core) : (s.modCore n f).touchWait = s.touchWait := rfl
@[simp] theorem State.modCore_jtlb (s : State) (n : Nat) (f : Core → Core) : (s.modCore n f).jtlb = s.jtlb := rfl
@[simp] theorem State.modCore_jrootUse (s : State) (n : Nat) (f : Core → Core) : (s.modCore n f).jrootUse = s.jrootUse := rfl
@[simp] theorem State.modCore_resolving (s : State) (n : Nat) (f : Core → Core) : (s.modCore n f).resolving = s.resolving := rfl
@[simp] theorem State.modCore_stepCyc (s : State) (n : Nat) (f : Core → Core) : (s.modCore n f).stepCyc = s.stepCyc := rfl
@[simp] theorem State.modCore_stepCmd (s : State) (n : Nat) (f : Core → Core) : (s.modCore n f).stepCmd = s.stepCmd := rfl
@[simp] theorem State.modCore_sums (s : State) (n : Nat) (f : Core → Core) : (s.modCore n f).sums = s.sums := rfl
@[simp] theorem State.modCore_ebud (s : State) (n : Nat) (f : Core → Core) : (s.modCore n f).ebud = s.ebud := rfl
@[simp] theorem State.modCore_pdie (s : State) (n : Nat) (f : Core → Core) : (s.modCore n f).pdie = s.pdie := rfl
@[simp] theorem State.modCore_eref (s : State) (n : Nat) (f : Core → Core) : (s.modCore n f).eref = s.eref := rfl
@[simp] theorem State.modCore_phist (s : State) (n : Nat) (f : Core → Core) : (s.modCore n f).phist = s.phist := rfl
@[simp] theorem State.modCore_throttle (s : State) (n : Nat) (f : Core → Core) : (s.modCore n f).throttle = s.throttle := rfl
@[simp] theorem State.modCore_overCap (s : State) (n : Nat) (f : Core → Core) : (s.modCore n f).overCap = s.overCap := rfl
@[simp] theorem State.modCore_ports (s : State) (n : Nat) (f : Core → Core) : (s.modCore n f).ports = s.ports := rfl
@[simp] theorem State.modCore_bpDone (s : State) (n : Nat) (f : Core → Core) : (s.modCore n f).bpDone = s.bpDone := rfl
@[simp] theorem State.modCore_linkTrain (s : State) (n : Nat) (f : Core → Core) : (s.modCore n f).linkTrain = s.linkTrain := rfl
@[simp] theorem State.modCore_j1Lanes (s : State) (n : Nat) (f : Core → Core) : (s.modCore n f).j1Lanes = s.j1Lanes := rfl
@[simp] theorem State.modCore_hdmBase (s : State) (n : Nat) (f : Core → Core) : (s.modCore n f).hdmBase = s.hdmBase := rfl
@[simp] theorem State.modCore_msixMask (s : State) (n : Nat) (f : Core → Core) : (s.modCore n f).msixMask = s.msixMask := rfl
@[simp] theorem State.modCore_msixPend (s : State) (n : Nat) (f : Core → Core) : (s.modCore n f).msixPend = s.msixPend := rfl
@[simp] theorem State.modCore_msixSent (s : State) (n : Nat) (f : Core → Core) : (s.modCore n f).msixSent = s.msixSent := rfl
@[simp] theorem State.modCore_hostOut (s : State) (n : Nat) (f : Core → Core) : (s.modCore n f).hostOut = s.hostOut := rfl
@[simp] theorem State.modCore_hostRead (s : State) (n : Nat) (f : Core → Core) : (s.modCore n f).hostRead = s.hostRead := rfl
@[simp] theorem State.modCore_snoop (s : State) (n : Nat) (f : Core → Core) : (s.modCore n f).snoop = s.snoop := rfl
@[simp] theorem State.modCore_biWait (s : State) (n : Nat) (f : Core → Core) : (s.modCore n f).biWait = s.biWait := rfl
@[simp] theorem State.modCore_bursts (s : State) (n : Nat) (f : Core → Core) : (s.modCore n f).bursts = s.bursts := rfl
@[simp] theorem State.modCore_drecWait (s : State) (n : Nat) (f : Core → Core) : (s.modCore n f).drecWait = s.drecWait := rfl
@[simp] theorem State.modCore_restWait (s : State) (n : Nat) (f : Core → Core) : (s.modCore n f).restWait = s.restWait := rfl
@[simp] theorem State.modCore_hostLines (s : State) (n : Nat) (f : Core → Core) : (s.modCore n f).hostLines = s.hostLines := rfl
@[simp] theorem State.modCore_memWait (s : State) (n : Nat) (f : Core → Core) : (s.modCore n f).memWait = s.memWait := rfl
@[simp] theorem State.modCore_hostCfg (s : State) (n : Nat) (f : Core → Core) : (s.modCore n f).hostCfg = s.hostCfg := rfl
@[simp] theorem State.modCore_boxH (s : State) (n : Nat) (f : Core → Core) : (s.modCore n f).boxH = s.boxH := rfl
@[simp] theorem State.modCore_boxM (s : State) (n : Nat) (f : Core → Core) : (s.modCore n f).boxM = s.boxM := rfl
@[simp] theorem State.modCore_buf (s : State) (n : Nat) (f : Core → Core) : (s.modCore n f).buf = s.buf := rfl
@[simp] theorem State.modCore_session (s : State) (n : Nat) (f : Core → Core) : (s.modCore n f).session = s.session := rfl
@[simp] theorem State.modCore_running (s : State) (n : Nat) (f : Core → Core) : (s.modCore n f).running = s.running := rfl
@[simp] theorem State.modCore_runHdr (s : State) (n : Nat) (f : Core → Core) : (s.modCore n f).runHdr = s.runHdr := rfl
@[simp] theorem State.modCore_flyDown (s : State) (n : Nat) (f : Core → Core) : (s.modCore n f).flyDown = s.flyDown := rfl
@[simp] theorem State.modCore_activating (s : State) (n : Nat) (f : Core → Core) : (s.modCore n f).activating = s.activating := rfl
@[simp] theorem State.modCore_dynAddr (s : State) (n : Nat) (f : Core → Core) : (s.modCore n f).dynAddr = s.dynAddr := rfl
@[simp] theorem State.modCore_idKeys (s : State) (n : Nat) (f : Core → Core) : (s.modCore n f).idKeys = s.idKeys := rfl
@[simp] theorem State.modCore_flashA (s : State) (n : Nat) (f : Core → Core) : (s.modCore n f).flashA = s.flashA := rfl
@[simp] theorem State.modCore_flashB (s : State) (n : Nat) (f : Core → Core) : (s.modCore n f).flashB = s.flashB := rfl
@[simp] theorem State.modCore_settings (s : State) (n : Nat) (f : Core → Core) : (s.modCore n f).settings = s.settings := rfl
@[simp] theorem State.modCore_ilvSet (s : State) (n : Nat) (f : Core → Core) : (s.modCore n f).ilvSet = s.ilvSet := rfl
@[simp] theorem State.modCore_log (s : State) (n : Nat) (f : Core → Core) : (s.modCore n f).log = s.log := rfl
@[simp] theorem State.modCore_fuses (s : State) (n : Nat) (f : Core → Core) : (s.modCore n f).fuses = s.fuses := rfl
@[simp] theorem State.modCore_repairs (s : State) (n : Nat) (f : Core → Core) : (s.modCore n f).repairs = s.repairs := rfl
@[simp] theorem State.modCore_fieldRows (s : State) (n : Nat) (f : Core → Core) : (s.modCore n f).fieldRows = s.fieldRows := rfl
@[simp] theorem State.modCore_scrub (s : State) (n : Nat) (f : Core → Core) : (s.modCore n f).scrub = s.scrub := rfl
@[simp] theorem State.modCore_repairing (s : State) (n : Nat) (f : Core → Core) : (s.modCore n f).repairing = s.repairing := rfl
@[simp] theorem State.modCore_rowWait (s : State) (n : Nat) (f : Core → Core) : (s.modCore n f).rowWait = s.rowWait := rfl
@[simp] theorem State.modCore_tap (s : State) (n : Nat) (f : Core → Core) : (s.modCore n f).tap = s.tap := rfl
@[simp] theorem State.modCore_tapDr (s : State) (n : Nat) (f : Core → Core) : (s.modCore n f).tapDr = s.tapDr := rfl
@[simp] theorem State.modCore_freeCtr (s : State) (n : Nat) (f : Core → Core) : (s.modCore n f).freeCtr = s.freeCtr := rfl
@[simp] theorem State.modCore_rngCtr (s : State) (n : Nat) (f : Core → Core) : (s.modCore n f).rngCtr = s.rngCtr := rfl
@[simp] theorem State.modCore_pending (s : State) (n : Nat) (f : Core → Core) : (s.modCore n f).pending = s.pending := rfl

/-! setReg writes the field regs alone. -/

@[simp] theorem State.setReg_power (s : State) (o : Nat) (v : W32) : (s.setReg o v).power = s.power := rfl
@[simp] theorem State.setReg_pins (s : State) (o : Nat) (v : W32) : (s.setReg o v).pins = s.pins := rfl
@[simp] theorem State.setReg_usec (s : State) (o : Nat) (v : W32) : (s.setReg o v).usec = s.usec := rfl
@[simp] theorem State.setReg_strapAt (s : State) (o : Nat) (v : W32) : (s.setReg o v).strapAt = s.strapAt := rfl
@[simp] theorem State.setReg_svcStop (s : State) (o : Nat) (v : W32) : (s.setReg o v).svcStop = s.svcStop := rfl
@[simp] theorem State.setReg_heldReset (s : State) (o : Nat) (v : W32) : (s.setReg o v).heldReset = s.heldReset := rfl
@[simp] theorem State.setReg_uart (s : State) (o : Nat) (v : W32) : (s.setReg o v).uart = s.uart := rfl
@[simp] theorem State.setReg_ibi (s : State) (o : Nat) (v : W32) : (s.setReg o v).ibi = s.ibi := rfl
@[simp] theorem State.setReg_sensors (s : State) (o : Nat) (v : W32) : (s.setReg o v).sensors = s.sensors := rfl
@[simp] theorem State.setReg_closed (s : State) (o : Nat) (v : W32) : (s.setReg o v).closed = s.closed := rfl
@[simp] theorem State.setReg_cores (s : State) (o : Nat) (v : W32) : (s.setReg o v).cores = s.cores := rfl
@[simp] theorem State.setReg_mem (s : State) (o : Nat) (v : W32) : (s.setReg o v).mem = s.mem := rfl
@[simp] theorem State.setReg_psn (s : State) (o : Nat) (v : W32) : (s.setReg o v).psn = s.psn := rfl
@[simp] theorem State.setReg_latent (s : State) (o : Nat) (v : W32) : (s.setReg o v).latent = s.latent := rfl
@[simp] theorem State.setReg_upsets (s : State) (o : Nat) (v : W32) : (s.setReg o v).upsets = s.upsets := rfl
@[simp] theorem State.setReg_queues (s : State) (o : Nat) (v : W32) : (s.setReg o v).queues = s.queues := rfl
@[simp] theorem State.setReg_errqSet (s : State) (o : Nat) (v : W32) : (s.setReg o v).errqSet = s.errqSet := rfl
@[simp] theorem State.setReg_res (s : State) (o : Nat) (v : W32) : (s.setReg o v).res = s.res := rfl
@[simp] theorem State.setReg_sems (s : State) (o : Nat) (v : W32) : (s.setReg o v).sems = s.sems := rfl
@[simp] theorem State.setReg_ctxs (s : State) (o : Nat) (v : W32) : (s.setReg o v).ctxs = s.ctxs := rfl
@[simp] theorem State.setReg_links (s : State) (o : Nat) (v : W32) : (s.setReg o v).links = s.links := rfl
@[simp] theorem State.setReg_routes (s : State) (o : Nat) (v : W32) : (s.setReg o v).routes = s.routes := rfl
@[simp] theorem State.setReg_routeMark (s : State) (o : Nat) (v : W32) : (s.setReg o v).routeMark = s.routeMark := rfl
@[simp] theorem State.setReg_mcast (s : State) (o : Nat) (v : W32) : (s.setReg o v).mcast = s.mcast := rfl
@[simp] theorem State.setReg_mcastStg (s : State) (o : Nat) (v : W32) : (s.setReg o v).mcastStg = s.mcastStg := rfl
@[simp] theorem State.setReg_requests (s : State) (o : Nat) (v : W32) : (s.setReg o v).requests = s.requests := rfl
@[simp] theorem State.setReg_unsent (s : State) (o : Nat) (v : W32) : (s.setReg o v).unsent = s.unsent := rfl
@[simp] theorem State.setReg_nextTag (s : State) (o : Nat) (v : W32) : (s.setReg o v).nextTag = s.nextTag := rfl
@[simp] theorem State.setReg_inbox (s : State) (o : Nat) (v : W32) : (s.setReg o v).inbox = s.inbox := rfl
@[simp] theorem State.setReg_imgLink (s : State) (o : Nat) (v : W32) : (s.setReg o v).imgLink = s.imgLink := rfl
@[simp] theorem State.setReg_imgTried (s : State) (o : Nat) (v : W32) : (s.setReg o v).imgTried = s.imgTried := rfl
@[simp] theorem State.setReg_jobs (s : State) (o : Nat) (v : W32) : (s.setReg o v).jobs = s.jobs := rfl
@[simp] theorem State.setReg_swarms (s : State) (o : Nat) (v : W32) : (s.setReg o v).swarms = s.swarms := rfl
@[simp] theorem State.setReg_copies (s : State) (o : Nat) (v : W32) : (s.setReg o v).copies = s.copies := rfl
@[simp] theorem State.setReg_touchWait (s : State) (o : Nat) (v : W32) : (s.setReg o v).touchWait = s.touchWait := rfl
@[simp] theorem State.setReg_jtlb (s : State) (o : Nat) (v : W32) : (s.setReg o v).jtlb = s.jtlb := rfl
@[simp] theorem State.setReg_jrootUse (s : State) (o : Nat) (v : W32) : (s.setReg o v).jrootUse = s.jrootUse := rfl
@[simp] theorem State.setReg_resolving (s : State) (o : Nat) (v : W32) : (s.setReg o v).resolving = s.resolving := rfl
@[simp] theorem State.setReg_stepCyc (s : State) (o : Nat) (v : W32) : (s.setReg o v).stepCyc = s.stepCyc := rfl
@[simp] theorem State.setReg_stepCmd (s : State) (o : Nat) (v : W32) : (s.setReg o v).stepCmd = s.stepCmd := rfl
@[simp] theorem State.setReg_sums (s : State) (o : Nat) (v : W32) : (s.setReg o v).sums = s.sums := rfl
@[simp] theorem State.setReg_ebud (s : State) (o : Nat) (v : W32) : (s.setReg o v).ebud = s.ebud := rfl
@[simp] theorem State.setReg_pdie (s : State) (o : Nat) (v : W32) : (s.setReg o v).pdie = s.pdie := rfl
@[simp] theorem State.setReg_eref (s : State) (o : Nat) (v : W32) : (s.setReg o v).eref = s.eref := rfl
@[simp] theorem State.setReg_phist (s : State) (o : Nat) (v : W32) : (s.setReg o v).phist = s.phist := rfl
@[simp] theorem State.setReg_throttle (s : State) (o : Nat) (v : W32) : (s.setReg o v).throttle = s.throttle := rfl
@[simp] theorem State.setReg_overCap (s : State) (o : Nat) (v : W32) : (s.setReg o v).overCap = s.overCap := rfl
@[simp] theorem State.setReg_ports (s : State) (o : Nat) (v : W32) : (s.setReg o v).ports = s.ports := rfl
@[simp] theorem State.setReg_bpDone (s : State) (o : Nat) (v : W32) : (s.setReg o v).bpDone = s.bpDone := rfl
@[simp] theorem State.setReg_linkTrain (s : State) (o : Nat) (v : W32) : (s.setReg o v).linkTrain = s.linkTrain := rfl
@[simp] theorem State.setReg_j1Lanes (s : State) (o : Nat) (v : W32) : (s.setReg o v).j1Lanes = s.j1Lanes := rfl
@[simp] theorem State.setReg_hdmBase (s : State) (o : Nat) (v : W32) : (s.setReg o v).hdmBase = s.hdmBase := rfl
@[simp] theorem State.setReg_msixMask (s : State) (o : Nat) (v : W32) : (s.setReg o v).msixMask = s.msixMask := rfl
@[simp] theorem State.setReg_msixPend (s : State) (o : Nat) (v : W32) : (s.setReg o v).msixPend = s.msixPend := rfl
@[simp] theorem State.setReg_msixSent (s : State) (o : Nat) (v : W32) : (s.setReg o v).msixSent = s.msixSent := rfl
@[simp] theorem State.setReg_hostOut (s : State) (o : Nat) (v : W32) : (s.setReg o v).hostOut = s.hostOut := rfl
@[simp] theorem State.setReg_hostRead (s : State) (o : Nat) (v : W32) : (s.setReg o v).hostRead = s.hostRead := rfl
@[simp] theorem State.setReg_snoop (s : State) (o : Nat) (v : W32) : (s.setReg o v).snoop = s.snoop := rfl
@[simp] theorem State.setReg_biWait (s : State) (o : Nat) (v : W32) : (s.setReg o v).biWait = s.biWait := rfl
@[simp] theorem State.setReg_bursts (s : State) (o : Nat) (v : W32) : (s.setReg o v).bursts = s.bursts := rfl
@[simp] theorem State.setReg_drecWait (s : State) (o : Nat) (v : W32) : (s.setReg o v).drecWait = s.drecWait := rfl
@[simp] theorem State.setReg_restWait (s : State) (o : Nat) (v : W32) : (s.setReg o v).restWait = s.restWait := rfl
@[simp] theorem State.setReg_hostLines (s : State) (o : Nat) (v : W32) : (s.setReg o v).hostLines = s.hostLines := rfl
@[simp] theorem State.setReg_memWait (s : State) (o : Nat) (v : W32) : (s.setReg o v).memWait = s.memWait := rfl
@[simp] theorem State.setReg_hostCfg (s : State) (o : Nat) (v : W32) : (s.setReg o v).hostCfg = s.hostCfg := rfl
@[simp] theorem State.setReg_boxH (s : State) (o : Nat) (v : W32) : (s.setReg o v).boxH = s.boxH := rfl
@[simp] theorem State.setReg_boxM (s : State) (o : Nat) (v : W32) : (s.setReg o v).boxM = s.boxM := rfl
@[simp] theorem State.setReg_buf (s : State) (o : Nat) (v : W32) : (s.setReg o v).buf = s.buf := rfl
@[simp] theorem State.setReg_session (s : State) (o : Nat) (v : W32) : (s.setReg o v).session = s.session := rfl
@[simp] theorem State.setReg_running (s : State) (o : Nat) (v : W32) : (s.setReg o v).running = s.running := rfl
@[simp] theorem State.setReg_runHdr (s : State) (o : Nat) (v : W32) : (s.setReg o v).runHdr = s.runHdr := rfl
@[simp] theorem State.setReg_flyDown (s : State) (o : Nat) (v : W32) : (s.setReg o v).flyDown = s.flyDown := rfl
@[simp] theorem State.setReg_activating (s : State) (o : Nat) (v : W32) : (s.setReg o v).activating = s.activating := rfl
@[simp] theorem State.setReg_dynAddr (s : State) (o : Nat) (v : W32) : (s.setReg o v).dynAddr = s.dynAddr := rfl
@[simp] theorem State.setReg_idKeys (s : State) (o : Nat) (v : W32) : (s.setReg o v).idKeys = s.idKeys := rfl
@[simp] theorem State.setReg_flashA (s : State) (o : Nat) (v : W32) : (s.setReg o v).flashA = s.flashA := rfl
@[simp] theorem State.setReg_flashB (s : State) (o : Nat) (v : W32) : (s.setReg o v).flashB = s.flashB := rfl
@[simp] theorem State.setReg_settings (s : State) (o : Nat) (v : W32) : (s.setReg o v).settings = s.settings := rfl
@[simp] theorem State.setReg_ilvSet (s : State) (o : Nat) (v : W32) : (s.setReg o v).ilvSet = s.ilvSet := rfl
@[simp] theorem State.setReg_log (s : State) (o : Nat) (v : W32) : (s.setReg o v).log = s.log := rfl
@[simp] theorem State.setReg_fuses (s : State) (o : Nat) (v : W32) : (s.setReg o v).fuses = s.fuses := rfl
@[simp] theorem State.setReg_repairs (s : State) (o : Nat) (v : W32) : (s.setReg o v).repairs = s.repairs := rfl
@[simp] theorem State.setReg_fieldRows (s : State) (o : Nat) (v : W32) : (s.setReg o v).fieldRows = s.fieldRows := rfl
@[simp] theorem State.setReg_scrub (s : State) (o : Nat) (v : W32) : (s.setReg o v).scrub = s.scrub := rfl
@[simp] theorem State.setReg_repairing (s : State) (o : Nat) (v : W32) : (s.setReg o v).repairing = s.repairing := rfl
@[simp] theorem State.setReg_rowWait (s : State) (o : Nat) (v : W32) : (s.setReg o v).rowWait = s.rowWait := rfl
@[simp] theorem State.setReg_tap (s : State) (o : Nat) (v : W32) : (s.setReg o v).tap = s.tap := rfl
@[simp] theorem State.setReg_tapDr (s : State) (o : Nat) (v : W32) : (s.setReg o v).tapDr = s.tapDr := rfl
@[simp] theorem State.setReg_freeCtr (s : State) (o : Nat) (v : W32) : (s.setReg o v).freeCtr = s.freeCtr := rfl
@[simp] theorem State.setReg_rngCtr (s : State) (o : Nat) (v : W32) : (s.setReg o v).rngCtr = s.rngCtr := rfl
@[simp] theorem State.setReg_pending (s : State) (o : Nat) (v : W32) : (s.setReg o v).pending = s.pending := rfl

/-! setFldReg writes the field regs alone. -/

@[simp] theorem State.setFldReg_power (s : State) (o lo len v : Nat) : (s.setFldReg o lo len v).power = s.power := rfl
@[simp] theorem State.setFldReg_pins (s : State) (o lo len v : Nat) : (s.setFldReg o lo len v).pins = s.pins := rfl
@[simp] theorem State.setFldReg_usec (s : State) (o lo len v : Nat) : (s.setFldReg o lo len v).usec = s.usec := rfl
@[simp] theorem State.setFldReg_strapAt (s : State) (o lo len v : Nat) : (s.setFldReg o lo len v).strapAt = s.strapAt := rfl
@[simp] theorem State.setFldReg_svcStop (s : State) (o lo len v : Nat) : (s.setFldReg o lo len v).svcStop = s.svcStop := rfl
@[simp] theorem State.setFldReg_heldReset (s : State) (o lo len v : Nat) : (s.setFldReg o lo len v).heldReset = s.heldReset := rfl
@[simp] theorem State.setFldReg_uart (s : State) (o lo len v : Nat) : (s.setFldReg o lo len v).uart = s.uart := rfl
@[simp] theorem State.setFldReg_ibi (s : State) (o lo len v : Nat) : (s.setFldReg o lo len v).ibi = s.ibi := rfl
@[simp] theorem State.setFldReg_sensors (s : State) (o lo len v : Nat) : (s.setFldReg o lo len v).sensors = s.sensors := rfl
@[simp] theorem State.setFldReg_closed (s : State) (o lo len v : Nat) : (s.setFldReg o lo len v).closed = s.closed := rfl
@[simp] theorem State.setFldReg_cores (s : State) (o lo len v : Nat) : (s.setFldReg o lo len v).cores = s.cores := rfl
@[simp] theorem State.setFldReg_mem (s : State) (o lo len v : Nat) : (s.setFldReg o lo len v).mem = s.mem := rfl
@[simp] theorem State.setFldReg_psn (s : State) (o lo len v : Nat) : (s.setFldReg o lo len v).psn = s.psn := rfl
@[simp] theorem State.setFldReg_latent (s : State) (o lo len v : Nat) : (s.setFldReg o lo len v).latent = s.latent := rfl
@[simp] theorem State.setFldReg_upsets (s : State) (o lo len v : Nat) : (s.setFldReg o lo len v).upsets = s.upsets := rfl
@[simp] theorem State.setFldReg_queues (s : State) (o lo len v : Nat) : (s.setFldReg o lo len v).queues = s.queues := rfl
@[simp] theorem State.setFldReg_errqSet (s : State) (o lo len v : Nat) : (s.setFldReg o lo len v).errqSet = s.errqSet := rfl
@[simp] theorem State.setFldReg_res (s : State) (o lo len v : Nat) : (s.setFldReg o lo len v).res = s.res := rfl
@[simp] theorem State.setFldReg_sems (s : State) (o lo len v : Nat) : (s.setFldReg o lo len v).sems = s.sems := rfl
@[simp] theorem State.setFldReg_ctxs (s : State) (o lo len v : Nat) : (s.setFldReg o lo len v).ctxs = s.ctxs := rfl
@[simp] theorem State.setFldReg_links (s : State) (o lo len v : Nat) : (s.setFldReg o lo len v).links = s.links := rfl
@[simp] theorem State.setFldReg_routes (s : State) (o lo len v : Nat) : (s.setFldReg o lo len v).routes = s.routes := rfl
@[simp] theorem State.setFldReg_routeMark (s : State) (o lo len v : Nat) : (s.setFldReg o lo len v).routeMark = s.routeMark := rfl
@[simp] theorem State.setFldReg_mcast (s : State) (o lo len v : Nat) : (s.setFldReg o lo len v).mcast = s.mcast := rfl
@[simp] theorem State.setFldReg_mcastStg (s : State) (o lo len v : Nat) : (s.setFldReg o lo len v).mcastStg = s.mcastStg := rfl
@[simp] theorem State.setFldReg_requests (s : State) (o lo len v : Nat) : (s.setFldReg o lo len v).requests = s.requests := rfl
@[simp] theorem State.setFldReg_unsent (s : State) (o lo len v : Nat) : (s.setFldReg o lo len v).unsent = s.unsent := rfl
@[simp] theorem State.setFldReg_nextTag (s : State) (o lo len v : Nat) : (s.setFldReg o lo len v).nextTag = s.nextTag := rfl
@[simp] theorem State.setFldReg_inbox (s : State) (o lo len v : Nat) : (s.setFldReg o lo len v).inbox = s.inbox := rfl
@[simp] theorem State.setFldReg_imgLink (s : State) (o lo len v : Nat) : (s.setFldReg o lo len v).imgLink = s.imgLink := rfl
@[simp] theorem State.setFldReg_imgTried (s : State) (o lo len v : Nat) : (s.setFldReg o lo len v).imgTried = s.imgTried := rfl
@[simp] theorem State.setFldReg_jobs (s : State) (o lo len v : Nat) : (s.setFldReg o lo len v).jobs = s.jobs := rfl
@[simp] theorem State.setFldReg_swarms (s : State) (o lo len v : Nat) : (s.setFldReg o lo len v).swarms = s.swarms := rfl
@[simp] theorem State.setFldReg_copies (s : State) (o lo len v : Nat) : (s.setFldReg o lo len v).copies = s.copies := rfl
@[simp] theorem State.setFldReg_touchWait (s : State) (o lo len v : Nat) : (s.setFldReg o lo len v).touchWait = s.touchWait := rfl
@[simp] theorem State.setFldReg_jtlb (s : State) (o lo len v : Nat) : (s.setFldReg o lo len v).jtlb = s.jtlb := rfl
@[simp] theorem State.setFldReg_jrootUse (s : State) (o lo len v : Nat) : (s.setFldReg o lo len v).jrootUse = s.jrootUse := rfl
@[simp] theorem State.setFldReg_resolving (s : State) (o lo len v : Nat) : (s.setFldReg o lo len v).resolving = s.resolving := rfl
@[simp] theorem State.setFldReg_stepCyc (s : State) (o lo len v : Nat) : (s.setFldReg o lo len v).stepCyc = s.stepCyc := rfl
@[simp] theorem State.setFldReg_stepCmd (s : State) (o lo len v : Nat) : (s.setFldReg o lo len v).stepCmd = s.stepCmd := rfl
@[simp] theorem State.setFldReg_sums (s : State) (o lo len v : Nat) : (s.setFldReg o lo len v).sums = s.sums := rfl
@[simp] theorem State.setFldReg_ebud (s : State) (o lo len v : Nat) : (s.setFldReg o lo len v).ebud = s.ebud := rfl
@[simp] theorem State.setFldReg_pdie (s : State) (o lo len v : Nat) : (s.setFldReg o lo len v).pdie = s.pdie := rfl
@[simp] theorem State.setFldReg_eref (s : State) (o lo len v : Nat) : (s.setFldReg o lo len v).eref = s.eref := rfl
@[simp] theorem State.setFldReg_phist (s : State) (o lo len v : Nat) : (s.setFldReg o lo len v).phist = s.phist := rfl
@[simp] theorem State.setFldReg_throttle (s : State) (o lo len v : Nat) : (s.setFldReg o lo len v).throttle = s.throttle := rfl
@[simp] theorem State.setFldReg_overCap (s : State) (o lo len v : Nat) : (s.setFldReg o lo len v).overCap = s.overCap := rfl
@[simp] theorem State.setFldReg_ports (s : State) (o lo len v : Nat) : (s.setFldReg o lo len v).ports = s.ports := rfl
@[simp] theorem State.setFldReg_bpDone (s : State) (o lo len v : Nat) : (s.setFldReg o lo len v).bpDone = s.bpDone := rfl
@[simp] theorem State.setFldReg_linkTrain (s : State) (o lo len v : Nat) : (s.setFldReg o lo len v).linkTrain = s.linkTrain := rfl
@[simp] theorem State.setFldReg_j1Lanes (s : State) (o lo len v : Nat) : (s.setFldReg o lo len v).j1Lanes = s.j1Lanes := rfl
@[simp] theorem State.setFldReg_hdmBase (s : State) (o lo len v : Nat) : (s.setFldReg o lo len v).hdmBase = s.hdmBase := rfl
@[simp] theorem State.setFldReg_msixMask (s : State) (o lo len v : Nat) : (s.setFldReg o lo len v).msixMask = s.msixMask := rfl
@[simp] theorem State.setFldReg_msixPend (s : State) (o lo len v : Nat) : (s.setFldReg o lo len v).msixPend = s.msixPend := rfl
@[simp] theorem State.setFldReg_msixSent (s : State) (o lo len v : Nat) : (s.setFldReg o lo len v).msixSent = s.msixSent := rfl
@[simp] theorem State.setFldReg_hostOut (s : State) (o lo len v : Nat) : (s.setFldReg o lo len v).hostOut = s.hostOut := rfl
@[simp] theorem State.setFldReg_hostRead (s : State) (o lo len v : Nat) : (s.setFldReg o lo len v).hostRead = s.hostRead := rfl
@[simp] theorem State.setFldReg_snoop (s : State) (o lo len v : Nat) : (s.setFldReg o lo len v).snoop = s.snoop := rfl
@[simp] theorem State.setFldReg_biWait (s : State) (o lo len v : Nat) : (s.setFldReg o lo len v).biWait = s.biWait := rfl
@[simp] theorem State.setFldReg_bursts (s : State) (o lo len v : Nat) : (s.setFldReg o lo len v).bursts = s.bursts := rfl
@[simp] theorem State.setFldReg_drecWait (s : State) (o lo len v : Nat) : (s.setFldReg o lo len v).drecWait = s.drecWait := rfl
@[simp] theorem State.setFldReg_restWait (s : State) (o lo len v : Nat) : (s.setFldReg o lo len v).restWait = s.restWait := rfl
@[simp] theorem State.setFldReg_hostLines (s : State) (o lo len v : Nat) : (s.setFldReg o lo len v).hostLines = s.hostLines := rfl
@[simp] theorem State.setFldReg_memWait (s : State) (o lo len v : Nat) : (s.setFldReg o lo len v).memWait = s.memWait := rfl
@[simp] theorem State.setFldReg_hostCfg (s : State) (o lo len v : Nat) : (s.setFldReg o lo len v).hostCfg = s.hostCfg := rfl
@[simp] theorem State.setFldReg_boxH (s : State) (o lo len v : Nat) : (s.setFldReg o lo len v).boxH = s.boxH := rfl
@[simp] theorem State.setFldReg_boxM (s : State) (o lo len v : Nat) : (s.setFldReg o lo len v).boxM = s.boxM := rfl
@[simp] theorem State.setFldReg_buf (s : State) (o lo len v : Nat) : (s.setFldReg o lo len v).buf = s.buf := rfl
@[simp] theorem State.setFldReg_session (s : State) (o lo len v : Nat) : (s.setFldReg o lo len v).session = s.session := rfl
@[simp] theorem State.setFldReg_running (s : State) (o lo len v : Nat) : (s.setFldReg o lo len v).running = s.running := rfl
@[simp] theorem State.setFldReg_runHdr (s : State) (o lo len v : Nat) : (s.setFldReg o lo len v).runHdr = s.runHdr := rfl
@[simp] theorem State.setFldReg_flyDown (s : State) (o lo len v : Nat) : (s.setFldReg o lo len v).flyDown = s.flyDown := rfl
@[simp] theorem State.setFldReg_activating (s : State) (o lo len v : Nat) : (s.setFldReg o lo len v).activating = s.activating := rfl
@[simp] theorem State.setFldReg_dynAddr (s : State) (o lo len v : Nat) : (s.setFldReg o lo len v).dynAddr = s.dynAddr := rfl
@[simp] theorem State.setFldReg_idKeys (s : State) (o lo len v : Nat) : (s.setFldReg o lo len v).idKeys = s.idKeys := rfl
@[simp] theorem State.setFldReg_flashA (s : State) (o lo len v : Nat) : (s.setFldReg o lo len v).flashA = s.flashA := rfl
@[simp] theorem State.setFldReg_flashB (s : State) (o lo len v : Nat) : (s.setFldReg o lo len v).flashB = s.flashB := rfl
@[simp] theorem State.setFldReg_settings (s : State) (o lo len v : Nat) : (s.setFldReg o lo len v).settings = s.settings := rfl
@[simp] theorem State.setFldReg_ilvSet (s : State) (o lo len v : Nat) : (s.setFldReg o lo len v).ilvSet = s.ilvSet := rfl
@[simp] theorem State.setFldReg_log (s : State) (o lo len v : Nat) : (s.setFldReg o lo len v).log = s.log := rfl
@[simp] theorem State.setFldReg_fuses (s : State) (o lo len v : Nat) : (s.setFldReg o lo len v).fuses = s.fuses := rfl
@[simp] theorem State.setFldReg_repairs (s : State) (o lo len v : Nat) : (s.setFldReg o lo len v).repairs = s.repairs := rfl
@[simp] theorem State.setFldReg_fieldRows (s : State) (o lo len v : Nat) : (s.setFldReg o lo len v).fieldRows = s.fieldRows := rfl
@[simp] theorem State.setFldReg_scrub (s : State) (o lo len v : Nat) : (s.setFldReg o lo len v).scrub = s.scrub := rfl
@[simp] theorem State.setFldReg_repairing (s : State) (o lo len v : Nat) : (s.setFldReg o lo len v).repairing = s.repairing := rfl
@[simp] theorem State.setFldReg_rowWait (s : State) (o lo len v : Nat) : (s.setFldReg o lo len v).rowWait = s.rowWait := rfl
@[simp] theorem State.setFldReg_tap (s : State) (o lo len v : Nat) : (s.setFldReg o lo len v).tap = s.tap := rfl
@[simp] theorem State.setFldReg_tapDr (s : State) (o lo len v : Nat) : (s.setFldReg o lo len v).tapDr = s.tapDr := rfl
@[simp] theorem State.setFldReg_freeCtr (s : State) (o lo len v : Nat) : (s.setFldReg o lo len v).freeCtr = s.freeCtr := rfl
@[simp] theorem State.setFldReg_rngCtr (s : State) (o lo len v : Nat) : (s.setFldReg o lo len v).rngCtr = s.rngCtr := rfl
@[simp] theorem State.setFldReg_pending (s : State) (o lo len v : Nat) : (s.setFldReg o lo len v).pending = s.pending := rfl

/-! setByte writes the field mem alone. -/

@[simp] theorem State.setByte_regs (s : State) (b : Nat) (v : Byte) : (s.setByte b v).regs = s.regs := rfl
@[simp] theorem State.setByte_power (s : State) (b : Nat) (v : Byte) : (s.setByte b v).power = s.power := rfl
@[simp] theorem State.setByte_pins (s : State) (b : Nat) (v : Byte) : (s.setByte b v).pins = s.pins := rfl
@[simp] theorem State.setByte_usec (s : State) (b : Nat) (v : Byte) : (s.setByte b v).usec = s.usec := rfl
@[simp] theorem State.setByte_strapAt (s : State) (b : Nat) (v : Byte) : (s.setByte b v).strapAt = s.strapAt := rfl
@[simp] theorem State.setByte_svcStop (s : State) (b : Nat) (v : Byte) : (s.setByte b v).svcStop = s.svcStop := rfl
@[simp] theorem State.setByte_heldReset (s : State) (b : Nat) (v : Byte) : (s.setByte b v).heldReset = s.heldReset := rfl
@[simp] theorem State.setByte_uart (s : State) (b : Nat) (v : Byte) : (s.setByte b v).uart = s.uart := rfl
@[simp] theorem State.setByte_ibi (s : State) (b : Nat) (v : Byte) : (s.setByte b v).ibi = s.ibi := rfl
@[simp] theorem State.setByte_sensors (s : State) (b : Nat) (v : Byte) : (s.setByte b v).sensors = s.sensors := rfl
@[simp] theorem State.setByte_closed (s : State) (b : Nat) (v : Byte) : (s.setByte b v).closed = s.closed := rfl
@[simp] theorem State.setByte_cores (s : State) (b : Nat) (v : Byte) : (s.setByte b v).cores = s.cores := rfl
@[simp] theorem State.setByte_psn (s : State) (b : Nat) (v : Byte) : (s.setByte b v).psn = s.psn := rfl
@[simp] theorem State.setByte_latent (s : State) (b : Nat) (v : Byte) : (s.setByte b v).latent = s.latent := rfl
@[simp] theorem State.setByte_upsets (s : State) (b : Nat) (v : Byte) : (s.setByte b v).upsets = s.upsets := rfl
@[simp] theorem State.setByte_queues (s : State) (b : Nat) (v : Byte) : (s.setByte b v).queues = s.queues := rfl
@[simp] theorem State.setByte_errqSet (s : State) (b : Nat) (v : Byte) : (s.setByte b v).errqSet = s.errqSet := rfl
@[simp] theorem State.setByte_res (s : State) (b : Nat) (v : Byte) : (s.setByte b v).res = s.res := rfl
@[simp] theorem State.setByte_sems (s : State) (b : Nat) (v : Byte) : (s.setByte b v).sems = s.sems := rfl
@[simp] theorem State.setByte_ctxs (s : State) (b : Nat) (v : Byte) : (s.setByte b v).ctxs = s.ctxs := rfl
@[simp] theorem State.setByte_links (s : State) (b : Nat) (v : Byte) : (s.setByte b v).links = s.links := rfl
@[simp] theorem State.setByte_routes (s : State) (b : Nat) (v : Byte) : (s.setByte b v).routes = s.routes := rfl
@[simp] theorem State.setByte_routeMark (s : State) (b : Nat) (v : Byte) : (s.setByte b v).routeMark = s.routeMark := rfl
@[simp] theorem State.setByte_mcast (s : State) (b : Nat) (v : Byte) : (s.setByte b v).mcast = s.mcast := rfl
@[simp] theorem State.setByte_mcastStg (s : State) (b : Nat) (v : Byte) : (s.setByte b v).mcastStg = s.mcastStg := rfl
@[simp] theorem State.setByte_requests (s : State) (b : Nat) (v : Byte) : (s.setByte b v).requests = s.requests := rfl
@[simp] theorem State.setByte_unsent (s : State) (b : Nat) (v : Byte) : (s.setByte b v).unsent = s.unsent := rfl
@[simp] theorem State.setByte_nextTag (s : State) (b : Nat) (v : Byte) : (s.setByte b v).nextTag = s.nextTag := rfl
@[simp] theorem State.setByte_inbox (s : State) (b : Nat) (v : Byte) : (s.setByte b v).inbox = s.inbox := rfl
@[simp] theorem State.setByte_imgLink (s : State) (b : Nat) (v : Byte) : (s.setByte b v).imgLink = s.imgLink := rfl
@[simp] theorem State.setByte_imgTried (s : State) (b : Nat) (v : Byte) : (s.setByte b v).imgTried = s.imgTried := rfl
@[simp] theorem State.setByte_jobs (s : State) (b : Nat) (v : Byte) : (s.setByte b v).jobs = s.jobs := rfl
@[simp] theorem State.setByte_swarms (s : State) (b : Nat) (v : Byte) : (s.setByte b v).swarms = s.swarms := rfl
@[simp] theorem State.setByte_copies (s : State) (b : Nat) (v : Byte) : (s.setByte b v).copies = s.copies := rfl
@[simp] theorem State.setByte_touchWait (s : State) (b : Nat) (v : Byte) : (s.setByte b v).touchWait = s.touchWait := rfl
@[simp] theorem State.setByte_jtlb (s : State) (b : Nat) (v : Byte) : (s.setByte b v).jtlb = s.jtlb := rfl
@[simp] theorem State.setByte_jrootUse (s : State) (b : Nat) (v : Byte) : (s.setByte b v).jrootUse = s.jrootUse := rfl
@[simp] theorem State.setByte_resolving (s : State) (b : Nat) (v : Byte) : (s.setByte b v).resolving = s.resolving := rfl
@[simp] theorem State.setByte_stepCyc (s : State) (b : Nat) (v : Byte) : (s.setByte b v).stepCyc = s.stepCyc := rfl
@[simp] theorem State.setByte_stepCmd (s : State) (b : Nat) (v : Byte) : (s.setByte b v).stepCmd = s.stepCmd := rfl
@[simp] theorem State.setByte_sums (s : State) (b : Nat) (v : Byte) : (s.setByte b v).sums = s.sums := rfl
@[simp] theorem State.setByte_ebud (s : State) (b : Nat) (v : Byte) : (s.setByte b v).ebud = s.ebud := rfl
@[simp] theorem State.setByte_pdie (s : State) (b : Nat) (v : Byte) : (s.setByte b v).pdie = s.pdie := rfl
@[simp] theorem State.setByte_eref (s : State) (b : Nat) (v : Byte) : (s.setByte b v).eref = s.eref := rfl
@[simp] theorem State.setByte_phist (s : State) (b : Nat) (v : Byte) : (s.setByte b v).phist = s.phist := rfl
@[simp] theorem State.setByte_throttle (s : State) (b : Nat) (v : Byte) : (s.setByte b v).throttle = s.throttle := rfl
@[simp] theorem State.setByte_overCap (s : State) (b : Nat) (v : Byte) : (s.setByte b v).overCap = s.overCap := rfl
@[simp] theorem State.setByte_ports (s : State) (b : Nat) (v : Byte) : (s.setByte b v).ports = s.ports := rfl
@[simp] theorem State.setByte_bpDone (s : State) (b : Nat) (v : Byte) : (s.setByte b v).bpDone = s.bpDone := rfl
@[simp] theorem State.setByte_linkTrain (s : State) (b : Nat) (v : Byte) : (s.setByte b v).linkTrain = s.linkTrain := rfl
@[simp] theorem State.setByte_j1Lanes (s : State) (b : Nat) (v : Byte) : (s.setByte b v).j1Lanes = s.j1Lanes := rfl
@[simp] theorem State.setByte_hdmBase (s : State) (b : Nat) (v : Byte) : (s.setByte b v).hdmBase = s.hdmBase := rfl
@[simp] theorem State.setByte_msixMask (s : State) (b : Nat) (v : Byte) : (s.setByte b v).msixMask = s.msixMask := rfl
@[simp] theorem State.setByte_msixPend (s : State) (b : Nat) (v : Byte) : (s.setByte b v).msixPend = s.msixPend := rfl
@[simp] theorem State.setByte_msixSent (s : State) (b : Nat) (v : Byte) : (s.setByte b v).msixSent = s.msixSent := rfl
@[simp] theorem State.setByte_hostOut (s : State) (b : Nat) (v : Byte) : (s.setByte b v).hostOut = s.hostOut := rfl
@[simp] theorem State.setByte_hostRead (s : State) (b : Nat) (v : Byte) : (s.setByte b v).hostRead = s.hostRead := rfl
@[simp] theorem State.setByte_snoop (s : State) (b : Nat) (v : Byte) : (s.setByte b v).snoop = s.snoop := rfl
@[simp] theorem State.setByte_biWait (s : State) (b : Nat) (v : Byte) : (s.setByte b v).biWait = s.biWait := rfl
@[simp] theorem State.setByte_bursts (s : State) (b : Nat) (v : Byte) : (s.setByte b v).bursts = s.bursts := rfl
@[simp] theorem State.setByte_drecWait (s : State) (b : Nat) (v : Byte) : (s.setByte b v).drecWait = s.drecWait := rfl
@[simp] theorem State.setByte_restWait (s : State) (b : Nat) (v : Byte) : (s.setByte b v).restWait = s.restWait := rfl
@[simp] theorem State.setByte_hostLines (s : State) (b : Nat) (v : Byte) : (s.setByte b v).hostLines = s.hostLines := rfl
@[simp] theorem State.setByte_memWait (s : State) (b : Nat) (v : Byte) : (s.setByte b v).memWait = s.memWait := rfl
@[simp] theorem State.setByte_hostCfg (s : State) (b : Nat) (v : Byte) : (s.setByte b v).hostCfg = s.hostCfg := rfl
@[simp] theorem State.setByte_boxH (s : State) (b : Nat) (v : Byte) : (s.setByte b v).boxH = s.boxH := rfl
@[simp] theorem State.setByte_boxM (s : State) (b : Nat) (v : Byte) : (s.setByte b v).boxM = s.boxM := rfl
@[simp] theorem State.setByte_buf (s : State) (b : Nat) (v : Byte) : (s.setByte b v).buf = s.buf := rfl
@[simp] theorem State.setByte_session (s : State) (b : Nat) (v : Byte) : (s.setByte b v).session = s.session := rfl
@[simp] theorem State.setByte_running (s : State) (b : Nat) (v : Byte) : (s.setByte b v).running = s.running := rfl
@[simp] theorem State.setByte_runHdr (s : State) (b : Nat) (v : Byte) : (s.setByte b v).runHdr = s.runHdr := rfl
@[simp] theorem State.setByte_flyDown (s : State) (b : Nat) (v : Byte) : (s.setByte b v).flyDown = s.flyDown := rfl
@[simp] theorem State.setByte_activating (s : State) (b : Nat) (v : Byte) : (s.setByte b v).activating = s.activating := rfl
@[simp] theorem State.setByte_dynAddr (s : State) (b : Nat) (v : Byte) : (s.setByte b v).dynAddr = s.dynAddr := rfl
@[simp] theorem State.setByte_idKeys (s : State) (b : Nat) (v : Byte) : (s.setByte b v).idKeys = s.idKeys := rfl
@[simp] theorem State.setByte_flashA (s : State) (b : Nat) (v : Byte) : (s.setByte b v).flashA = s.flashA := rfl
@[simp] theorem State.setByte_flashB (s : State) (b : Nat) (v : Byte) : (s.setByte b v).flashB = s.flashB := rfl
@[simp] theorem State.setByte_settings (s : State) (b : Nat) (v : Byte) : (s.setByte b v).settings = s.settings := rfl
@[simp] theorem State.setByte_ilvSet (s : State) (b : Nat) (v : Byte) : (s.setByte b v).ilvSet = s.ilvSet := rfl
@[simp] theorem State.setByte_log (s : State) (b : Nat) (v : Byte) : (s.setByte b v).log = s.log := rfl
@[simp] theorem State.setByte_fuses (s : State) (b : Nat) (v : Byte) : (s.setByte b v).fuses = s.fuses := rfl
@[simp] theorem State.setByte_repairs (s : State) (b : Nat) (v : Byte) : (s.setByte b v).repairs = s.repairs := rfl
@[simp] theorem State.setByte_fieldRows (s : State) (b : Nat) (v : Byte) : (s.setByte b v).fieldRows = s.fieldRows := rfl
@[simp] theorem State.setByte_scrub (s : State) (b : Nat) (v : Byte) : (s.setByte b v).scrub = s.scrub := rfl
@[simp] theorem State.setByte_repairing (s : State) (b : Nat) (v : Byte) : (s.setByte b v).repairing = s.repairing := rfl
@[simp] theorem State.setByte_rowWait (s : State) (b : Nat) (v : Byte) : (s.setByte b v).rowWait = s.rowWait := rfl
@[simp] theorem State.setByte_tap (s : State) (b : Nat) (v : Byte) : (s.setByte b v).tap = s.tap := rfl
@[simp] theorem State.setByte_tapDr (s : State) (b : Nat) (v : Byte) : (s.setByte b v).tapDr = s.tapDr := rfl
@[simp] theorem State.setByte_freeCtr (s : State) (b : Nat) (v : Byte) : (s.setByte b v).freeCtr = s.freeCtr := rfl
@[simp] theorem State.setByte_rngCtr (s : State) (b : Nat) (v : Byte) : (s.setByte b v).rngCtr = s.rngCtr := rfl
@[simp] theorem State.setByte_pending (s : State) (b : Nat) (v : Byte) : (s.setByte b v).pending = s.pending := rfl

/-! setWord writes the field mem alone. -/

@[simp] theorem State.setWord_regs (s : State) (a : Nat) (v : Word) : (s.setWord a v).regs = s.regs := rfl
@[simp] theorem State.setWord_power (s : State) (a : Nat) (v : Word) : (s.setWord a v).power = s.power := rfl
@[simp] theorem State.setWord_pins (s : State) (a : Nat) (v : Word) : (s.setWord a v).pins = s.pins := rfl
@[simp] theorem State.setWord_usec (s : State) (a : Nat) (v : Word) : (s.setWord a v).usec = s.usec := rfl
@[simp] theorem State.setWord_strapAt (s : State) (a : Nat) (v : Word) : (s.setWord a v).strapAt = s.strapAt := rfl
@[simp] theorem State.setWord_svcStop (s : State) (a : Nat) (v : Word) : (s.setWord a v).svcStop = s.svcStop := rfl
@[simp] theorem State.setWord_heldReset (s : State) (a : Nat) (v : Word) : (s.setWord a v).heldReset = s.heldReset := rfl
@[simp] theorem State.setWord_uart (s : State) (a : Nat) (v : Word) : (s.setWord a v).uart = s.uart := rfl
@[simp] theorem State.setWord_ibi (s : State) (a : Nat) (v : Word) : (s.setWord a v).ibi = s.ibi := rfl
@[simp] theorem State.setWord_sensors (s : State) (a : Nat) (v : Word) : (s.setWord a v).sensors = s.sensors := rfl
@[simp] theorem State.setWord_closed (s : State) (a : Nat) (v : Word) : (s.setWord a v).closed = s.closed := rfl
@[simp] theorem State.setWord_cores (s : State) (a : Nat) (v : Word) : (s.setWord a v).cores = s.cores := rfl
@[simp] theorem State.setWord_psn (s : State) (a : Nat) (v : Word) : (s.setWord a v).psn = s.psn := rfl
@[simp] theorem State.setWord_latent (s : State) (a : Nat) (v : Word) : (s.setWord a v).latent = s.latent := rfl
@[simp] theorem State.setWord_upsets (s : State) (a : Nat) (v : Word) : (s.setWord a v).upsets = s.upsets := rfl
@[simp] theorem State.setWord_queues (s : State) (a : Nat) (v : Word) : (s.setWord a v).queues = s.queues := rfl
@[simp] theorem State.setWord_errqSet (s : State) (a : Nat) (v : Word) : (s.setWord a v).errqSet = s.errqSet := rfl
@[simp] theorem State.setWord_res (s : State) (a : Nat) (v : Word) : (s.setWord a v).res = s.res := rfl
@[simp] theorem State.setWord_sems (s : State) (a : Nat) (v : Word) : (s.setWord a v).sems = s.sems := rfl
@[simp] theorem State.setWord_ctxs (s : State) (a : Nat) (v : Word) : (s.setWord a v).ctxs = s.ctxs := rfl
@[simp] theorem State.setWord_links (s : State) (a : Nat) (v : Word) : (s.setWord a v).links = s.links := rfl
@[simp] theorem State.setWord_routes (s : State) (a : Nat) (v : Word) : (s.setWord a v).routes = s.routes := rfl
@[simp] theorem State.setWord_routeMark (s : State) (a : Nat) (v : Word) : (s.setWord a v).routeMark = s.routeMark := rfl
@[simp] theorem State.setWord_mcast (s : State) (a : Nat) (v : Word) : (s.setWord a v).mcast = s.mcast := rfl
@[simp] theorem State.setWord_mcastStg (s : State) (a : Nat) (v : Word) : (s.setWord a v).mcastStg = s.mcastStg := rfl
@[simp] theorem State.setWord_requests (s : State) (a : Nat) (v : Word) : (s.setWord a v).requests = s.requests := rfl
@[simp] theorem State.setWord_unsent (s : State) (a : Nat) (v : Word) : (s.setWord a v).unsent = s.unsent := rfl
@[simp] theorem State.setWord_nextTag (s : State) (a : Nat) (v : Word) : (s.setWord a v).nextTag = s.nextTag := rfl
@[simp] theorem State.setWord_inbox (s : State) (a : Nat) (v : Word) : (s.setWord a v).inbox = s.inbox := rfl
@[simp] theorem State.setWord_imgLink (s : State) (a : Nat) (v : Word) : (s.setWord a v).imgLink = s.imgLink := rfl
@[simp] theorem State.setWord_imgTried (s : State) (a : Nat) (v : Word) : (s.setWord a v).imgTried = s.imgTried := rfl
@[simp] theorem State.setWord_jobs (s : State) (a : Nat) (v : Word) : (s.setWord a v).jobs = s.jobs := rfl
@[simp] theorem State.setWord_swarms (s : State) (a : Nat) (v : Word) : (s.setWord a v).swarms = s.swarms := rfl
@[simp] theorem State.setWord_copies (s : State) (a : Nat) (v : Word) : (s.setWord a v).copies = s.copies := rfl
@[simp] theorem State.setWord_touchWait (s : State) (a : Nat) (v : Word) : (s.setWord a v).touchWait = s.touchWait := rfl
@[simp] theorem State.setWord_jtlb (s : State) (a : Nat) (v : Word) : (s.setWord a v).jtlb = s.jtlb := rfl
@[simp] theorem State.setWord_jrootUse (s : State) (a : Nat) (v : Word) : (s.setWord a v).jrootUse = s.jrootUse := rfl
@[simp] theorem State.setWord_resolving (s : State) (a : Nat) (v : Word) : (s.setWord a v).resolving = s.resolving := rfl
@[simp] theorem State.setWord_stepCyc (s : State) (a : Nat) (v : Word) : (s.setWord a v).stepCyc = s.stepCyc := rfl
@[simp] theorem State.setWord_stepCmd (s : State) (a : Nat) (v : Word) : (s.setWord a v).stepCmd = s.stepCmd := rfl
@[simp] theorem State.setWord_sums (s : State) (a : Nat) (v : Word) : (s.setWord a v).sums = s.sums := rfl
@[simp] theorem State.setWord_ebud (s : State) (a : Nat) (v : Word) : (s.setWord a v).ebud = s.ebud := rfl
@[simp] theorem State.setWord_pdie (s : State) (a : Nat) (v : Word) : (s.setWord a v).pdie = s.pdie := rfl
@[simp] theorem State.setWord_eref (s : State) (a : Nat) (v : Word) : (s.setWord a v).eref = s.eref := rfl
@[simp] theorem State.setWord_phist (s : State) (a : Nat) (v : Word) : (s.setWord a v).phist = s.phist := rfl
@[simp] theorem State.setWord_throttle (s : State) (a : Nat) (v : Word) : (s.setWord a v).throttle = s.throttle := rfl
@[simp] theorem State.setWord_overCap (s : State) (a : Nat) (v : Word) : (s.setWord a v).overCap = s.overCap := rfl
@[simp] theorem State.setWord_ports (s : State) (a : Nat) (v : Word) : (s.setWord a v).ports = s.ports := rfl
@[simp] theorem State.setWord_bpDone (s : State) (a : Nat) (v : Word) : (s.setWord a v).bpDone = s.bpDone := rfl
@[simp] theorem State.setWord_linkTrain (s : State) (a : Nat) (v : Word) : (s.setWord a v).linkTrain = s.linkTrain := rfl
@[simp] theorem State.setWord_j1Lanes (s : State) (a : Nat) (v : Word) : (s.setWord a v).j1Lanes = s.j1Lanes := rfl
@[simp] theorem State.setWord_hdmBase (s : State) (a : Nat) (v : Word) : (s.setWord a v).hdmBase = s.hdmBase := rfl
@[simp] theorem State.setWord_msixMask (s : State) (a : Nat) (v : Word) : (s.setWord a v).msixMask = s.msixMask := rfl
@[simp] theorem State.setWord_msixPend (s : State) (a : Nat) (v : Word) : (s.setWord a v).msixPend = s.msixPend := rfl
@[simp] theorem State.setWord_msixSent (s : State) (a : Nat) (v : Word) : (s.setWord a v).msixSent = s.msixSent := rfl
@[simp] theorem State.setWord_hostOut (s : State) (a : Nat) (v : Word) : (s.setWord a v).hostOut = s.hostOut := rfl
@[simp] theorem State.setWord_hostRead (s : State) (a : Nat) (v : Word) : (s.setWord a v).hostRead = s.hostRead := rfl
@[simp] theorem State.setWord_snoop (s : State) (a : Nat) (v : Word) : (s.setWord a v).snoop = s.snoop := rfl
@[simp] theorem State.setWord_biWait (s : State) (a : Nat) (v : Word) : (s.setWord a v).biWait = s.biWait := rfl
@[simp] theorem State.setWord_bursts (s : State) (a : Nat) (v : Word) : (s.setWord a v).bursts = s.bursts := rfl
@[simp] theorem State.setWord_drecWait (s : State) (a : Nat) (v : Word) : (s.setWord a v).drecWait = s.drecWait := rfl
@[simp] theorem State.setWord_restWait (s : State) (a : Nat) (v : Word) : (s.setWord a v).restWait = s.restWait := rfl
@[simp] theorem State.setWord_hostLines (s : State) (a : Nat) (v : Word) : (s.setWord a v).hostLines = s.hostLines := rfl
@[simp] theorem State.setWord_memWait (s : State) (a : Nat) (v : Word) : (s.setWord a v).memWait = s.memWait := rfl
@[simp] theorem State.setWord_hostCfg (s : State) (a : Nat) (v : Word) : (s.setWord a v).hostCfg = s.hostCfg := rfl
@[simp] theorem State.setWord_boxH (s : State) (a : Nat) (v : Word) : (s.setWord a v).boxH = s.boxH := rfl
@[simp] theorem State.setWord_boxM (s : State) (a : Nat) (v : Word) : (s.setWord a v).boxM = s.boxM := rfl
@[simp] theorem State.setWord_buf (s : State) (a : Nat) (v : Word) : (s.setWord a v).buf = s.buf := rfl
@[simp] theorem State.setWord_session (s : State) (a : Nat) (v : Word) : (s.setWord a v).session = s.session := rfl
@[simp] theorem State.setWord_running (s : State) (a : Nat) (v : Word) : (s.setWord a v).running = s.running := rfl
@[simp] theorem State.setWord_runHdr (s : State) (a : Nat) (v : Word) : (s.setWord a v).runHdr = s.runHdr := rfl
@[simp] theorem State.setWord_flyDown (s : State) (a : Nat) (v : Word) : (s.setWord a v).flyDown = s.flyDown := rfl
@[simp] theorem State.setWord_activating (s : State) (a : Nat) (v : Word) : (s.setWord a v).activating = s.activating := rfl
@[simp] theorem State.setWord_dynAddr (s : State) (a : Nat) (v : Word) : (s.setWord a v).dynAddr = s.dynAddr := rfl
@[simp] theorem State.setWord_idKeys (s : State) (a : Nat) (v : Word) : (s.setWord a v).idKeys = s.idKeys := rfl
@[simp] theorem State.setWord_flashA (s : State) (a : Nat) (v : Word) : (s.setWord a v).flashA = s.flashA := rfl
@[simp] theorem State.setWord_flashB (s : State) (a : Nat) (v : Word) : (s.setWord a v).flashB = s.flashB := rfl
@[simp] theorem State.setWord_settings (s : State) (a : Nat) (v : Word) : (s.setWord a v).settings = s.settings := rfl
@[simp] theorem State.setWord_ilvSet (s : State) (a : Nat) (v : Word) : (s.setWord a v).ilvSet = s.ilvSet := rfl
@[simp] theorem State.setWord_log (s : State) (a : Nat) (v : Word) : (s.setWord a v).log = s.log := rfl
@[simp] theorem State.setWord_fuses (s : State) (a : Nat) (v : Word) : (s.setWord a v).fuses = s.fuses := rfl
@[simp] theorem State.setWord_repairs (s : State) (a : Nat) (v : Word) : (s.setWord a v).repairs = s.repairs := rfl
@[simp] theorem State.setWord_fieldRows (s : State) (a : Nat) (v : Word) : (s.setWord a v).fieldRows = s.fieldRows := rfl
@[simp] theorem State.setWord_scrub (s : State) (a : Nat) (v : Word) : (s.setWord a v).scrub = s.scrub := rfl
@[simp] theorem State.setWord_repairing (s : State) (a : Nat) (v : Word) : (s.setWord a v).repairing = s.repairing := rfl
@[simp] theorem State.setWord_rowWait (s : State) (a : Nat) (v : Word) : (s.setWord a v).rowWait = s.rowWait := rfl
@[simp] theorem State.setWord_tap (s : State) (a : Nat) (v : Word) : (s.setWord a v).tap = s.tap := rfl
@[simp] theorem State.setWord_tapDr (s : State) (a : Nat) (v : Word) : (s.setWord a v).tapDr = s.tapDr := rfl
@[simp] theorem State.setWord_freeCtr (s : State) (a : Nat) (v : Word) : (s.setWord a v).freeCtr = s.freeCtr := rfl
@[simp] theorem State.setWord_rngCtr (s : State) (a : Nat) (v : Word) : (s.setWord a v).rngCtr = s.rngCtr := rfl
@[simp] theorem State.setWord_pending (s : State) (a : Nat) (v : Word) : (s.setWord a v).pending = s.pending := rfl

/-! setMark writes the field psn alone. -/

@[simp] theorem State.setMark_regs (s : State) (a : Nat) (m : Bool) : (s.setMark a m).regs = s.regs := rfl
@[simp] theorem State.setMark_power (s : State) (a : Nat) (m : Bool) : (s.setMark a m).power = s.power := rfl
@[simp] theorem State.setMark_pins (s : State) (a : Nat) (m : Bool) : (s.setMark a m).pins = s.pins := rfl
@[simp] theorem State.setMark_usec (s : State) (a : Nat) (m : Bool) : (s.setMark a m).usec = s.usec := rfl
@[simp] theorem State.setMark_strapAt (s : State) (a : Nat) (m : Bool) : (s.setMark a m).strapAt = s.strapAt := rfl
@[simp] theorem State.setMark_svcStop (s : State) (a : Nat) (m : Bool) : (s.setMark a m).svcStop = s.svcStop := rfl
@[simp] theorem State.setMark_heldReset (s : State) (a : Nat) (m : Bool) : (s.setMark a m).heldReset = s.heldReset := rfl
@[simp] theorem State.setMark_uart (s : State) (a : Nat) (m : Bool) : (s.setMark a m).uart = s.uart := rfl
@[simp] theorem State.setMark_ibi (s : State) (a : Nat) (m : Bool) : (s.setMark a m).ibi = s.ibi := rfl
@[simp] theorem State.setMark_sensors (s : State) (a : Nat) (m : Bool) : (s.setMark a m).sensors = s.sensors := rfl
@[simp] theorem State.setMark_closed (s : State) (a : Nat) (m : Bool) : (s.setMark a m).closed = s.closed := rfl
@[simp] theorem State.setMark_cores (s : State) (a : Nat) (m : Bool) : (s.setMark a m).cores = s.cores := rfl
@[simp] theorem State.setMark_mem (s : State) (a : Nat) (m : Bool) : (s.setMark a m).mem = s.mem := rfl
@[simp] theorem State.setMark_latent (s : State) (a : Nat) (m : Bool) : (s.setMark a m).latent = s.latent := rfl
@[simp] theorem State.setMark_upsets (s : State) (a : Nat) (m : Bool) : (s.setMark a m).upsets = s.upsets := rfl
@[simp] theorem State.setMark_queues (s : State) (a : Nat) (m : Bool) : (s.setMark a m).queues = s.queues := rfl
@[simp] theorem State.setMark_errqSet (s : State) (a : Nat) (m : Bool) : (s.setMark a m).errqSet = s.errqSet := rfl
@[simp] theorem State.setMark_res (s : State) (a : Nat) (m : Bool) : (s.setMark a m).res = s.res := rfl
@[simp] theorem State.setMark_sems (s : State) (a : Nat) (m : Bool) : (s.setMark a m).sems = s.sems := rfl
@[simp] theorem State.setMark_ctxs (s : State) (a : Nat) (m : Bool) : (s.setMark a m).ctxs = s.ctxs := rfl
@[simp] theorem State.setMark_links (s : State) (a : Nat) (m : Bool) : (s.setMark a m).links = s.links := rfl
@[simp] theorem State.setMark_routes (s : State) (a : Nat) (m : Bool) : (s.setMark a m).routes = s.routes := rfl
@[simp] theorem State.setMark_routeMark (s : State) (a : Nat) (m : Bool) : (s.setMark a m).routeMark = s.routeMark := rfl
@[simp] theorem State.setMark_mcast (s : State) (a : Nat) (m : Bool) : (s.setMark a m).mcast = s.mcast := rfl
@[simp] theorem State.setMark_mcastStg (s : State) (a : Nat) (m : Bool) : (s.setMark a m).mcastStg = s.mcastStg := rfl
@[simp] theorem State.setMark_requests (s : State) (a : Nat) (m : Bool) : (s.setMark a m).requests = s.requests := rfl
@[simp] theorem State.setMark_unsent (s : State) (a : Nat) (m : Bool) : (s.setMark a m).unsent = s.unsent := rfl
@[simp] theorem State.setMark_nextTag (s : State) (a : Nat) (m : Bool) : (s.setMark a m).nextTag = s.nextTag := rfl
@[simp] theorem State.setMark_inbox (s : State) (a : Nat) (m : Bool) : (s.setMark a m).inbox = s.inbox := rfl
@[simp] theorem State.setMark_imgLink (s : State) (a : Nat) (m : Bool) : (s.setMark a m).imgLink = s.imgLink := rfl
@[simp] theorem State.setMark_imgTried (s : State) (a : Nat) (m : Bool) : (s.setMark a m).imgTried = s.imgTried := rfl
@[simp] theorem State.setMark_jobs (s : State) (a : Nat) (m : Bool) : (s.setMark a m).jobs = s.jobs := rfl
@[simp] theorem State.setMark_swarms (s : State) (a : Nat) (m : Bool) : (s.setMark a m).swarms = s.swarms := rfl
@[simp] theorem State.setMark_copies (s : State) (a : Nat) (m : Bool) : (s.setMark a m).copies = s.copies := rfl
@[simp] theorem State.setMark_touchWait (s : State) (a : Nat) (m : Bool) : (s.setMark a m).touchWait = s.touchWait := rfl
@[simp] theorem State.setMark_jtlb (s : State) (a : Nat) (m : Bool) : (s.setMark a m).jtlb = s.jtlb := rfl
@[simp] theorem State.setMark_jrootUse (s : State) (a : Nat) (m : Bool) : (s.setMark a m).jrootUse = s.jrootUse := rfl
@[simp] theorem State.setMark_resolving (s : State) (a : Nat) (m : Bool) : (s.setMark a m).resolving = s.resolving := rfl
@[simp] theorem State.setMark_stepCyc (s : State) (a : Nat) (m : Bool) : (s.setMark a m).stepCyc = s.stepCyc := rfl
@[simp] theorem State.setMark_stepCmd (s : State) (a : Nat) (m : Bool) : (s.setMark a m).stepCmd = s.stepCmd := rfl
@[simp] theorem State.setMark_sums (s : State) (a : Nat) (m : Bool) : (s.setMark a m).sums = s.sums := rfl
@[simp] theorem State.setMark_ebud (s : State) (a : Nat) (m : Bool) : (s.setMark a m).ebud = s.ebud := rfl
@[simp] theorem State.setMark_pdie (s : State) (a : Nat) (m : Bool) : (s.setMark a m).pdie = s.pdie := rfl
@[simp] theorem State.setMark_eref (s : State) (a : Nat) (m : Bool) : (s.setMark a m).eref = s.eref := rfl
@[simp] theorem State.setMark_phist (s : State) (a : Nat) (m : Bool) : (s.setMark a m).phist = s.phist := rfl
@[simp] theorem State.setMark_throttle (s : State) (a : Nat) (m : Bool) : (s.setMark a m).throttle = s.throttle := rfl
@[simp] theorem State.setMark_overCap (s : State) (a : Nat) (m : Bool) : (s.setMark a m).overCap = s.overCap := rfl
@[simp] theorem State.setMark_ports (s : State) (a : Nat) (m : Bool) : (s.setMark a m).ports = s.ports := rfl
@[simp] theorem State.setMark_bpDone (s : State) (a : Nat) (m : Bool) : (s.setMark a m).bpDone = s.bpDone := rfl
@[simp] theorem State.setMark_linkTrain (s : State) (a : Nat) (m : Bool) : (s.setMark a m).linkTrain = s.linkTrain := rfl
@[simp] theorem State.setMark_j1Lanes (s : State) (a : Nat) (m : Bool) : (s.setMark a m).j1Lanes = s.j1Lanes := rfl
@[simp] theorem State.setMark_hdmBase (s : State) (a : Nat) (m : Bool) : (s.setMark a m).hdmBase = s.hdmBase := rfl
@[simp] theorem State.setMark_msixMask (s : State) (a : Nat) (m : Bool) : (s.setMark a m).msixMask = s.msixMask := rfl
@[simp] theorem State.setMark_msixPend (s : State) (a : Nat) (m : Bool) : (s.setMark a m).msixPend = s.msixPend := rfl
@[simp] theorem State.setMark_msixSent (s : State) (a : Nat) (m : Bool) : (s.setMark a m).msixSent = s.msixSent := rfl
@[simp] theorem State.setMark_hostOut (s : State) (a : Nat) (m : Bool) : (s.setMark a m).hostOut = s.hostOut := rfl
@[simp] theorem State.setMark_hostRead (s : State) (a : Nat) (m : Bool) : (s.setMark a m).hostRead = s.hostRead := rfl
@[simp] theorem State.setMark_snoop (s : State) (a : Nat) (m : Bool) : (s.setMark a m).snoop = s.snoop := rfl
@[simp] theorem State.setMark_biWait (s : State) (a : Nat) (m : Bool) : (s.setMark a m).biWait = s.biWait := rfl
@[simp] theorem State.setMark_bursts (s : State) (a : Nat) (m : Bool) : (s.setMark a m).bursts = s.bursts := rfl
@[simp] theorem State.setMark_drecWait (s : State) (a : Nat) (m : Bool) : (s.setMark a m).drecWait = s.drecWait := rfl
@[simp] theorem State.setMark_restWait (s : State) (a : Nat) (m : Bool) : (s.setMark a m).restWait = s.restWait := rfl
@[simp] theorem State.setMark_hostLines (s : State) (a : Nat) (m : Bool) : (s.setMark a m).hostLines = s.hostLines := rfl
@[simp] theorem State.setMark_memWait (s : State) (a : Nat) (m : Bool) : (s.setMark a m).memWait = s.memWait := rfl
@[simp] theorem State.setMark_hostCfg (s : State) (a : Nat) (m : Bool) : (s.setMark a m).hostCfg = s.hostCfg := rfl
@[simp] theorem State.setMark_boxH (s : State) (a : Nat) (m : Bool) : (s.setMark a m).boxH = s.boxH := rfl
@[simp] theorem State.setMark_boxM (s : State) (a : Nat) (m : Bool) : (s.setMark a m).boxM = s.boxM := rfl
@[simp] theorem State.setMark_buf (s : State) (a : Nat) (m : Bool) : (s.setMark a m).buf = s.buf := rfl
@[simp] theorem State.setMark_session (s : State) (a : Nat) (m : Bool) : (s.setMark a m).session = s.session := rfl
@[simp] theorem State.setMark_running (s : State) (a : Nat) (m : Bool) : (s.setMark a m).running = s.running := rfl
@[simp] theorem State.setMark_runHdr (s : State) (a : Nat) (m : Bool) : (s.setMark a m).runHdr = s.runHdr := rfl
@[simp] theorem State.setMark_flyDown (s : State) (a : Nat) (m : Bool) : (s.setMark a m).flyDown = s.flyDown := rfl
@[simp] theorem State.setMark_activating (s : State) (a : Nat) (m : Bool) : (s.setMark a m).activating = s.activating := rfl
@[simp] theorem State.setMark_dynAddr (s : State) (a : Nat) (m : Bool) : (s.setMark a m).dynAddr = s.dynAddr := rfl
@[simp] theorem State.setMark_idKeys (s : State) (a : Nat) (m : Bool) : (s.setMark a m).idKeys = s.idKeys := rfl
@[simp] theorem State.setMark_flashA (s : State) (a : Nat) (m : Bool) : (s.setMark a m).flashA = s.flashA := rfl
@[simp] theorem State.setMark_flashB (s : State) (a : Nat) (m : Bool) : (s.setMark a m).flashB = s.flashB := rfl
@[simp] theorem State.setMark_settings (s : State) (a : Nat) (m : Bool) : (s.setMark a m).settings = s.settings := rfl
@[simp] theorem State.setMark_ilvSet (s : State) (a : Nat) (m : Bool) : (s.setMark a m).ilvSet = s.ilvSet := rfl
@[simp] theorem State.setMark_log (s : State) (a : Nat) (m : Bool) : (s.setMark a m).log = s.log := rfl
@[simp] theorem State.setMark_fuses (s : State) (a : Nat) (m : Bool) : (s.setMark a m).fuses = s.fuses := rfl
@[simp] theorem State.setMark_repairs (s : State) (a : Nat) (m : Bool) : (s.setMark a m).repairs = s.repairs := rfl
@[simp] theorem State.setMark_fieldRows (s : State) (a : Nat) (m : Bool) : (s.setMark a m).fieldRows = s.fieldRows := rfl
@[simp] theorem State.setMark_scrub (s : State) (a : Nat) (m : Bool) : (s.setMark a m).scrub = s.scrub := rfl
@[simp] theorem State.setMark_repairing (s : State) (a : Nat) (m : Bool) : (s.setMark a m).repairing = s.repairing := rfl
@[simp] theorem State.setMark_rowWait (s : State) (a : Nat) (m : Bool) : (s.setMark a m).rowWait = s.rowWait := rfl
@[simp] theorem State.setMark_tap (s : State) (a : Nat) (m : Bool) : (s.setMark a m).tap = s.tap := rfl
@[simp] theorem State.setMark_tapDr (s : State) (a : Nat) (m : Bool) : (s.setMark a m).tapDr = s.tapDr := rfl
@[simp] theorem State.setMark_freeCtr (s : State) (a : Nat) (m : Bool) : (s.setMark a m).freeCtr = s.freeCtr := rfl
@[simp] theorem State.setMark_rngCtr (s : State) (a : Nat) (m : Bool) : (s.setMark a m).rngCtr = s.rngCtr := rfl
@[simp] theorem State.setMark_pending (s : State) (a : Nat) (m : Bool) : (s.setMark a m).pending = s.pending := rfl

/-! setSem writes the field sems alone. -/

@[simp] theorem State.setSem_regs (s : State) (k : Nat) (q : Sem) : (s.setSem k q).regs = s.regs := rfl
@[simp] theorem State.setSem_power (s : State) (k : Nat) (q : Sem) : (s.setSem k q).power = s.power := rfl
@[simp] theorem State.setSem_pins (s : State) (k : Nat) (q : Sem) : (s.setSem k q).pins = s.pins := rfl
@[simp] theorem State.setSem_usec (s : State) (k : Nat) (q : Sem) : (s.setSem k q).usec = s.usec := rfl
@[simp] theorem State.setSem_strapAt (s : State) (k : Nat) (q : Sem) : (s.setSem k q).strapAt = s.strapAt := rfl
@[simp] theorem State.setSem_svcStop (s : State) (k : Nat) (q : Sem) : (s.setSem k q).svcStop = s.svcStop := rfl
@[simp] theorem State.setSem_heldReset (s : State) (k : Nat) (q : Sem) : (s.setSem k q).heldReset = s.heldReset := rfl
@[simp] theorem State.setSem_uart (s : State) (k : Nat) (q : Sem) : (s.setSem k q).uart = s.uart := rfl
@[simp] theorem State.setSem_ibi (s : State) (k : Nat) (q : Sem) : (s.setSem k q).ibi = s.ibi := rfl
@[simp] theorem State.setSem_sensors (s : State) (k : Nat) (q : Sem) : (s.setSem k q).sensors = s.sensors := rfl
@[simp] theorem State.setSem_closed (s : State) (k : Nat) (q : Sem) : (s.setSem k q).closed = s.closed := rfl
@[simp] theorem State.setSem_cores (s : State) (k : Nat) (q : Sem) : (s.setSem k q).cores = s.cores := rfl
@[simp] theorem State.setSem_mem (s : State) (k : Nat) (q : Sem) : (s.setSem k q).mem = s.mem := rfl
@[simp] theorem State.setSem_psn (s : State) (k : Nat) (q : Sem) : (s.setSem k q).psn = s.psn := rfl
@[simp] theorem State.setSem_latent (s : State) (k : Nat) (q : Sem) : (s.setSem k q).latent = s.latent := rfl
@[simp] theorem State.setSem_upsets (s : State) (k : Nat) (q : Sem) : (s.setSem k q).upsets = s.upsets := rfl
@[simp] theorem State.setSem_queues (s : State) (k : Nat) (q : Sem) : (s.setSem k q).queues = s.queues := rfl
@[simp] theorem State.setSem_errqSet (s : State) (k : Nat) (q : Sem) : (s.setSem k q).errqSet = s.errqSet := rfl
@[simp] theorem State.setSem_res (s : State) (k : Nat) (q : Sem) : (s.setSem k q).res = s.res := rfl
@[simp] theorem State.setSem_ctxs (s : State) (k : Nat) (q : Sem) : (s.setSem k q).ctxs = s.ctxs := rfl
@[simp] theorem State.setSem_links (s : State) (k : Nat) (q : Sem) : (s.setSem k q).links = s.links := rfl
@[simp] theorem State.setSem_routes (s : State) (k : Nat) (q : Sem) : (s.setSem k q).routes = s.routes := rfl
@[simp] theorem State.setSem_routeMark (s : State) (k : Nat) (q : Sem) : (s.setSem k q).routeMark = s.routeMark := rfl
@[simp] theorem State.setSem_mcast (s : State) (k : Nat) (q : Sem) : (s.setSem k q).mcast = s.mcast := rfl
@[simp] theorem State.setSem_mcastStg (s : State) (k : Nat) (q : Sem) : (s.setSem k q).mcastStg = s.mcastStg := rfl
@[simp] theorem State.setSem_requests (s : State) (k : Nat) (q : Sem) : (s.setSem k q).requests = s.requests := rfl
@[simp] theorem State.setSem_unsent (s : State) (k : Nat) (q : Sem) : (s.setSem k q).unsent = s.unsent := rfl
@[simp] theorem State.setSem_nextTag (s : State) (k : Nat) (q : Sem) : (s.setSem k q).nextTag = s.nextTag := rfl
@[simp] theorem State.setSem_inbox (s : State) (k : Nat) (q : Sem) : (s.setSem k q).inbox = s.inbox := rfl
@[simp] theorem State.setSem_imgLink (s : State) (k : Nat) (q : Sem) : (s.setSem k q).imgLink = s.imgLink := rfl
@[simp] theorem State.setSem_imgTried (s : State) (k : Nat) (q : Sem) : (s.setSem k q).imgTried = s.imgTried := rfl
@[simp] theorem State.setSem_jobs (s : State) (k : Nat) (q : Sem) : (s.setSem k q).jobs = s.jobs := rfl
@[simp] theorem State.setSem_swarms (s : State) (k : Nat) (q : Sem) : (s.setSem k q).swarms = s.swarms := rfl
@[simp] theorem State.setSem_copies (s : State) (k : Nat) (q : Sem) : (s.setSem k q).copies = s.copies := rfl
@[simp] theorem State.setSem_touchWait (s : State) (k : Nat) (q : Sem) : (s.setSem k q).touchWait = s.touchWait := rfl
@[simp] theorem State.setSem_jtlb (s : State) (k : Nat) (q : Sem) : (s.setSem k q).jtlb = s.jtlb := rfl
@[simp] theorem State.setSem_jrootUse (s : State) (k : Nat) (q : Sem) : (s.setSem k q).jrootUse = s.jrootUse := rfl
@[simp] theorem State.setSem_resolving (s : State) (k : Nat) (q : Sem) : (s.setSem k q).resolving = s.resolving := rfl
@[simp] theorem State.setSem_stepCyc (s : State) (k : Nat) (q : Sem) : (s.setSem k q).stepCyc = s.stepCyc := rfl
@[simp] theorem State.setSem_stepCmd (s : State) (k : Nat) (q : Sem) : (s.setSem k q).stepCmd = s.stepCmd := rfl
@[simp] theorem State.setSem_sums (s : State) (k : Nat) (q : Sem) : (s.setSem k q).sums = s.sums := rfl
@[simp] theorem State.setSem_ebud (s : State) (k : Nat) (q : Sem) : (s.setSem k q).ebud = s.ebud := rfl
@[simp] theorem State.setSem_pdie (s : State) (k : Nat) (q : Sem) : (s.setSem k q).pdie = s.pdie := rfl
@[simp] theorem State.setSem_eref (s : State) (k : Nat) (q : Sem) : (s.setSem k q).eref = s.eref := rfl
@[simp] theorem State.setSem_phist (s : State) (k : Nat) (q : Sem) : (s.setSem k q).phist = s.phist := rfl
@[simp] theorem State.setSem_throttle (s : State) (k : Nat) (q : Sem) : (s.setSem k q).throttle = s.throttle := rfl
@[simp] theorem State.setSem_overCap (s : State) (k : Nat) (q : Sem) : (s.setSem k q).overCap = s.overCap := rfl
@[simp] theorem State.setSem_ports (s : State) (k : Nat) (q : Sem) : (s.setSem k q).ports = s.ports := rfl
@[simp] theorem State.setSem_bpDone (s : State) (k : Nat) (q : Sem) : (s.setSem k q).bpDone = s.bpDone := rfl
@[simp] theorem State.setSem_linkTrain (s : State) (k : Nat) (q : Sem) : (s.setSem k q).linkTrain = s.linkTrain := rfl
@[simp] theorem State.setSem_j1Lanes (s : State) (k : Nat) (q : Sem) : (s.setSem k q).j1Lanes = s.j1Lanes := rfl
@[simp] theorem State.setSem_hdmBase (s : State) (k : Nat) (q : Sem) : (s.setSem k q).hdmBase = s.hdmBase := rfl
@[simp] theorem State.setSem_msixMask (s : State) (k : Nat) (q : Sem) : (s.setSem k q).msixMask = s.msixMask := rfl
@[simp] theorem State.setSem_msixPend (s : State) (k : Nat) (q : Sem) : (s.setSem k q).msixPend = s.msixPend := rfl
@[simp] theorem State.setSem_msixSent (s : State) (k : Nat) (q : Sem) : (s.setSem k q).msixSent = s.msixSent := rfl
@[simp] theorem State.setSem_hostOut (s : State) (k : Nat) (q : Sem) : (s.setSem k q).hostOut = s.hostOut := rfl
@[simp] theorem State.setSem_hostRead (s : State) (k : Nat) (q : Sem) : (s.setSem k q).hostRead = s.hostRead := rfl
@[simp] theorem State.setSem_snoop (s : State) (k : Nat) (q : Sem) : (s.setSem k q).snoop = s.snoop := rfl
@[simp] theorem State.setSem_biWait (s : State) (k : Nat) (q : Sem) : (s.setSem k q).biWait = s.biWait := rfl
@[simp] theorem State.setSem_bursts (s : State) (k : Nat) (q : Sem) : (s.setSem k q).bursts = s.bursts := rfl
@[simp] theorem State.setSem_drecWait (s : State) (k : Nat) (q : Sem) : (s.setSem k q).drecWait = s.drecWait := rfl
@[simp] theorem State.setSem_restWait (s : State) (k : Nat) (q : Sem) : (s.setSem k q).restWait = s.restWait := rfl
@[simp] theorem State.setSem_hostLines (s : State) (k : Nat) (q : Sem) : (s.setSem k q).hostLines = s.hostLines := rfl
@[simp] theorem State.setSem_memWait (s : State) (k : Nat) (q : Sem) : (s.setSem k q).memWait = s.memWait := rfl
@[simp] theorem State.setSem_hostCfg (s : State) (k : Nat) (q : Sem) : (s.setSem k q).hostCfg = s.hostCfg := rfl
@[simp] theorem State.setSem_boxH (s : State) (k : Nat) (q : Sem) : (s.setSem k q).boxH = s.boxH := rfl
@[simp] theorem State.setSem_boxM (s : State) (k : Nat) (q : Sem) : (s.setSem k q).boxM = s.boxM := rfl
@[simp] theorem State.setSem_buf (s : State) (k : Nat) (q : Sem) : (s.setSem k q).buf = s.buf := rfl
@[simp] theorem State.setSem_session (s : State) (k : Nat) (q : Sem) : (s.setSem k q).session = s.session := rfl
@[simp] theorem State.setSem_running (s : State) (k : Nat) (q : Sem) : (s.setSem k q).running = s.running := rfl
@[simp] theorem State.setSem_runHdr (s : State) (k : Nat) (q : Sem) : (s.setSem k q).runHdr = s.runHdr := rfl
@[simp] theorem State.setSem_flyDown (s : State) (k : Nat) (q : Sem) : (s.setSem k q).flyDown = s.flyDown := rfl
@[simp] theorem State.setSem_activating (s : State) (k : Nat) (q : Sem) : (s.setSem k q).activating = s.activating := rfl
@[simp] theorem State.setSem_dynAddr (s : State) (k : Nat) (q : Sem) : (s.setSem k q).dynAddr = s.dynAddr := rfl
@[simp] theorem State.setSem_idKeys (s : State) (k : Nat) (q : Sem) : (s.setSem k q).idKeys = s.idKeys := rfl
@[simp] theorem State.setSem_flashA (s : State) (k : Nat) (q : Sem) : (s.setSem k q).flashA = s.flashA := rfl
@[simp] theorem State.setSem_flashB (s : State) (k : Nat) (q : Sem) : (s.setSem k q).flashB = s.flashB := rfl
@[simp] theorem State.setSem_settings (s : State) (k : Nat) (q : Sem) : (s.setSem k q).settings = s.settings := rfl
@[simp] theorem State.setSem_ilvSet (s : State) (k : Nat) (q : Sem) : (s.setSem k q).ilvSet = s.ilvSet := rfl
@[simp] theorem State.setSem_log (s : State) (k : Nat) (q : Sem) : (s.setSem k q).log = s.log := rfl
@[simp] theorem State.setSem_fuses (s : State) (k : Nat) (q : Sem) : (s.setSem k q).fuses = s.fuses := rfl
@[simp] theorem State.setSem_repairs (s : State) (k : Nat) (q : Sem) : (s.setSem k q).repairs = s.repairs := rfl
@[simp] theorem State.setSem_fieldRows (s : State) (k : Nat) (q : Sem) : (s.setSem k q).fieldRows = s.fieldRows := rfl
@[simp] theorem State.setSem_scrub (s : State) (k : Nat) (q : Sem) : (s.setSem k q).scrub = s.scrub := rfl
@[simp] theorem State.setSem_repairing (s : State) (k : Nat) (q : Sem) : (s.setSem k q).repairing = s.repairing := rfl
@[simp] theorem State.setSem_rowWait (s : State) (k : Nat) (q : Sem) : (s.setSem k q).rowWait = s.rowWait := rfl
@[simp] theorem State.setSem_tap (s : State) (k : Nat) (q : Sem) : (s.setSem k q).tap = s.tap := rfl
@[simp] theorem State.setSem_tapDr (s : State) (k : Nat) (q : Sem) : (s.setSem k q).tapDr = s.tapDr := rfl
@[simp] theorem State.setSem_freeCtr (s : State) (k : Nat) (q : Sem) : (s.setSem k q).freeCtr = s.freeCtr := rfl
@[simp] theorem State.setSem_rngCtr (s : State) (k : Nat) (q : Sem) : (s.setSem k q).rngCtr = s.rngCtr := rfl
@[simp] theorem State.setSem_pending (s : State) (k : Nat) (q : Sem) : (s.setSem k q).pending = s.pending := rfl

/-! setCtx writes the field ctxs alone. -/

@[simp] theorem State.setCtx_regs (s : State) (b : Nat) (c : Ctx) : (s.setCtx b c).regs = s.regs := rfl
@[simp] theorem State.setCtx_power (s : State) (b : Nat) (c : Ctx) : (s.setCtx b c).power = s.power := rfl
@[simp] theorem State.setCtx_pins (s : State) (b : Nat) (c : Ctx) : (s.setCtx b c).pins = s.pins := rfl
@[simp] theorem State.setCtx_usec (s : State) (b : Nat) (c : Ctx) : (s.setCtx b c).usec = s.usec := rfl
@[simp] theorem State.setCtx_strapAt (s : State) (b : Nat) (c : Ctx) : (s.setCtx b c).strapAt = s.strapAt := rfl
@[simp] theorem State.setCtx_svcStop (s : State) (b : Nat) (c : Ctx) : (s.setCtx b c).svcStop = s.svcStop := rfl
@[simp] theorem State.setCtx_heldReset (s : State) (b : Nat) (c : Ctx) : (s.setCtx b c).heldReset = s.heldReset := rfl
@[simp] theorem State.setCtx_uart (s : State) (b : Nat) (c : Ctx) : (s.setCtx b c).uart = s.uart := rfl
@[simp] theorem State.setCtx_ibi (s : State) (b : Nat) (c : Ctx) : (s.setCtx b c).ibi = s.ibi := rfl
@[simp] theorem State.setCtx_sensors (s : State) (b : Nat) (c : Ctx) : (s.setCtx b c).sensors = s.sensors := rfl
@[simp] theorem State.setCtx_closed (s : State) (b : Nat) (c : Ctx) : (s.setCtx b c).closed = s.closed := rfl
@[simp] theorem State.setCtx_cores (s : State) (b : Nat) (c : Ctx) : (s.setCtx b c).cores = s.cores := rfl
@[simp] theorem State.setCtx_mem (s : State) (b : Nat) (c : Ctx) : (s.setCtx b c).mem = s.mem := rfl
@[simp] theorem State.setCtx_psn (s : State) (b : Nat) (c : Ctx) : (s.setCtx b c).psn = s.psn := rfl
@[simp] theorem State.setCtx_latent (s : State) (b : Nat) (c : Ctx) : (s.setCtx b c).latent = s.latent := rfl
@[simp] theorem State.setCtx_upsets (s : State) (b : Nat) (c : Ctx) : (s.setCtx b c).upsets = s.upsets := rfl
@[simp] theorem State.setCtx_queues (s : State) (b : Nat) (c : Ctx) : (s.setCtx b c).queues = s.queues := rfl
@[simp] theorem State.setCtx_errqSet (s : State) (b : Nat) (c : Ctx) : (s.setCtx b c).errqSet = s.errqSet := rfl
@[simp] theorem State.setCtx_res (s : State) (b : Nat) (c : Ctx) : (s.setCtx b c).res = s.res := rfl
@[simp] theorem State.setCtx_sems (s : State) (b : Nat) (c : Ctx) : (s.setCtx b c).sems = s.sems := rfl
@[simp] theorem State.setCtx_links (s : State) (b : Nat) (c : Ctx) : (s.setCtx b c).links = s.links := rfl
@[simp] theorem State.setCtx_routes (s : State) (b : Nat) (c : Ctx) : (s.setCtx b c).routes = s.routes := rfl
@[simp] theorem State.setCtx_routeMark (s : State) (b : Nat) (c : Ctx) : (s.setCtx b c).routeMark = s.routeMark := rfl
@[simp] theorem State.setCtx_mcast (s : State) (b : Nat) (c : Ctx) : (s.setCtx b c).mcast = s.mcast := rfl
@[simp] theorem State.setCtx_mcastStg (s : State) (b : Nat) (c : Ctx) : (s.setCtx b c).mcastStg = s.mcastStg := rfl
@[simp] theorem State.setCtx_requests (s : State) (b : Nat) (c : Ctx) : (s.setCtx b c).requests = s.requests := rfl
@[simp] theorem State.setCtx_unsent (s : State) (b : Nat) (c : Ctx) : (s.setCtx b c).unsent = s.unsent := rfl
@[simp] theorem State.setCtx_nextTag (s : State) (b : Nat) (c : Ctx) : (s.setCtx b c).nextTag = s.nextTag := rfl
@[simp] theorem State.setCtx_inbox (s : State) (b : Nat) (c : Ctx) : (s.setCtx b c).inbox = s.inbox := rfl
@[simp] theorem State.setCtx_imgLink (s : State) (b : Nat) (c : Ctx) : (s.setCtx b c).imgLink = s.imgLink := rfl
@[simp] theorem State.setCtx_imgTried (s : State) (b : Nat) (c : Ctx) : (s.setCtx b c).imgTried = s.imgTried := rfl
@[simp] theorem State.setCtx_jobs (s : State) (b : Nat) (c : Ctx) : (s.setCtx b c).jobs = s.jobs := rfl
@[simp] theorem State.setCtx_swarms (s : State) (b : Nat) (c : Ctx) : (s.setCtx b c).swarms = s.swarms := rfl
@[simp] theorem State.setCtx_copies (s : State) (b : Nat) (c : Ctx) : (s.setCtx b c).copies = s.copies := rfl
@[simp] theorem State.setCtx_touchWait (s : State) (b : Nat) (c : Ctx) : (s.setCtx b c).touchWait = s.touchWait := rfl
@[simp] theorem State.setCtx_jtlb (s : State) (b : Nat) (c : Ctx) : (s.setCtx b c).jtlb = s.jtlb := rfl
@[simp] theorem State.setCtx_jrootUse (s : State) (b : Nat) (c : Ctx) : (s.setCtx b c).jrootUse = s.jrootUse := rfl
@[simp] theorem State.setCtx_resolving (s : State) (b : Nat) (c : Ctx) : (s.setCtx b c).resolving = s.resolving := rfl
@[simp] theorem State.setCtx_stepCyc (s : State) (b : Nat) (c : Ctx) : (s.setCtx b c).stepCyc = s.stepCyc := rfl
@[simp] theorem State.setCtx_stepCmd (s : State) (b : Nat) (c : Ctx) : (s.setCtx b c).stepCmd = s.stepCmd := rfl
@[simp] theorem State.setCtx_sums (s : State) (b : Nat) (c : Ctx) : (s.setCtx b c).sums = s.sums := rfl
@[simp] theorem State.setCtx_ebud (s : State) (b : Nat) (c : Ctx) : (s.setCtx b c).ebud = s.ebud := rfl
@[simp] theorem State.setCtx_pdie (s : State) (b : Nat) (c : Ctx) : (s.setCtx b c).pdie = s.pdie := rfl
@[simp] theorem State.setCtx_eref (s : State) (b : Nat) (c : Ctx) : (s.setCtx b c).eref = s.eref := rfl
@[simp] theorem State.setCtx_phist (s : State) (b : Nat) (c : Ctx) : (s.setCtx b c).phist = s.phist := rfl
@[simp] theorem State.setCtx_throttle (s : State) (b : Nat) (c : Ctx) : (s.setCtx b c).throttle = s.throttle := rfl
@[simp] theorem State.setCtx_overCap (s : State) (b : Nat) (c : Ctx) : (s.setCtx b c).overCap = s.overCap := rfl
@[simp] theorem State.setCtx_ports (s : State) (b : Nat) (c : Ctx) : (s.setCtx b c).ports = s.ports := rfl
@[simp] theorem State.setCtx_bpDone (s : State) (b : Nat) (c : Ctx) : (s.setCtx b c).bpDone = s.bpDone := rfl
@[simp] theorem State.setCtx_linkTrain (s : State) (b : Nat) (c : Ctx) : (s.setCtx b c).linkTrain = s.linkTrain := rfl
@[simp] theorem State.setCtx_j1Lanes (s : State) (b : Nat) (c : Ctx) : (s.setCtx b c).j1Lanes = s.j1Lanes := rfl
@[simp] theorem State.setCtx_hdmBase (s : State) (b : Nat) (c : Ctx) : (s.setCtx b c).hdmBase = s.hdmBase := rfl
@[simp] theorem State.setCtx_msixMask (s : State) (b : Nat) (c : Ctx) : (s.setCtx b c).msixMask = s.msixMask := rfl
@[simp] theorem State.setCtx_msixPend (s : State) (b : Nat) (c : Ctx) : (s.setCtx b c).msixPend = s.msixPend := rfl
@[simp] theorem State.setCtx_msixSent (s : State) (b : Nat) (c : Ctx) : (s.setCtx b c).msixSent = s.msixSent := rfl
@[simp] theorem State.setCtx_hostOut (s : State) (b : Nat) (c : Ctx) : (s.setCtx b c).hostOut = s.hostOut := rfl
@[simp] theorem State.setCtx_hostRead (s : State) (b : Nat) (c : Ctx) : (s.setCtx b c).hostRead = s.hostRead := rfl
@[simp] theorem State.setCtx_snoop (s : State) (b : Nat) (c : Ctx) : (s.setCtx b c).snoop = s.snoop := rfl
@[simp] theorem State.setCtx_biWait (s : State) (b : Nat) (c : Ctx) : (s.setCtx b c).biWait = s.biWait := rfl
@[simp] theorem State.setCtx_bursts (s : State) (b : Nat) (c : Ctx) : (s.setCtx b c).bursts = s.bursts := rfl
@[simp] theorem State.setCtx_drecWait (s : State) (b : Nat) (c : Ctx) : (s.setCtx b c).drecWait = s.drecWait := rfl
@[simp] theorem State.setCtx_restWait (s : State) (b : Nat) (c : Ctx) : (s.setCtx b c).restWait = s.restWait := rfl
@[simp] theorem State.setCtx_hostLines (s : State) (b : Nat) (c : Ctx) : (s.setCtx b c).hostLines = s.hostLines := rfl
@[simp] theorem State.setCtx_memWait (s : State) (b : Nat) (c : Ctx) : (s.setCtx b c).memWait = s.memWait := rfl
@[simp] theorem State.setCtx_hostCfg (s : State) (b : Nat) (c : Ctx) : (s.setCtx b c).hostCfg = s.hostCfg := rfl
@[simp] theorem State.setCtx_boxH (s : State) (b : Nat) (c : Ctx) : (s.setCtx b c).boxH = s.boxH := rfl
@[simp] theorem State.setCtx_boxM (s : State) (b : Nat) (c : Ctx) : (s.setCtx b c).boxM = s.boxM := rfl
@[simp] theorem State.setCtx_buf (s : State) (b : Nat) (c : Ctx) : (s.setCtx b c).buf = s.buf := rfl
@[simp] theorem State.setCtx_session (s : State) (b : Nat) (c : Ctx) : (s.setCtx b c).session = s.session := rfl
@[simp] theorem State.setCtx_running (s : State) (b : Nat) (c : Ctx) : (s.setCtx b c).running = s.running := rfl
@[simp] theorem State.setCtx_runHdr (s : State) (b : Nat) (c : Ctx) : (s.setCtx b c).runHdr = s.runHdr := rfl
@[simp] theorem State.setCtx_flyDown (s : State) (b : Nat) (c : Ctx) : (s.setCtx b c).flyDown = s.flyDown := rfl
@[simp] theorem State.setCtx_activating (s : State) (b : Nat) (c : Ctx) : (s.setCtx b c).activating = s.activating := rfl
@[simp] theorem State.setCtx_dynAddr (s : State) (b : Nat) (c : Ctx) : (s.setCtx b c).dynAddr = s.dynAddr := rfl
@[simp] theorem State.setCtx_idKeys (s : State) (b : Nat) (c : Ctx) : (s.setCtx b c).idKeys = s.idKeys := rfl
@[simp] theorem State.setCtx_flashA (s : State) (b : Nat) (c : Ctx) : (s.setCtx b c).flashA = s.flashA := rfl
@[simp] theorem State.setCtx_flashB (s : State) (b : Nat) (c : Ctx) : (s.setCtx b c).flashB = s.flashB := rfl
@[simp] theorem State.setCtx_settings (s : State) (b : Nat) (c : Ctx) : (s.setCtx b c).settings = s.settings := rfl
@[simp] theorem State.setCtx_ilvSet (s : State) (b : Nat) (c : Ctx) : (s.setCtx b c).ilvSet = s.ilvSet := rfl
@[simp] theorem State.setCtx_log (s : State) (b : Nat) (c : Ctx) : (s.setCtx b c).log = s.log := rfl
@[simp] theorem State.setCtx_fuses (s : State) (b : Nat) (c : Ctx) : (s.setCtx b c).fuses = s.fuses := rfl
@[simp] theorem State.setCtx_repairs (s : State) (b : Nat) (c : Ctx) : (s.setCtx b c).repairs = s.repairs := rfl
@[simp] theorem State.setCtx_fieldRows (s : State) (b : Nat) (c : Ctx) : (s.setCtx b c).fieldRows = s.fieldRows := rfl
@[simp] theorem State.setCtx_scrub (s : State) (b : Nat) (c : Ctx) : (s.setCtx b c).scrub = s.scrub := rfl
@[simp] theorem State.setCtx_repairing (s : State) (b : Nat) (c : Ctx) : (s.setCtx b c).repairing = s.repairing := rfl
@[simp] theorem State.setCtx_rowWait (s : State) (b : Nat) (c : Ctx) : (s.setCtx b c).rowWait = s.rowWait := rfl
@[simp] theorem State.setCtx_tap (s : State) (b : Nat) (c : Ctx) : (s.setCtx b c).tap = s.tap := rfl
@[simp] theorem State.setCtx_tapDr (s : State) (b : Nat) (c : Ctx) : (s.setCtx b c).tapDr = s.tapDr := rfl
@[simp] theorem State.setCtx_freeCtr (s : State) (b : Nat) (c : Ctx) : (s.setCtx b c).freeCtr = s.freeCtr := rfl
@[simp] theorem State.setCtx_rngCtr (s : State) (b : Nat) (c : Ctx) : (s.setCtx b c).rngCtr = s.rngCtr := rfl
@[simp] theorem State.setCtx_pending (s : State) (b : Nat) (c : Ctx) : (s.setCtx b c).pending = s.pending := rfl

/-! modLink writes the field links alone. -/

@[simp] theorem State.modLink_regs (s : State) (l : Nat) (f : Link → Link) : (s.modLink l f).regs = s.regs := rfl
@[simp] theorem State.modLink_power (s : State) (l : Nat) (f : Link → Link) : (s.modLink l f).power = s.power := rfl
@[simp] theorem State.modLink_pins (s : State) (l : Nat) (f : Link → Link) : (s.modLink l f).pins = s.pins := rfl
@[simp] theorem State.modLink_usec (s : State) (l : Nat) (f : Link → Link) : (s.modLink l f).usec = s.usec := rfl
@[simp] theorem State.modLink_strapAt (s : State) (l : Nat) (f : Link → Link) : (s.modLink l f).strapAt = s.strapAt := rfl
@[simp] theorem State.modLink_svcStop (s : State) (l : Nat) (f : Link → Link) : (s.modLink l f).svcStop = s.svcStop := rfl
@[simp] theorem State.modLink_heldReset (s : State) (l : Nat) (f : Link → Link) : (s.modLink l f).heldReset = s.heldReset := rfl
@[simp] theorem State.modLink_uart (s : State) (l : Nat) (f : Link → Link) : (s.modLink l f).uart = s.uart := rfl
@[simp] theorem State.modLink_ibi (s : State) (l : Nat) (f : Link → Link) : (s.modLink l f).ibi = s.ibi := rfl
@[simp] theorem State.modLink_sensors (s : State) (l : Nat) (f : Link → Link) : (s.modLink l f).sensors = s.sensors := rfl
@[simp] theorem State.modLink_closed (s : State) (l : Nat) (f : Link → Link) : (s.modLink l f).closed = s.closed := rfl
@[simp] theorem State.modLink_cores (s : State) (l : Nat) (f : Link → Link) : (s.modLink l f).cores = s.cores := rfl
@[simp] theorem State.modLink_mem (s : State) (l : Nat) (f : Link → Link) : (s.modLink l f).mem = s.mem := rfl
@[simp] theorem State.modLink_psn (s : State) (l : Nat) (f : Link → Link) : (s.modLink l f).psn = s.psn := rfl
@[simp] theorem State.modLink_latent (s : State) (l : Nat) (f : Link → Link) : (s.modLink l f).latent = s.latent := rfl
@[simp] theorem State.modLink_upsets (s : State) (l : Nat) (f : Link → Link) : (s.modLink l f).upsets = s.upsets := rfl
@[simp] theorem State.modLink_queues (s : State) (l : Nat) (f : Link → Link) : (s.modLink l f).queues = s.queues := rfl
@[simp] theorem State.modLink_errqSet (s : State) (l : Nat) (f : Link → Link) : (s.modLink l f).errqSet = s.errqSet := rfl
@[simp] theorem State.modLink_res (s : State) (l : Nat) (f : Link → Link) : (s.modLink l f).res = s.res := rfl
@[simp] theorem State.modLink_sems (s : State) (l : Nat) (f : Link → Link) : (s.modLink l f).sems = s.sems := rfl
@[simp] theorem State.modLink_ctxs (s : State) (l : Nat) (f : Link → Link) : (s.modLink l f).ctxs = s.ctxs := rfl
@[simp] theorem State.modLink_routes (s : State) (l : Nat) (f : Link → Link) : (s.modLink l f).routes = s.routes := rfl
@[simp] theorem State.modLink_routeMark (s : State) (l : Nat) (f : Link → Link) : (s.modLink l f).routeMark = s.routeMark := rfl
@[simp] theorem State.modLink_mcast (s : State) (l : Nat) (f : Link → Link) : (s.modLink l f).mcast = s.mcast := rfl
@[simp] theorem State.modLink_mcastStg (s : State) (l : Nat) (f : Link → Link) : (s.modLink l f).mcastStg = s.mcastStg := rfl
@[simp] theorem State.modLink_requests (s : State) (l : Nat) (f : Link → Link) : (s.modLink l f).requests = s.requests := rfl
@[simp] theorem State.modLink_unsent (s : State) (l : Nat) (f : Link → Link) : (s.modLink l f).unsent = s.unsent := rfl
@[simp] theorem State.modLink_nextTag (s : State) (l : Nat) (f : Link → Link) : (s.modLink l f).nextTag = s.nextTag := rfl
@[simp] theorem State.modLink_inbox (s : State) (l : Nat) (f : Link → Link) : (s.modLink l f).inbox = s.inbox := rfl
@[simp] theorem State.modLink_imgLink (s : State) (l : Nat) (f : Link → Link) : (s.modLink l f).imgLink = s.imgLink := rfl
@[simp] theorem State.modLink_imgTried (s : State) (l : Nat) (f : Link → Link) : (s.modLink l f).imgTried = s.imgTried := rfl
@[simp] theorem State.modLink_jobs (s : State) (l : Nat) (f : Link → Link) : (s.modLink l f).jobs = s.jobs := rfl
@[simp] theorem State.modLink_swarms (s : State) (l : Nat) (f : Link → Link) : (s.modLink l f).swarms = s.swarms := rfl
@[simp] theorem State.modLink_copies (s : State) (l : Nat) (f : Link → Link) : (s.modLink l f).copies = s.copies := rfl
@[simp] theorem State.modLink_touchWait (s : State) (l : Nat) (f : Link → Link) : (s.modLink l f).touchWait = s.touchWait := rfl
@[simp] theorem State.modLink_jtlb (s : State) (l : Nat) (f : Link → Link) : (s.modLink l f).jtlb = s.jtlb := rfl
@[simp] theorem State.modLink_jrootUse (s : State) (l : Nat) (f : Link → Link) : (s.modLink l f).jrootUse = s.jrootUse := rfl
@[simp] theorem State.modLink_resolving (s : State) (l : Nat) (f : Link → Link) : (s.modLink l f).resolving = s.resolving := rfl
@[simp] theorem State.modLink_stepCyc (s : State) (l : Nat) (f : Link → Link) : (s.modLink l f).stepCyc = s.stepCyc := rfl
@[simp] theorem State.modLink_stepCmd (s : State) (l : Nat) (f : Link → Link) : (s.modLink l f).stepCmd = s.stepCmd := rfl
@[simp] theorem State.modLink_sums (s : State) (l : Nat) (f : Link → Link) : (s.modLink l f).sums = s.sums := rfl
@[simp] theorem State.modLink_ebud (s : State) (l : Nat) (f : Link → Link) : (s.modLink l f).ebud = s.ebud := rfl
@[simp] theorem State.modLink_pdie (s : State) (l : Nat) (f : Link → Link) : (s.modLink l f).pdie = s.pdie := rfl
@[simp] theorem State.modLink_eref (s : State) (l : Nat) (f : Link → Link) : (s.modLink l f).eref = s.eref := rfl
@[simp] theorem State.modLink_phist (s : State) (l : Nat) (f : Link → Link) : (s.modLink l f).phist = s.phist := rfl
@[simp] theorem State.modLink_throttle (s : State) (l : Nat) (f : Link → Link) : (s.modLink l f).throttle = s.throttle := rfl
@[simp] theorem State.modLink_overCap (s : State) (l : Nat) (f : Link → Link) : (s.modLink l f).overCap = s.overCap := rfl
@[simp] theorem State.modLink_ports (s : State) (l : Nat) (f : Link → Link) : (s.modLink l f).ports = s.ports := rfl
@[simp] theorem State.modLink_bpDone (s : State) (l : Nat) (f : Link → Link) : (s.modLink l f).bpDone = s.bpDone := rfl
@[simp] theorem State.modLink_linkTrain (s : State) (l : Nat) (f : Link → Link) : (s.modLink l f).linkTrain = s.linkTrain := rfl
@[simp] theorem State.modLink_j1Lanes (s : State) (l : Nat) (f : Link → Link) : (s.modLink l f).j1Lanes = s.j1Lanes := rfl
@[simp] theorem State.modLink_hdmBase (s : State) (l : Nat) (f : Link → Link) : (s.modLink l f).hdmBase = s.hdmBase := rfl
@[simp] theorem State.modLink_msixMask (s : State) (l : Nat) (f : Link → Link) : (s.modLink l f).msixMask = s.msixMask := rfl
@[simp] theorem State.modLink_msixPend (s : State) (l : Nat) (f : Link → Link) : (s.modLink l f).msixPend = s.msixPend := rfl
@[simp] theorem State.modLink_msixSent (s : State) (l : Nat) (f : Link → Link) : (s.modLink l f).msixSent = s.msixSent := rfl
@[simp] theorem State.modLink_hostOut (s : State) (l : Nat) (f : Link → Link) : (s.modLink l f).hostOut = s.hostOut := rfl
@[simp] theorem State.modLink_hostRead (s : State) (l : Nat) (f : Link → Link) : (s.modLink l f).hostRead = s.hostRead := rfl
@[simp] theorem State.modLink_snoop (s : State) (l : Nat) (f : Link → Link) : (s.modLink l f).snoop = s.snoop := rfl
@[simp] theorem State.modLink_biWait (s : State) (l : Nat) (f : Link → Link) : (s.modLink l f).biWait = s.biWait := rfl
@[simp] theorem State.modLink_bursts (s : State) (l : Nat) (f : Link → Link) : (s.modLink l f).bursts = s.bursts := rfl
@[simp] theorem State.modLink_drecWait (s : State) (l : Nat) (f : Link → Link) : (s.modLink l f).drecWait = s.drecWait := rfl
@[simp] theorem State.modLink_restWait (s : State) (l : Nat) (f : Link → Link) : (s.modLink l f).restWait = s.restWait := rfl
@[simp] theorem State.modLink_hostLines (s : State) (l : Nat) (f : Link → Link) : (s.modLink l f).hostLines = s.hostLines := rfl
@[simp] theorem State.modLink_memWait (s : State) (l : Nat) (f : Link → Link) : (s.modLink l f).memWait = s.memWait := rfl
@[simp] theorem State.modLink_hostCfg (s : State) (l : Nat) (f : Link → Link) : (s.modLink l f).hostCfg = s.hostCfg := rfl
@[simp] theorem State.modLink_boxH (s : State) (l : Nat) (f : Link → Link) : (s.modLink l f).boxH = s.boxH := rfl
@[simp] theorem State.modLink_boxM (s : State) (l : Nat) (f : Link → Link) : (s.modLink l f).boxM = s.boxM := rfl
@[simp] theorem State.modLink_buf (s : State) (l : Nat) (f : Link → Link) : (s.modLink l f).buf = s.buf := rfl
@[simp] theorem State.modLink_session (s : State) (l : Nat) (f : Link → Link) : (s.modLink l f).session = s.session := rfl
@[simp] theorem State.modLink_running (s : State) (l : Nat) (f : Link → Link) : (s.modLink l f).running = s.running := rfl
@[simp] theorem State.modLink_runHdr (s : State) (l : Nat) (f : Link → Link) : (s.modLink l f).runHdr = s.runHdr := rfl
@[simp] theorem State.modLink_flyDown (s : State) (l : Nat) (f : Link → Link) : (s.modLink l f).flyDown = s.flyDown := rfl
@[simp] theorem State.modLink_activating (s : State) (l : Nat) (f : Link → Link) : (s.modLink l f).activating = s.activating := rfl
@[simp] theorem State.modLink_dynAddr (s : State) (l : Nat) (f : Link → Link) : (s.modLink l f).dynAddr = s.dynAddr := rfl
@[simp] theorem State.modLink_idKeys (s : State) (l : Nat) (f : Link → Link) : (s.modLink l f).idKeys = s.idKeys := rfl
@[simp] theorem State.modLink_flashA (s : State) (l : Nat) (f : Link → Link) : (s.modLink l f).flashA = s.flashA := rfl
@[simp] theorem State.modLink_flashB (s : State) (l : Nat) (f : Link → Link) : (s.modLink l f).flashB = s.flashB := rfl
@[simp] theorem State.modLink_settings (s : State) (l : Nat) (f : Link → Link) : (s.modLink l f).settings = s.settings := rfl
@[simp] theorem State.modLink_ilvSet (s : State) (l : Nat) (f : Link → Link) : (s.modLink l f).ilvSet = s.ilvSet := rfl
@[simp] theorem State.modLink_log (s : State) (l : Nat) (f : Link → Link) : (s.modLink l f).log = s.log := rfl
@[simp] theorem State.modLink_fuses (s : State) (l : Nat) (f : Link → Link) : (s.modLink l f).fuses = s.fuses := rfl
@[simp] theorem State.modLink_repairs (s : State) (l : Nat) (f : Link → Link) : (s.modLink l f).repairs = s.repairs := rfl
@[simp] theorem State.modLink_fieldRows (s : State) (l : Nat) (f : Link → Link) : (s.modLink l f).fieldRows = s.fieldRows := rfl
@[simp] theorem State.modLink_scrub (s : State) (l : Nat) (f : Link → Link) : (s.modLink l f).scrub = s.scrub := rfl
@[simp] theorem State.modLink_repairing (s : State) (l : Nat) (f : Link → Link) : (s.modLink l f).repairing = s.repairing := rfl
@[simp] theorem State.modLink_rowWait (s : State) (l : Nat) (f : Link → Link) : (s.modLink l f).rowWait = s.rowWait := rfl
@[simp] theorem State.modLink_tap (s : State) (l : Nat) (f : Link → Link) : (s.modLink l f).tap = s.tap := rfl
@[simp] theorem State.modLink_tapDr (s : State) (l : Nat) (f : Link → Link) : (s.modLink l f).tapDr = s.tapDr := rfl
@[simp] theorem State.modLink_freeCtr (s : State) (l : Nat) (f : Link → Link) : (s.modLink l f).freeCtr = s.freeCtr := rfl
@[simp] theorem State.modLink_rngCtr (s : State) (l : Nat) (f : Link → Link) : (s.modLink l f).rngCtr = s.rngCtr := rfl
@[simp] theorem State.modLink_pending (s : State) (l : Nat) (f : Link → Link) : (s.modLink l f).pending = s.pending := rfl

/-! modJob writes the field jobs alone. -/

@[simp] theorem State.modJob_regs (s : State) (j : Nat) (f : Job → Job) : (s.modJob j f).regs = s.regs := rfl
@[simp] theorem State.modJob_power (s : State) (j : Nat) (f : Job → Job) : (s.modJob j f).power = s.power := rfl
@[simp] theorem State.modJob_pins (s : State) (j : Nat) (f : Job → Job) : (s.modJob j f).pins = s.pins := rfl
@[simp] theorem State.modJob_usec (s : State) (j : Nat) (f : Job → Job) : (s.modJob j f).usec = s.usec := rfl
@[simp] theorem State.modJob_strapAt (s : State) (j : Nat) (f : Job → Job) : (s.modJob j f).strapAt = s.strapAt := rfl
@[simp] theorem State.modJob_svcStop (s : State) (j : Nat) (f : Job → Job) : (s.modJob j f).svcStop = s.svcStop := rfl
@[simp] theorem State.modJob_heldReset (s : State) (j : Nat) (f : Job → Job) : (s.modJob j f).heldReset = s.heldReset := rfl
@[simp] theorem State.modJob_uart (s : State) (j : Nat) (f : Job → Job) : (s.modJob j f).uart = s.uart := rfl
@[simp] theorem State.modJob_ibi (s : State) (j : Nat) (f : Job → Job) : (s.modJob j f).ibi = s.ibi := rfl
@[simp] theorem State.modJob_sensors (s : State) (j : Nat) (f : Job → Job) : (s.modJob j f).sensors = s.sensors := rfl
@[simp] theorem State.modJob_closed (s : State) (j : Nat) (f : Job → Job) : (s.modJob j f).closed = s.closed := rfl
@[simp] theorem State.modJob_cores (s : State) (j : Nat) (f : Job → Job) : (s.modJob j f).cores = s.cores := rfl
@[simp] theorem State.modJob_mem (s : State) (j : Nat) (f : Job → Job) : (s.modJob j f).mem = s.mem := rfl
@[simp] theorem State.modJob_psn (s : State) (j : Nat) (f : Job → Job) : (s.modJob j f).psn = s.psn := rfl
@[simp] theorem State.modJob_latent (s : State) (j : Nat) (f : Job → Job) : (s.modJob j f).latent = s.latent := rfl
@[simp] theorem State.modJob_upsets (s : State) (j : Nat) (f : Job → Job) : (s.modJob j f).upsets = s.upsets := rfl
@[simp] theorem State.modJob_queues (s : State) (j : Nat) (f : Job → Job) : (s.modJob j f).queues = s.queues := rfl
@[simp] theorem State.modJob_errqSet (s : State) (j : Nat) (f : Job → Job) : (s.modJob j f).errqSet = s.errqSet := rfl
@[simp] theorem State.modJob_res (s : State) (j : Nat) (f : Job → Job) : (s.modJob j f).res = s.res := rfl
@[simp] theorem State.modJob_sems (s : State) (j : Nat) (f : Job → Job) : (s.modJob j f).sems = s.sems := rfl
@[simp] theorem State.modJob_ctxs (s : State) (j : Nat) (f : Job → Job) : (s.modJob j f).ctxs = s.ctxs := rfl
@[simp] theorem State.modJob_links (s : State) (j : Nat) (f : Job → Job) : (s.modJob j f).links = s.links := rfl
@[simp] theorem State.modJob_routes (s : State) (j : Nat) (f : Job → Job) : (s.modJob j f).routes = s.routes := rfl
@[simp] theorem State.modJob_routeMark (s : State) (j : Nat) (f : Job → Job) : (s.modJob j f).routeMark = s.routeMark := rfl
@[simp] theorem State.modJob_mcast (s : State) (j : Nat) (f : Job → Job) : (s.modJob j f).mcast = s.mcast := rfl
@[simp] theorem State.modJob_mcastStg (s : State) (j : Nat) (f : Job → Job) : (s.modJob j f).mcastStg = s.mcastStg := rfl
@[simp] theorem State.modJob_requests (s : State) (j : Nat) (f : Job → Job) : (s.modJob j f).requests = s.requests := rfl
@[simp] theorem State.modJob_unsent (s : State) (j : Nat) (f : Job → Job) : (s.modJob j f).unsent = s.unsent := rfl
@[simp] theorem State.modJob_nextTag (s : State) (j : Nat) (f : Job → Job) : (s.modJob j f).nextTag = s.nextTag := rfl
@[simp] theorem State.modJob_inbox (s : State) (j : Nat) (f : Job → Job) : (s.modJob j f).inbox = s.inbox := rfl
@[simp] theorem State.modJob_imgLink (s : State) (j : Nat) (f : Job → Job) : (s.modJob j f).imgLink = s.imgLink := rfl
@[simp] theorem State.modJob_imgTried (s : State) (j : Nat) (f : Job → Job) : (s.modJob j f).imgTried = s.imgTried := rfl
@[simp] theorem State.modJob_swarms (s : State) (j : Nat) (f : Job → Job) : (s.modJob j f).swarms = s.swarms := rfl
@[simp] theorem State.modJob_copies (s : State) (j : Nat) (f : Job → Job) : (s.modJob j f).copies = s.copies := rfl
@[simp] theorem State.modJob_touchWait (s : State) (j : Nat) (f : Job → Job) : (s.modJob j f).touchWait = s.touchWait := rfl
@[simp] theorem State.modJob_jtlb (s : State) (j : Nat) (f : Job → Job) : (s.modJob j f).jtlb = s.jtlb := rfl
@[simp] theorem State.modJob_jrootUse (s : State) (j : Nat) (f : Job → Job) : (s.modJob j f).jrootUse = s.jrootUse := rfl
@[simp] theorem State.modJob_resolving (s : State) (j : Nat) (f : Job → Job) : (s.modJob j f).resolving = s.resolving := rfl
@[simp] theorem State.modJob_stepCyc (s : State) (j : Nat) (f : Job → Job) : (s.modJob j f).stepCyc = s.stepCyc := rfl
@[simp] theorem State.modJob_stepCmd (s : State) (j : Nat) (f : Job → Job) : (s.modJob j f).stepCmd = s.stepCmd := rfl
@[simp] theorem State.modJob_sums (s : State) (j : Nat) (f : Job → Job) : (s.modJob j f).sums = s.sums := rfl
@[simp] theorem State.modJob_ebud (s : State) (j : Nat) (f : Job → Job) : (s.modJob j f).ebud = s.ebud := rfl
@[simp] theorem State.modJob_pdie (s : State) (j : Nat) (f : Job → Job) : (s.modJob j f).pdie = s.pdie := rfl
@[simp] theorem State.modJob_eref (s : State) (j : Nat) (f : Job → Job) : (s.modJob j f).eref = s.eref := rfl
@[simp] theorem State.modJob_phist (s : State) (j : Nat) (f : Job → Job) : (s.modJob j f).phist = s.phist := rfl
@[simp] theorem State.modJob_throttle (s : State) (j : Nat) (f : Job → Job) : (s.modJob j f).throttle = s.throttle := rfl
@[simp] theorem State.modJob_overCap (s : State) (j : Nat) (f : Job → Job) : (s.modJob j f).overCap = s.overCap := rfl
@[simp] theorem State.modJob_ports (s : State) (j : Nat) (f : Job → Job) : (s.modJob j f).ports = s.ports := rfl
@[simp] theorem State.modJob_bpDone (s : State) (j : Nat) (f : Job → Job) : (s.modJob j f).bpDone = s.bpDone := rfl
@[simp] theorem State.modJob_linkTrain (s : State) (j : Nat) (f : Job → Job) : (s.modJob j f).linkTrain = s.linkTrain := rfl
@[simp] theorem State.modJob_j1Lanes (s : State) (j : Nat) (f : Job → Job) : (s.modJob j f).j1Lanes = s.j1Lanes := rfl
@[simp] theorem State.modJob_hdmBase (s : State) (j : Nat) (f : Job → Job) : (s.modJob j f).hdmBase = s.hdmBase := rfl
@[simp] theorem State.modJob_msixMask (s : State) (j : Nat) (f : Job → Job) : (s.modJob j f).msixMask = s.msixMask := rfl
@[simp] theorem State.modJob_msixPend (s : State) (j : Nat) (f : Job → Job) : (s.modJob j f).msixPend = s.msixPend := rfl
@[simp] theorem State.modJob_msixSent (s : State) (j : Nat) (f : Job → Job) : (s.modJob j f).msixSent = s.msixSent := rfl
@[simp] theorem State.modJob_hostOut (s : State) (j : Nat) (f : Job → Job) : (s.modJob j f).hostOut = s.hostOut := rfl
@[simp] theorem State.modJob_hostRead (s : State) (j : Nat) (f : Job → Job) : (s.modJob j f).hostRead = s.hostRead := rfl
@[simp] theorem State.modJob_snoop (s : State) (j : Nat) (f : Job → Job) : (s.modJob j f).snoop = s.snoop := rfl
@[simp] theorem State.modJob_biWait (s : State) (j : Nat) (f : Job → Job) : (s.modJob j f).biWait = s.biWait := rfl
@[simp] theorem State.modJob_bursts (s : State) (j : Nat) (f : Job → Job) : (s.modJob j f).bursts = s.bursts := rfl
@[simp] theorem State.modJob_drecWait (s : State) (j : Nat) (f : Job → Job) : (s.modJob j f).drecWait = s.drecWait := rfl
@[simp] theorem State.modJob_restWait (s : State) (j : Nat) (f : Job → Job) : (s.modJob j f).restWait = s.restWait := rfl
@[simp] theorem State.modJob_hostLines (s : State) (j : Nat) (f : Job → Job) : (s.modJob j f).hostLines = s.hostLines := rfl
@[simp] theorem State.modJob_memWait (s : State) (j : Nat) (f : Job → Job) : (s.modJob j f).memWait = s.memWait := rfl
@[simp] theorem State.modJob_hostCfg (s : State) (j : Nat) (f : Job → Job) : (s.modJob j f).hostCfg = s.hostCfg := rfl
@[simp] theorem State.modJob_boxH (s : State) (j : Nat) (f : Job → Job) : (s.modJob j f).boxH = s.boxH := rfl
@[simp] theorem State.modJob_boxM (s : State) (j : Nat) (f : Job → Job) : (s.modJob j f).boxM = s.boxM := rfl
@[simp] theorem State.modJob_buf (s : State) (j : Nat) (f : Job → Job) : (s.modJob j f).buf = s.buf := rfl
@[simp] theorem State.modJob_session (s : State) (j : Nat) (f : Job → Job) : (s.modJob j f).session = s.session := rfl
@[simp] theorem State.modJob_running (s : State) (j : Nat) (f : Job → Job) : (s.modJob j f).running = s.running := rfl
@[simp] theorem State.modJob_runHdr (s : State) (j : Nat) (f : Job → Job) : (s.modJob j f).runHdr = s.runHdr := rfl
@[simp] theorem State.modJob_flyDown (s : State) (j : Nat) (f : Job → Job) : (s.modJob j f).flyDown = s.flyDown := rfl
@[simp] theorem State.modJob_activating (s : State) (j : Nat) (f : Job → Job) : (s.modJob j f).activating = s.activating := rfl
@[simp] theorem State.modJob_dynAddr (s : State) (j : Nat) (f : Job → Job) : (s.modJob j f).dynAddr = s.dynAddr := rfl
@[simp] theorem State.modJob_idKeys (s : State) (j : Nat) (f : Job → Job) : (s.modJob j f).idKeys = s.idKeys := rfl
@[simp] theorem State.modJob_flashA (s : State) (j : Nat) (f : Job → Job) : (s.modJob j f).flashA = s.flashA := rfl
@[simp] theorem State.modJob_flashB (s : State) (j : Nat) (f : Job → Job) : (s.modJob j f).flashB = s.flashB := rfl
@[simp] theorem State.modJob_settings (s : State) (j : Nat) (f : Job → Job) : (s.modJob j f).settings = s.settings := rfl
@[simp] theorem State.modJob_ilvSet (s : State) (j : Nat) (f : Job → Job) : (s.modJob j f).ilvSet = s.ilvSet := rfl
@[simp] theorem State.modJob_log (s : State) (j : Nat) (f : Job → Job) : (s.modJob j f).log = s.log := rfl
@[simp] theorem State.modJob_fuses (s : State) (j : Nat) (f : Job → Job) : (s.modJob j f).fuses = s.fuses := rfl
@[simp] theorem State.modJob_repairs (s : State) (j : Nat) (f : Job → Job) : (s.modJob j f).repairs = s.repairs := rfl
@[simp] theorem State.modJob_fieldRows (s : State) (j : Nat) (f : Job → Job) : (s.modJob j f).fieldRows = s.fieldRows := rfl
@[simp] theorem State.modJob_scrub (s : State) (j : Nat) (f : Job → Job) : (s.modJob j f).scrub = s.scrub := rfl
@[simp] theorem State.modJob_repairing (s : State) (j : Nat) (f : Job → Job) : (s.modJob j f).repairing = s.repairing := rfl
@[simp] theorem State.modJob_rowWait (s : State) (j : Nat) (f : Job → Job) : (s.modJob j f).rowWait = s.rowWait := rfl
@[simp] theorem State.modJob_tap (s : State) (j : Nat) (f : Job → Job) : (s.modJob j f).tap = s.tap := rfl
@[simp] theorem State.modJob_tapDr (s : State) (j : Nat) (f : Job → Job) : (s.modJob j f).tapDr = s.tapDr := rfl
@[simp] theorem State.modJob_freeCtr (s : State) (j : Nat) (f : Job → Job) : (s.modJob j f).freeCtr = s.freeCtr := rfl
@[simp] theorem State.modJob_rngCtr (s : State) (j : Nat) (f : Job → Job) : (s.modJob j f).rngCtr = s.rngCtr := rfl
@[simp] theorem State.modJob_pending (s : State) (j : Nat) (f : Job → Job) : (s.modJob j f).pending = s.pending := rfl

/-! modSwarm writes the field swarms alone. -/

@[simp] theorem State.modSwarm_regs (s : State) (e : Nat) (f : Swarm → Swarm) : (s.modSwarm e f).regs = s.regs := rfl
@[simp] theorem State.modSwarm_power (s : State) (e : Nat) (f : Swarm → Swarm) : (s.modSwarm e f).power = s.power := rfl
@[simp] theorem State.modSwarm_pins (s : State) (e : Nat) (f : Swarm → Swarm) : (s.modSwarm e f).pins = s.pins := rfl
@[simp] theorem State.modSwarm_usec (s : State) (e : Nat) (f : Swarm → Swarm) : (s.modSwarm e f).usec = s.usec := rfl
@[simp] theorem State.modSwarm_strapAt (s : State) (e : Nat) (f : Swarm → Swarm) : (s.modSwarm e f).strapAt = s.strapAt := rfl
@[simp] theorem State.modSwarm_svcStop (s : State) (e : Nat) (f : Swarm → Swarm) : (s.modSwarm e f).svcStop = s.svcStop := rfl
@[simp] theorem State.modSwarm_heldReset (s : State) (e : Nat) (f : Swarm → Swarm) : (s.modSwarm e f).heldReset = s.heldReset := rfl
@[simp] theorem State.modSwarm_uart (s : State) (e : Nat) (f : Swarm → Swarm) : (s.modSwarm e f).uart = s.uart := rfl
@[simp] theorem State.modSwarm_ibi (s : State) (e : Nat) (f : Swarm → Swarm) : (s.modSwarm e f).ibi = s.ibi := rfl
@[simp] theorem State.modSwarm_sensors (s : State) (e : Nat) (f : Swarm → Swarm) : (s.modSwarm e f).sensors = s.sensors := rfl
@[simp] theorem State.modSwarm_closed (s : State) (e : Nat) (f : Swarm → Swarm) : (s.modSwarm e f).closed = s.closed := rfl
@[simp] theorem State.modSwarm_cores (s : State) (e : Nat) (f : Swarm → Swarm) : (s.modSwarm e f).cores = s.cores := rfl
@[simp] theorem State.modSwarm_mem (s : State) (e : Nat) (f : Swarm → Swarm) : (s.modSwarm e f).mem = s.mem := rfl
@[simp] theorem State.modSwarm_psn (s : State) (e : Nat) (f : Swarm → Swarm) : (s.modSwarm e f).psn = s.psn := rfl
@[simp] theorem State.modSwarm_latent (s : State) (e : Nat) (f : Swarm → Swarm) : (s.modSwarm e f).latent = s.latent := rfl
@[simp] theorem State.modSwarm_upsets (s : State) (e : Nat) (f : Swarm → Swarm) : (s.modSwarm e f).upsets = s.upsets := rfl
@[simp] theorem State.modSwarm_queues (s : State) (e : Nat) (f : Swarm → Swarm) : (s.modSwarm e f).queues = s.queues := rfl
@[simp] theorem State.modSwarm_errqSet (s : State) (e : Nat) (f : Swarm → Swarm) : (s.modSwarm e f).errqSet = s.errqSet := rfl
@[simp] theorem State.modSwarm_res (s : State) (e : Nat) (f : Swarm → Swarm) : (s.modSwarm e f).res = s.res := rfl
@[simp] theorem State.modSwarm_sems (s : State) (e : Nat) (f : Swarm → Swarm) : (s.modSwarm e f).sems = s.sems := rfl
@[simp] theorem State.modSwarm_ctxs (s : State) (e : Nat) (f : Swarm → Swarm) : (s.modSwarm e f).ctxs = s.ctxs := rfl
@[simp] theorem State.modSwarm_links (s : State) (e : Nat) (f : Swarm → Swarm) : (s.modSwarm e f).links = s.links := rfl
@[simp] theorem State.modSwarm_routes (s : State) (e : Nat) (f : Swarm → Swarm) : (s.modSwarm e f).routes = s.routes := rfl
@[simp] theorem State.modSwarm_routeMark (s : State) (e : Nat) (f : Swarm → Swarm) : (s.modSwarm e f).routeMark = s.routeMark := rfl
@[simp] theorem State.modSwarm_mcast (s : State) (e : Nat) (f : Swarm → Swarm) : (s.modSwarm e f).mcast = s.mcast := rfl
@[simp] theorem State.modSwarm_mcastStg (s : State) (e : Nat) (f : Swarm → Swarm) : (s.modSwarm e f).mcastStg = s.mcastStg := rfl
@[simp] theorem State.modSwarm_requests (s : State) (e : Nat) (f : Swarm → Swarm) : (s.modSwarm e f).requests = s.requests := rfl
@[simp] theorem State.modSwarm_unsent (s : State) (e : Nat) (f : Swarm → Swarm) : (s.modSwarm e f).unsent = s.unsent := rfl
@[simp] theorem State.modSwarm_nextTag (s : State) (e : Nat) (f : Swarm → Swarm) : (s.modSwarm e f).nextTag = s.nextTag := rfl
@[simp] theorem State.modSwarm_inbox (s : State) (e : Nat) (f : Swarm → Swarm) : (s.modSwarm e f).inbox = s.inbox := rfl
@[simp] theorem State.modSwarm_imgLink (s : State) (e : Nat) (f : Swarm → Swarm) : (s.modSwarm e f).imgLink = s.imgLink := rfl
@[simp] theorem State.modSwarm_imgTried (s : State) (e : Nat) (f : Swarm → Swarm) : (s.modSwarm e f).imgTried = s.imgTried := rfl
@[simp] theorem State.modSwarm_jobs (s : State) (e : Nat) (f : Swarm → Swarm) : (s.modSwarm e f).jobs = s.jobs := rfl
@[simp] theorem State.modSwarm_copies (s : State) (e : Nat) (f : Swarm → Swarm) : (s.modSwarm e f).copies = s.copies := rfl
@[simp] theorem State.modSwarm_touchWait (s : State) (e : Nat) (f : Swarm → Swarm) : (s.modSwarm e f).touchWait = s.touchWait := rfl
@[simp] theorem State.modSwarm_jtlb (s : State) (e : Nat) (f : Swarm → Swarm) : (s.modSwarm e f).jtlb = s.jtlb := rfl
@[simp] theorem State.modSwarm_jrootUse (s : State) (e : Nat) (f : Swarm → Swarm) : (s.modSwarm e f).jrootUse = s.jrootUse := rfl
@[simp] theorem State.modSwarm_resolving (s : State) (e : Nat) (f : Swarm → Swarm) : (s.modSwarm e f).resolving = s.resolving := rfl
@[simp] theorem State.modSwarm_stepCyc (s : State) (e : Nat) (f : Swarm → Swarm) : (s.modSwarm e f).stepCyc = s.stepCyc := rfl
@[simp] theorem State.modSwarm_stepCmd (s : State) (e : Nat) (f : Swarm → Swarm) : (s.modSwarm e f).stepCmd = s.stepCmd := rfl
@[simp] theorem State.modSwarm_sums (s : State) (e : Nat) (f : Swarm → Swarm) : (s.modSwarm e f).sums = s.sums := rfl
@[simp] theorem State.modSwarm_ebud (s : State) (e : Nat) (f : Swarm → Swarm) : (s.modSwarm e f).ebud = s.ebud := rfl
@[simp] theorem State.modSwarm_pdie (s : State) (e : Nat) (f : Swarm → Swarm) : (s.modSwarm e f).pdie = s.pdie := rfl
@[simp] theorem State.modSwarm_eref (s : State) (e : Nat) (f : Swarm → Swarm) : (s.modSwarm e f).eref = s.eref := rfl
@[simp] theorem State.modSwarm_phist (s : State) (e : Nat) (f : Swarm → Swarm) : (s.modSwarm e f).phist = s.phist := rfl
@[simp] theorem State.modSwarm_throttle (s : State) (e : Nat) (f : Swarm → Swarm) : (s.modSwarm e f).throttle = s.throttle := rfl
@[simp] theorem State.modSwarm_overCap (s : State) (e : Nat) (f : Swarm → Swarm) : (s.modSwarm e f).overCap = s.overCap := rfl
@[simp] theorem State.modSwarm_ports (s : State) (e : Nat) (f : Swarm → Swarm) : (s.modSwarm e f).ports = s.ports := rfl
@[simp] theorem State.modSwarm_bpDone (s : State) (e : Nat) (f : Swarm → Swarm) : (s.modSwarm e f).bpDone = s.bpDone := rfl
@[simp] theorem State.modSwarm_linkTrain (s : State) (e : Nat) (f : Swarm → Swarm) : (s.modSwarm e f).linkTrain = s.linkTrain := rfl
@[simp] theorem State.modSwarm_j1Lanes (s : State) (e : Nat) (f : Swarm → Swarm) : (s.modSwarm e f).j1Lanes = s.j1Lanes := rfl
@[simp] theorem State.modSwarm_hdmBase (s : State) (e : Nat) (f : Swarm → Swarm) : (s.modSwarm e f).hdmBase = s.hdmBase := rfl
@[simp] theorem State.modSwarm_msixMask (s : State) (e : Nat) (f : Swarm → Swarm) : (s.modSwarm e f).msixMask = s.msixMask := rfl
@[simp] theorem State.modSwarm_msixPend (s : State) (e : Nat) (f : Swarm → Swarm) : (s.modSwarm e f).msixPend = s.msixPend := rfl
@[simp] theorem State.modSwarm_msixSent (s : State) (e : Nat) (f : Swarm → Swarm) : (s.modSwarm e f).msixSent = s.msixSent := rfl
@[simp] theorem State.modSwarm_hostOut (s : State) (e : Nat) (f : Swarm → Swarm) : (s.modSwarm e f).hostOut = s.hostOut := rfl
@[simp] theorem State.modSwarm_hostRead (s : State) (e : Nat) (f : Swarm → Swarm) : (s.modSwarm e f).hostRead = s.hostRead := rfl
@[simp] theorem State.modSwarm_snoop (s : State) (e : Nat) (f : Swarm → Swarm) : (s.modSwarm e f).snoop = s.snoop := rfl
@[simp] theorem State.modSwarm_biWait (s : State) (e : Nat) (f : Swarm → Swarm) : (s.modSwarm e f).biWait = s.biWait := rfl
@[simp] theorem State.modSwarm_bursts (s : State) (e : Nat) (f : Swarm → Swarm) : (s.modSwarm e f).bursts = s.bursts := rfl
@[simp] theorem State.modSwarm_drecWait (s : State) (e : Nat) (f : Swarm → Swarm) : (s.modSwarm e f).drecWait = s.drecWait := rfl
@[simp] theorem State.modSwarm_restWait (s : State) (e : Nat) (f : Swarm → Swarm) : (s.modSwarm e f).restWait = s.restWait := rfl
@[simp] theorem State.modSwarm_hostLines (s : State) (e : Nat) (f : Swarm → Swarm) : (s.modSwarm e f).hostLines = s.hostLines := rfl
@[simp] theorem State.modSwarm_memWait (s : State) (e : Nat) (f : Swarm → Swarm) : (s.modSwarm e f).memWait = s.memWait := rfl
@[simp] theorem State.modSwarm_hostCfg (s : State) (e : Nat) (f : Swarm → Swarm) : (s.modSwarm e f).hostCfg = s.hostCfg := rfl
@[simp] theorem State.modSwarm_boxH (s : State) (e : Nat) (f : Swarm → Swarm) : (s.modSwarm e f).boxH = s.boxH := rfl
@[simp] theorem State.modSwarm_boxM (s : State) (e : Nat) (f : Swarm → Swarm) : (s.modSwarm e f).boxM = s.boxM := rfl
@[simp] theorem State.modSwarm_buf (s : State) (e : Nat) (f : Swarm → Swarm) : (s.modSwarm e f).buf = s.buf := rfl
@[simp] theorem State.modSwarm_session (s : State) (e : Nat) (f : Swarm → Swarm) : (s.modSwarm e f).session = s.session := rfl
@[simp] theorem State.modSwarm_running (s : State) (e : Nat) (f : Swarm → Swarm) : (s.modSwarm e f).running = s.running := rfl
@[simp] theorem State.modSwarm_runHdr (s : State) (e : Nat) (f : Swarm → Swarm) : (s.modSwarm e f).runHdr = s.runHdr := rfl
@[simp] theorem State.modSwarm_flyDown (s : State) (e : Nat) (f : Swarm → Swarm) : (s.modSwarm e f).flyDown = s.flyDown := rfl
@[simp] theorem State.modSwarm_activating (s : State) (e : Nat) (f : Swarm → Swarm) : (s.modSwarm e f).activating = s.activating := rfl
@[simp] theorem State.modSwarm_dynAddr (s : State) (e : Nat) (f : Swarm → Swarm) : (s.modSwarm e f).dynAddr = s.dynAddr := rfl
@[simp] theorem State.modSwarm_idKeys (s : State) (e : Nat) (f : Swarm → Swarm) : (s.modSwarm e f).idKeys = s.idKeys := rfl
@[simp] theorem State.modSwarm_flashA (s : State) (e : Nat) (f : Swarm → Swarm) : (s.modSwarm e f).flashA = s.flashA := rfl
@[simp] theorem State.modSwarm_flashB (s : State) (e : Nat) (f : Swarm → Swarm) : (s.modSwarm e f).flashB = s.flashB := rfl
@[simp] theorem State.modSwarm_settings (s : State) (e : Nat) (f : Swarm → Swarm) : (s.modSwarm e f).settings = s.settings := rfl
@[simp] theorem State.modSwarm_ilvSet (s : State) (e : Nat) (f : Swarm → Swarm) : (s.modSwarm e f).ilvSet = s.ilvSet := rfl
@[simp] theorem State.modSwarm_log (s : State) (e : Nat) (f : Swarm → Swarm) : (s.modSwarm e f).log = s.log := rfl
@[simp] theorem State.modSwarm_fuses (s : State) (e : Nat) (f : Swarm → Swarm) : (s.modSwarm e f).fuses = s.fuses := rfl
@[simp] theorem State.modSwarm_repairs (s : State) (e : Nat) (f : Swarm → Swarm) : (s.modSwarm e f).repairs = s.repairs := rfl
@[simp] theorem State.modSwarm_fieldRows (s : State) (e : Nat) (f : Swarm → Swarm) : (s.modSwarm e f).fieldRows = s.fieldRows := rfl
@[simp] theorem State.modSwarm_scrub (s : State) (e : Nat) (f : Swarm → Swarm) : (s.modSwarm e f).scrub = s.scrub := rfl
@[simp] theorem State.modSwarm_repairing (s : State) (e : Nat) (f : Swarm → Swarm) : (s.modSwarm e f).repairing = s.repairing := rfl
@[simp] theorem State.modSwarm_rowWait (s : State) (e : Nat) (f : Swarm → Swarm) : (s.modSwarm e f).rowWait = s.rowWait := rfl
@[simp] theorem State.modSwarm_tap (s : State) (e : Nat) (f : Swarm → Swarm) : (s.modSwarm e f).tap = s.tap := rfl
@[simp] theorem State.modSwarm_tapDr (s : State) (e : Nat) (f : Swarm → Swarm) : (s.modSwarm e f).tapDr = s.tapDr := rfl
@[simp] theorem State.modSwarm_freeCtr (s : State) (e : Nat) (f : Swarm → Swarm) : (s.modSwarm e f).freeCtr = s.freeCtr := rfl
@[simp] theorem State.modSwarm_rngCtr (s : State) (e : Nat) (f : Swarm → Swarm) : (s.modSwarm e f).rngCtr = s.rngCtr := rfl
@[simp] theorem State.modSwarm_pending (s : State) (e : Nat) (f : Swarm → Swarm) : (s.modSwarm e f).pending = s.pending := rfl

/-! setPort writes the field ports alone. -/

@[simp] theorem State.setPort_regs (s : State) (p : Nat) (x : Port) : (s.setPort p x).regs = s.regs := rfl
@[simp] theorem State.setPort_power (s : State) (p : Nat) (x : Port) : (s.setPort p x).power = s.power := rfl
@[simp] theorem State.setPort_pins (s : State) (p : Nat) (x : Port) : (s.setPort p x).pins = s.pins := rfl
@[simp] theorem State.setPort_usec (s : State) (p : Nat) (x : Port) : (s.setPort p x).usec = s.usec := rfl
@[simp] theorem State.setPort_strapAt (s : State) (p : Nat) (x : Port) : (s.setPort p x).strapAt = s.strapAt := rfl
@[simp] theorem State.setPort_svcStop (s : State) (p : Nat) (x : Port) : (s.setPort p x).svcStop = s.svcStop := rfl
@[simp] theorem State.setPort_heldReset (s : State) (p : Nat) (x : Port) : (s.setPort p x).heldReset = s.heldReset := rfl
@[simp] theorem State.setPort_uart (s : State) (p : Nat) (x : Port) : (s.setPort p x).uart = s.uart := rfl
@[simp] theorem State.setPort_ibi (s : State) (p : Nat) (x : Port) : (s.setPort p x).ibi = s.ibi := rfl
@[simp] theorem State.setPort_sensors (s : State) (p : Nat) (x : Port) : (s.setPort p x).sensors = s.sensors := rfl
@[simp] theorem State.setPort_closed (s : State) (p : Nat) (x : Port) : (s.setPort p x).closed = s.closed := rfl
@[simp] theorem State.setPort_cores (s : State) (p : Nat) (x : Port) : (s.setPort p x).cores = s.cores := rfl
@[simp] theorem State.setPort_mem (s : State) (p : Nat) (x : Port) : (s.setPort p x).mem = s.mem := rfl
@[simp] theorem State.setPort_psn (s : State) (p : Nat) (x : Port) : (s.setPort p x).psn = s.psn := rfl
@[simp] theorem State.setPort_latent (s : State) (p : Nat) (x : Port) : (s.setPort p x).latent = s.latent := rfl
@[simp] theorem State.setPort_upsets (s : State) (p : Nat) (x : Port) : (s.setPort p x).upsets = s.upsets := rfl
@[simp] theorem State.setPort_queues (s : State) (p : Nat) (x : Port) : (s.setPort p x).queues = s.queues := rfl
@[simp] theorem State.setPort_errqSet (s : State) (p : Nat) (x : Port) : (s.setPort p x).errqSet = s.errqSet := rfl
@[simp] theorem State.setPort_res (s : State) (p : Nat) (x : Port) : (s.setPort p x).res = s.res := rfl
@[simp] theorem State.setPort_sems (s : State) (p : Nat) (x : Port) : (s.setPort p x).sems = s.sems := rfl
@[simp] theorem State.setPort_ctxs (s : State) (p : Nat) (x : Port) : (s.setPort p x).ctxs = s.ctxs := rfl
@[simp] theorem State.setPort_links (s : State) (p : Nat) (x : Port) : (s.setPort p x).links = s.links := rfl
@[simp] theorem State.setPort_routes (s : State) (p : Nat) (x : Port) : (s.setPort p x).routes = s.routes := rfl
@[simp] theorem State.setPort_routeMark (s : State) (p : Nat) (x : Port) : (s.setPort p x).routeMark = s.routeMark := rfl
@[simp] theorem State.setPort_mcast (s : State) (p : Nat) (x : Port) : (s.setPort p x).mcast = s.mcast := rfl
@[simp] theorem State.setPort_mcastStg (s : State) (p : Nat) (x : Port) : (s.setPort p x).mcastStg = s.mcastStg := rfl
@[simp] theorem State.setPort_requests (s : State) (p : Nat) (x : Port) : (s.setPort p x).requests = s.requests := rfl
@[simp] theorem State.setPort_unsent (s : State) (p : Nat) (x : Port) : (s.setPort p x).unsent = s.unsent := rfl
@[simp] theorem State.setPort_nextTag (s : State) (p : Nat) (x : Port) : (s.setPort p x).nextTag = s.nextTag := rfl
@[simp] theorem State.setPort_inbox (s : State) (p : Nat) (x : Port) : (s.setPort p x).inbox = s.inbox := rfl
@[simp] theorem State.setPort_imgLink (s : State) (p : Nat) (x : Port) : (s.setPort p x).imgLink = s.imgLink := rfl
@[simp] theorem State.setPort_imgTried (s : State) (p : Nat) (x : Port) : (s.setPort p x).imgTried = s.imgTried := rfl
@[simp] theorem State.setPort_jobs (s : State) (p : Nat) (x : Port) : (s.setPort p x).jobs = s.jobs := rfl
@[simp] theorem State.setPort_swarms (s : State) (p : Nat) (x : Port) : (s.setPort p x).swarms = s.swarms := rfl
@[simp] theorem State.setPort_copies (s : State) (p : Nat) (x : Port) : (s.setPort p x).copies = s.copies := rfl
@[simp] theorem State.setPort_touchWait (s : State) (p : Nat) (x : Port) : (s.setPort p x).touchWait = s.touchWait := rfl
@[simp] theorem State.setPort_jtlb (s : State) (p : Nat) (x : Port) : (s.setPort p x).jtlb = s.jtlb := rfl
@[simp] theorem State.setPort_jrootUse (s : State) (p : Nat) (x : Port) : (s.setPort p x).jrootUse = s.jrootUse := rfl
@[simp] theorem State.setPort_resolving (s : State) (p : Nat) (x : Port) : (s.setPort p x).resolving = s.resolving := rfl
@[simp] theorem State.setPort_stepCyc (s : State) (p : Nat) (x : Port) : (s.setPort p x).stepCyc = s.stepCyc := rfl
@[simp] theorem State.setPort_stepCmd (s : State) (p : Nat) (x : Port) : (s.setPort p x).stepCmd = s.stepCmd := rfl
@[simp] theorem State.setPort_sums (s : State) (p : Nat) (x : Port) : (s.setPort p x).sums = s.sums := rfl
@[simp] theorem State.setPort_ebud (s : State) (p : Nat) (x : Port) : (s.setPort p x).ebud = s.ebud := rfl
@[simp] theorem State.setPort_pdie (s : State) (p : Nat) (x : Port) : (s.setPort p x).pdie = s.pdie := rfl
@[simp] theorem State.setPort_eref (s : State) (p : Nat) (x : Port) : (s.setPort p x).eref = s.eref := rfl
@[simp] theorem State.setPort_phist (s : State) (p : Nat) (x : Port) : (s.setPort p x).phist = s.phist := rfl
@[simp] theorem State.setPort_throttle (s : State) (p : Nat) (x : Port) : (s.setPort p x).throttle = s.throttle := rfl
@[simp] theorem State.setPort_overCap (s : State) (p : Nat) (x : Port) : (s.setPort p x).overCap = s.overCap := rfl
@[simp] theorem State.setPort_bpDone (s : State) (p : Nat) (x : Port) : (s.setPort p x).bpDone = s.bpDone := rfl
@[simp] theorem State.setPort_linkTrain (s : State) (p : Nat) (x : Port) : (s.setPort p x).linkTrain = s.linkTrain := rfl
@[simp] theorem State.setPort_j1Lanes (s : State) (p : Nat) (x : Port) : (s.setPort p x).j1Lanes = s.j1Lanes := rfl
@[simp] theorem State.setPort_hdmBase (s : State) (p : Nat) (x : Port) : (s.setPort p x).hdmBase = s.hdmBase := rfl
@[simp] theorem State.setPort_msixMask (s : State) (p : Nat) (x : Port) : (s.setPort p x).msixMask = s.msixMask := rfl
@[simp] theorem State.setPort_msixPend (s : State) (p : Nat) (x : Port) : (s.setPort p x).msixPend = s.msixPend := rfl
@[simp] theorem State.setPort_msixSent (s : State) (p : Nat) (x : Port) : (s.setPort p x).msixSent = s.msixSent := rfl
@[simp] theorem State.setPort_hostOut (s : State) (p : Nat) (x : Port) : (s.setPort p x).hostOut = s.hostOut := rfl
@[simp] theorem State.setPort_hostRead (s : State) (p : Nat) (x : Port) : (s.setPort p x).hostRead = s.hostRead := rfl
@[simp] theorem State.setPort_snoop (s : State) (p : Nat) (x : Port) : (s.setPort p x).snoop = s.snoop := rfl
@[simp] theorem State.setPort_biWait (s : State) (p : Nat) (x : Port) : (s.setPort p x).biWait = s.biWait := rfl
@[simp] theorem State.setPort_bursts (s : State) (p : Nat) (x : Port) : (s.setPort p x).bursts = s.bursts := rfl
@[simp] theorem State.setPort_drecWait (s : State) (p : Nat) (x : Port) : (s.setPort p x).drecWait = s.drecWait := rfl
@[simp] theorem State.setPort_restWait (s : State) (p : Nat) (x : Port) : (s.setPort p x).restWait = s.restWait := rfl
@[simp] theorem State.setPort_hostLines (s : State) (p : Nat) (x : Port) : (s.setPort p x).hostLines = s.hostLines := rfl
@[simp] theorem State.setPort_memWait (s : State) (p : Nat) (x : Port) : (s.setPort p x).memWait = s.memWait := rfl
@[simp] theorem State.setPort_hostCfg (s : State) (p : Nat) (x : Port) : (s.setPort p x).hostCfg = s.hostCfg := rfl
@[simp] theorem State.setPort_boxH (s : State) (p : Nat) (x : Port) : (s.setPort p x).boxH = s.boxH := rfl
@[simp] theorem State.setPort_boxM (s : State) (p : Nat) (x : Port) : (s.setPort p x).boxM = s.boxM := rfl
@[simp] theorem State.setPort_buf (s : State) (p : Nat) (x : Port) : (s.setPort p x).buf = s.buf := rfl
@[simp] theorem State.setPort_session (s : State) (p : Nat) (x : Port) : (s.setPort p x).session = s.session := rfl
@[simp] theorem State.setPort_running (s : State) (p : Nat) (x : Port) : (s.setPort p x).running = s.running := rfl
@[simp] theorem State.setPort_runHdr (s : State) (p : Nat) (x : Port) : (s.setPort p x).runHdr = s.runHdr := rfl
@[simp] theorem State.setPort_flyDown (s : State) (p : Nat) (x : Port) : (s.setPort p x).flyDown = s.flyDown := rfl
@[simp] theorem State.setPort_activating (s : State) (p : Nat) (x : Port) : (s.setPort p x).activating = s.activating := rfl
@[simp] theorem State.setPort_dynAddr (s : State) (p : Nat) (x : Port) : (s.setPort p x).dynAddr = s.dynAddr := rfl
@[simp] theorem State.setPort_idKeys (s : State) (p : Nat) (x : Port) : (s.setPort p x).idKeys = s.idKeys := rfl
@[simp] theorem State.setPort_flashA (s : State) (p : Nat) (x : Port) : (s.setPort p x).flashA = s.flashA := rfl
@[simp] theorem State.setPort_flashB (s : State) (p : Nat) (x : Port) : (s.setPort p x).flashB = s.flashB := rfl
@[simp] theorem State.setPort_settings (s : State) (p : Nat) (x : Port) : (s.setPort p x).settings = s.settings := rfl
@[simp] theorem State.setPort_ilvSet (s : State) (p : Nat) (x : Port) : (s.setPort p x).ilvSet = s.ilvSet := rfl
@[simp] theorem State.setPort_log (s : State) (p : Nat) (x : Port) : (s.setPort p x).log = s.log := rfl
@[simp] theorem State.setPort_fuses (s : State) (p : Nat) (x : Port) : (s.setPort p x).fuses = s.fuses := rfl
@[simp] theorem State.setPort_repairs (s : State) (p : Nat) (x : Port) : (s.setPort p x).repairs = s.repairs := rfl
@[simp] theorem State.setPort_fieldRows (s : State) (p : Nat) (x : Port) : (s.setPort p x).fieldRows = s.fieldRows := rfl
@[simp] theorem State.setPort_scrub (s : State) (p : Nat) (x : Port) : (s.setPort p x).scrub = s.scrub := rfl
@[simp] theorem State.setPort_repairing (s : State) (p : Nat) (x : Port) : (s.setPort p x).repairing = s.repairing := rfl
@[simp] theorem State.setPort_rowWait (s : State) (p : Nat) (x : Port) : (s.setPort p x).rowWait = s.rowWait := rfl
@[simp] theorem State.setPort_tap (s : State) (p : Nat) (x : Port) : (s.setPort p x).tap = s.tap := rfl
@[simp] theorem State.setPort_tapDr (s : State) (p : Nat) (x : Port) : (s.setPort p x).tapDr = s.tapDr := rfl
@[simp] theorem State.setPort_freeCtr (s : State) (p : Nat) (x : Port) : (s.setPort p x).freeCtr = s.freeCtr := rfl
@[simp] theorem State.setPort_rngCtr (s : State) (p : Nat) (x : Port) : (s.setPort p x).rngCtr = s.rngCtr := rfl
@[simp] theorem State.setPort_pending (s : State) (p : Nat) (x : Port) : (s.setPort p x).pending = s.pending := rfl

/-! What the updates write. -/

@[simp] theorem State.core_setCore (s : State) (n : Nat) (c : Core) : (s.setCore n c).core n = c := by
  simp [State.core, State.setCore]
theorem State.core_setCore_ne (s : State) (n m : Nat) (c : Core) (h : m ≠ n) : (s.setCore n c).core m = s.core m :=
  look_put_ne _ _ _ _ _ h
@[simp] theorem State.core_modCore (s : State) (n : Nat) (f : Core → Core) : (s.modCore n f).core n = f (s.core n) :=
  s.core_setCore n _
theorem State.core_modCore_ne (s : State) (n m : Nat) (f : Core → Core) (h : m ≠ n) : (s.modCore n f).core m = s.core m :=
  s.core_setCore_ne n m _ h
@[simp] theorem State.setCore_setCore (s : State) (n : Nat) (c d : Core) : (s.setCore n c).setCore n d = s.setCore n d := by
  simp [State.setCore]
@[simp] theorem State.modCore_modCore (s : State) (n : Nat) (f g : Core → Core) :
    (s.modCore n f).modCore n g = s.modCore n (fun c => g (f c)) := by
  simp [State.modCore]
@[simp] theorem State.reg_setReg (s : State) (o : Nat) (v : W32) : (s.setReg o v).reg o = v := by
  simp [State.reg, State.setReg]
theorem State.reg_setReg_ne (s : State) (o p : Nat) (v : W32) (h : p ≠ o) : (s.setReg o v).reg p = s.reg p :=
  look_put_ne_default _ _ _ _ _ _ h
theorem State.reg_setFldReg_ne (s : State) (o lo len v p : Nat) (h : p ≠ o) : (s.setFldReg o lo len v).reg p = s.reg p :=
  s.reg_setReg_ne o p _ h
@[simp] theorem Memory.byte_setByte (m : Memory) (b : Nat) (v : Byte) : (m.setByte b v).byte b = v := by
  have h : (m.setByte b v).unwritten b = m.unwritten b := rfl
  simp [Memory.byte, h]
  simp [Memory.setByte]
theorem Memory.byte_setByte_ne (m : Memory) (a b : Nat) (v : Byte) (h : a ≠ b) : (m.setByte b v).byte a = m.byte a := by
  have hu : (m.setByte b v).unwritten a = m.unwritten a := rfl
  unfold Memory.byte
  rw [hu]
  exact congrArg (· ^^^ m.unwritten a) (look_put_ne _ _ _ _ _ h)
@[simp] theorem State.byte_setByte (s : State) (b : Nat) (v : Byte) : (s.setByte b v).byte b = v := s.mem.byte_setByte b v
theorem State.byte_setByte_ne (s : State) (a b : Nat) (v : Byte) (h : a ≠ b) : (s.setByte b v).byte a = s.byte a :=
  s.mem.byte_setByte_ne a b v h
@[simp] theorem State.sem_setSem (s : State) (k : Nat) (q : Sem) : (s.setSem k q).sem k = q := by
  simp [State.sem, State.setSem]
theorem State.sem_setSem_ne (s : State) (k j : Nat) (q : Sem) (h : j ≠ k) : (s.setSem k q).sem j = s.sem j :=
  look_put_ne _ _ _ _ _ h
@[simp] theorem State.ctx_setCtx (s : State) (b : Nat) (c : Ctx) : (s.setCtx b c).ctx b = c := by
  simp [State.ctx, State.setCtx]
@[simp] theorem State.link_modLink (s : State) (l : Nat) (f : Link → Link) : (s.modLink l f).link l = f (s.link l) := by
  simp [State.link, State.modLink]
@[simp] theorem State.job_modJob (s : State) (j : Nat) (f : Job → Job) : (s.modJob j f).job j = f (s.job j) := by
  simp [State.job, State.modJob]
@[simp] theorem State.swarm_modSwarm (s : State) (e : Nat) (f : Swarm → Swarm) : (s.modSwarm e f).swarm e = f (s.swarm e) := by
  simp [State.swarm, State.modSwarm]
@[simp] theorem State.port_setPort (s : State) (p : Nat) (x : Port) : (s.setPort p x).port p = x := by
  simp [State.port, State.setPort]

/-! ## Memory keeps its canonical form (R5) -/

theorem Memory.wf_setByte (m : Memory) (b : Nat) (v : Byte) (h : Memory.wf m = true) : Memory.wf (m.setByte b v) = true :=
  storeWf_put (fun _ => 0) m.cells b _ h
theorem Memory.wf_filter (m : Memory) (p : Host.Cell → Bool) (k : Option Nat) (h : Memory.wf m = true) :
    Memory.wf { cells := m.cells.filter p, trained := k } = true :=
  storeWf_filter (fun _ => 0) p m.cells h
theorem State.setByte_wf (s : State) (b : Nat) (v : Byte) (h : Memory.wf s.mem = true) : Memory.wf (s.setByte b v).mem = true :=
  Memory.wf_setByte s.mem b v h
theorem State.setWord_wf (s : State) (a : Nat) (v : Word) (h : Memory.wf s.mem = true) : Memory.wf (s.setWord a v).mem = true :=
  State.setByte_wf _ _ _ (State.setByte_wf s _ _ h)

/-- What every step of a fold keeps, the fold keeps. -/
theorem foldl_keeps {α : Type} (P : State → Prop) (f : State → α → State) (hf : ∀ s x, P s → P (f s x)) (l : List α) (s : State)
    (h : P s) : P (l.foldl f s) := by
  induction l generalizing s with
  | nil => exact h
  | cons x r ih => exact ih _ (hf s x h)

/-- What every step of a fold leaves as it is, the fold leaves as it is. -/
theorem foldl_same {α β : Type} (p : State → β) (f : State → α → State) (hf : ∀ s x, p (f s x) = p s) (l : List α) (s : State) :
    p (l.foldl f s) = p s := by
  induction l generalizing s with
  | nil => rfl
  | cons x r ih => exact (ih _).trans (hf s x)

end Sys2Proof.Machine
end

