-- ==== Sys2Proof/Laws/Mem.lean ====
section
/-! SUPPORT. Sys2Proof/Laws/Mem.lean: memory: a read after a write, what a write leaves alone, and the canonical form under every
operation that writes memory. -/

namespace Sys2Proof.Machine

open Sys2Proof.Laws

/-! ## Bytes and words -/

/-- A word reads as it was written. -/
@[simp] theorem State.word_setWord_same (s : State) (a : Nat) (v : Word) : (s.setWord a v).word a = v := by
  have h : (s.setWord a v).byte (2 * a) = v.extractLsb' 0 8 := by
    unfold State.setWord
    rw [State.byte_setByte_ne _ _ _ _ (by omega), State.byte_setByte]
  unfold State.word
  rw [h]
  unfold State.setWord
  rw [State.byte_setByte]
  apply BitVec.eq_of_getLsbD_eq
  intro i hi
  rw [BitVec.getLsbD_append]
  split
  · simp_all
  · simp only [BitVec.getLsbD_extractLsb']
    rw [show 8 + (i - 8) = i by omega]
    simp only [Bool.and_eq_right_iff_imp, decide_eq_true_eq]
    omega

/-- Writing a word leaves every byte outside it alone. -/
theorem State.byte_setWord_ne (s : State) (a b : Nat) (v : Word) (h : b / 2 ≠ a) : (s.setWord a v).byte b = s.byte b := by
  unfold State.setWord
  rw [State.byte_setByte_ne _ _ _ _ (by omega), State.byte_setByte_ne _ _ _ _ (by omega)]

/-- Writing a word leaves every other word alone. -/
theorem State.word_setWord_ne (s : State) (a b : Nat) (v : Word) (h : b ≠ a) : (s.setWord a v).word b = s.word b := by
  unfold State.word
  rw [State.byte_setWord_ne _ _ _ _ (by omega), State.byte_setWord_ne _ _ _ _ (by omega)]

/-! ## Reads -/

@[simp] theorem State.msix_mem (s : State) (v : Nat) : (s.msix v).mem = s.mem := by unfold State.msix; split <;> rfl
@[simp] theorem State.orRise_mem (s t : State) : (State.orRise s t).mem = t.mem := by unfold State.orRise; split <;> simp

/-- An operation under withIrq writes the memory that the operation itself writes. -/
theorem withIrq_mem (p : Page) (f : State → State) (s : State) : (withIrq p f s).mem = (f s).mem := by unfold withIrq; simp

@[simp] theorem State.logEvent_mem (s : State) (a : Nat) (ue : Bool) : (s.logEvent a ue).mem = s.mem := by
  unfold State.logEvent
  rw [withIrq_mem]
  split
  · rfl
  · split <;> rfl

@[simp] theorem State.memEvent_mem (s : State) (a : Nat) (ue : Bool) : (s.memEvent a ue).mem = s.mem := by
  unfold State.memEvent
  simp only [State.logEvent_mem]
  rfl

/-- A read writes no memory. -/
@[simp] theorem State.touch_mem (s : State) (a : Nat) : (s.touch a).mem = s.mem := by
  unfold State.touch
  split <;> simp [State.setMark]

@[simp] theorem State.touchAll_mem (s : State) (l : List Nat) : (s.touchAll l).mem = s.mem := by
  unfold State.touchAll
  induction l generalizing s with
  | nil => rfl
  | cons a l ih => rw [List.foldl_cons, ih, State.touch_mem]

/-- With no latent error, a read changes nothing. -/
theorem State.touch_clean (s : State) (a : Nat) (h : s.latent = []) : s.touch a = s := by
  unfold State.touch
  rw [h]
  rfl

theorem State.touchAll_clean (s : State) (l : List Nat) (h : s.latent = []) : s.touchAll l = s := by
  unfold State.touchAll
  induction l with
  | nil => rfl
  | cons a l ih => rw [List.foldl_cons, State.touch_clean s a h, ih]

theorem State.touchEntry_clean (s : State) (a : Nat) (h : s.latent = []) : s.touchEntry a = s := s.touchAll_clean _ h
theorem State.stagingRead_clean (s : State) (h : s.latent = []) : s.stagingRead = s := by
  unfold State.stagingRead
  dsimp only
  rw [s.touchAll_clean _ h, s.touchAll_clean _ h, ite_self]

/-! ## The host's lines (R470) -/

/-- No access waits while the host caches nothing. -/
theorem State.biHeld_nil (s : State) (f : Nat → Bool) (h : s.snoop = []) : s.biHeld f = false := by
  unfold State.biHeld State.biLines
  rw [h]
  rfl
/-- An access that names no word never waits. -/
@[simp] theorem State.biHeld_inList_nil (s : State) : s.biHeld (inList []) = false := by
  unfold State.biHeld State.biLines inList
  simp
/-- Accesses of the host to BAR2 and BAR4 are performed in turn, up to the first that waits. -/
theorem burstRun_cases (b : Burst) (r : List Burst) (s : State) :
    (s.biHeld (inList (s.burstReach b)) = true ∧ burstRun (b :: r) s = { s.biAsk (inList (s.burstReach b)) with bursts := b :: r }) ∨
    (s.biHeld (inList (s.burstReach b)) = false ∧ burstRun (b :: r) s = burstRun r (s.burstGo b)) := by
  cases h : s.biHeld (inList (s.burstReach b))
  · exact .inr ⟨rfl, by rw [burstRun, h]; rfl⟩
  · exact .inl ⟨rfl, by rw [burstRun, h]; rfl⟩
/-- With nothing waiting and nothing cached, an access is performed as it arrives. -/
theorem State.burstTake_now (s : State) (b : Burst) (h : s.bursts = []) (g : s.snoop = []) : s.burstTake b = s.burstGo b := by
  unfold State.burstTake
  rw [if_pos h, burstRun, s.biHeld_nil _ g]
  rfl

/-! ## Runs -/

/-- The memory after words were written one by one. -/
def wordsWritten (s : State) (ws : List (Nat × Word × Bool)) : State := ws.foldl (fun t e => t.setWord e.1 e.2.1) s

theorem wordsWritten_byte_ne (s : State) (ws : List (Nat × Word × Bool)) (b : Nat) (h : ∀ e ∈ ws, b / 2 ≠ e.1) :
    (wordsWritten s ws).byte b = s.byte b := by
  unfold wordsWritten
  induction ws generalizing s with
  | nil => rfl
  | cons e ws ih =>
    rw [List.foldl_cons, ih _ (fun x hx => h x (by simp [hx])), State.byte_setWord_ne _ _ _ _ (h e (by simp))]

theorem setWord_mem_congr {s t : State} (h : s.mem = t.mem) (a : Nat) (v : Word) : (s.setWord a v).mem = (t.setWord a v).mem := by
  simp [State.setWord, State.setByte, h]

theorem wordsWritten_mem_congr {s t : State} (h : s.mem = t.mem) (ws : List (Nat × Word × Bool)) :
    (wordsWritten s ws).mem = (wordsWritten t ws).mem := by
  unfold wordsWritten
  induction ws generalizing s t with
  | nil => exact h
  | cons e ws ih => exact ih (setWord_mem_congr h e.1 e.2.1)

/-- Writing a run writes its words one by one, whatever becomes of the marks. -/
theorem State.writeMarked_mem (s : State) (ws : List (Nat × Word × Bool)) : (s.writeMarked ws).mem = (wordsWritten s ws).mem := by
  unfold State.writeMarked
  apply wordsWritten_mem_congr
  have h1 : ∀ (l : List Nat) (u : State) (f : Nat → Bool), (l.foldl (fun t c => t.setMark c (f c)) u).mem = u.mem := by
    intro l
    induction l with
    | nil => intro u f; rfl
    | cons c l ih => intro u f; rw [List.foldl_cons, ih]; rfl
  have h2 : ∀ (l : List Nat) (u : State), (l.foldl (fun s c =>
      if coversCw ws c then { s with latent := put .none s.latent c .none } else s.touch c) u).mem = u.mem := by
    intro l
    induction l with
    | nil => intro u; rfl
    | cons c l ih => intro u; rw [List.foldl_cons, ih]; split <;> simp
  simp only [h1, h2]

theorem byte_of_mem {s t : State} (h : s.mem = t.mem) (b : Nat) : s.byte b = t.byte b := by unfold State.byte; rw [h]

/-- A write of a run leaves every byte outside its words alone. -/
theorem State.byte_writeMarked_ne (s : State) (ws : List (Nat × Word × Bool)) (b : Nat) (h : ∀ e ∈ ws, b / 2 ≠ e.1) :
    (s.writeMarked ws).byte b = s.byte b := by
  rw [byte_of_mem (s.writeMarked_mem ws), wordsWritten_byte_ne s ws b h]

/-- After a run of distinct words was written, each reads as written. -/
theorem wordsWritten_word (s : State) (ws : List (Nat × Word × Bool)) (h : (ws.map (fun e => e.1)).Nodup) (e : Nat × Word × Bool)
    (he : e ∈ ws) : (wordsWritten s ws).word e.1 = e.2.1 := by
  induction ws generalizing s with
  | nil => simp at he
  | cons x ws ih =>
    simp only [List.map_cons, List.nodup_cons] at h
    rcases List.mem_cons.mp he with rfl | he
    · have hn : ∀ y ∈ ws, y.1 ≠ e.1 := fun y hy hc => h.1 (hc ▸ List.mem_map_of_mem hy)
      have hb (b : Nat) (hb : b / 2 = e.1) :
          (wordsWritten s (e :: ws)).byte b = (s.setWord e.1 e.2.1).byte b :=
        wordsWritten_byte_ne (s.setWord e.1 e.2.1) ws b (fun y hy hc => hn y hy (by omega))
      have hw : (wordsWritten s (e :: ws)).word e.1 = (s.setWord e.1 e.2.1).word e.1 := by
        unfold State.word
        rw [hb _ (by omega), hb _ (by omega)]
      rw [hw, State.word_setWord_same]
    · exact ih (s.setWord x.1 x.2.1) h.2 he

theorem State.word_writeMarked (s : State) (ws : List (Nat × Word × Bool)) (h : (ws.map (fun e => e.1)).Nodup) (e : Nat × Word × Bool)
    (he : e ∈ ws) : (s.writeMarked ws).word e.1 = e.2.1 := by
  rw [← wordsWritten_word s ws h e he]
  unfold State.word State.byte
  rw [s.writeMarked_mem ws]

theorem runOf_keys (a : Nat) (ws : List Word) (m : Bool) : (runOf a ws m).map (fun e => e.1) = (List.range ws.length).map (fun i => a + i) := by
  unfold runOf
  rw [List.map_map]
  apply List.ext_getElem <;> simp

/-- A run reads as it was written. -/
theorem State.word_writeRun (s : State) (a : Nat) (ws : List Word) (i : Nat) (h : i < ws.length) : (s.writeRun a ws).word (a + i) = ws[i] := by
  have hk : ((runOf a ws false).map (fun e => e.1)).Nodup := by
    rw [runOf_keys]
    exact List.nodup_range.map (fun x y hxy => by omega)
  have hm : (a + i, ws[i], false) ∈ runOf a ws false := by
    unfold runOf
    rw [List.mem_map]
    exact ⟨(ws[i], i), by simp [List.mem_zipIdx_iff_getElem?], rfl⟩
  have h := State.word_writeMarked s (runOf a ws false) hk (a + i, ws[i], false) hm
  unfold State.writeRun
  exact h

/-- A write of a run leaves every byte outside it alone. -/
theorem State.byte_writeRun_ne (s : State) (a : Nat) (ws : List Word) (b : Nat) (h : b < 2 * a ∨ 2 * (a + ws.length) ≤ b) :
    (s.writeRun a ws).byte b = s.byte b := by
  refine State.byte_writeMarked_ne s _ b (fun e he => ?_)
  have : e.1 ∈ (runOf a ws false).map (fun e => e.1) := List.mem_map_of_mem he
  rw [runOf_keys] at this
  simp only [List.mem_map, List.mem_range] at this
  omega

/-! ## The canonical form -/

theorem State.writeMarked_wf (s : State) (ws : List (Nat × Word × Bool)) (h : Memory.wf s.mem = true) :
    Memory.wf (s.writeMarked ws).mem = true := by
  rw [s.writeMarked_mem ws]
  unfold wordsWritten
  induction ws generalizing s with
  | nil => exact h
  | cons e ws ih => exact ih (s.setWord e.1 e.2.1) (State.setWord_wf s e.1 e.2.1 h)

theorem State.writeRun_wf (s : State) (a : Nat) (ws : List Word) (h : Memory.wf s.mem = true) : Memory.wf (s.writeRun a ws).mem = true :=
  State.writeMarked_wf s _ h

theorem State.touchAll_wf (s : State) (l : List Nat) (h : Memory.wf s.mem = true) : Memory.wf (s.touchAll l).mem = true := by
  rw [State.touchAll_mem]
  exact h

theorem State.reset_wf : Memory.wf State.reset.mem = true := rfl

end Sys2Proof.Machine
end

