-- ==== Sys2Proof/Laws/Errors.lean ====
section
/-! SUPPORT. Sys2Proof/Laws/Errors.lean: what a read of register files and tables does with the errors that lie there (R495, R496, R502): nothing where none
lies, nothing to memory in any case, and never a new error. -/

namespace Sys2Proof.Machine

open Sys2Proof.Laws

/-! ## Where no error lies -/

theorem State.over_none (s : State) (f : Site → Bool) (h : s.upsets = []) : s.over f = s := by
  unfold State.over
  rw [h, List.filter_nil, ← h]

theorem State.finds_none (s : State) (f : Site → Bool) (h : s.upsets = []) : s.finds f = (s, []) := by
  unfold State.finds
  simp only [h, List.filter_nil, List.foldl_nil, List.map_nil]
  rw [← h]

theorem State.findsAt_none (s : State) (x : Site) (h : s.upsets = []) : s.findsAt x = (s, false) := by
  unfold State.findsAt
  rw [State.finds_none s _ h]
  rfl

theorem State.regReads_none (s : State) (f : Site → Bool) (h : s.upsets = []) : s.regReads f = s := by
  unfold State.regReads
  rw [State.finds_none s f h]
  rfl

theorem State.readSem_none (s : State) (k : Nat) (h : s.upsets = []) : s.readSem k = s := by
  unfold State.readSem; rw [State.findsAt_none s _ h]; rfl
theorem State.readCtx_none (s : State) (b : Nat) (h : s.upsets = []) : s.readCtx b = s := by
  unfold State.readCtx; rw [State.findsAt_none s _ h]; rfl
theorem State.readQueue_none (s : State) (q : Nat) (h : s.upsets = []) : s.readQueue q = s := by
  unfold State.readQueue; rw [State.findsAt_none s _ h]; rfl
theorem State.readQueues_none (s : State) (h : s.upsets = []) : s.readQueues = s := by unfold State.readQueues; rw [h]; rfl
theorem State.readJob_none (s : State) (j : Nat) (h : s.upsets = []) : s.readJob j = s := by
  unfold State.readJob; rw [State.findsAt_none s _ h]; rfl
theorem State.readSwarm_none (s : State) (e : Nat) (h : s.upsets = []) : s.readSwarm e = s := by
  unfold State.readSwarm; rw [State.findsAt_none s _ h]; rfl
theorem State.readRoute_none (s : State) (k : Nat) (h : s.upsets = []) : s.readRoute k = s := by
  unfold State.readRoute; rw [State.findsAt_none s _ h]; rfl
theorem State.readMcast_none (s : State) (g : Nat) (staged : Bool) (h : s.upsets = []) : s.readMcast g staged = s := by
  unfold State.readMcast; rw [State.findsAt_none s _ h]; rfl
theorem State.readHeld_none (s : State) (j : Nat) (p : Packet) (h : s.upsets = []) : s.readHeld j p = (s, p) := by
  unfold State.readHeld; rw [State.findsAt_none s _ h]; rfl
theorem State.readRow_none (s : State) (e : Nat) (p : Packet) (h : s.upsets = []) : s.readRow e p = (s, p) := by
  unfold State.readRow; rw [State.findsAt_none s _ h]; rfl

/-! ## Memory and the list of errors -/

@[simp] theorem State.over_mem (s : State) (f : Site → Bool) : (s.over f).mem = s.mem := rfl
@[simp] theorem State.sramEvent_mem (s : State) (u : Upset) : (s.sramEvent u).mem = s.mem := rfl
@[simp] theorem State.sramEvent_upsets (s : State) (u : Upset) : (s.sramEvent u).upsets = s.upsets := rfl

theorem foldl_sramEvent (l : List Upset) (s : State) :
    (l.foldl State.sramEvent s).mem = s.mem ∧ (l.foldl State.sramEvent s).upsets = s.upsets := by
  induction l generalizing s with
  | nil => exact ⟨rfl, rfl⟩
  | cons u l ih => exact ih (s.sramEvent u)

@[simp] theorem State.finds_mem (s : State) (f : Site → Bool) : (s.finds f).1.mem = s.mem := (foldl_sramEvent _ _).1

/-- After a read every error elsewhere still lies where it did, and so does every correctable one that the read found; the rest have acted. -/
theorem State.finds_upsets (s : State) (f : Site → Bool) :
    (s.finds f).1.upsets = s.upsets.filter (fun u => !(f u.site && u.bad)) := (foldl_sramEvent _ _).2

/-- What acts is what a read finds and nothing corrects. -/
theorem State.finds_sites (s : State) (f : Site → Bool) :
    (s.finds f).2 = ((s.upsets.filter (fun u => f u.site)).filter Upset.bad).map (fun u => u.site) := rfl

@[simp] theorem State.findsAt_mem (s : State) (x : Site) : (s.findsAt x).1.mem = s.mem := State.finds_mem s (fun y => y == x)

@[simp] theorem State.coreUe_mem (s : State) (x : Site) : (s.coreUe x).mem = s.mem := by cases x <;> rfl
@[simp] theorem State.coreUe_upsets (s : State) (x : Site) : (s.coreUe x).upsets = s.upsets := by cases x <;> rfl

theorem foldl_coreUe (l : List Site) (s : State) : (l.foldl State.coreUe s).mem = s.mem ∧ (l.foldl State.coreUe s).upsets = s.upsets := by
  induction l generalizing s with
  | nil => exact ⟨rfl, rfl⟩
  | cons x l ih => simpa using ih (s.coreUe x)

@[simp] theorem State.regReads_mem (s : State) (f : Site → Bool) : (s.regReads f).mem = s.mem := by
  unfold State.regReads
  exact (foldl_coreUe _ _).1.trans (State.finds_mem s f)

theorem State.regReads_upsets (s : State) (f : Site → Bool) :
    (s.regReads f).upsets = s.upsets.filter (fun u => !(f u.site && u.bad)) := by
  unfold State.regReads
  exact (foldl_coreUe _ _).2.trans (State.finds_upsets s f)

@[simp] theorem State.readSem_mem (s : State) (k : Nat) : (s.readSem k).mem = s.mem := by
  unfold State.readSem; dsimp only; split <;> simp

/-! ## The host's turn -/

/-- A write that nothing waits before, or that is no host's, is performed at once. -/
theorem State.inTurn_now (s : State) (src : Src) (i : HostRow) (f : State → State) (h : src ≠ .host ∨ s.bursts = []) : s.inTurn src i f = f s := by
  unfold State.inTurn
  rw [if_neg (by tauto)]

/-- A write of the host that something waits before joins the wait, last. -/
theorem State.inTurn_waits (s : State) (i : HostRow) (f : State → State) (h : s.bursts ≠ []) :
    s.inTurn .host i f = { s with bursts := s.bursts ++ [.cmd i] } := by
  unfold State.inTurn
  rw [if_pos ⟨rfl, h⟩]

end Sys2Proof.Machine
end

