-- ==== Sys2Proof/Laws/Issue.lean ====
section
/-! SUPPORT. Sys2Proof/Laws/Issue.lean: what the issue of an instruction answers, once for every instruction. -/

namespace Sys2Proof.Laws

open Sys2Proof.Machine Sys2Proof.Safety

/-- An instruction that is ready and legally encoded, with no mark on a predicate it reads, answers the end of its body. -/
theorem issueAs_ready {s t : State} {n : Nat} {k : Cond} {len : Nat} (h : Ready s t n k len) (br : Bool) (legal : Core → Bool)
    (preds : List Nat) (body : State → Res) (hl : legal (t.core n) = true) (hp : preds.any (t.core n).pp = false) :
    issueAs n k len br legal preds body s = .next (finish n len t (body t)) := by
  obtain ⟨h1, _, h0, h2, h3, h4, h5⟩ := h
  unfold issueAs
  simp only [h1, h0, ← h2, h3, issueFetched, hl, List.any_append, h4, hp, h5]
  simp

/-- The same for an instruction that is no branch. -/
theorem issue_ready {s t : State} {n : Nat} {k : Cond} {len : Nat} (h : Ready s t n k len) (legal : Core → Bool)
    (preds : List Nat) (body : State → Res) (hl : legal (t.core n) = true) (hp : preds.any (t.core n).pp = false) :
    issue n k len legal preds body s = .next (finish n len t (body t)) := issueAs_ready h false legal preds body hl hp

/-- A core that issues nothing now does nothing with an instruction sent to it. -/
theorem issueAs_idle (n : Nat) (k : Cond) (len : Nat) (br : Bool) (legal : Core → Bool) (preds : List Nat) (body : State → Res) (s : State)
    (h : s.issues n = false) : issueAs n k len br legal preds body s = .next s := by
  unfold issueAs
  simp [h]

/-- Every issue answers a next state. -/
theorem issueAs_next (n : Nat) (k : Cond) (len : Nat) (br : Bool) (legal : Core → Bool) (preds : List Nat) (body : State → Res) (s : State) :
    ∃ t, issueAs n k len br legal preds body s = .next t := by
  unfold issueAs
  dsimp only
  split
  · exact ⟨_, rfl⟩
  · split
    · exact ⟨_, rfl⟩
    · split
      · split <;> exact ⟨_, rfl⟩
      · exact ⟨_, rfl⟩

/-- A command that is no instruction acts while the module runs, and does nothing else. -/
theorem command_on (f : State → State) (s : State) (h : On s) : command f s = .next (f s) := by
  unfold command
  rw [if_pos h.1]

theorem command_off (f : State → State) (s : State) (h : s.power ≠ .running) : command f s = .next s := by
  unfold command
  rw [if_neg h]

/-- An operation enters the Setter while it has room, and holds issue while it has none (R244). -/
theorem intoSetter_room (n : Nat) (o : Core → SOp) (f : Core → Core) (s : State) (h : (s.core n).setter.length < 32) :
    intoSetter n o f s = .done (s.modCore n (fun c => f (c.enterSetter (o c)))) := by
  unfold intoSetter Core.room
  simp [h, State.modCore]

theorem intoSetter_full (n : Nat) (o : Core → SOp) (f : Core → Core) (s : State) (h : 32 ≤ (s.core n).setter.length) :
    intoSetter n o f s = .held s := by
  unfold intoSetter Core.room
  simp [Nat.not_lt.mpr h]

/-- A supervisor-only body runs at supervisor level and faults with PRIVILEGE below it (R81). -/
theorem privileged_sup (n : Nat) (body : State → Res) (s : State) (h : (s.core n).sup = true) : privileged n body s = body s := by
  unfold privileged
  rw [if_pos h]

theorem privileged_user (n : Nat) (body : State → Res) (s : State) (h : (s.core n).sup = false) :
    privileged n body s = .fault .privilege 0 := by
  unfold privileged
  simp [h]

/-- A body that is legal only for some values of the core's state runs where they hold, and faults with ILLEGAL_OP where not (R84, R161). -/
theorem shaped_ok (n : Nat) (ok : Core → Bool) (body : State → Res) (s : State) (h : ok (s.core n) = true) :
    shaped n ok body s = body s := by
  unfold shaped
  rw [if_pos h]

theorem shaped_bad (n : Nat) (ok : Core → Bool) (body : State → Res) (s : State) (h : ok (s.core n) = false) :
    shaped n ok body s = .fault .illegalOp 0 := by
  unfold shaped
  simp [h]

/-- A completed body whose effect is on its own core leaves the state that after names. -/
theorem finish_coreOnly (n len : Nat) (f : Core → Core) (t : State) : finish n len t (coreOnly n f t) = after t n len f := by
  unfold coreOnly finish after
  simp [State.modCore, State.setCore, State.core]

end Sys2Proof.Laws
end

