-- ==== Sys2Proof/WellFormed.lean ====
section
/-! DEFINITION. Sys2Proof/WellFormed.lean: which commands are well formed: the numbers they carry name cores, links, cables and
pages that exist (Table 10-2), a packet's data is as long as its header says (R377), a sensor reading has a value for each
sensor (R41), a measurement one for each die and core (R330). -/

namespace Sys2Proof

/-- The cores, links and register pages of Table 10-2. -/
def coreOk (n : Nat) : Bool := decide (n < 192)
def linkOk (l : Nat) : Bool := decide (l < 96)
def Page.ok : Page → Bool
  | .link n => linkOk n
  | .core n => coreOk n
  | .stack n => decide (n < 8)
  | .lpch n => decide (n < 32)
  | _ => true

/-- A writer that exists (R56). -/
def Src.ok : Src → Bool
  | .core n _ => coreOk n
  | _ => true

/-- Where a packet came from: a link, or this module. -/
def fromOk : Option Nat → Bool
  | some l => linkOk l
  | none => true

/-- The widths of a register access (R11). -/
def accessOk (bytes : Nat) : Bool := bytes == 1 || bytes == 2 || bytes == 4 || bytes == 8

/-- A packet carries the data units its header counts, 8 words each (Table 13-5, R377). -/
def Packet.ok (p : Packet) : Bool := decide (p.data.length = 8 * (p.hdr.extractLsb' 24 5).toNat)

/-- A reading of every sensor (R41). -/
def Sensors.ok (t : Sensors) : Bool := decide (t.dies.length = 14) && decide (t.clusters.length = 16)

/-- A measurement of every die and island (R330). -/
def Telemetry.ok (t : Telemetry) : Bool := decide (t.dies.length = 4) && decide (t.cores.length = 192)

/-- A descriptor slot is 32 words (R318). -/
def HostLine.ok (h : HostLine) : Bool := decide (h.words.length = 32)

/-- The well-formed commands. -/
def Instr.wf : Instr → Bool
  | .powerOn => true
  | .internalResetWaitEnd _ => true
  | .coldReset => true
  | .strapSample _ => true
  | .powerRemoval => true
  | .brownOut => true
  | .brownOutRecovery _ => true
  | .sensorRead t => t.ok
  | .hostReset _ => true
  | .tapReset => true
  | .cableInsert k => decide (k < 12)
  | .cableRemove k => decide (k < 12)
  | .bisqueReached _ => true
  | .imageRead => true
  | .stackTraining _ _ => true
  | .linkFullRateStep => true
  | .glazeReached => true
  | .computeReset src _ => src.ok
  | .fireflyRestart src _ => src.ok
  | .globalCfgWrite src _ => src.ok
  | .pgIrqEnWrite src page _ => src.ok && page.ok
  | .pgLock src page => src.ok && page.ok
  | .pgErrClr src page _ => src.ok && page.ok
  | .registerWrite src off bytes _ => src.ok && decide (off < 0x4000000) && accessOk bytes
  | .coreHalt src n => src.ok && coreOk n
  | .coreResume src n => src.ok && coreOk n
  | .coreReset src n _ => src.ok && coreOk n
  | .coreResetEnd n => coreOk n
  | .coreSwi src n _ => src.ok && coreOk n
  | .ld n _ _ _ _ _ => coreOk n
  | .ldP n _ _ _ _ _ => coreOk n
  | .ldQ n _ _ _ _ _ => coreOk n
  | .ldA n _ _ _ _ _ => coreOk n
  | .st n _ _ _ _ _ => coreOk n
  | .stP n _ _ _ _ _ => coreOk n
  | .stQ n _ _ _ _ _ => coreOk n
  | .stA n _ _ _ _ _ => coreOk n
  | .mmioLoadReturn n => coreOk n
  | .add n _ _ _ _ _ _ => coreOk n
  | .adc n _ _ _ _ _ _ => coreOk n
  | .sub n _ _ _ _ _ _ => coreOk n
  | .sbc n _ _ _ _ _ _ => coreOk n
  | .and n _ _ _ _ _ _ => coreOk n
  | .or n _ _ _ _ _ _ => coreOk n
  | .xor n _ _ _ _ _ _ => coreOk n
  | .andn n _ _ _ _ _ _ => coreOk n
  | .cmp n _ _ _ _ _ _ => coreOk n
  | .tst n _ _ _ _ _ _ => coreOk n
  | .mov n _ _ _ _ _ _ => coreOk n
  | .neg n _ _ _ _ _ _ => coreOk n
  | .not n _ _ _ _ _ _ => coreOk n
  | .min n _ _ _ _ _ _ => coreOk n
  | .max n _ _ _ _ _ _ => coreOk n
  | .moviW n _ _ _ => coreOk n
  | .moviP n _ _ _ => coreOk n
  | .shl n _ _ _ _ _ _ => coreOk n
  | .shr n _ _ _ _ _ _ => coreOk n
  | .sar n _ _ _ _ _ _ => coreOk n
  | .ror n _ _ _ _ _ _ => coreOk n
  | .mulL n _ _ _ _ => coreOk n
  | .mulS n _ _ _ _ => coreOk n
  | .mulU n _ _ _ _ => coreOk n
  | .mulP n _ _ _ _ => coreOk n
  | .cmpp n _ _ _ _ _ _ => coreOk n
  | .addaImm n _ _ _ _ => coreOk n
  | .addaIdx n _ _ _ _ _ _ => coreOk n
  | .mova n _ _ _ => coreOk n
  | .movd n _ _ _ => coreOk n
  | .leapc n _ _ _ => coreOk n
  | .moviA n _ _ _ => coreOk n
  | .br n _ _ => coreOk n
  | .call n _ _ => coreOk n
  | .jmp n _ _ => coreOk n
  | .callr n _ _ => coreOk n
  | .ret n _ => coreOk n
  | .loop n _ _ _ => coreOk n
  | .loopi n _ _ _ => coreOk n
  | .nop n _ => coreOk n
  | .trap n _ _ => coreOk n
  | .rte n _ => coreOk n
  | .movcRead n _ _ _ _ => coreOk n
  | .movcWrite n _ _ _ _ => coreOk n
  | .fence n _ _ => coreOk n
  | .fenceRelease n => coreOk n
  | .tlbi n _ _ _ => coreOk n
  | .tend n _ => coreOk n
  | .mcopy n _ _ _ _ _ _ => coreOk n
  | .feederBlockPlace n => coreOk n
  | .feederBlockComplete n _ => coreOk n
  | .tableWalk n => coreOk n
  | .combAnswer n => coreOk n
  | .interruptEntry n => coreOk n
  | .deferredFaultEntry n => coreOk n
  | .vsetvl n _ _ _ _ _ => coreOk n
  | .vwait n _ => coreOk n
  | .vmvX n _ _ _ _ => coreOk n
  | .vins n _ _ _ _ => coreOk n
  | .vredsum n _ _ _ _ _ => coreOk n
  | .vredmax n _ _ _ _ _ => coreOk n
  | .vredmin n _ _ _ _ _ => coreOk n
  | .vany n _ _ _ => coreOk n
  | .vall n _ _ _ => coreOk n
  | .vpopc n _ _ _ => coreOk n
  | .vslideup n _ _ _ _ _ => coreOk n
  | .vslidedown n _ _ _ _ _ => coreOk n
  | .vgatherv n _ _ _ _ _ => coreOk n
  | .vcompress n _ _ _ _ => coreOk n
  | .vcvt n _ _ _ _ _ => coreOk n
  | .vgen n _ _ _ _ _ _ _ => coreOk n
  | .vtopk n _ _ _ _ _ _ _ => coreOk n
  | .vscomb n _ _ _ _ _ => coreOk n
  | .vadd n _ _ _ _ _ => coreOk n
  | .vsub n _ _ _ _ _ => coreOk n
  | .vand n _ _ _ _ _ => coreOk n
  | .vor n _ _ _ _ _ => coreOk n
  | .vxor n _ _ _ _ _ => coreOk n
  | .vshl n _ _ _ _ _ => coreOk n
  | .vshr n _ _ _ _ _ => coreOk n
  | .vsar n _ _ _ _ _ => coreOk n
  | .vmin n _ _ _ _ _ => coreOk n
  | .vmax n _ _ _ _ _ => coreOk n
  | .vminu n _ _ _ _ _ => coreOk n
  | .vmaxu n _ _ _ _ _ => coreOk n
  | .vmov n _ _ _ _ _ => coreOk n
  | .vdiv n _ _ _ _ _ => coreOk n
  | .vdivu n _ _ _ _ _ => coreOk n
  | .vmul n _ _ _ _ _ => coreOk n
  | .vmulh n _ _ _ _ _ => coreOk n
  | .vmulhu n _ _ _ _ _ => coreOk n
  | .vmacc n _ _ _ _ _ => coreOk n
  | .vwmul n _ _ _ _ _ => coreOk n
  | .vwmulu n _ _ _ _ _ => coreOk n
  | .vwmulsu n _ _ _ _ _ => coreOk n
  | .vwmacc n _ _ _ _ _ => coreOk n
  | .vsadd n _ _ _ _ _ => coreOk n
  | .vsaddu n _ _ _ _ _ => coreOk n
  | .vssub n _ _ _ _ _ => coreOk n
  | .vssubu n _ _ _ _ _ => coreOk n
  | .vaadd n _ _ _ _ _ => coreOk n
  | .vaaddu n _ _ _ _ _ => coreOk n
  | .vsmul n _ _ _ _ _ => coreOk n
  | .vssra n _ _ _ _ _ => coreOk n
  | .vssrl n _ _ _ _ _ => coreOk n
  | .vnclip n _ _ _ _ _ => coreOk n
  | .vnclipu n _ _ _ _ _ => coreOk n
  | .vdotQ n _ _ _ _ _ => coreOk n
  | .vdotuQ n _ _ _ _ _ => coreOk n
  | .vfadd n _ _ _ _ _ => coreOk n
  | .vfsub n _ _ _ _ _ => coreOk n
  | .vfmul n _ _ _ _ _ => coreOk n
  | .vfmacc n _ _ _ _ _ => coreOk n
  | .vfmin n _ _ _ _ _ => coreOk n
  | .vfmax n _ _ _ _ _ => coreOk n
  | .vfdiv n _ _ _ _ _ => coreOk n
  | .vfsqrt n _ _ _ _ _ => coreOk n
  | .vfdotD n _ _ _ _ _ => coreOk n
  | .vcmpeq n _ _ _ _ _ => coreOk n
  | .vcmpne n _ _ _ _ _ => coreOk n
  | .vcmplt n _ _ _ _ _ => coreOk n
  | .vcmpge n _ _ _ _ _ => coreOk n
  | .vcmpltu n _ _ _ _ _ => coreOk n
  | .vcmpgeu n _ _ _ _ _ => coreOk n
  | .vld n _ _ _ _ _ => coreOk n
  | .vst n _ _ _ _ _ => coreOk n
  | .vlds n _ _ _ _ _ _ => coreOk n
  | .vsts n _ _ _ _ _ _ => coreOk n
  | .vldseg n _ _ _ _ _ _ => coreOk n
  | .vstseg n _ _ _ _ _ _ => coreOk n
  | .vldx n _ _ _ _ _ _ => coreOk n
  | .vstx n _ _ _ _ _ _ => coreOk n
  | .tcfg n _ _ _ => coreOk n
  | .tzero n _ _ => coreOk n
  | .tmvVt n _ _ _ _ => coreOk n
  | .tmvTv n _ _ _ _ => coreOk n
  | .tmask n _ _ _ => coreOk n
  | .tmeta n _ _ _ _ => coreOk n
  | .tsave n _ _ _ => coreOk n
  | .trest n _ _ _ => coreOk n
  | .tld n _ _ _ _ _ _ => coreOk n
  | .setterFire n _ => coreOk n
  | .shelfFill n _ _ => coreOk n
  | .mma n _ _ _ _ _ => coreOk n
  | .accOpen n _ _ _ _ _ _ _ _ => coreOk n
  | .accClose n _ _ _ => coreOk n
  | .accZero n _ _ _ _ => coreOk n
  | .accDrt n _ _ _ _ _ => coreOk n
  | .accDrm n _ _ _ _ _ _ => coreOk n
  | .accDrj n _ _ _ _ _ => coreOk n
  | .accLd n _ _ _ _ _ _ => coreOk n
  | .weightCopy n _ => coreOk n
  | .passStart n _ => coreOk n
  | .passComplete n _ => coreOk n
  | .treeCloseComplete n _ _ => coreOk n
  | .drainComplete n _ => coreOk n
  | .runAhead n => coreOk n
  | .snapshotFirstTouch _ => true
  | .shadowFirstTouch _ => true
  | .pageCopyComplete _ => true
  | .mouldTake src => src.ok
  | .snapSweepEnd => true
  | .stepCommit src => src.ok
  | .stepRollback src => src.ok
  | .stepCmdEnd => true
  | .slogWrite src _ _ => src.ok
  | .xrootLoWrite src n _ => src.ok && coreOk n
  | .xrootHiWrite src n _ => src.ok && coreOk n
  | .jrootLoWrite src _ => src.ok
  | .jrootHiWrite src _ => src.ok
  | .queueDoorbell src _ => src.ok
  | .coreDoorbell src _ => src.ok
  | .queueEnable src _ => src.ok
  | .queueDisable src _ => src.ok
  | .qeWrite src _ _ => src.ok
  | .preempt src _ => src.ok
  | .descriptorRead _ host => host.ok
  | .dispatch => true
  | .completionRecord n => coreOk n
  | .pyroInterval t => t.ok
  | .dvfsWrite src _ => src.ok
  | .semAdd n _ _ _ => coreOk n
  | .semSub n _ _ _ => coreOk n
  | .semWait n _ _ _ => coreOk n
  | .semTake n _ _ _ => coreOk n
  | .semAddi n _ _ _ => coreOk n
  | .semSubi n _ _ _ => coreOk n
  | .semWaiti n _ _ _ => coreOk n
  | .semTakei n _ _ _ => coreOk n
  | .barArr n _ _ _ => coreOk n
  | .barWait n _ _ _ => coreOk n
  | .combWindowAdd n _ _ => coreOk n
  | .hopAdd src _ => src.ok
  | .hopSub src _ => src.ok
  | .hopSet src _ => src.ok
  | .hopArrive src _ => src.ok
  | .tclr src _ => src.ok
  | .semPacket p => p.ok
  | .barrReceive p => p.ok
  | .brelReceive p => p.ok
  | .bCtlWrite src _ _ => src.ok
  | .bNextWrite src _ _ => src.ok
  | .bCtxWrite src _ _ _ => src.ok
  | .linkEnable src l => src.ok && linkOk l
  | .linkDisable src l => src.ok && linkOk l
  | .linkRetrain src l => src.ok && linkOk l
  | .linkAdmit src l => src.ok && linkOk l
  | .linkLock l => linkOk l
  | .trainTimeout l => linkOk l
  | .downHoldEnd l => linkOk l
  | .helloReceive l p => linkOk l && p.ok
  | .certReceive l p => linkOk l && p.ok
  | .rateReceive l p => linkOk l && p.ok
  | .rateOfferTimeout l => linkOk l
  | .rateDrainEnd l => linkOk l
  | .discoveryRound src => src.ok
  | .flitReceive l _ _ => linkOk l
  | .idleFlit l => linkOk l
  | .windowMiss l => linkOk l
  | .packetRoute src p => fromOk src && p.ok
  | .multicastForward src p => fromOk src && p.ok
  | .rdRequest p => p.ok
  | .wrRequest p => p.ok
  | .dbPacket p => p.ok
  | .fabricAnswer p => p.ok
  | .requestTimeout _ => true
  | .remoteDoorbellStore src n _ => src.ok && decide (n < 256)
  | .imgqReceive l p => linkOk l && p.ok
  | .imgdReceive l p => linkOk l && p.ok
  | .imageTransferTimeout => true
  | .imageRetry => true
  | .jcmdOpen src _ _ => src.ok
  | .jcmdClose src _ _ => src.ok
  | .jeWrite src _ _ _ => src.ok
  | .leafStage n _ => coreOk n
  | .rsumReceive p => p.ok
  | .rresReceive p => p.ok
  | .resultDelivered job tile => decide (job < 2048) && decide (tile < 65536)
  | .participantTimeout job _ tile => decide (job < 2048) && decide (tile < 65536)
  | .xgoEnable src _ => src.ok
  | .xgoDisable src _ => src.ok
  | .xgoSend src _ _ => src.ok
  | .xgoReturn src _ => src.ok
  | .xeWrite src _ _ _ => src.ok
  | .xrowReceive p => p.ok
  | .xcntReceive p => p.ok
  | .xretReceive p => p.ok
  | .scaleRoll src n _ _ => src.ok && coreOk n
  | .scAmaxwWrite src n _ _ => src.ok && coreOk n
  | .lossScaleCurWrite src _ => src.ok
  | .srsvCommit src => src.ok
  | .srsvSkip src => src.ok
  | .srsvRefused src => src.ok
  | .srsvAbandoned src => src.ok
  | .restoreGo src => src.ok
  | .sctlWrite src _ => src.ok
  | .stepnWrite src _ => src.ok
  | .bpBurstWrite _ _ _ => true
  | .bpBurstRead _ _ _ => true
  | .bpctlWrite src _ => src.ok
  | .bpRegWrite src _ _ => src.ok
  | .bpComplete _ => true
  | .hostQueueDoorbell bytes _ => accessOk bytes
  | .hostCoreDoorbell bytes _ => accessOk bytes
  | .cxlMemRead _ _ _ => true
  | .cxlMemWrite _ data _ => decide (data.length ≤ 64)
  | .biSnoopAnswer _ _ => true
  | .hsigWrite src _ => src.ok
  | .hostLinkTrain => true
  | .hostLinkRetry => true
  | .getSvc _ _ => true
  | .getId _ _ => true
  | .getCert _ _ => true
  | .quote _ _ => true
  | .slotInfo _ _ => true
  | .load _ _ => true
  | .updBegin _ _ => true
  | .updData _ _ => true
  | .updEnd _ _ => true
  | .updAbort _ _ => true
  | .activate _ _ => true
  | .activationRestart => true
  | .confirm _ _ => true
  | .setGet _ _ => true
  | .setPut _ _ => true
  | .jtagBypass => true
  | .jtagIdcode => true
  | .jtagSamplePreload => true
  | .jtagExtest => true
  | .rpRow src => src.ok
  | .rpAcol src _ => src.ok
  | .logClr src => src.ok
  | .scrubGo src _ => src.ok
  | .scrubComplete => true
  | .tileStore n _ _ _ _ _ _ => coreOk n
  | .vectorComplete n _ => coreOk n
  | .restoreComplete => true
  | .rpcmdComplete => true
  | .hostLinkUp _ _ => true
  | .hostCacheSnoop _ => true
  | .fireflyRestartEnd => true

end Sys2Proof
end

