-- ==== Sys2Proof/Tests/Slice0.lean ====
section
/-! SUPPORT. Sys2Proof/Tests/Slice0.lean: tests of one command each, with values from the spec, and for every statement states and
operands that meet its hypotheses. -/

namespace Sys2Proof.Tests

open Sys2Proof Sys2Proof.Machine Sys2Proof.Safety

/-! ## Small states -/

/-- The state after the fetch of an instruction. -/
def startOf (s : State) (n len : Nat) : State := (s.fetched n len).modCore n (fun c => c.issuing (s.cycles n))

/-- The conditions of Ready as one test. -/
def runs (s : State) (n : Nat) (k : Cond) (len : Nat) : Bool :=
  s.issues n && decide (s.upsets = []) && !(s.core n).peek && (startOf s n len).fetchPoison n len == none && !(condPreds k).any ((startOf s n len).core n).pp &&
  ((startOf s n len).core n).cond k

theorem ready_of (s : State) (n : Nat) (k : Cond) (len : Nat) (h : runs s n k len = true) : Ready s (startOf s n len) n k len := by
  simp [runs, Bool.and_eq_true] at h
  exact ⟨h.1.1.1.1.1, h.1.1.1.1.2, h.1.1.1.2, rfl, h.1.1.2, by simpa using h.1.2, h.2⟩

/-- A core that runs at word 0x1000 of its window, at supervisor level; and at user level. -/
def live : Core := { Core.reset with pc := 0xE0000001000, dst := .run }
def user : Core := { live with sr := 0 }

/-- The module running, with one core that is not halted. -/
def on (n : Nat) (c : Core) : State := { State.reset with power := .running, cores := [(n, c)], regs := [(rRun n, 0)] }

/-- The module running, with no core started, and some registers. -/
def up (regs : Store W32) : State := { State.reset with power := .running, regs := regs }

/-! ## Ill-formed commands -/

theorem test_wf_core : (Instr.nop 191 .al).wf = true ∧ (Instr.nop 192 .al).wf = false := by decide
theorem test_wf_link : (Instr.linkLock 95).wf = true ∧ (Instr.linkLock 96).wf = false := by decide
theorem test_wf_cable : (Instr.cableInsert 11).wf = true ∧ (Instr.cableInsert 12).wf = false := by decide
theorem test_wf_doorbell_number : (Instr.remoteDoorbellStore .host 255 0).wf = true ∧ (Instr.remoteDoorbellStore .host 256 0).wf = false := by
  decide
theorem test_wf_page : (Instr.pgLock .host (.stack 7)).wf = true ∧ (Instr.pgLock .host (.stack 8)).wf = false ∧
    (Instr.pgLock .host (.lpch 32)).wf = false ∧ (Instr.pgLock .host (.link 96)).wf = false ∧
    (Instr.pgLock .host (.core 192)).wf = false := by decide
theorem test_wf_writer : (Instr.mouldTake (.core 191 true)).wf = true ∧ (Instr.mouldTake (.core 192 true)).wf = false := by decide
theorem test_wf_source_link : (Instr.packetRoute (some 96) ⟨0, []⟩).wf = false ∧ (Instr.packetRoute (some 95) ⟨0, []⟩).wf = true := by decide
theorem test_wf_register_write : (Instr.registerWrite .host 0x3FFFFFC 4 0).wf = true ∧ (Instr.registerWrite .host 0x4000000 4 0).wf = false ∧
    (Instr.registerWrite .host 0 3 0).wf = false := by decide
theorem test_wf_packet : (Instr.semPacket ⟨1 <<< 24, List.replicate 8 0⟩).wf = true ∧ (Instr.semPacket ⟨1 <<< 24, []⟩).wf = false := by decide
theorem test_wf_sensors : (Instr.sensorRead ⟨List.replicate 14 40, List.replicate 16 40⟩).wf = true ∧
    (Instr.sensorRead ⟨List.replicate 13 40, List.replicate 16 40⟩).wf = false := by decide
set_option maxRecDepth 20000 in
theorem test_wf_telemetry : (Instr.pyroInterval ⟨0, 0, [0, 0, 0, 0], List.replicate 191 0⟩).wf = false ∧
    (Instr.pyroInterval ⟨0, 0, [0, 0, 0], List.replicate 192 0⟩).wf = false := ⟨rfl, rfl⟩
theorem test_wf_host_line : (Instr.descriptorRead 0 ⟨List.replicate 32 0, false⟩).wf = true ∧ (Instr.descriptorRead 0 ⟨[], false⟩).wf = false := by
  decide
theorem test_wf_mem_write : (Instr.cxlMemWrite 0 (List.replicate 64 0) false).wf = true ∧
    (Instr.cxlMemWrite 0 (List.replicate 65 0) false).wf = false := by simp [Instr.wf]
theorem test_wf_tile_round : (Instr.resultDelivered 2047 65535).wf = true ∧ (Instr.resultDelivered 2048 0).wf = false ∧
    (Instr.participantTimeout 0 0 65536).wf = false := by decide

/-! ## The interface -/


/-- The words of Table 4-23 and of the text after it, and encodings that are illegal (R115). -/
theorem test_decode_loop : decodeTableWord 32 0x0D480004 = some (.loop 0 .al 2 4) := by decide
theorem test_decode_ld : decodeTableWord 32 0x02102001 = some (.ld 0 .al 4 0 2 1) ∧ decodeTableWord 32 0x0214A001 = some (.ld 0 .al 5 1 2 1) := by
  decide
theorem test_decode_mul : decodeTableWord 32 0x08919140 = some (.mulS 0 .al 6 4 5) := by decide
theorem test_decode_add : decodeTableWord 32 0x04080300 = some (.add 0 .al false true 0 0 (.reg 6)) := by decide
theorem test_decode_movi : decodeTableWord 64 0x000186A00FC02000 = some (.moviP 0 .al 2 100000) := by decide
theorem test_decode_br : decodeTableWord 32 0x8C3FFFFB = some (.br 0 .p0 0x3FFFFB) := by decide
theorem test_decode_illegal : decodeTableWord 32 0 = none ∧ decodeTableWord 32 0x05E00000 = none ∧ decodeTableWord 64 0x0FD30000 = none := by decide

/-- At reset no core issues, so only the reference counts; and a step takes the front of the queue. -/
theorem test_idle_core : (State.reset.tickUsec).issues 191 = false ∧ (State.reset.tickUsec).usec = 0 ∧ ((up []).tickUsec).usec = 1 := by decide
theorem test_step_takes_the_front : step { State.reset with pending := [.tapReset, .jtagIdcode] } =
    exec .tapReset { State.reset with pending := [.jtagIdcode] } := rfl
/-- A core fetches the zero parcel, which is illegal (R115): it faults, and with no memory for the frame its stack fault escalates. -/
theorem test_idle_step_runs_cores : (on 0 live).instrAt 0 = none ∧ (on 0 live).issues 0 = true := by decide

set_option maxRecDepth 100000 in
theorem test_idle_step_one_core : let s := on 0 live
    let t : State := s.tickUsec
    s.upsets = [] ∧
    t.issues 0 = true ∧ (match t.fetchRun 0 with
      | .next u => (List.range 192).all (fun m => m == 0 || !t.issues m && !u.issues m)
      | _ => false) = true := by decide

/-! ## The scalar core: hypotheses that can be met -/

/-- A core with A7 in its window, and a loop level nest of three. -/
def stacked : Core := { live with a := [(7, 0xE0000002000)] }
def looping (la : Nat) (c1 : W32) : Core :=
  { live with sr := 0xC0000000 ||| BitVec.ofNat 32 (la * 2 ^ 24),
              ls := [(0, 0xE0000000100), (1, 0xE0000000200), (2, 0xE0000000300), (3, 0xE0000000400)],
              le := [(0, 0xE0000004000), (1, 0xE0000003000), (2, 0xE0000002000), (3, 0xE0000001000)],
              lc := if c1 = 0 then [] else [(3, c1)] }

theorem test_AluResults : ∃ (s t : State) (n : Nat) (k : Cond) (w : Bool) (d a : Fin 16) (b : AluSrc),
    Ready s t n k 2 ∧ (w = true → evenReg d.val = true ∧ evenReg a.val = true) ∧ aluSrcOk w b = true :=
  ⟨on 191 live, _, 191, .np1, true, 14, 14, .reg 14, ready_of _ _ _ _ (by decide), by decide, by decide⟩
theorem test_ShiftAndMultiplyResults : ∃ (s t : State) (n : Nat) (k : Cond) (w : Bool) (d a b : Fin 16) (x : ShiftSrc),
    Ready s t n k 2 ∧ w = true ∧ evenReg d.val = true ∧ evenReg a.val = true ∧ evenReg b.val = true ∧ shiftSrcOk w x = true :=
  ⟨on 0 live, _, 0, .al, true, 14, 0, 2, .imm 31, ready_of _ _ _ _ (by decide), rfl, by decide, by decide, by decide, by decide⟩

theorem test_AluResults_illegal : ∃ (s t : State) (n : Nat) (k : Cond) (d a : Fin 16) (b : AluSrc), Ready s t n k 2 ∧ evenReg d.val = false ∧
    evenReg a.val = false ∧ aluSrcOk true b = false ∧ a ≠ 0 ∧ d ≠ 0 :=
  ⟨on 191 live, _, 191, .al, 15, 1, .reg 1, ready_of _ _ _ _ (by decide), by decide, by decide, by decide, by decide, by decide⟩
theorem test_ShiftAndMultiplyResults_illegal : shiftSrcOk false (.imm 16) = false ∧ shiftSrcOk false (.imm 15) = true ∧
    shiftSrcOk true (.imm 31) = true := by decide

theorem test_MovesAndAddressResults : (∃ s t n k, Ready s t n k 4) ∧
    ∃ (s t : State) (n : Nat) (k : Cond) (dn : Fin 16), Ready s t n k 2 ∧ quadReg dn.val = true :=
  ⟨⟨on 0 live, _, 0, .ne, ready_of _ _ _ _ (by decide)⟩, on 0 live, _, 0, .nl, 12, ready_of _ _ _ _ (by decide), by decide⟩

theorem test_PredicatesAndConditions : ∃ (s t : State) (n : Nat) (k : Cond) (d a : Fin 16) (b : AluSrc), s.issues n = true ∧
    (s.core n).peek = false ∧ t = (s.fetched n 2).modCore n (fun c => c.issuing (s.cycles n)) ∧ t.fetchPoison n 2 = none ∧
    (condPreds k).any (t.core n).pp = false ∧ (t.core n).cond k = false ∧ aluLegal .full true true d a b = true :=
  ⟨on 5 live, _, 5, .p3, 2, 4, .imm 0x400, by decide, rfl, rfl, by decide, by decide, by decide, by decide⟩

theorem test_PredicatesAndConditions_cmpp : ∃ (s t : State) (n : Nat) (k cd : Cond) (w : Bool) (a b : Fin 16), Ready s t n k 2 ∧
    cd ∈ [Cond.eq, .ne, .lt, .ge, .cs, .cc, .mi] ∧ (w = true → evenReg a.val = true ∧ evenReg b.val = true) :=
  ⟨on 5 live, _, 5, .al, .mi, true, 2, 14, ready_of _ _ _ _ (by decide), by decide, by decide⟩
theorem test_PredicatesAndConditions_illegal : ∃ (s t : State) (n : Nat) (k cd : Cond) (w : Bool) (a b : Fin 16), Ready s t n k 2 ∧
    (cd ∉ [Cond.eq, .ne, .lt, .ge, .cs, .cc, .mi] ∨ w = true ∧ ¬(evenReg a.val = true ∧ evenReg b.val = true)) :=
  ⟨on 5 live, _, 5, .al, .ll, true, 3, 4, ready_of _ _ _ _ (by decide), by decide⟩

theorem test_ResultsAreDeliveredInOrder : ∃ (k : Core) (i : Nat), (∀ f ∈ k.flight, f.ref ≠ .d i) ∧ (∀ f ∈ k.flight, f.ref ≠ .a i) ∧ k.flight ≠ [] :=
  ⟨live.sendD 5 3 7, 4, by decide, by decide, by decide⟩
/-- R93: an older result of distance 5 and a newer one of distance 2 that are due together: the newer stays. -/
theorem test_ResultsAreDeliveredInOrder_overlap :
    (Nat.repeat Core.tick 2 ((Nat.repeat Core.tick 3 (live.sendD 5 15 7)).sendD 2 15 9)).dreg 15 = 9 := by decide

theorem test_BranchesHaveOneDelaySlot : (∃ (s t : State) (n : Nat) (k : Cond) (d : BitVec 22) (tgt : W64),
      Ready s t n k 2 ∧ (t.core n).branchOk = true ∧ t.fetchFault tgt = none ∧
      tgt = BitVec.ofInt 64 ((t.core n).pc.toNat + 2 * sval 22 d.toNat)) ∧
    ∃ (s t : State) (n : Nat) (k : Cond) (aa : Fin 8) (tgt : W64), Ready s t n k 2 ∧ (t.core n).branchOk = true ∧
      t.fetchFault tgt = none ∧ tgt = (t.core n).areg aa.val :=
  ⟨⟨on 7 live, _, 7, .al, 0x3FF800, _, ready_of _ _ _ _ (by decide), by decide, by decide, rfl⟩,
    on 7 stacked, _, 7, .al, 7, _, ready_of _ _ _ _ (by decide), by decide, by decide, rfl⟩

theorem test_HardwareLoops_end : (looping 15 2).flight = [] ∧ (looping 15 2).redirect = none ∧ (looping 15 2).inner = some 3 ∧
    (looping 15 2).ler 3 = (looping 15 2).pc ∧ laLhOk (looping 15 2).la (looping 15 2).lh = true ∧ 1 < ((looping 15 2).lcr 3).toNat ∧
    (looping 15 0).inner = some 3 ∧ (looping 15 0).ler 3 = (looping 15 0).pc ∧ ((looping 15 0).lcr 3).toNat ≤ 1 := by decide

theorem test_HardwareLoops_set_up : ∃ (s t : State) (n : Nat) (k : Cond) (o : BitVec 18), Ready s t n k 2 ∧ Ready s (startOf s n 4) n k 4 ∧
    (t.core n).notInSlot = true ∧ levels (t.core n).la < 4 ∧
    let ls := (t.core n).pc + BitVec.ofNat 64 2
    let le := (t.core n).pc + 2 * o.zeroExtend 64
    ls.toNat < le.toNat ∧ (t.core n).nestsIn ls le = true :=
  ⟨on 1 (looping 7 0), _, 1, .al, 0x7FF, ready_of _ _ _ _ (by decide), ready_of _ _ _ _ (by decide), by decide, by decide, by decide⟩

theorem test_CallAndRet_call : ∃ (s t : State) (n : Nat) (k : Cond) (aa : Fin 8), Ready s t n k 2 ∧ (t.core n).branchOk = true ∧
    t.callFault ((t.core n).areg 7 - 4) ((t.core n).areg aa.val) = none :=
  ⟨on 0 stacked, _, 0, .al, 7, ready_of _ _ _ _ (by decide), by decide, by decide⟩

/-- A stack word that returns to the bottom of the window, with no level held. -/
theorem test_CallAndRet_ret : ∃ (s t : State) (n : Nat) (k : Cond), Ready s t n k 2 ∧ (t.core n).branchOk = true ∧
    let sp := (t.core n).areg 7
    let p := physOf n (localOf sp)
    let u := t.touchAll (addrs p 4)
    let w := BitVec.ofNat 64 (natOfWords (u.words p 4))
    t.stackFault sp = none ∧ u.anyMark p 4 = false ∧ u.fetchFault (setFld w 60 4 0) = none ∧
    laLhOk ((t.core n).la &&& (t.core n).lh) (fld w 60 4) = true :=
  ⟨(on 0 stacked).writeRun (localAddr 0 0x2000) [0, 0, 0x0E00, 0], _, 0, .al, ready_of _ _ _ _ (by decide), by decide, by decide⟩

/-- An access at the last word of the window by pre-decrement; a quad at the last place it fits; and a word, which needs no alignment. -/
theorem test_LocalLoads : ∃ (s t : State) (n : Nat) (k : Cond) (rg : BitVec 4) (an : Fin 8) (x : BitVec 12) (ea : W64) (up : Option W64),
    Ready s t n k 2 ∧ (t.core n).scalarEa an.val 3 x = some (ea, up) ∧ LsSize.quad.regOk rg = true ∧ LsSize.pair.regOk rg = true ∧
    LsSize.addr.regOk rg = true ∧ t.lsTarget ea 4 = .local_ ∧ t.lsTarget ea 2 = .local_ ∧ t.lsTarget ea 1 = .local_ ∧
    (t.touchAll (addrs (physOf n (localOf ea)) 4)).firstMark n ea 4 = none :=
  ⟨on 191 { live with a := [(0, 0xE0000100000)] }, _, 191, .al, 4, 0, 4, _, _, ready_of _ _ _ _ (by decide), rfl, by decide, by decide,
    by decide, by decide, by decide, by decide, by decide⟩

theorem test_LocalStoresAndTheirFrame : ∃ (s t u : State) (n : Nat) (k : Cond) (rg : BitVec 4) (an : Fin 8) (ea : W64) (up : Option W64),
    Ready s t n k 2 ∧ (t.core n).flight = [] ∧ (t.core n).scalarEa an.val 2 4 = some (ea, up) ∧ LsSize.addr.regOk rg = true ∧
    t.lsTarget ea 4 = .local_ ∧ exec (.stA n k rg an 2 4) s = .next u :=
  ⟨on 191 stacked, _, _, 191, .al, 0, 7, _, _, ready_of _ _ _ _ (by decide), by decide, rfl, by decide, by decide, rfl⟩

/-- A7 at PG_ID of the Global page, at supervisor level. -/
theorem test_DeviceLoadsAndStores : ∃ (s t : State) (n : Nat) (k : Cond) (rg : BitVec 4) (an : Fin 8) (ea : W64) (up : Option W64),
    Ready s t n k 2 ∧ (t.core n).scalarEa an.val 0 0 = some (ea, up) ∧ (∀ w, DevPlace t n ea .mmio w t (localOf ea)) ∧ LsSize.addr.regOk rg = true ∧
    t.lsTarget ea 2 = .device .mmio ∧ t.lsTarget ea 4 = .device .mmio ∧ ((t.devWrite n true .mmio (localOf ea) 0).core n).resetting = false ∧
    regionOf (localOf ea) = .mmio ∧ t.isHere ea = true :=
  ⟨on 0 { live with a := [(7, 0xF0000000000)] }, _, 0, .al, 0, 7, _, _, ready_of _ _ _ _ (by decide), rfl,
    fun _ => .inl ⟨by decide, rfl, rfl⟩, by decide, by decide, by decide, by decide, by decide, by decide⟩

/-- A core at user level with translation on and a table at the bottom of LPDDR6 whose one leaf, of level 2, maps the MMIO window for reads alone. -/
def mmioLeaf : BitVec 128 := BitVec.ofNat 128 (2 ^ 63 + 2 ^ 62 + 2 ^ 61 + 0xF0000000000)
def mmioHit : TlbEntry := { vpage := 0xF0000000000, big := true, entry := mmioLeaf, leaf := 0x10000002000 }
def translated (tlb : List TlbEntry) : State :=
  (({ on 0 { user with a := [(7, 0xF0000000000)], rootUse := 0x100, tlb := tlb } with
      regs := [(rRun 0, 0), (rXrootLo 0, 1)] }).setEntry 0x10000001E00 (BitVec.ofNat 128 (2 ^ 63 + 0x10000002000))).setEntry 0x10000002000 mmioLeaf

set_option maxRecDepth 40000 in
theorem test_DeviceLoadsAndStores_translated : ∀ l ∈ [[], [mmioHit]], let s := translated l
    runs s 0 .al 2 = true ∧ ((startOf s 0 2).core 0).scalarEa 7 0 0 = some (0xF0000000000, none) ∧
    (startOf s 0 2).xlOn 0 ((startOf s 0 2).core 0).sup = true ∧ (startOf s 0 2).fresh 0 0xF0000000000 = startOf s 0 2 ∧
    (startOf s 0 2).tlbFind 0 0xF0000000000 = l.head? ∧ (startOf s 0 2).lsTarget 0xF0000000000 2 = .device .mmio ∧
    (startOf s 0 2).leafCheck mmioHit 0xF0000000000 false (.direct .mmio) = none ∧ mmioHit.pa 0xF0000000000 = 0xF0000000000 ∧
    (startOf s 0 2).leafCheck mmioHit 0xF0000000000 true (.direct .mmio) = some .protection := by decide

theorem test_DeviceLoadsAndStores_return : ((on 0 { live with hold := some (.load 4 (.a 7) 0xE0300000000 (some (0, 0))) }).core 0).hold =
    some (.load 4 (.a 7) 0xE0300000000 (some (0, 0))) := by decide

/-! ## Exceptions and system instructions: hypotheses that can be met -/

/-- A7 at the lowest place a frame fits, with the vectors at the top of the window. -/
theorem test_ExceptionEntry : let s := on 0 { live with a := [(7, 0xE0000000050)], sr := 0x80000000, vbr := 0xE00000FFF00,
                                                        record := List.replicate 14 { ep := true, esc := false } }
    let c := (s.core 0).drain
    c.masked = false ∧ c.record.length < 15 ∧ (c.areg 7 - 80).toNat % 4 = 0 ∧ s.inWindow (c.areg 7 - 80) 80 = true ∧
    s.fetchFault ((s.core 0).vbr + BitVec.ofNat 64 (8 * Cause.pyro.code)) = none := by decide

theorem test_TrapsAndPrivilege : ∃ (s t : State) (n : Nat) (k : Cond) (rg : BitVec 4), Ready s t n k 2 ∧ (t.core n).sup = false ∧
    (t.core n).notInSlot = true ∧ movcLegal 0x18 1 rg = true ∧ movcLegal 0x24 0 rg = true ∧ movcLegal 0x20 2 0 = true :=
  ⟨on 0 user, _, 0, .al, 12, ready_of _ _ _ _ (by decide), by decide, by decide, by decide, by decide, by decide⟩

set_option maxRecDepth 20000 in
/-- A frame of zeros but for its PC. -/
theorem test_RteRestoresTheFrame : ∃ (s t : State) (n : Nat) (k : Cond), Ready s t n k 2 ∧ (t.core n).notInSlot = true ∧
    (t.core n).sup = true ∧ (t.core n).flight = [] ∧
    let c := t.core n
    let at_ := c.frameAt
    let p := physOf n (localOf at_)
    let u := t.touchAll (addrs p 80)
    let f : Frame := { ws := u.words p 80 }
    at_.toNat % 4 = 0 ∧ t.inWindow at_ 80 = true ∧ u.anyMark p 80 = false ∧ u.frameFault c.topRec.1 f = none ∧ f.opid.getLsbD 31 = false :=
  ⟨(on 0 stacked).writeRun (localAddr 0 0x2004) [0, 0, 0x0E00, 0], _, 0, .al, ready_of _ _ _ _ (by decide), by decide, by decide, by decide,
    by decide⟩

theorem test_ControlRegisters : ∃ (s t : State) (n : Nat) (k : Cond) (rg : BitVec 4), Ready s t n k 2 ∧ (∀ crn, (t.core n).mayCr crn = true) ∧
    evenReg rg.toNat = true ∧ quadReg rg.toNat = true ∧ laLhOk (fld ((t.core n).dpair rg.toNat) 24 4) (fld ((t.core n).dpair rg.toNat) 20 4) = true ∧
    (t.core n).loopWriteOk 4 ((t.core n).dquad rg.toNat) = true ∧ (t.core n).loopWriteOk 0xB ((t.core n).areg 0) = true :=
  ⟨on 0 live, _, 0, .al, 4, ready_of _ _ _ _ (by decide), by decide, by decide, by decide, by decide, by decide, by decide⟩

def waiter : SEntry := SEntry.enter 0 (.tzero 0) (fun _ => 0x40400040)

/-- A core with nothing outstanding, one whose Setter holds an operation, and one held by a fence that can be released. -/
theorem test_FencesTlbiAndTend : (∃ s t n k, Ready s t n k 2 ∧ (t.core n).feederDone = true ∧ (t.core n).setterDone = true ∧ t.storesOut n = false ∧
      (t.core n).sup = true ∧ (t.core n).tendOk = true ∧ (t.core n).dst = .run) ∧
    (∃ s t n k, Ready s t n k 2 ∧ (t.core n).setterDone = false) ∧
    (∃ s t n k x, Ready s t n k 2 ∧ (t.core n).tendOk = true ∧ (t.core n).dst = .task ∧ (t.core n).task = some x) ∧
    (∃ (s : State) (n : Nat), s.power = .running ∧ n < 192 ∧ (s.core n).hold = some (.fence 3) ∧ s.fenceOk n 3 = true) :=
  ⟨⟨on 0 live, _, 0, .al, ready_of _ _ _ _ (by decide), by decide, by decide, by decide, by decide, by decide, by decide⟩,
    ⟨on 0 { live with setter := [waiter] }, _, 0, .al, ready_of _ _ _ _ (by decide), by decide⟩,
    ⟨on 0 { live with dst := .task, task := some ⟨0, 0, false, 0, 0, 0, false, none, none, none⟩ }, _, 0, .al, _, ready_of _ _ _ _ (by decide),
      by decide, by decide, rfl⟩,
    on 191 { live with hold := some (.fence 3) }, 191, by decide, by decide, by decide, by decide⟩

/-! ## The Comb: hypotheses that can be met -/

/-- A semaphore with a count. -/
def sem (v : W32) : Sem := { count := v, fifo := [], waits := [], mark := false }

/-- A core whose A7 names the last semaphore, and one whose A7 names the last context, both of core or context of this Comb. -/
def atSem : Core := { live with a := [(7, 0xE0300000000 + 0xFFFF0)], d := [(0, 5)] }
def atCtx : Core := { live with a := [(7, 0xE0300000000 + 0x100000 + 63 * 0x800)] }

theorem test_SemaphoreArithmetic_short : ∃ (s t : State) (n : Nat) (k : Cond) (dn : Fin 16) (j : Nat), Ready s t n k 2 ∧
    NamesHere t n ((t.core n).areg 7) false true j ∧ (t.sem j).mark = false ∧ evenReg dn.val = true ∧
    (t.sem j).count.toNat + ((t.core n).dpair dn.val).toNat ≤ 0x7FFFFFFF ∧ ((t.core n).dpair dn.val).toNat ≤ (t.sem j).count.toNat :=
  ⟨{ on 0 atSem with sems := [(65535, sem 0x7FFFFFFA)] }, _, 0, .al, 0, 65535, ready_of _ _ _ _ (by decide), ⟨by decide, by decide, by decide⟩,
    by decide, by decide, by decide, by decide⟩
theorem test_SemaphoreArithmetic_faults : ∃ (s t : State) (n : Nat) (k : Cond) (v : BitVec 32) (j : Nat), Ready s t n k 4 ∧
    (∀ r, NamesHere t n ((t.core n).areg 7) false r j) ∧ (t.sem j).mark = false ∧ 0x7FFFFFFF < (t.sem j).count.toNat + v.toNat ∧ v ≠ 0 ∧
    (t.sem j).count.toNat < v.toNat :=
  ⟨{ on 0 atSem with sems := [(65535, sem 0x3FFFFFFF)] }, _, 0, .al, 0x40000001, 65535, ready_of _ _ _ _ (by decide),
    fun r => by cases r <;> exact ⟨by decide, by decide, by decide⟩, by decide, by decide, by decide, by decide⟩
theorem test_SemaphoreArithmetic_marked : ∃ (s t : State) (n : Nat) (k : Cond) (j : Nat), Ready s t n k 4 ∧
    (∀ r, NamesHere t n ((t.core n).areg 7) false r j) ∧ (t.sem j).mark = true :=
  ⟨{ on 0 atSem with sems := [(65535, { sem 0 with mark := true })] }, _, 0, .al, 65535, ready_of _ _ _ _ (by decide),
    fun r => by cases r <;> exact ⟨by decide, by decide, by decide⟩, by decide⟩
theorem test_SemaphoreArithmetic_answer : On (on 0 { live with hold := some (.comb none 0) }) ∧
    ((on 0 { live with hold := some (.comb none 0) }).core 0).hold = some (.comb none 0) ∧
    ((on 0 { live with hold := some (.wait true false 3) }).core 0).hold = some (.wait true false 3) := by decide

/-- A count equal to what is waited for, and one below it; an empty FIFO, and one that is not. -/
theorem test_SemaphoreWaiting : ∃ (s t : State) (n : Nat) (k : Cond) (v : BitVec 32) (j : Nat), Ready s t n k 2 ∧ Ready s (startOf s n 4) n k 4 ∧
    NamesHere t n ((t.core n).areg 7) false false j ∧ (t.sem j).mark = false ∧ v = (t.core n).dpair 0 ∧ v.toNat ≤ 0x7FFFFFFF ∧
    (t.sem j).fifo = [] ∧ v.toNat ≤ (t.sem j).count.toNat :=
  ⟨{ on 0 atSem with sems := [(65535, sem 5)] }, _, 0, .al, 5, 65535, ready_of _ _ _ _ (by decide), ready_of _ _ _ _ (by decide),
    ⟨by decide, by decide, by decide⟩, by decide, by decide, by decide, by decide, by decide⟩
theorem test_SemaphoreWaiting_short : ∃ (s t : State) (n : Nat) (k : Cond) (v : BitVec 32) (j : Nat), Ready s t n k 2 ∧
    NamesHere t n ((t.core n).areg 7) false false j ∧ (t.sem j).mark = false ∧ v = (t.core n).dpair 0 ∧
    (t.sem j).fifo ≠ [] ∧ (t.sem j).count.toNat < v.toNat :=
  ⟨{ on 0 atSem with sems := [(65535, { sem 4 with fifo := [(1, 9)] })] }, _, 0, .al, 5, 65535, ready_of _ _ _ _ (by decide),
    ⟨by decide, by decide, by decide⟩, by decide, by decide, by decide, by decide⟩

theorem test_CombRegisterOperations : ∃ s : State, On s ∧ (s.sem 65535).mark = false ∧
    (s.sem 65535).count.toNat + (s.reg rHopv).toNat ≤ 0x7FFFFFFF ∧ (s.reg rHopv).toNat ≤ (s.sem 65535).count.toNat ∧
    s.bitReg rJrootLo 0 = false ∧ (s.ctx 63).mark = false ∧ s.bEn 63 = true ∧ s.bEn 62 = false ∧
    s.fldReg (pageBase .comb + oErr) 0 16 = 0 :=
  ⟨{ up [(rHopv, 3), (rBctl 63, 0x80000000)] with sems := [(65535, sem 7)] }, by decide⟩
/-- B_CTL of context 63 as it stands with EN, with ARM changed, with another field changed, and with EN cleared. -/
theorem test_CombRegisterOperations_bctl : let s := up [(rBctl 63, 0x80000000)]
    ((0x90000000 : W32) ^^^ s.reg (rBctl 63)) &&& 0x60FFFFFF = 0 ∧ (0x90000000 : W32).getLsbD 31 = true ∧
    ((0x80000001 : W32) ^^^ s.reg (rBctl 63)) &&& 0x60FFFFFF ≠ 0 ∧ (0 : W32) &&& 0xF0FFFFFF = s.reg (rBctl 63) &&& 0x7FFFFFFF := by decide
theorem test_CombRegisterOperations_quiet : Quiet (up []) := ⟨fun _ => ⟨rfl, rfl⟩, fun _ => ⟨rfl, rfl⟩⟩
/-- A packet of a type to a chip, from chip 5 with HOP 9, with an address, a type-specific field and words. -/
def pkt (dst type addr : Nat) (tsf : W64) (ws : List Word) : Packet :=
  mkPacket 5 9 { dst := dst, mc := false, type := type, tag := 17, pmask := 0, epoch := 0, addr := addr, stat := 0, tsf := tsf, data := ws }

theorem test_CombRegisterOperations_packet : (pkt 0 5 (combBase + 16 * 65535) 0x4000000000000009 []).addr = combBase + 16 * 65535 ∧
    fld (pkt 0 5 (combBase + 16 * 65535) 0x4000000000000009 []).tsf 62 2 = 1 ∧
    fld (pkt 0 5 (combBase + 16 * 65535) 0x4000000000000009 []).tsf 0 32 = 9 := by decide

/-- Context 63 is enabled with GEN 0xFFFF and waits for cores 0 and 1, the host and two children. -/
def ctxRegs : Store W32 := [(rBctl 63, 0xA0020000), (rBgen 63, 0xFFFF), (rBmask 63 0, 3), (rRun 0, 0)]
def atBar : State := { on 0 atCtx with regs := ctxRegs }

set_option maxRecDepth 20000 in
theorem test_Barriers_arrival : ∃ s t n k, Ready s t n k 2 ∧ NamesHere t n ((t.core n).areg 7) true false 63 ∧ t.bEn 63 = true ∧
    t.bMask 63 n = true ∧ (t.ctx 63).now.cores.getLsbD n = false ∧
    t.allHere 63 { (t.ctx 63).now with cores := setBit (t.ctx 63).now.cores n true } = false ∧
    t.bHost 63 = true ∧ (t.ctx 63).now.host = false ∧ t.allHere 63 { (t.ctx 63).now with host := true } = false ∧
    t.allHere 63 { (t.ctx 63).now with child := 1 } = false ∧ t.bArm 63 = false ∧ (t.ctx 63).next.cores.getLsbD n = false ∧
    t.bEn 62 = false :=
  ⟨atBar, _, 0, .al, ready_of _ _ _ _ (by decide), ⟨by decide, by decide, by decide⟩, by decide, by decide, by decide, by decide, by decide,
    by decide, by decide, by decide, by decide, by decide, by decide⟩

/-- The same context, where core 0 has arrived for GEN, and where it has arrived for GEN + 1 as well. -/
theorem test_Barriers_again : ∀ x ∈ [Arrivals.none_, { Arrivals.none_ with cores := 1 }],
    let s := atBar.setCtx 63 { atBar.ctx 63 with now := { Arrivals.none_ with cores := 1, host := true }, next := x }
    s.issues 0 = true ∧ (s.core 0).peek = false ∧ s.bEn 63 = true ∧ s.bMask 63 0 = true ∧ (s.ctx 63).now.cores.getLsbD 0 = true ∧
    (s.ctx 63).now.host = true ∧ (s.ctx 63).next.host = false ∧
    s.allHere 63 (s.ctx 63).now = false ∧ (s.ctx 63).next = x ∧ s.bMask 63 2 = false := by decide

/-- A wait for a generation just over, one for the present one, and one at each end of the range of generations that are over. -/
theorem test_Barriers_wait : (1 ≤ (0xFFFF + 65536 - 0xFFFE) % 65536 ∧ (0xFFFF + 65536 - 0xFFFE) % 65536 ≤ 0x7FFF) ∧
    ¬ (1 ≤ (0xFFFF + 65536 - 0xFFFF) % 65536) ∧ ((0xFFFF + 65536 - 0x8000) % 65536 ≤ 0x7FFF) ∧
    ¬ ((0xFFFF + 65536 - 0x7FFF) % 65536 ≤ 0x7FFF) ∧ barOver 0xFFFF 0xFFFE = true ∧ barOver 0xFFFF 0xFFFF = false ∧
    barOver 0xFFFF 0x8000 = true ∧ barOver 0xFFFF 0x7FFF = false := by decide

set_option maxRecDepth 20000 in
theorem test_Barriers_release : let s := up ctxRegs
    let p := pkt 0 0xA 0 0x3FFFFF []
    let t := s.consume p
    On s ∧ fld p.tsf 16 6 = 63 ∧ t.bEn 63 = true ∧ t.bRoot 63 = false ∧ fld p.tsf 0 16 = t.bGen 63 ∧ t.isStep 63 = false ∧ t.bArm 63 = false ∧
    t.allHere 63 (t.ctx 63).next = false ∧ ∀ r ∈ s.inbox, r.pkt = p → r.copy = true := by decide

set_option maxRecDepth 20000 in
/-- A release that came on link 95 and was not forwarded yet, of a group whose entry has no local copy. -/
theorem test_Barriers_forward : let p := mkPacket 5 9 { reqSpec 3 0xA 0 0 [] with mc := true }
    let r : Rx := { link := some 95, lane := 4, pkt := p }
    let s := { up [] with inbox := [r], mcast := [(3, { links := 0, attr := 0x80000000, mark := false })] }
    s.inbox.find? (fun r => r.pkt == p && !r.copy) = some r ∧
    s.mayLeave p = true ∧ (s.mcForward r.link p).inbox.any (fun r => r.pkt == p && r.copy) = false := by decide

/-! ## Bring-up, resets and core control: hypotheses that can be met -/

def cool : Sensors := { dies := List.replicate 14 109, clusters := List.replicate 16 40 }

theorem test_PowerColdResetAndStraps : State.reset.power = .reset ∧ State.reset.links = [] ∧ ({ State.reset with power := .off }).power = .off ∧
    ({ State.reset with power := .tripped }).power = .tripped ∧ ({ State.reset with power := .tripHeld }).power = .tripHeld ∧
    ({ State.reset with power := .brownOut }).power = .brownOut ∧
    ({ State.reset with power := .brownOut, pins := { State.reset.pins with modRstN := true } }).pins.modRstN = true ∧
    ({ State.reset with power := .brownOut, pins := { State.reset.pins with modRstN := false } }).pins.modRstN = false ∧ On (up []) ∧ (∀ x ∈ cool.dies ++ cool.clusters, x < 110) ∧
    ∃ x ∈ [110] ++ cool.clusters, 110 ≤ x := by decide

/-- The stages of bring-up, with the bits of GLOBAL_SVC that each step has behind it. -/
theorem test_BringUpSteps : (On (up [(rSvc, 0x10010000)]) ∧ (up [(rSvc, 0x10010000)]).heldReset = false ∧ (up [(rSvc, 0x10010000)]).stage = 1 ∧
      (up [(rSvc, 0x10010000)]).bitReg rSvc 16 = true) ∧
    ((up [(rSvc, 0x20030000), (rStrap, 0x400)]).stage = 2 ∧ (up [(rSvc, 0x20030000), (rStrap, 0x400)]).fldReg rStrap 8 2 = 0 ∧
      (up [(rSvc, 0x20030000)]).bootOrder.find? (fun b => (up [(rSvc, 0x20030000)]).slotStatus b == 0) = none) ∧
    ((up [(rSvc, 0x30070000)]).stage = 3 ∧ (up [(rSvc, 0x30070000)]).bitReg rSvc 19 = false ∧ (up [(rSvc, 0x30070000)]).bitReg rSvc 20 = false) ∧
    ((up [(rSvc, 0x301F0000)]).bitReg rSvc 19 = true ∧ (up [(rSvc, 0x301F0000)]).bitReg rSvc 20 = true ∧
      (up [(rSvc, 0x301F0000)]).bitReg rSvc 21 = false ∧ ∀ l < 96, (up [(rSvc, 0x301F0000)]).lk l ≠ 2 ∧ (up [(rSvc, 0x301F0000)]).lk l ≠ 3 ∧
        ((up [(rSvc, 0x301F0000)]).lk l = 4 → ((up [(rSvc, 0x301F0000)]).link l).full = true)) ∧
    ((up [(rSvc, 0x303F0000)]).stage = 3 ∧ (up [(rSvc, 0x303F0000)]).bitReg rSvc 21 = true) := by decide

theorem test_ResetsOfParts : On (up [(rSvc, 0x40000000)]) ∧ Src.user (.core 3 true) = false ∧ fld (0xA5000001 : W32) 24 8 = 0xA5 ∧
    (0xA5000001 : W32).getLsbD 0 = true ∧ (0xA5000001 : W32).getLsbD 1 = false ∧ (0xA5000002 : W32).getLsbD 0 = false ∧
    (0xA5000002 : W32).getLsbD 1 = true ∧ (0xA5000003 : W32).getLsbD 0 = true ∧ (0xA5000003 : W32).getLsbD 1 = true ∧ fld (0xA5000003 : W32) 24 8 = 0xA5 ∧
    Src.host ≠ .core 3 true ∧ (up [(rSvc, 0x40000000)]).stage = 4 ∧ (up [(rSvc, 0x30000000)]).stage ≠ 4 ∧
    (up [(rSvc, 0x30000000)]).stage ≠ 0xE ∧ (up [(rSvc, 0x30000000)]).stage ≠ 0xF := by decide

theorem test_CablesAndConfiguration : ∃ s : State, On s ∧ (∃ k < 12, ∃ l, l / 8 = k ∧ s.lk l = 1) ∧ (∃ l, l / 8 = 11 ∧ s.lk l ≠ 0 ∧ s.lk l ≠ 1) ∧
    s.bitReg rCfg 14 = false ∧ (0x4000 : BitVec 32).getLsbD 14 ≠ s.bitReg rCfg 14 :=
  ⟨up [(rLkStat 0, 0x10000000), (rLkStat 95, 0x40000000)], by decide, ⟨0, by decide, 0, by decide, by decide⟩,
    ⟨95, by decide, by decide, by decide⟩, by decide, by decide⟩

/-- A page whose source is high as its enable rises: PG_ERR of the Comb holds an error. -/
theorem test_PageHeaderAndRegisterWrites : ∃ s : State, On s ∧ pageExists (.core 191) = true ∧ pageExists .comb = true ∧ s.anyIrq = false ∧
    (0xFFFFFFFF &&& ~~~(s.reg (pageBase .comb + oIrqEn)) &&& s.irqRaw .comb) ≠ 0 ∧ s.msixMask.getLsbD 0 = false ∧ InTurn s .host :=
  ⟨{ up [(pageBase .comb + oErr, 6)] with msixMask := 0 }, by decide, by decide, by decide, by decide, by decide, by decide, .inr rfl⟩
theorem test_PageHeaderAndRegisterWrites_row : let s : State := { up [] with bursts := [.read 255 0 32] }
    On s ∧ s.bursts ≠ [] ∧ sourceOf (.qeWrite .host 3 7) = some .host ∧ rowOf (.qeWrite .host 3 7) = some (.qeWrite 3 7) :=
  ⟨⟨rfl, rfl⟩, by decide, rfl, rfl⟩
theorem test_PageHeaderAndRegisterWrites_waits : ({ up [] with bursts := [.read 255 0 32] }).bursts ≠ [] ∧
    InTurn { up [] with bursts := [.read 255 0 32] } .mgmt ∧ (0xBF : BitVec 64).getLsbD 0 = true ∧ (0xBE : BitVec 64).getLsbD 0 = false :=
  ⟨by decide, .inl (by decide), by decide, by decide⟩

theorem test_CoreControl : ∃ s : State, On s ∧ (s.core 191).resetting = false ∧ (s.core 0).resetting = true ∧ (s.core 191).dst = .task :=
  ⟨{ on 191 { live with dst := .task } with cores := [(0, { live with resetting := true }), (191, { live with dst := .task })] }, by decide⟩

/-! ## Links and the fabric: hypotheses that can be met -/

/-- Link 95 in a given state. -/
def lkUp (st : Nat) (k : Link) : State := { up [(rLkStat 95, BitVec.ofNat 32 (st * 2 ^ 28))] with links := [(95, k)] }

theorem test_LinkStates : (lkUp 0 Link.reset).lk 95 = 0 ∧ (lkUp 2 Link.reset).lk 95 = 2 ∧ (lkUp 6 Link.reset).lk 95 = 6 ∧
    (lkUp 7 Link.reset).lk 95 = 7 ∧ On (lkUp 4 { Link.reset with offered := true }) ∧
    (lkUp 4 { Link.reset with offered := true }).lk 95 = 4 ∧ ((lkUp 4 { Link.reset with offered := true }).link 95).offered = true ∧
    ((lkUp 4 { Link.reset with offered := true }).link 95).peerOff = false ∧ ((lkUp 4 { Link.reset with offered := true }).link 95).full = false ∧
    (pkt 0 0x22 0 1 []).tsf.getLsbD 0 = true ∧ (lkUp 5 { Link.reset with draining := true, missed := 2 }).lk 95 = 5 ∧
    ((lkUp 5 { Link.reset with draining := true, missed := 2 }).link 95).draining = true ∧
    ((lkUp 5 { Link.reset with draining := true, missed := 2 }).link 95).unacked = [] ∧
    ((lkUp 5 { Link.reset with draining := true, missed := 2 }).link 95).txq = [] ∧
    ((lkUp 5 { Link.reset with draining := true, missed := 2 }).link 95).missed = 2 ∧
    ((lkUp 6 Link.reset).link 95).full = false := by decide

/-- HELLO data from a peer with PID 0x0123456789ABCDEF at chip 6, echoing a nonce; and a certificate for its key. -/
def hello (echo : W64) : Packet :=
  pkt 0 0x20 0 0 (wordsOf64 0x0123456789ABCDEF ++ [6, 0, 0, 0] ++ [1, 1, 1, 1] ++ wordsOf64 echo ++ List.replicate 64 0)
def certFor : Packet := pkt 0 0x21 0 0 ([0, 0] ++ wordsOf64 0x0123456789ABCDEF ++ List.replicate 74 0)

theorem test_DiscoveryAndFlits_hello : pktWords (hello 0) 12 4 = 0 ∧ pktWords (hello 7) 12 4 ≠ 0 ∧
    (lkUp 3 Link.reset).certOk 95 certFor = false ∧ (up [(rLkCtl 95, 0x80000000)]).bitReg (rLkCtl 95) 30 = false ∧
    (up []).bitReg (rLkCtl 95) 30 = true := by decide

/-- The certificate that the checks accept, if both signatures verify. -/
theorem test_DiscoveryAndFlits_certificate (h1 : ∀ m g, Config.ed25519Verify ((bytesOfWords (hello 7).data).drop 64 |>.take 32) m g = true)
    (h2 : ∀ m g, Config.ed25519Verify Config.deviceRootKey m g = true) :
    ((lkUp 3 { Link.reset with nonce := 7, hello2 := some (hello 7) }).link 95).hello2 = some (hello 7) ∧
    (lkUp 3 { Link.reset with nonce := 7, hello2 := some (hello 7) }).certOk 95 certFor = true := by
  refine ⟨rfl, ?_⟩
  have e : (lkUp 3 { Link.reset with nonce := 7, hello2 := some (hello 7) }).link 95 = { Link.reset with nonce := 7, hello2 := some (hello 7) } := rfl
  unfold State.certOk
  rw [e]
  dsimp only
  rw [h1, h2]
  decide

/-- A peer that was accepted before with the same identity, with another PID, and at another chip address. -/
theorem test_DiscoveryAndFlits_last : pktWords (hello 7) 0 4 = 0x0123456789ABCDEF ∧ pktWords (hello 7) 4 2 % 2 ^ 20 = 6 ∧
    ∀ e ∈ [((0x0123456789ABCDEF : W64), (6 : BitVec 20)), (1, 6), (0x0123456789ABCDEF, 7)],
      ((lkUp 3 { Link.reset with lastPid := some e }).link 95).lastPid = some e :=
  ⟨by decide, by decide, fun _ _ => rfl⟩

/-- A data flit with sequence number 0xFFF and no packet. -/
def flit252 : List (BitVec 8) := [0xFF, 0x0F] ++ List.replicate 250 0
def flit : List (BitVec 8) := flit252 ++ bytesOfNat 4 (crc32 flit252).toNat

/-- Four bytes spell the number they were made from. -/
theorem natOfBytes_four (x : BitVec 32) : natOfBytes (bytesOfNat 4 x.toNat) = x.toNat := by
  have h := x.isLt
  simp only [bytesOfNat, natOfBytes, BitVec.toNat_ofNat]
  omega

theorem flit252_length : flit252.length = 252 := by rw [flit252, List.length_append, List.length_replicate]; rfl

theorem test_DiscoveryAndFlits_flit : flit.length = 256 ∧ crc32 (flit.take 252) = BitVec.ofNat 32 (natOfBytes (flit.drop 252)) ∧
    natOfBytes (flit.take 12) / 2 ^ 24 % 16 = 0 ∧
    natOfBytes (flit.take 12) % 2 ^ 12 = ((lkUp 3 { Link.reset with rxSeq := 0xFFF }).link 95).rxSeq.toNat ∧
    ((lkUp 6 { Link.reset with owed := [(7, 1024)] }).link 95).owed = [(7, 1024)] := by
  have h1 : flit.take 252 = flit252 := by rw [flit, List.take_append_of_le_length (by rw [flit252_length]), ← flit252_length, List.take_length]
  have h2 : flit.drop 252 = bytesOfNat 4 (crc32 flit252).toNat := by
    rw [flit, List.drop_append_of_le_length (by rw [flit252_length]), ← flit252_length, List.drop_length, List.nil_append]
  have h3 : flit.take 12 = flit252.take 12 := by rw [flit, List.take_append_of_le_length (by rw [flit252_length]; decide)]
  refine ⟨?_, ?_, ?_, ?_, by decide⟩
  · rw [flit, List.length_append, flit252_length]; rfl
  · rw [h1, h2, natOfBytes_four, BitVec.ofNat_toNat, BitVec.setWidth_eq]
  · rw [h3]; decide
  · rw [h3]; decide

/-- Chip 0 with link 95 up and all routes through it; and multicast entry 3 with link 95 and the module itself. -/
def routed : State := { lkUp 4 Link.reset with routes := [(6, 0x0FFFFFDF)],
                                               mcast := [(3, { links := 1 <<< 95, attr := 0xC0000000, mark := false })] }

theorem test_RoutingAndMulticast : (pkt 0 5 0 0 []).hdr.getLsbD 20 = false ∧ (pkt 0 5 0 0 []).dst = routed.chip ∧
    (pkt 6 5 0 0 []).dst ≠ routed.chip ∧ (pkt 6 5 0 0 []).hop ≠ 0 ∧
    routed.chooseLink (routed.routeEntry 6) (routed.liveCands (routed.routeEntry 6) none) (pkt 6 5 0 0 []) 0 = some 95 ∧
    (routed.link 95).draining = false ∧ routed.mayLeave (pkt 6 5 0 0 []) = true ∧ (pkt 0 5 0 0 []).class? ≠ some 3 ∧
    (pkt 6 0x20 0 0 []).hdr.getLsbD 20 = false ∧ (pkt 6 0x20 0 0 []).class? = some 3 ∧
    ({ routed with inbox := [{ link := some 95, lane := 0, pkt := pkt 6 5 1 0 [] }, { link := some 95, lane := 0, pkt := pkt 6 5 0 0 [] }] }).mayLeave
      (pkt 6 5 0 0 []) = false := by decide

set_option maxRecDepth 20000 in
theorem test_RoutingAndMulticast_entry : let p := mkPacket 5 9 { reqSpec 3 9 0 0 [] with mc := true }
    p.hdr.getLsbD 20 = true ∧ p.hop ≠ 0 ∧ (routed.mcEntry p.mcg).attr.getLsbD 31 = true ∧ (routed.mcEntry p.mcg).mark = false ∧
    (List.range 96).filter (fun l => (routed.mcEntry p.mcg).links.getLsbD l && decide (some l ≠ (none : Option Nat))) = [95] ∧
    (routed.lk 95 = 4 ∨ routed.lk 95 = 5) ∧ (routed.link 95).draining = false ∧ routed.mayLeave p = true ∧
    ((routed.consumeAs p false).mcEntry p.mcg).attr.getLsbD 31 = true := by decide

/-- Packets with no hop left and with no live candidate: a request of another module, one of this module, and a posted one; a group without an entry. -/
theorem test_RoutingAndMulticast_unroutable : let p (src type hop : Nat) : Packet := mkPacket src hop (reqSpec 6 type 0 0 [])
    (p 5 5 0).hop = 0 ∧ (p 5 5 0).dst ≠ routed.chip ∧ routed.mayLeave (p 5 5 0) = true ∧ (p 5 5 0).class? = some 0 ∧ (p 5 5 0).src ≠ routed.chip ∧
    (p routed.chip 5 0).src = routed.chip ∧ (p 5 9 0).class? ≠ some 0 ∧ (p 5 9 0).class? ≠ some 3 ∧ (up []).mayLeave (p 5 5 9) = true ∧
    (p 5 5 9).dst ≠ (up []).chip ∧ (p 5 5 9).hop ≠ 0 ∧ (up []).liveCands ((up []).routeEntry (p 5 5 9).dst) none = [] := by decide
set_option maxRecDepth 20000 in
theorem test_RoutingAndMulticast_dropped : let p := mkPacket 5 0 { reqSpec 3 9 0 0 [] with mc := true }
    p.hop = 0 ∧ p.hdr.getLsbD 20 = true ∧ routed.mayLeave p = true ∧ ((up []).mcEntry p.mcg).attr.getLsbD 31 = false ∧ (up []).mayLeave p = true ∧
    (routed.mcEntry p.mcg).attr.getLsbD 31 = true ∧ (routed.mcEntry p.mcg).links.getLsbD 95 = true := by decide

/-- Requests at the last words of the LPDDR6 tier; stacked DRAM outside Glaze cannot be reached; an answer to each kind of owner. -/
theorem test_RequestsAndAnswers : let p := pkt 0 1 0x1FFFFFFFFFE 2 []
    Open (up []) p.addr (min 128 (fld p.tsf 0 8)) ∧ p.addr + min 128 (fld p.tsf 0 8) ≤ 2 ^ 44 ∧
    (addrs (pkt 0 1 0 1 []).addr 1).all (up []).jobReach = false ∧ (pkt 0 7 0 0x1000000BF []).tsf.getLsbD 32 = true ∧
    fld (pkt 0 7 0 0x1000000BF []).tsf 0 8 < 192 ∧ (pkt 0 7 0 0x1001 []).tsf.getLsbD 32 = false := by
  refine ⟨⟨by decide, by decide, by decide⟩, by decide, by decide, by decide, by decide, by decide⟩

def asked (o : ReqOwner) : Request := { tag := 17, owner := o, addr := 0, off := 0, len := 4 }
def aBlock : Block := { id := 3, fop := 0, start := 0, len := 4, srcs := [], dsts := [], banks := [], tags := [17], got := [], wrote := false,
                        fail := none, out := [], keep := [] }

theorem test_RequestsAndAnswers_answers :
    ({ up [] with requests := [asked (.posted 2 9)] }).requests.find? (fun r => r.tag == (pkt 0 2 0 0 []).tag) = some (asked (.posted 2 9)) ∧
    ({ up [] with requests := [asked .gone] }).requests.find? (fun r => r.tag == (pkt 0 2 0 0 []).tag) = some (asked .gone) ∧
    (pkt 0 2 0 0 []).stat = 0 ∧ (mkPacket 5 9 { answerSpec (pkt 0 1 0 0 []) 1 [] with dst := 0 }).stat ≠ 0 ∧
    ({ on 2 { live with blocks := [aBlock] } with requests := [asked (.block 2 3)] }).requests.find? (fun r => r.tag == (pkt 0 2 0 0 []).tag) =
      some (asked (.block 2 3)) ∧ aBlock ∈ (({ on 2 { live with blocks := [aBlock] } with requests := [asked (.block 2 3)] }).core 2).blocks ∧
    aBlock.id = 3 ∧ (up [(rFabId, 5)]).chip ≠ 0 ∧ (up [(rFabId, 5)]).freeTag = some 0 ∧
    (up []).unsent = [] ∧ ({ up [] with unsent := [{ owner := .posted 0 0, addr := 0, spec := reqSpec 0 7 0 0 [] }] }).unsent ≠ [] := by decide

theorem test_ImageService : ∃ s : State, On s ∧ 3 ≤ s.lk 95 ∧ s.lk 95 ≤ 6 ∧ s.flyDown = false ∧ s.stage = 4 ∧ s.bitReg rFabCtl 30 = true ∧
    s.running = some true :=
  ⟨{ up [(rLkStat 95, 0x40000000), (rSvc, 0x40000000), (rFabCtl, 0x40000000)] with running := some true }, by decide⟩
theorem test_ImageService_transfer : let s := { up [(rStrap, 0x200), (rSvc, 0x20000000)] with imgLink := some 95 }
    s.imgLink = some 95 ∧ s.fldReg rStrap 8 2 = 2 ∧ s.stage = 2 ∧ (pkt 0 0x24 0 0x8000000000000000 [1]).tsf.getLsbD 63 = true ∧
    (pkt 0 0x24 0 0 [1]).tsf.getLsbD 63 = false ∧ (up [(rStrap, 0x200), (rSvc, 0x20000000)]).imgLink = none := by decide

set_option maxRecDepth 40000 in
theorem test_ImageService_refused : let s := { up [(rStrap, 0x200), (rSvc, 0x20000000)] with imgLink := some 95 }
    (s.writeRun stagingBase [1]).stagingRead.stagingStatus.1 ≠ 0 := by
  dsimp only
  rw [State.stagingRead_clean _ rfl]
  decide

/-! ## Reduction and expert dispatch: hypotheses that can be met -/

/-- The module in Glaze, with some registers. -/
def glazed (regs : Store W32) : State := up ((rSvc, 0x40000000) :: regs)

/-- Jobs of Pugmill 0: 3 is open with two leaves of rank 0 and results at the bottom of LPDDR6; 4 is closed and has too many tiles. -/
def job3 : Job := { Job.reset with live := [(1, 1)], fixed := [(4, 0x80000000), (5, 0x00010001), (9, 0x100)] }
def job4 : Job := { Job.reset with live := [(0, 0x03000000)], fixed := [(5, 0xFFFF)] }
def jobs (regs : Store W32) : State := { glazed regs with jobs := [(3, job3), (4, job4)] }

theorem test_ReductionJobs : (jobs []).stage = 4 ∧ ((jobs []).job 3).ntile * ((jobs []).job 3).leavesPer ≤ 65536 ∧ (up []).stage ≠ 4 ∧
    65536 < ((jobs []).job 4).ntile * ((jobs []).job 4).leavesPer ∧ (jobs [(rJsel 0, 0x80000003)]).bitReg (rJsel 0) 31 = true ∧
    (jobs []).bitReg (rJsel 0) 31 = false ∧ (jobs []).bEn ((jobs []).job 3).ctx = false ∧ ((jobs []).job 4).open_ = false ∧
    ((jobs []).job 3).open_ = true ∧ (jobs [(rBctl 0, 0x80000000)]).bEn ((jobs []).job 3).ctx = true ∧
    fld (0x40000000 : W32) 29 2 ≠ 3 ∧ ((jobs []).job 4).open_ = false := by decide

/-- A packet of job 3: its node or leaf, tile, packet number and epoch, of zeros. -/
def red (type leaf pkt : Nat) (epoch : Nat) : Packet :=
  mkPacket 5 9 { dst := 0, mc := false, type := type, tag := leaf, pmask := 0, epoch := epoch, addr := 3 + pkt * 2 ^ 28, stat := 0, tsf := 0,
                 data := List.replicate 128 0 }

set_option maxRecDepth 20000 in
theorem test_ReductionPackets_epochs : (red 0x10 1 31 0).rJob = 3 ∧ (red 0x10 1 31 0).type = 0x10 ∧ (red 0x11 0 31 0).type = 0x11 ∧
    ({ jobs [] with jobs := [] }.job 3).open_ = false ∧ 0x7FFF < (jobs []).epochDiff 0 (red 0x10 1 31 0x8000) ∧
    0 < (jobs []).epochDiff 0 (red 0x10 1 31 0x7FFF) ∧ (jobs []).epochDiff 0 (red 0x10 1 31 0x7FFF) ≤ 0x7FFF ∧
    (jobs []).stageRoom 0 [] (red 0x10 1 31 0x7FFF) = true ∧ (jobs []).epochDiff 0 (red 0x10 1 31 0) = 0 ∧
    (jobs []).pugTurn (red 0x10 1 31 0) = true ∧ (jobs []).pugTurn (red 0x11 0 31 0) = true ∧ (jobs []).pugTurn (red 0x10 1 31 0x8000) = true ∧
    (jobs []).pugTurn (red 0x10 1 31 0x7FFF) = true := by decide

/-- A module whose jobs hold nothing, and whose Swarm entries hold nothing. -/
theorem quiet_of (s : State) (h : ∀ e ∈ s.jobs, e.2.nodes = [] ∧ e.2.held = []) (g : s.swarms = []) : Quiet s := by
  refine ⟨fun k => ?_, fun e => ?_⟩
  · unfold State.job
    generalize s.jobs = m at h
    induction m with
    | nil => exact ⟨rfl, rfl⟩
    | cons x m ih =>
      rw [look]
      split
      · exact h x (by simp)
      · exact ih (fun y hy => h y (by simp [hy]))
  · unfold State.swarm
    rw [g]
    exact ⟨rfl, rfl⟩
theorem test_ReductionPackets_quiet : Quiet (jobs []) := quiet_of _ (by decide) rfl

set_option maxRecDepth 20000 in
theorem test_ReductionPackets_node : (job3.nodes = [] ∧ job3.held = []) ∧ rightParent 64 0 job3.leaves (red 0x10 1 31 0).rNode = some (0, 2) ∧
    0 / job3.leavesPer = job3.rank ∧ (red 0x10 1 31 0).rRp = look false job3.nodePar (nodeKey 0 2 0) ∧ (jobs []).slotsOf 0 < 2048 ∧
    (red 0x11 0 31 0).rRp = look false job3.dlvPar 0 ∧ (look 0 job3.dlv 0).getLsbD 31 = false ∧ job3.dmode ≠ 3 ∧ job3.und = false ∧
    (jobs []).bitReg rJrootLo 0 = false ∧ (jobs []).snoop = [] := by decide

theorem resultAddrs (s : State) (q : Job) (p : Packet) (h : q.dmode = 0) : (s.resultWords q p).map (·.1) =
    (List.range 128).map (fun e => q.resb + 4096 * p.rTile + 128 * p.rPkt + e) := by
  have l : (Packet.values p q.wire).length = 128 := by unfold Packet.values Packet.codes; split <;> simp
  simp only [State.resultWords, h, if_true, List.map_map]
  apply List.ext_getElem
  · simp [l]
  · intro i h1 h2; simp

set_option maxRecDepth 20000 in
theorem test_ReductionPackets_result : ((jobs []).resultWords job3 (red 0x11 0 31 0)).all (fun e => (jobs []).jobReach e.1) = true := by
  have h := resultAddrs (jobs []) job3 (red 0x11 0 31 0) (by decide)
  rw [List.all_eq_true]
  intro e he
  have : e.1 ∈ ((jobs []).resultWords job3 (red 0x11 0 31 0)).map (·.1) := List.mem_map_of_mem he
  rw [h] at this
  revert this
  generalize e.1 = a
  revert a
  decide

def inNode : Node := { lo := 0, size := 2, tile := 65535, left := { pkts := [] }, right := { pkts := [] }, tag := none, tout := false }

set_option maxRecDepth 20000 in
theorem test_ReductionPackets_delivered : let q : Job := 
      { job3 with dlv := [(65535, BitVec.allOnes 32)], dlvNf := [(65535, true)], dlvCf := [(65535, true)] }
    let s := { glazed [] with jobs := [(3, q)] }
    (s.job 3).open_ = true ∧ look 0 (s.job 3).dlv 65535 = BitVec.allOnes 32 ∧ (s.job 3).nodes = [] ∧ (s.job 3).held = [] ∧
    look false (s.job 3).dlvNf 65535 = true ∧ look false (s.job 3).dlvCf 65535 = true ∧ look false (s.job 3).dlvBad 65535 = false ∧
    (s.sem (s.job 3).rsem).mark = false ∧ (s.sem (s.job 3).rsem).count.toNat < 0x7FFFFFFF ∧
    [inNode].find? (fun x => x.lo == 0 && x.tile == 65535 && !x.ready && !x.tout) = some inNode ∧ s.swarms = [] ∧ q.fcore < 192 := by decide

/-- Swarm entry 2 enabled: one choice, one source, one expert, one local expert, rows of one word, tables in LPDDR6. -/
def swarm2 : Swarm := { Swarm.reset with xe := [(0, 0x80000000), (2, 0x00010001), (4, 0x00010001), (6, 0x100), (7, 0x00001000), (8, 0x100),
  (9, 0x00002000), (10, 0x100), (11, 0x00003000), (12, 0x100), (13, 0x00004000), (14, 0x100)] }
/-- The send list names a row in LPDDR6, and one row has been counted. -/
def swarming : State := { glazed [] with
  swarms := [(2, swarm2)]
  mem := { cells := [(2 * 0x10000002008, 1), (2 * 0x10000004000 + 1, 0x50), (2 * 0x10000004000 + 5, 1)], trained := none } }

theorem test_ExpertDispatch_send : let q := swarming.swarm 2
    q.en = true ∧ swarming.latent = [] ∧ swarming.psn = [] ∧ q.k = 1 ∧ q.nexp = 1 ∧ 0 < q.qr ∧ Open swarming q.emap 2 ∧ Open swarming q.list 16 ∧
    q.emap + 2 ≤ q.list ∧ swarming.isHere (BitVec.ofNat 64 (natOfWords (swarming.words q.list 4))) = true ∧
    Open swarming (localOf (BitVec.ofNat 64 (natOfWords (swarming.words q.list 4)))) q.rlen ∧ swarming.word (q.list + 4) = 0 ∧
    ({ swarming with swarms := [] }.swarm 2).en = false ∧ q.work = [] ∧ swarming.stage = 4 ∧ (up []).stage ≠ 4 ∧ q.rlen ≠ 0 ∧
    ({ swarm2 with xe := put 0 swarm2.xe 2 0x00010000 }).rlen = 0 := by
  refine ⟨by decide, rfl, rfl, by decide, by decide, by decide, ⟨by decide, rfl, by decide⟩, ⟨by decide, rfl, by decide⟩, by decide, by decide,
    ⟨by decide, rfl, by decide⟩, by decide, by decide, rfl, by decide, by decide, by decide, by decide⟩

theorem test_ExpertDispatch_return : let q := swarming.swarm 2
    q.nloc = 1 ∧ q.nsrc = 1 ∧ Open swarming q.rxb q.rlen ∧ Open swarming q.tgb 4 ∧ Open swarming (q.cntAddr 0 0) 2 ∧
    natOfWords (swarming.words (q.cntAddr 0 0) 2) = 1 := by
  refine ⟨by decide, by decide, ⟨by decide, rfl, by decide⟩, ⟨by decide, rfl, by decide⟩, ⟨by decide, rfl, by decide⟩, by decide⟩

/-- A packet for entry 2. -/
def disp (type : Nat) : Packet := mkPacket 5 9 (swarmSpec type 0 0 0 0 0 2 0 0 0 [(7, false)])

theorem test_ExpertDispatch_packets : let q := swarming.swarm 2
    let p := disp 0x18
    let ws := runMarked (128 * p.xPart) (p.marked (q.partLen p.xPart))
    p.xEnt = 2 ∧ swarming.epochDiff q.ctx p = 0 ∧ swarming.bitReg rJrootLo 0 = false ∧ swarming.snoop = [] ∧ p.type = 0x18 ∧ q.cnts = [] ∧
    0 < q.nloc * q.nsrc ∧ (∀ w ∈ ws, swarming.jobReach (q.rxb + q.slot p.xEx p.xRank p.xRow * q.rlen + w.1) = true ∧
      q.rxb + q.slot p.xEx p.xRank p.xRow * q.rlen + w.1 < q.tgb + 4 * q.slot p.xEx p.xRank p.xRow) ∧
    (addrs (q.tgb + 4 * q.slot p.xEx p.xRank p.xRow) 4).all swarming.jobReach = true ∧ (disp 0x19).type = 0x19 ∧
    (addrs (q.cntAddr p.xEx p.xRank) 2).all swarming.jobReach = true ∧ (disp 0x1A).type = 0x1A ∧
    swarming.pugTurn p = true ∧ swarming.pugTurn (disp 0x19) = true ∧ swarming.pugTurn (disp 0x1A) = true ∧
    (∀ w ∈ ws, swarming.jobReach (q.retb + (p.xTok * q.k + p.xChoice) * q.rlen + w.1) = true) := by decide

/-! ## Snapshots, steps, scales: hypotheses that can be met -/

/-- A leaf at the bottom of LPDDR6, of PR = 1 with SM and T, mapping stacked DRAM with its copy in LPDDR6; in Glaze, with SGEN 1. -/
def leafAt : Nat := 0x10000000000
def leafEntry (sm t : Bool) : BitVec 128 :=
  BitVec.ofNat 128 (2 ^ 63 + 2 ^ 62 + 2 ^ 59 + (if sm then 2 ^ 58 else 0) + (if t then 2 ^ 57 else 0) + 0x10000020000 * 2 ^ 64)
def mapped (sm t : Bool) (regs : Store W32) : State := (up ([(rSvc, 0x40000000), (rSnap, 1)] ++ regs)).setEntry leafAt (leafEntry sm t)
def aCopy : PageCopy := { leaf := leafAt, shadow := false, src := 0, dst := 0x10000020000, entry := leafEntry false false }

/-- A write that waits on the leaf. -/
def waited (sm : Bool) (regs : Store W32) : State := { mapped sm false regs with touchWait := [(leafAt, leafEntry sm false)] }

set_option maxRecDepth 20000 in
theorem test_SnapshotsAndSteps_touch : (mapped false false []).waitsOn leafAt = none ∧ (waited false []).waitsOn leafAt = some (leafEntry false false) ∧
    entSm (leafEntry false false) = false ∧ (waited false []).copies.all (fun c => c.leaf != leafAt) = true ∧ (waited false []).copies.length < 8 ∧
    (waited true []).waitsOn leafAt = some (leafEntry true false) ∧ entSm (leafEntry true false) = true ∧
    (waited true []).bitReg rStep 29 = false ∧ (waited true [(rStep, 0x20000000)]).bitReg rStep 29 = true ∧
    (waited true []).slogRoom = true ∧ (waited true [(rStep, 1)]).slogRoom = false := by decide

theorem test_SnapshotsAndSteps_copy : [aCopy].find? (fun c => c.leaf == leafAt) = some aCopy ∧ (mapped false false []).snoop = [] ∧
    (mapped false false []).entryAt leafAt = aCopy.entry ∧ (mapped true false []).entryAt leafAt ≠ aCopy.entry ∧
    aCopy.shadow = false ∧ aCopy.dst + 65536 ≤ 2 ^ 44 ∧ leafAt + 8 ≤ aCopy.dst ∧ Src.user (.core 0 true) = false := by decide

theorem test_SnapshotsAndSteps_commands : (up [(rSnap, 0x40000000)]).bitReg rSnap 30 = true ∧ (up [(rSnap, 0xFFFF)]).bitReg rSnap 30 = false ∧
    (up [(rSnap, 0xFFFF)]).bitReg rDrecLo 0 = false ∧ (up []).drecWait = none ∧ (up [(rSnap, 0x40000000)]).copies = [] ∧
    (up [(rSnap, 0x40000000)]).bitReg rJrootLo 0 = false ∧ (up [(rStep, 0x20000000)]).bitReg rStep 29 = true ∧
    (up []).bitReg rStep 29 = false ∧ (up []).slogCnt = 0 ∧ (up [(rStep, 0x1FFFFFF)]).slogCnt ≠ 0 ∧ fld (0x18 : BitVec 32) 0 5 ≤ 24 := by decide

set_option maxRecDepth 20000 in
theorem test_SnapshotsAndSteps_end : let s := { mapped true true [(rStep, 0x20000001), (rSlogHi, 0x100), (rSlogLo, 0x2000)] with stepCmd := some true }
    s.stepCmd = some true ∧ s.resolving = [] ∧ s.snoop = [] ∧ s.latent = [] ∧ s.slogCnt = 1 ∧ s.anyMark s.slogBase 4 = false := by decide

theorem test_ScalesStepsAndRestore : (up []).bitReg rStep 29 = false ∧ (up []).bitReg rJctxLo 0 = false ∧ (up []).bitReg rRcmd 30 = false ∧
    (up [(rRcmd, 0x40000000)]).bitReg rRcmd 30 = true ∧ (up []).latent = [] ∧ (up []).resolving = [] ∧ (up []).snoop = [] ∧
    (up []).restWait = false ∧ (up [(rStep, 0x20000000)]).resolveWaits = true ∧
    (let s := { up [(rJctxLo, 1), (rRrecHi, 0x100)] with snoop := [0x800000000] }
     s.bitReg rRcmd 30 = false ∧ (s.restoreReads && s.biHeld s.restoreLines) = true) ∧ (match (up []).restoreRead.restoreCheck with
      | .error k => k == 6
      | .ok _ => false) = true ∧
    (0x7F7FFFFF : BitVec 32).toNat < 0x7F800000 ∧ 0x80000000 ≤ (0xFF7FFFFF : BitVec 32).toNat ∧ (0xFF7FFFFF : BitVec 32).toNat < 0xFF800000 ∧
    0x7F800000 ≤ (0xFFC00000 : BitVec 32).toNat % 2 ^ 31 ∧ (up []).bEn ((up []).fldReg rLsctx 0 6) = false ∧ fld (40 : BitVec 32) 0 6 ≤ 40 := by decide

/-! ## Host interface, stored data, service controller: hypotheses that can be met -/

/-- Bulk Port 255 enabled, with 16 words to go at the bottom of LPDDR6; and a completed one with a semaphore to raise. -/
def aPort (ctl cnt : W32) : State := { up [(rBpsel, 0xFF)] with ports := [(255, { addr := 0x10000000000, cnt := cnt, ctl := ctl })] }

theorem test_BulkPorts : let s := aPort 0x80000000 16
    let x := s.port 255
    (0xFFFE : BitVec 16).toNat % 2 = 0 ∧ x.ctl.getLsbD 31 = true ∧ 16 ≤ x.cnt.toNat ∧ x.addr.toNat + 16 ≤ 2 ^ 44 ∧ s.snoop = [] ∧ s.bursts = [] ∧ ({ s with bursts := [.read 255 0 32] }).bursts ≠ [] ∧
    (addrs x.addr.toNat 16).all s.jobReach = true ∧ x.ctl.getLsbD 30 = false ∧ ((aPort 0xC0000000 16).port 255).ctl.getLsbD 30 = true ∧
    ((aPort 0 16).port 255).ctl.getLsbD 31 = false ∧ ((aPort 0 16).port 255).cnt ≠ 0 ∧ ((aPort 0xA000FFFF 0).port 255).cnt = 0 ∧
    ((aPort 0xA000FFFF 0).port 255).ctl.getLsbD 29 = true ∧ ((aPort 0xA000FFFF 0).sem 65535).mark = false ∧
    ((aPort 0xA000FFFF 0).sem 65535).count.toNat < 0x7FFFFFFF ∧ (aPort 0 0).fldReg rBpsel 0 8 = 255 ∧
    0x0000FFFF &&& (0xE000FFFF : W32) = ((aPort 0x8000FFFF 0).port 255).ctl &&& 0x7FFFFFFF := by decide
theorem test_BulkPorts_turn : InTurn (aPort 0 0) .host ∧ InTurn { aPort 0 0 with bursts := [.read 255 0 32] } .mgmt :=
  ⟨.inr rfl, .inl (by decide)⟩

/-- R460, R470: a register write of the host that arrives behind a waiting burst is performed with it, and after it. -/
theorem test_register_write_waits : let s := { aPort 0x80000000 16 with snoop := [0x800000000] }
    let t := (s.burstTake (.write 255 0 (List.replicate 32 7))).burstTake (.cmd (.registerWrite rHopv 4 5))
    t.bursts.length = 2 ∧ t.reg rHopv = 0 ∧ (t.biAnswer 0x800000000 none).bursts = [] ∧ (t.biAnswer 0x800000000 none).reg rHopv = 5 := by decide

/-- R463, R470: a burst to a line that the host caches waits for the host's answer, and is then performed. -/
theorem test_burst_waits : let s := { aPort 0x80000000 16 with snoop := [0x800000000] }
    let t := s.burstTake (.write 255 0 (List.replicate 32 7))
    t.bursts.length = 1 ∧ t.biWait = [0x800000000] ∧ t.mem = s.mem ∧ (t.biAnswer 0x800000000 none).bursts = [] ∧
    (t.biAnswer 0x800000000 none).word 0x1000000000F = 0x0707 := by decide

/-- R479: an answer on the management bus is announced by an in-band interrupt, which SMBus has not. -/
theorem test_in_band_interrupt : ((up []).reply .m (Sys2Proof.Machine.st 0)).ibi = [1] ∧ ((up [(rStrap, 0x2000)]).reply .m (Sys2Proof.Machine.st 0)).ibi = [] ∧
    ((up []).reply .h (Sys2Proof.Machine.st 0)).ibi = [] := by decide

theorem test_HostLinkAndDeviceMemory : On (glazed []) ∧ (glazed []).bursts = [] ∧ (glazed []).resolving = [] ∧ (glazed []).boxH.req = none ∧
    (glazed []).boxM.req = none ∧ ({ glazed [] with bursts := [.coreBell 4 0] }).bursts ≠ [] ∧ fld (0xFFFFFFFF : BitVec 64) 0 12 ≠ 0 ∧ fld (0xBF : BitVec 64) 0 8 < 192 ∧
    (2 ^ 40 - 64 + 64 ≤ 2 ^ 40 ∧ 2 ^ 40 ≤ 3 * 2 ^ 40 - 64 ∧ 3 * 2 ^ 40 - 64 + 64 ≤ 3 * 2 ^ 40) ∧ (glazed []).stage = 4 ∧ (up []).stage ≠ 4 ∧
    5 ∈ ({ glazed [] with biWait := [5], snoop := [5] }).biWait ∧ fld (31 : BitVec 32) 0 5 ≠ 0 ∧ fld (32 : BitVec 32) 0 5 = 0 ∧
    ({ up [] with msixMask := 0x7FFFFFFF }).msixMask.getLsbD 31 = false ∧ (up []).msixMask.getLsbD 31 = true ∧
    (up []).bitReg rLstat 31 = false ∧ ({ up [] with pins := { State.reset.pins with perstN := true } }).pins.perstN = true ∧
    ({ up [] with linkTrain := true }).linkTrain = true ∧ (glazed []).fldReg rLstat 29 2 ≠ 3 ∧ 2 ^ 40 % 2 = 0 ∧ 64 % 2 = 0 ∧ 63 % 2 ≠ 0 := by decide

/-- R469: device memory answers once the decoder is committed. R473: unmasking a vector sends its message. R458: a link that reaches no rate is down. -/
theorem test_HostLinkAndDeviceMemory_port : let s := up [(rSvc, 0x40020000)]
    s.bitReg rSvc 17 = true ∧ s.stage = 4 ∧ s.hdmBase = none ∧ (s.portWrite 0x2000220 4 0x200).hdmBase ≠ none ∧
    ({ s with msixPend := 0x80000000 }).msixPend.getLsbD 31 = true ∧
    ({ s with msixPend := 0x80000000 }.portWrite (0x181000C + 16 * 31) 4 0).msixSent = [31] ∧
    ({ up [(rLstat, 0xF8000000)] with linkTrain := true }.linkUp 0 0).reg rLstat = 0 ∧
    ({ s with snoop := [5] }).snoop.head? = some 5 ∧ 5 ∉ s.biWait ∧ InTurn s .host := by
  refine ⟨by decide, by decide, by decide, by decide, by decide, by decide, by decide, by decide, by decide, .inr rfl⟩

/-- R495, R502, R504: a doorbell of queue 7 finds the error of its entry, which counts on IOD0 and disables the queue; one of queue 8 does not. -/
theorem test_upset_queue : let s := { up [] with queues := [(7, { Queue.reset with qe1 := 0x2000 })], upsets := [⟨.queue 7, true⟩] }
    (s.queueDoorbell 0x7001).upsets = [] ∧ (s.queueDoorbell 0x7001).reg (rRasSram 4) = 1 ∧ ((s.queueDoorbell 0x7001).queue 7).en = false ∧
    (s.queueDoorbell 0x8001).upsets = s.upsets ∧ ((s.queueDoorbell 0x8001).queue 7).en = true := by decide
/-- R495, R499: a correctable error counts at each read and stays; time alone finds none. -/
theorem test_upset_correctable : let s := { up [] with upsets := [⟨.sem 65535, false⟩] }
    ((s.readSem 65535).readSem 65535).reg (rRasSram 5) = 0x20000 ∧ (s.readSem 65535).upsets = s.upsets ∧
    ((s.readSem 65535).sem 65535).mark = false ∧ s.tickUsec.upsets = s.upsets ∧ s.tickUsec.reg (rRasSram 5) = 0 := by decide
/-- An error in each kind of place. -/
theorem test_ScrubRepairAndJtag_errors : (∀ x ∈ [Site.tile 191 63 63, .acc 191 3 31 63, .vec 191 2047, .shelf 191 3 true, .sem 65535, .ctx 63,
      .queue 1048575, .job 4095, .swarm 127, .route 3071, .mcast 65535 false, .held 0 ⟨0, []⟩, .heldRow 0 ⟨0, []⟩, .node 0 0 2 0 false 31],
    ({ up [] with upsets := [{ site := x, ue := true }] }).upsets = [{ site := x, ue := true }]) ∧
    Quiet { up [] with upsets := [{ site := .job 4095, ue := true }] } ∧ InTurn (up []) .host ∧ 0xFFFFF001 % 4096 ≠ 0 := by
  refine ⟨fun x _ => rfl, ⟨fun k => ⟨rfl, rfl⟩, fun e => ⟨rfl, rfl⟩⟩, .inr rfl, by decide⟩

theorem test_ScrubRepairAndJtag : (up [(rScrCtl, 0x40000000)]).bitReg rScrCtl 30 = true ∧ (up []).bitReg rScrCtl 30 = false ∧
    (let s := up [(rScrBaseHi, 0x100), (rScrCntLo, 1)]
     0 < s.scrubCnt ∧ (addrs s.scrubBase s.scrubCnt).all s.jobReach = true) ∧
    (let s := { up [] with scrub := some (0x1FFFFFFFFFF, 1), latent := [(0x1FFFFFFFFF0, .ue)] }
     s.scrub = some (0x1FFFFFFFFFF, 1) ∧ s.snoop = [] ∧ s.bitReg rScrCtl 28 = false ∧ look .none s.latent (cwOf 0x1FFFFFFFFFF) = .ue ∧
     s.poisoned 0x1FFFFFFFFFF = false ∧ s.bitReg rScrCtl 29 = false) ∧
    (let s := glazed [(rRpaHi, 0x7F), (rRpaLo, 0xFFFFFFFF)]
     s.bitReg rRpcmd 29 = false ∧ s.stage = 4 ∧ regionOf s.rpa = .stacked ∧
     s.sparesUsed (stackedMap s s.rpa).1 ((stackedMap s s.rpa).2.1 * 32 + (stackedMap s s.rpa).2.2.1) < 8) ∧
    fld (0xBF000 : BitVec 32) 12 8 < 192 ∧ 192 ≤ fld (0xC0000 : BitVec 32) 12 8 ∧
    ({ up [] with repairing := some (.row 0 0 0) }).repairing = some (.row 0 0 0) ∧ (up []).flyDown = false ∧ (up []).rowWait = none ∧
    (up []).pins.fwWpN = true ∧ (up []).repairs.length < 4096 := by decide
theorem test_ScrubRepairAndJtag_shelf : let x : Arr := { Core.reset.arr 3 with shelfW := some ⟨63, 0, none, Core.reset.tile 63, none, none⟩ }
    ((on 191 { live with arrs := [(3, x)] }).core 191).arr 3 = x ∧ x.shelfW ≠ none := by decide

/-- A module in Bisque that takes its image from the host, with an empty staging area; and one that runs slot A. -/
def staged : State := up [(rStrap, 0x100), (rSvc, 0x20000000)]
def service (stage : W32) : State := { up [(rSvc, 0x00040000 ||| stage <<< 28)] with running := some false }

set_option maxRecDepth 40000 in
theorem test_MailboxAnswers : (staged.box .h).busy = false ∧ staged.flyDown = false ∧ staged.bitReg rSvc 18 = false ∧
    staged.fldReg rStrap 8 2 = 1 ∧ staged.stage = 2 ∧ staged.stagingRead.stagingStatus.1 ≠ 0 ∧ staged.fldReg (pageBase .global + oErr) 0 16 = 0 ∧
    (service 4).bitReg rSvc 18 = true ∧ (service 4).pins.fwWpN = true ∧ (service 4).slotState false ≠ 0x7F ∧
    (service 4).slotState true ≠ 0x7F := by
  rw [State.stagingRead_clean _ rfl]
  decide

/-- A session with nothing accepted, and one whose header of no blocks is complete. -/
def session (hdr : List Byte) : Session :=
  { chan := .h, target := true, full := true, hdr := hdr, part := [], count := 0, blocks := 0 }

theorem test_UpdatesAndActivation : (service 4).session = none ∧ (service 4).stage ≠ 0xE ∧ (service 4).stage ≠ 0xF ∧
    (service 4).running = some false ∧ ({ service 4 with session := some (session []) }).session = some (session []) ∧
    (session []).part.length + 236 < 272 ∧ ({ service 4 with flashB := [(196, 0x7F), (197, 7)] }).pendingSlot = some true ∧
    ({ service 4 with flashA := [(196, 0x7F)] }).slotState false = 0x7F ∧
    ({ service 4 with activating := some (.h, true), flyDown := true }).activating = some (.h, true) ∧
    ({ service 4 with flyDown := true }).flyDown = true ∧ ({ service 4 with flyDown := true }).activating = none ∧ (service 4).boxH.req = none := by decide

/-- A record of a delta stream that names a block of zeros by a digest. -/
def zeroRecord (x : BitVec 32) : List (BitVec 8) := [3, 0, 0, 0] ++ bytesOfNat 4 x.toNat
theorem zeroRecord_digest (x : BitVec 32) : (zeroRecord x).length = 8 ∧ hdrField (zeroRecord x) 0 1 = 3 ∧
    x = BitVec.ofNat 32 (hdrField (zeroRecord x) 4 4) := by
  refine ⟨rfl, rfl, ?_⟩
  have h : ((zeroRecord x).drop 4).take 4 = bytesOfNat 4 x.toNat := rfl
  rw [hdrField, h]
  have := x.isLt
  apply BitVec.eq_of_toNat_eq
  simp only [bytesOfNat, natOfBytes, BitVec.toNat_ofNat]
  omega

theorem test_UpdatesAndActivation_block : ∃ (k : Session) (d : List (BitVec 8)), k.hdr ≠ [] ∧ k.blocks < hdrField k.hdr 264 4 ∧
    4096 + 65536 * (k.blocks + 1) ≤ 0x4000000 ∧ k.part = [] ∧
    d.length = 8 ∧ hdrField d 0 1 = 3 ∧ crc32c (List.replicate 65536 0) = BitVec.ofNat 32 (hdrField d 4 4) :=
  ⟨session (List.replicate 264 0 ++ [1, 0, 0, 0, 0, 0, 0, 0]), zeroRecord (crc32c (List.replicate 65536 0)), by decide, by decide, by decide, rfl,
    zeroRecord_digest _⟩

/-- The header of an update whose image has a digest d of 64 bytes. -/
def digestHdr (d : List Byte) : List Byte := List.replicate 88 0 ++ (d ++ List.replicate 120 0)
theorem digestHdr_fields (d : List Byte) (h : d.length = 64) : (digestHdr d).length = 272 ∧ hdrField (digestHdr d) 264 4 = 0 ∧
    (((digestHdr d).drop 72).drop 16).take 64 = d := by
  have e : (digestHdr d).drop 88 = d ++ List.replicate 120 0 := rfl
  refine ⟨?_, ?_, ?_⟩
  · rw [digestHdr, List.length_append, List.length_append, List.length_replicate, List.length_replicate, h]
  · have f : (digestHdr d).drop 264 = List.replicate 8 0 := by
      rw [show 264 = 88 + (64 + 112) from rfl, ← List.drop_drop, e, ← List.drop_drop, ← h, List.drop_left]; rfl
    rw [hdrField, f]; rfl
  · rw [List.drop_drop, e, ← h, List.take_left]

theorem shaRound_length (l : List (W64 × W64)) : ∀ v : List W64, (l.foldl shaRound v).length = v.length := by
  induction l with
  | nil => intro v; rfl
  | cons e l ih =>
    intro v
    rw [List.foldl_cons, ih]
    unfold shaRound
    split <;> rfl

theorem shaBlock_length (l : List (List Byte)) : ∀ h : List W64, (l.foldl shaBlock h).length = h.length := by
  induction l with
  | nil => intro h; rfl
  | cons b l ih =>
    intro h
    rw [List.foldl_cons, ih]
    simp [shaBlock, shaRound_length]

/-- A digest is 64 bytes. -/
theorem sha512_length (m : List Byte) : (sha512 m).length = 64 := by
  have h := shaBlock_length ((shaPad m).toChunks 128) shaInit
  unfold sha512
  generalize ((shaPad m).toChunks 128).foldl shaBlock shaInit = w at h
  have g : ∀ w : List W64, ((w.map (fun (x : W64) => (bytesOfNat 8 x.toNat).reverse)).flatten).length = 8 * w.length := by
    intro w
    induction w with
    | nil => rfl
    | cons x w ih => rw [List.map_cons, List.flatten_cons, List.length_append, ih, List.length_cons, List.length_reverse]; simp [bytesOfNat]; omega
  exact (g w).trans (by rw [h]; rfl)

/-- A session of no blocks ends where the signature verifies. -/
theorem test_UpdatesAndActivation_end (v : ∀ m g, Config.ed25519Verify Config.firmwareKey m g = true)
    (w : sha512 Config.firmwareKey = Config.firmwareKeyDigest) : ∃ k : Session, sha512 Config.firmwareKey = Config.firmwareKeyDigest ∧
    k.hdr.length = 272 ∧ hdrField k.hdr 264 4 ≤ k.blocks ∧
    sha512 ((service 4).slotBytes k.target 4096 (65536 * k.blocks)) = ((k.hdr.drop 72).drop 16).take 64 ∧
    Config.ed25519Verify Config.firmwareKey ((k.hdr.drop 72).take 128) ((k.hdr.drop 200).take 64) = true := by
  obtain ⟨h1, h2, h3⟩ := digestHdr_fields (sha512 []) (sha512_length [])
  exact ⟨session (digestHdr (sha512 [])), w, h1, h2.le, h3.symm, v _ _⟩

/-! ## A restore record and an image that pass their checks -/

/-- Registers that name the restore record at the bottom of the shared memory of die 0, with context records enabled. -/
def recRegs : Store W32 := [(rRrecHi, 0xE02), (rJctxLo, 1)]
def recAt : Nat := 0xE0200000000
def devAt : Nat := 0xE0200080000

/-- A restore record of step 0, but for its digest; and one whole. -/
def rec30 : List Word := [0x0020, 0x5C0E, 0, 0] ++ wordsOf64 (BitVec.ofNat 64 devAt) ++ List.replicate 22 0
def recOf (x : W32) : List Word := rec30 ++ wordsOf32 x

/-- The module with a restore record with digest x, and a device-state record of zeros with digest y. -/
def recState (x y : W32) : State :=
  { up recRegs with mem := (((up []).writeRun recAt (recOf x)).writeRun (devAt + 262142) (wordsOf32 y)).mem }

theorem wordsOf32_nat (x : W32) : natOfWords (wordsOf32 x) = x.toNat := by
  have h := x.isLt
  simp only [wordsOf32, natOfWords, BitVec.extractLsb'_toNat, Nat.shiftRight_eq_div_pow]
  omega

/-- The memory of recState, written. -/
def recMem (x y : W32) : State := ((up []).writeRun recAt (recOf x)).writeRun (devAt + 262142) (wordsOf32 y)

theorem recState_word (x y : W32) (a : Nat) : (recState x y).word a = (recMem x y).word a := by
  have h : (recState x y).mem = (recMem x y).mem := by unfold recState recMem; rfl
  unfold State.word
  rw [byte_of_mem h, byte_of_mem h]

theorem writeRun_trained (s : State) (a : Nat) (l : List Word) : (s.writeRun a l).mem.trained = s.mem.trained := by
  unfold State.writeRun
  rw [State.writeMarked_mem]
  unfold wordsWritten
  generalize runOf a l false = ws
  induction ws generalizing s with
  | nil => rfl
  | cons e ws ih => rw [List.foldl_cons, ih]; rfl
theorem recState_trained (x y : W32) : (recState x y).mem.trained = none := by
  have h : (recState x y).mem = (recMem x y).mem := by unfold recState recMem; rfl
  rw [h]
  unfold recMem
  rw [writeRun_trained, writeRun_trained]
  unfold up
  rfl

theorem recOf_length (x : W32) : (recOf x).length = 32 := by
  rw [recOf, List.length_append]; rfl

theorem recState_regs (x y : W32) : (recState x y).regs = recRegs := by unfold recState up; rfl
theorem bit_of_regs {s : State} {m : Store W32} (h : s.regs = m) (o i : Nat) : s.bitReg o i = (up m).bitReg o i := by
  unfold State.bitReg State.reg
  rw [h]
  rfl

/-- Bytes below the digest are those of the restore record, or 0. -/
theorem recMem_low (x y : W32) (b : Nat) (g : b < 2 * (devAt + 262142)) : (recMem x y).byte b = ((up []).writeRun recAt (recOf x)).byte b :=
  State.byte_writeRun_ne _ _ _ b (Or.inl g)
theorem recMem_zero (x y : W32) (b : Nat) (g : b < 2 * (devAt + 262142)) (h : 2 * (recAt + 32) ≤ b) : (recMem x y).byte b = 0 := by
  rw [recMem_low x y b g, State.byte_writeRun_ne _ _ _ b (Or.inr (by rw [recOf_length]; exact h))]
  show (0 : Byte) ^^^ 0 = 0
  rfl

theorem recState_other (x y : W32) (a : Nat) (h : recAt + 32 ≤ a) (g : a < devAt + 262142) : (recState x y).word a = 0 := by
  rw [recState_word]
  unfold State.word
  rw [recMem_zero x y _ (by omega) (by omega), recMem_zero x y _ (by omega) (by omega)]
  rfl

theorem recState_rec (x y : W32) : (recState x y).words recAt 32 = recOf x := by
  apply List.ext_getElem
  · simp [State.words, addrs, recOf_length]
  · intro i h1 h2
    have g : i < 32 := by rw [recOf_length] at h2; exact h2
    simp only [State.words, addrs, List.map_map, List.getElem_map, List.getElem_range, Function.comp]
    rw [recState_word, ← State.word_writeRun (up []) recAt (recOf x) i h2]
    have e : recAt + 32 ≤ devAt := by decide
    unfold State.word
    rw [recMem_low x y _ (by omega), recMem_low x y _ (by omega)]

theorem recState_dev (x y : W32) : (recState x y).words devAt 262144 = List.replicate 262142 0 ++ wordsOf32 y := by
  have l : (wordsOf32 y).length = 2 := rfl
  apply List.ext_getElem
  · rw [List.length_append, List.length_replicate, l, State.words, addrs, List.length_map, List.length_map, List.length_range]
  · intro i h1 h2
    rw [List.length_append, List.length_replicate, l] at h2
    simp only [State.words, addrs, List.map_map, List.getElem_map, List.getElem_range, Function.comp]
    by_cases h : i < 262142
    · rw [List.getElem_append_left (by rw [List.length_replicate]; exact h), List.getElem_replicate]
      exact recState_other x y _ (by have e : recAt + 32 ≤ devAt := by decide
                                     omega) (by omega)
    · rw [List.getElem_append_right (by rw [List.length_replicate]; omega), recState_word]
      have e : devAt + i = devAt + 262142 + (i - 262142) := by omega
      rw [e, recMem, State.word_writeRun _ (devAt + 262142) _ (i - 262142) (by rw [l]; omega)]
      simp only [List.length_replicate]

theorem shared_ok (s : State) (a : Nat) (h : recAt ≤ a) (g : a < recAt + 0x8000000) : s.tableOk a = true := by
  have r : regionOf a = .shared ((a - 0xE0200000000) / 0x2000000) := by
    unfold regionOf
    rw [if_neg (by unfold recAt at *; omega), if_neg (by unfold recAt at *; omega), if_neg (by unfold recAt at *; omega),
      if_neg (by unfold recAt at *; omega), if_pos (by unfold recAt at *; omega)]
  unfold State.tableOk State.tierOk
  simp only [r]

theorem runOk_shared (s : State) (a n : Nat) (h : recAt ≤ a) (g : a + n ≤ recAt + 0x8000000) : s.runOk a n = true := by
  unfold State.runOk addrs
  rw [List.all_eq_true]
  intro b hb
  rw [List.mem_map] at hb
  obtain ⟨i, hi, rfl⟩ := hb
  rw [List.mem_range] at hi
  exact shared_ok s _ (by omega) (by omega)

theorem noMark (s : State) (h : s.psn = []) (ht : s.mem.trained = none) (a n : Nat) : s.anyMark a n = false := by
  unfold State.anyMark
  rw [List.any_eq_false]
  intro b _
  unfold State.poisoned Memory.unmarked
  rw [h, ht]
  simp [look]

theorem allZero_replicate (n : Nat) : allZero (List.replicate n 0) = true := by
  unfold allZero
  rw [List.all_eq_true]
  intro w hw
  rw [List.mem_replicate] at hw
  simp [hw.2]

theorem rec32_of (ws : List Word) (i : Nat) (x : W32) (h : (ws.drop i).take 2 = wordsOf32 x) : rec32 ws i = x := by
  unfold rec32
  rw [h, wordsOf32_nat]
  simp

/-- The device-state record of zeros with digest y. -/
def zeroRec (y : W32) : List Word := List.replicate 262142 0 ++ wordsOf32 y

theorem zeroRec_prefix (y : W32) : (zeroRec y).take 262142 = List.replicate 262142 0 := by
  have dl : (List.replicate 262142 (0 : Word)).length = 262142 := List.length_replicate
  rw [zeroRec, List.take_append_of_le_length (by rw [dl]), List.take_of_length_le (by rw [dl])]
theorem zeroRec_zero (y : W32) (i n : Nat) (h : i + n ≤ 262142) : ((zeroRec y).drop i).take n = List.replicate n 0 := by
  have dl : (List.replicate 262142 (0 : Word)).length = 262142 := List.length_replicate
  rw [zeroRec, List.drop_append_of_le_length (by rw [dl]; omega), List.drop_replicate,
    List.take_append_of_le_length (by rw [List.length_replicate]; omega), List.take_replicate, Nat.min_eq_left (by omega)]
theorem zeroRec_digest (y : W32) : rec32 (zeroRec y) 262142 = y := by
  have dl : (List.replicate 262142 (0 : Word)).length = 262142 := List.length_replicate
  apply rec32_of
  rw [zeroRec, List.drop_append_of_le_length (by rw [dl]), List.drop_of_length_le (by rw [dl])]
  rfl

theorem restore_ok (x y : W32) (hx : x = crc32c (bytesOfWords rec30)) (hy : y = crc32c (bytesOfWords (List.replicate 262142 0))) :
    (recState x y).restoreCheck = .ok (recOf x, zeroRec y) := by
  have hb : (recState x y).rrecBase = recAt := by
    unfold State.rrecBase State.fldReg State.reg
    rw [recState_regs]
    decide
  have hm := noMark (recState x y) (by unfold recState up; rfl) (recState_trained x y)
  have hd : natOfWords (((recOf x).drop 4).take 4) = devAt := by
    have e : ((recOf x).drop 4).take 4 = wordsOf64 (BitVec.ofNat 64 devAt) := rfl
    rw [e]
    decide
  have z5 : rec32 (zeroRec y) 0 = 0 := rec32_of _ _ _ (by rw [zeroRec_zero y 0 2 (by omega)]; rfl)
  have r1 : rec32 (recOf x) 30 = x := rec32_of _ _ _ rfl
  have r2 : rec32 (recOf x) 0 = 0x5C0E0020 := by
    have e : ((recOf x).drop 0).take 2 = [0x0020, 0x5C0E] := rfl
    exact rec32_of _ _ _ (e.trans (by decide))
  have r3 : allZero (((recOf x).drop 24).take 6) = true := rfl
  have r4 : (recOf x).take 30 = rec30 := rfl
  have r5 : rec32 (recOf x) 2 = 0 := rfl
  have r6 : rec32 (recOf x) 8 = 0 := rfl
  have r7 : rec32 (recOf x) 14 = 0 := rfl
  have c1 : (recState x y).bitReg rSctl 31 = false := (bit_of_regs (recState_regs x y) _ _).trans (by decide)
  have c2 : (recState x y).bitReg rSnap 30 = false := (bit_of_regs (recState_regs x y) _ _).trans (by decide)
  have c3 : (recState x y).bitReg rStep 29 = false := (bit_of_regs (recState_regs x y) _ _).trans (by decide)
  have c4 : (recState x y).bitReg rJctxLo 0 = true := (bit_of_regs (recState_regs x y) _ _).trans (by decide)
  have w : (recState x y).words devAt 262144 = zeroRec y := recState_dev x y
  have k1 := runOk_shared (recState x y) recAt 32 (by omega) (by omega)
  have k2 := runOk_shared (recState x y) devAt 262144 (by decide) (by decide)
  unfold State.restoreCheck
  rw [hb, recState_rec, c1, c2, c3, c4, k1]
  dsimp only
  rw [hd, k2, w, hm, hm, zeroRec_prefix, zeroRec_zero y 14 50 (by omega), zeroRec_zero y 245824 16318 (by omega), zeroRec_digest, z5, r1, r2, r3, r4, r5,
    r6, r7, allZero_replicate, allZero_replicate, ← hx, ← hy]
  generalize zeroRec y = dr
  generalize recOf x = rr
  simp only [Bool.or_self, Bool.false_eq_true, if_false, Bool.not_true, decide_true, Bool.and_self, ne_eq, not_true_eq_false, or_self]

/-- A restore whose records pass every check. -/
theorem restoreRead_clean (s : State) (h : s.latent = []) : s.restoreRead = s := by
  unfold State.restoreRead
  dsimp only
  rw [State.touchAll_clean s _ h, State.touchAll_clean s _ h]
  split
  · rfl
  · split <;> rfl
theorem test_ScalesStepsAndRestore_restore : ∃ (s : State) (rr dr : List Word), s.bitReg rRcmd 30 = false ∧
    (s.restoreReads && s.biHeld s.restoreLines) = false ∧ s.restoreRead.restoreCheck = .ok (rr, dr) :=
  ⟨_, _, _, (bit_of_regs (recState_regs _ _) _ _).trans (by decide), (congrArg (_ && ·) (State.biHeld_nil _ _ (by unfold recState up; rfl))).trans (Bool.and_false _),
    (congrArg State.restoreCheck (restoreRead_clean _ (by unfold recState up; rfl))).trans (restore_ok _ _ rfl rfl)⟩

/-- Flash holding a list of bytes from an offset on. -/
def cells : Nat → List Byte → Store Byte
  | _, [] => []
  | b, x :: r => (b, x) :: cells (b + 1) r

theorem look_cells_above (z : Byte) (l : List Byte) : ∀ b i, b + l.length ≤ i → look z (cells b l) i = z := by
  induction l with
  | nil => intro b i _; rfl
  | cons x r ih =>
    intro b i h
    rw [List.length_cons] at h
    rw [cells, look, if_neg (by omega)]
    exact ih (b + 1) i (by omega)

theorem look_cells (z : Byte) (l : List Byte) : ∀ b k (h : k < l.length), look z (cells b l) (b + k) = l[k] := by
  induction l with
  | nil => intro b k h; exact absurd h (by simp)
  | cons x r ih =>
    intro b k h
    rw [cells, look]
    cases k with
    | zero => simp
    | succ k =>
      rw [if_neg (by omega), show b + (k + 1) = b + 1 + k by omega, ih (b + 1) k (by rw [List.length_cons] at h; omega)]
      rfl

theorem lookRun_length {α : Type} (d : α) (m : Store α) (n : Nat) : ∀ i, (lookRun d m i n).length = n := by
  induction n with
  | zero => intro i; rfl
  | succ n ih => intro i; rw [lookRun, List.length_cons, ih]

theorem lookRun_get {α : Type} (d : α) (m : Store α) (n : Nat) : ∀ i k (h : k < (lookRun d m i n).length), (lookRun d m i n)[k] = look d m (i + k) := by
  induction n with
  | zero => intro i k h; exact absurd h (by simp [lookRun])
  | succ n ih =>
    intro i k h
    cases k with
    | zero => rfl
    | succ k =>
      rw [show i + (k + 1) = i + 1 + k by omega, ← ih (i + 1) k (by rw [lookRun_length] at *; omega)]
      rfl

theorem lookRun_part {α : Type} (d : α) (m : Store α) (i n j k : Nat) (h : j + k ≤ n) :
    ((lookRun d m i n).drop j).take k = lookRun d m (i + j) k := by
  apply List.ext_getElem
  · rw [List.length_take, List.length_drop, lookRun_length, lookRun_length]; omega
  · intro x h1 h2
    rw [List.getElem_take, List.getElem_drop, lookRun_get, lookRun_get]
    congr 1
    omega

theorem lookRun_cells (z : Byte) (l : List Byte) (b i n : Nat) (h : i + n ≤ l.length) :
    lookRun z (cells b l) (b + i) n = (l.drop i).take n := by
  apply List.ext_getElem
  · rw [List.length_take, List.length_drop, lookRun_length]; omega
  · intro x h1 h2
    rw [lookRun_length] at h1
    rw [lookRun_get, List.getElem_take, List.getElem_drop, ← look_cells z l b (i + x) (by omega)]
    congr 1
    omega

/-- The header of an image of one block with a body of digest d, its state and tries. -/
def imageHdr (d : List Byte) (state tries : Byte) : List Byte :=
  [0x1A, 0x6F, 0xC9, 0x51, 0, 0, 0, 0, 0, 0, 1, 0, 0, 0, 0, 0] ++ (d ++ (List.replicate 116 0 ++ [state, tries]))

theorem imageHdr_length (d : List Byte) (a b : Byte) (h : d.length = 64) : (imageHdr d a b).length = 198 := by
  rw [imageHdr, List.length_append, List.length_append, List.length_append, List.length_replicate, h]; rfl

/-- What the checks of R483 read of such a header. -/
theorem imageHdr_fields (v : ∀ m g, keyVerify m g = true) (z : Byte) (base n : Nat) (body : List Byte) (x y : Byte)
    (hn : 198 ≤ n) (h : List Byte) (hh : h = lookRun z (cells base (imageHdr (sha512 body) x y)) base n) :
    hdrOk h = true ∧ hdrField h 8 4 = 65536 ∧ imageStatus h body = 0 := by
  have hl := sha512_length body
  generalize hd : sha512 body = d at hl hh
  have ll := imageHdr_length d x y hl
  have part (i k : Nat) (g : i + k ≤ 198) : (h.drop i).take k = ((imageHdr d x y).drop i).take k := by
    rw [hh, lookRun_part _ _ _ _ _ _ (by omega), lookRun_cells _ _ _ _ _ (by omega)]
  have f0 : hdrField h 0 4 = 0x51C96F1A := by
    have e : ((imageHdr d x y).drop 0).take 4 = [0x1A, 0x6F, 0xC9, 0x51] := rfl
    rw [hdrField, part 0 4 (by omega), e]
    decide
  have f8 : hdrField h 8 4 = 65536 := by
    have e : ((imageHdr d x y).drop 8).take 4 = [0, 0, 1, 0] := rfl
    rw [hdrField, part 8 4 (by omega), e]
    decide
  have fd : (h.drop 16).take 64 = d := by
    rw [part 16 64 (by omega), imageHdr, List.drop_append_of_le_length (by simp)]
    rw [show (List.drop 16 [(0x1A : Byte), 0x6F, 0xC9, 0x51, 0, 0, 0, 0, 0, 0, 1, 0, 0, 0, 0, 0]) = [] from rfl, List.nil_append, ← hl, List.take_left]
  have ok : hdrOk h = true := by
    unfold hdrOk
    rw [f0, f8]
    decide
  refine ⟨ok, f8, ?_⟩
  unfold imageStatus
  rw [ok, hd, fd, v]
  simp

/-- An image whose body is erased flash. -/
def erased : List Byte := lookRun 0xFF [] 4096 65536
def anImage (state tries : Byte) : Store Byte := cells 0 (imageHdr (sha512 erased) state tries)

theorem imageHdr_tail (d : List Byte) (x y : Byte) (hl : d.length = 64) (k : Nat) :
    (imageHdr d x y).drop (80 + k) = (List.replicate 116 0 ++ [x, y]).drop k := by
  rw [show 80 + k = 16 + (64 + k) by omega, imageHdr, ← List.drop_drop, List.drop_append_of_le_length (by simp), ← List.drop_drop]
  rw [show (List.drop 16 [(0x1A : Byte), 0x6F, 0xC9, 0x51, 0, 0, 0, 0, 0, 0, 1, 0, 0, 0, 0, 0]) = [] from rfl, List.nil_append, ← hl, List.drop_left]

theorem slotBytes_in (s : State) (b : Bool) (i n : Nat) (h : i + n ≤ flashSize) : s.slotBytes b i n = lookRun 0xFF (s.flash b) i n := if_pos h

/-- It passes every check, as far as a signature under the firmware key verifies. -/
theorem anImage_ok (v : ∀ m g, keyVerify m g = true) (s : State) (b : Bool) (x y : Byte)
    (h : s.flash b = anImage x y) : s.slotStatus b = 0 ∧ s.slotState b = x.toNat ∧ s.slotTries b = y.toNat := by
  have hl := sha512_length erased
  obtain ⟨ok, f8, st⟩ := imageHdr_fields v 0xFF 0 4096 erased x y (by omega) (s.slotHdr b)
    (by unfold State.slotHdr; rw [slotBytes_in _ _ _ _ (by decide), h, anImage])
  have e1 : anImage x y = cells 0 (imageHdr (sha512 erased) x y) := by rw [anImage]
  generalize sha512 erased = d at hl e1
  have ll := imageHdr_length d x y hl
  have body : s.slotBody b = erased := by
    unfold State.slotBody erased
    rw [f8, slotBytes_in _ _ _ _ (by decide), h, e1]
    apply List.ext_getElem
    · rw [lookRun_length, lookRun_length]
    · intro k h1 h2
      rw [lookRun_get, lookRun_get, look_cells_above _ _ _ _ (by omega)]
      rfl
  refine ⟨?_, ?_, ?_⟩
  · unfold State.slotStatus
    rw [ok, body, st]
    rfl
  · have e : s.slotBytes b 196 1 = [x] := by
      rw [slotBytes_in _ _ _ _ (by decide), h, e1, ← Nat.zero_add 196, lookRun_cells _ _ _ _ _ (by omega), show 196 = 80 + 116 from rfl, imageHdr_tail d x y hl 116]; rfl
    rw [State.slotState, e]
    simp [hdrField, natOfBytes]
  · have e : s.slotBytes b 197 1 = [y] := by
      rw [slotBytes_in _ _ _ _ (by decide), h, e1, ← Nat.zero_add 197, lookRun_cells _ _ _ _ _ (by omega), show 197 = 80 + 117 from rfl, imageHdr_tail d x y hl 117]; rfl
    rw [State.slotTries, e]
    simp [hdrField, natOfBytes]

/-- The bytes of a run of words are those of memory. -/
theorem bytes_words (s : State) (ht : s.mem.trained = none) (n : Nat) :
    ∀ a, bytesOfWords (s.words a n) = lookRun 0 s.mem.cells (2 * a) (2 * n) := by
  induction n with
  | zero => intro a; rfl
  | succ n ih =>
    intro a
    have e : s.words a (n + 1) = s.word a :: s.words (a + 1) n := by
      simp only [State.words, addrs, List.range_succ_eq_map, List.map_cons, List.map_map, Nat.add_zero]
      congr 1
      apply List.map_congr_left
      intro i _
      simp only [Function.comp]
      congr 1
      omega
    rw [e, bytesOfWords, ih, show 2 * (n + 1) = 2 * n + 1 + 1 by omega, lookRun, lookRun, show 2 * (a + 1) = 2 * a + 1 + 1 by omega]
    have l : ∀ u v : Byte, (u ++ v).extractLsb' 0 8 = v ∧ (u ++ v).extractLsb' 8 8 = u := by
      intro u v
      have h1 := u.isLt
      have h2 := v.isLt
      have e : (u ++ v).toNat = u.toNat * 256 + v.toNat := by
        rw [BitVec.toNat_append, ← Nat.shiftLeft_add_eq_or_of_lt h2, Nat.shiftLeft_eq]
      constructor <;> apply BitVec.eq_of_toNat_eq <;> rw [BitVec.extractLsb'_toNat, e, Nat.shiftRight_eq_div_pow] <;> omega
    unfold State.word
    rw [(l _ _).1, (l _ _).2]
    have by_ (b : Nat) : s.byte b = look 0 s.mem.cells b := by
      unfold State.byte Memory.byte Memory.unwritten
      rw [ht]
      exact BitVec.xor_zero
    rw [by_, by_]

/-- Memory that holds an image with a body of zeros in the staging area. -/
def zeros : List Byte := lookRun 0 [] (2 * stagingBase + 4096) 65536
def stagedMem : Store Byte := cells (2 * stagingBase) (imageHdr (sha512 zeros) 0xFF 0xFF)

theorem staged_ok (v : ∀ m g, keyVerify m g = true) (s : State)
    (h : s.mem = { cells := stagedMem, trained := none }) (hp : s.psn = []) :
    s.stagingStatus.1 = 0 := by
  obtain ⟨ok, f8, st⟩ := imageHdr_fields v 0 (2 * stagingBase) 4096 zeros 0xFF 0xFF (by omega) (bytesOfWords (s.words stagingBase 2048))
    (by rw [bytes_words s (by rw [h]), h, stagedMem])
  have hl := imageHdr_length (sha512 zeros) 0xFF 0xFF (sha512_length zeros)
  have body : bytesOfWords (s.words (stagingBase + 2048) 32768) = zeros := by
    rw [bytes_words s (by rw [h]), h, stagedMem, zeros]
    unfold zeros at hl
    generalize imageHdr (sha512 (lookRun 0 [] (2 * stagingBase + 4096) 65536)) 0xFF 0xFF = l at hl
    apply List.ext_getElem
    · rw [lookRun_length, lookRun_length]
    · intro k h1 h2
      rw [lookRun_get, lookRun_get, look_cells_above _ _ _ _ (by rw [hl]; omega)]
      rfl
  unfold State.stagingStatus
  dsimp only
  rw [f8, ok, noMark s hp (by rw [h]), noMark s hp (by rw [h]), body, st]
  rfl
/-- A boot from a slot A that holds an image m, and an activation of a slot B that does. -/
theorem boots (m : Store Byte) (h : ∀ (s : State) (b : Bool), s.flash b = m → s.slotStatus b = 0 ∧ s.slotState b = 0x3F) : ∃ s : State,
    On s ∧ s.stage = 2 ∧ s.fldReg rStrap 8 2 = 0 ∧ s.bootOrder.find? (fun b => s.slotStatus b == 0) = some false := by
  obtain ⟨h1, h2⟩ := h { up [(rSvc, 0x20030000)] with flashA := m } false rfl
  refine ⟨{ up [(rSvc, 0x20030000)] with flashA := m }, ⟨rfl, rfl⟩, (by decide : (up [(rSvc, 0x20030000)]).stage = 2),
    (by decide : (up [(rSvc, 0x20030000)]).fldReg rStrap 8 2 = 0), ?_⟩
  generalize hs : { up [(rSvc, 0x20030000)] with flashA := m } = s at h1 h2
  have h3 : s.slotState true = 0xFF := by rw [← hs]; rfl
  have g1 : s.slotGroup false = some 1 := by unfold State.slotGroup; rw [h2]; rfl
  have g2 : s.slotGroup true = none := by unfold State.slotGroup; rw [h3]; rfl
  have o : s.bootOrder = [false] := by unfold State.bootOrder; rw [g1, g2]
  rw [o, List.find?_cons, h1]
  rfl

theorem activates (m : Store Byte) (h : ∀ (s : State) (b : Bool), s.flash b = m → s.slotStatus b = 0 ∧ s.slotState b = 0x7F ∧ s.slotTries b = 7) :
    ∃ s : State, On s ∧ (s.box .h).busy = false ∧ s.flyDown = false ∧ s.bitReg rSvc 18 = true ∧ s.running = some false ∧ s.pins.fwWpN = true ∧
      s.session = none ∧ s.stage = 4 ∧ s.pendingSlot = some true ∧ s.slotStatus true = 0 := by
  obtain ⟨h1, h2, h3⟩ := h { service 4 with flashB := m } true rfl
  refine ⟨{ service 4 with flashB := m }, ⟨rfl, rfl⟩, rfl, rfl, (by decide : (service 4).bitReg rSvc 18 = true), rfl, rfl, rfl,
    (by decide : (service 4).stage = 4), ?_, h1⟩
  generalize hs : { service 4 with flashB := m } = s at h2 h3
  have r : s.running = some false := by rw [← hs]; rfl
  unfold State.pendingSlot
  rw [r]
  simp [h2, h3]

theorem test_BringUpSteps_boot (v : ∀ m g, keyVerify m g = true) : ∃ s : State, On s ∧ s.stage = 2 ∧
    s.fldReg rStrap 8 2 = 0 ∧ s.bootOrder.find? (fun b => s.slotStatus b == 0) = some false :=
  boots _ (fun s b h => ⟨(anImage_ok v s b 0x3F 0xFF h).1, (anImage_ok v s b 0x3F 0xFF h).2.1⟩)

theorem test_UpdatesAndActivation_activate (v : ∀ m g, keyVerify m g = true) : ∃ s : State, On s ∧
    (s.box .h).busy = false ∧ s.flyDown = false ∧ s.bitReg rSvc 18 = true ∧ s.running = some false ∧ s.pins.fwWpN = true ∧ s.session = none ∧
    s.stage = 4 ∧ s.pendingSlot = some true ∧ s.slotStatus true = 0 :=
  activates _ (fun s b h => anImage_ok v s b 0x7F 7 h)

/-- A transfer and a LOAD of an image that verifies. -/
theorem test_ImageService_verified (v : ∀ m g, keyVerify m g = true) : ∃ (s : State) (p : Packet), On s ∧
    s.imgLink = some 95 ∧ s.fldReg rStrap 8 2 = 2 ∧ s.stage = 2 ∧ p.tsf.getLsbD 63 = true ∧
    ((s.consume p).writeRun (stagingBase + fld p.tsf 0 24) (p.data.take (16777216 - fld p.tsf 0 24))).stagingRead.stagingStatus.1 = 0 := by
  have key (m : Memory) (h : ∀ s : State, s.mem = m → s.psn = [] → s.latent = [] → s.stagingRead.stagingStatus.1 = 0) : ∃ (s : State) (p : Packet), On s ∧
      s.imgLink = some 95 ∧ s.fldReg rStrap 8 2 = 2 ∧ s.stage = 2 ∧ p.tsf.getLsbD 63 = true ∧
      ((s.consume p).writeRun (stagingBase + fld p.tsf 0 24) (p.data.take (16777216 - fld p.tsf 0 24))).stagingRead.stagingStatus.1 = 0 :=
    ⟨{ up [(rStrap, 0x200), (rSvc, 0x20000000)] with imgLink := some 95, mem := m }, pkt 0 0x24 0 0x8000000000000000 [], ⟨rfl, rfl⟩, rfl,
      (by decide : (up [(rStrap, 0x200), (rSvc, 0x20000000)]).fldReg rStrap 8 2 = 2),
      (by decide : (up [(rStrap, 0x200), (rSvc, 0x20000000)]).stage = 2), by decide, h _ rfl rfl rfl⟩
  exact key _ (fun s h g l => (State.stagingRead_clean s l).symm ▸ staged_ok v s h g)

theorem test_MailboxAnswers_load (v : ∀ m g, keyVerify m g = true) : ∃ s : State, On s ∧ (s.box .h).busy = false ∧
    s.flyDown = false ∧ s.bitReg rSvc 18 = false ∧ s.fldReg rStrap 8 2 = 1 ∧ s.stage = 2 ∧ s.stagingRead.stagingStatus.1 = 0 := by
  have key (m : Memory) (h : ∀ s : State, s.mem = m → s.psn = [] → s.latent = [] → s.stagingRead.stagingStatus.1 = 0) : ∃ s : State, On s ∧ (s.box .h).busy = false ∧
      s.flyDown = false ∧ s.bitReg rSvc 18 = false ∧ s.fldReg rStrap 8 2 = 1 ∧ s.stage = 2 ∧ s.stagingRead.stagingStatus.1 = 0 :=
    ⟨{ staged with mem := m }, ⟨rfl, rfl⟩, rfl, rfl, (by decide : staged.bitReg rSvc 18 = false), (by decide : staged.fldReg rStrap 8 2 = 1),
      (by decide : staged.stage = 2), h _ rfl rfl rfl⟩
  exact key _ (fun s h g l => (State.stagingRead_clean s l).symm ▸ staged_ok v s h g)

/-! ## The vector unit: hypotheses that can be met -/

/-- A core with two elements of a type, at group size 1. -/
def vec (et vl : Nat) : Core := { live with vl := BitVec.ofNat 32 vl, vtype := BitVec.ofNat 32 et }

set_option synthInstance.maxSize 2000 in
set_option synthInstance.maxHeartbeats 200000 in
/-- Every function of the tables, masked, of two elements, with its operands in groups that meet R164 and R180; and at the last group. -/
theorem test_VectorIntegerFunctions : ∀ e ∈ vecIntSpecs, let c := vec (e.ets.headD 0) 2
    let a : Fin 32 := if e.one then 0 else 16
    runs (on 0 c) 0 .al 2 = true ∧ VecFits e c true 8 a (.vec 24) ∧ VecFits e c false 30 a (.scalar 12) ∧
    Accepts c e.unit false (maskReg true ++ (if e.one then [] else regsOf a.val e.ma) ++ srcRegs (.vec 24) 1 ++
      (if e.acc then regsOf 8 (max 1 e.md) else [])) (if e.md = 0 then [8] else regsOf 8 e.md) := by
  unfold VecFits Accepts srcFits
  dsimp only
  decide +kernel

theorem test_VectorFloatFunctionsAndDotProducts : ∀ e ∈ vecFloatSpecs, let c := vec (e.ets.headD 0) 2
    let a : Fin 32 := if e.one then 0 else 16
    runs (on 0 c) 0 .al 2 = true ∧ VecFits e c true 8 a (.vec 24) ∧
    Accepts c e.unit false (maskReg true ++ (if e.one then [] else regsOf a.val 1) ++ [24] ++ (if e.acc then [8] else [])) [8] := by
  unfold VecFits Accepts srcFits
  dsimp only
  decide +kernel

theorem test_VectorFloatFunctionsAndDotProducts_dots : ∀ e ∈ [(0, 4, VUnit.vmul), (4, 2, VUnit.vfma), (5, 2, VUnit.vfma)], let c := vec e.1 4
    c.et = e.1 ∧ c.vlen ≤ c.vlmax ∧ c.vlen % e.2.1 = 0 ∧ c.grp = 1 ∧ apart 31 1 0 1 = true ∧ srcFits c (.vec 16) 31 1 true ∧
    Accepts c e.2.2 false (maskReg true ++ regsOf 0 1 ++ srcRegs (.vec 16) 1 ++ regsOf 31 1) (regsOf 31 1) := by
  unfold Accepts srcFits
  dsimp only
  decide

set_option synthInstance.maxSize 2000 in
set_option synthInstance.maxHeartbeats 200000 in
theorem test_VectorControlAndQueries : (∀ et < 4, let c := vec et 2
      runs (on 191 c) 191 .al 2 = true ∧ c.vbusy = [] ∧ c.et < 8 ∧ c.vlen ≤ c.vlmax ∧ c.vscalarOk 12 = true ∧ 31 % c.grp = 0 ∧ 31 + c.grp ≤ 32 ∧
      Accepts c .vxu false (regsOf 31 c.grp) [] ∧ Accepts c .valu false [] (regsOf 31 c.grp) ∧ Accepts c .vxu false [31] [] ∧
      (c.dreg 0).toNat < c.vlmax ∧ c.sew = 8 * 2 ^ et ∧ c.vmark 31 c.sew 0 = false ∧ c.prog.toNat = 0 ∧ c.vlen ≠ 0) ∧ 8 ≤ (vec 8 2).et ∧
    (vec 1 0).vlen = 0 ∧ ({ vec 1 2 with prog := 2 }).vlen ≤ ({ vec 1 2 with prog := 2 }).prog.toNat ∧ (live.dreg 0).toNat < ({ vec 1 2 with prog := 1 }).prog.toNat ∧
    ({ vec 1 2 with vpsn := [(64 * 31, true)] }).vmark 31 16 0 = true ∧ (vec 1 2).vlmax ≤ (({ vec 1 2 with d := [(0, 256)] }).dreg 0).toNat ∧
    ({ vec 1 2 with vpsn := [(64 * 31, true)] }).mmark 31 0 = true := by
  unfold Accepts
  dsimp only
  decide

theorem test_VectorCrossLaneResults : let c := vec 2 4
    runs (on 0 c) 0 .al 2 = true ∧ runs (on 0 c) 0 .al 4 = true ∧ c.et < 8 ∧ c.et = 2 ∧ c.vlen ≤ c.vlmax ∧ c.grp = 1 ∧ c.vlen ≤ 2 ^ 2 ∧ (∀ j < 2, 2 ^ j < c.vlen) ∧
    apart 8 1 16 1 = true ∧ apart 8 1 24 1 = true ∧ apart 16 1 24 1 = true ∧ apart 8 2 16 8 = true ∧ apart 8 2 24 1 = true ∧
    Accepts c .vxu true (maskReg true ++ regsOf 16 1 ++ regsOf 24 1) (regsOf 8 1 ++ regsOf 9 1) ∧
    Accepts c .vmul false (maskReg true) (regsOf 8 1) ∧ Accepts c .vfma false (regsOf 16 8 ++ regsOf 24 1) (regsOf 8 2) ∧
    (∀ i < 16, (cvtTable[i]?).isSome = true) ∧ c.vlen ≤ 4096 * 1 / 64 := by
  unfold Accepts
  dsimp only
  decide

/-- A base in the window and one step of 2 words; a core at SEW 16 in every form of Table 6-8. -/
def vecMem : Core := { vec 1 2 with a := [(7, 0xE0000002000)], d := [(4, 2)] }
theorem test_VectorLoadsAndStores : ∀ e ∈ vecForms 0 .al true 8 7 false 4 2 16, FormFits e vecMem true true 8 false 4 ∧
    FormFits e vecMem false true 8 false 4 ∧ Accepts vecMem .vls e.serial (maskReg true ++ e.idx.elim [] (fun v => regsOf v (idxGroup vecMem)))
      (regsOf 8 e.nf) ∧
    (∀ i < 2, ∀ f < e.nf, (startOf (on 0 vecMem) 0 2).lsTarget (e.ea vecMem 0xE0000002000 i f) 1 = .local_) ∧ vecMem.vlen ≠ 0 ∧
    (startOf (on 0 vecMem) 0 2).entryWaits 0 = false ∧
    (startOf (on 0 { vecMem with ipend := 1, ien := 1, sr := 0x80000000 }) 0 2).entryWaits 0 = true := by
  unfold FormFits Accepts
  intro e he
  simp only [vecForms, List.mem_cons, List.not_mem_nil, or_false] at he
  obtain rfl | rfl | rfl | rfl := he
  · refine ⟨by decide, by decide, by decide, by decide, by decide, by decide, by decide⟩
  · refine ⟨by decide, by decide, by decide, by decide, by decide, by decide, by decide⟩
  · refine ⟨by decide, by decide, by decide, by decide, by decide, by decide, by decide⟩
  · refine ⟨⟨by decide, by decide, by decide, by decide, by decide, by decide, by decide, by decide, by decide, ?_⟩,
      ⟨by decide, by decide, by decide, by decide, by decide, by decide, by decide, by decide, by decide, ?_⟩, by decide, by decide, by decide, by decide, by decide⟩ <;>
    · intro vi h
      obtain rfl : (16 : Nat) = vi := by simpa using h
      decide

/-! ## The feeder and what interrupts a core: hypotheses that can be met -/

/-- A core that copies the last 16 words of a DRAM frame of LPDDR6 to its window. -/
def copier : Core := { live with a := [(0, 0x100000007F0), (1, 0xE0000002000)], d := [(0, 16), (2, 7)] }

theorem test_McopyAndItsBlocks : ∃ s t n k, Ready s t n k 2 ∧ let c := t.core n
    c.prog = 0 ∧ c.fops = [] ∧ c.blocks = [] ∧ 0 < (c.dpair 0).toNat ∧ (c.dpair 4).toNat = 0 ∧ t.xlOn n c.sup = false ∧ t.isHere (c.areg 0) = true ∧
    t.isHere (c.areg 1) = true ∧ t.tierOk (physOf n (localOf (c.areg 0))) = true ∧ t.tierOk (physOf n (localOf (c.areg 1))) = true ∧
    (c.areg 0).toNat % 2048 + (c.dpair 0).toNat ≤ 2048 ∧ (c.areg 1).toNat % 2048 + (c.dpair 0).toNat ≤ 2048 ∧
    (t.sem (c.dreg 2).toNat).mark = false ∧ (t.sem (c.dreg 2).toNat).count.toNat < 0x7FFFFFFF ∧
    (∀ f ∈ [({ id := 4, kind := .setter 7, next := 0, placed := true, failed := false, cut := false, rd := [], wr := [] } : FOp)], f.id < 5) :=
  ⟨on 191 copier, _, 191, .al, ready_of _ _ _ _ (by decide), by decide⟩

/-- A held mcopy with its last block to place; and one whose only block is to complete. -/
def mcopyOp (next : Nat) (placed : Bool) : FOp :=
  { id := 4, kind := .mcopy 0x100000007F0 0xE0000002000 16 (some 7) true, next := next, placed := placed, failed := false, cut := false,
    rd := [], wr := [] }
theorem test_McopyAndItsBlocks_place : let s := on 0 { copier with fops := [mcopyOp 8 false], hold := some .mcopy, hlen := 2 }
    let c := s.core 0
    c.fops = [mcopyOp 8 false] ∧ c.hold = some .mcopy ∧ c.blocks.length < 16 ∧ s.xlOn 0 true = false ∧ s.isHere 0x100000007F8 = true ∧
    s.isHere 0xE0000002008 = true ∧ s.tierOk (physOf 0 0x100000007F8) = true ∧ s.tierOk (physOf 0 (localOf 0xE0000002008)) = true ∧
    0x100000007F8 % 2048 + 8 ≤ 2048 ∧ 0xE0000002008 % 2048 + 8 ≤ 2048 := by decide

def mcopyBlock : Block :=
  { id := 5, fop := 4, start := 0, len := 16, srcs := [{ va := 0x100000007F0, addr := 0x100000007F0, len := 16, leaf := none }],
    dsts := [{ va := 0xE0000002000, addr := 0xE0100002000, len := 16, leaf := none }], banks := [], tags := [], got := [], wrote := false, fail := none,
    out := [], keep := [] }
theorem test_McopyAndItsBlocks_complete : let s := on 0 { copier with fops := [mcopyOp 16 true], blocks := [mcopyBlock] }
    (s.core 0).fops = [mcopyOp 16 true] ∧ (s.core 0).blocks = [mcopyBlock] ∧ mcopyBlock.tags = [] ∧ mcopyBlock.fail = none ∧ s.snoop = [] ∧
    s.latent = [] ∧ 0x100000007F0 + 16 ≤ 2 ^ 44 ∧ 0xE0100002000 + 16 ≤ 2 ^ 44 ∧ (s.sem 7).mark = false ∧ (s.core 0).runAhead = [] ∧
    (∀ x ∈ (0x100000007F0, 16) :: (mcopyOp 16 true).rd, ∀ y ∈ (0xE0100002000, 16) :: (mcopyOp 16 true).wr, x.1 + x.2 ≤ y.1 ∨ y.1 + y.2 ≤ x.1) ∧
    s.isHere (0x100000007F0 + 15) = true ∧ (0x10000000800 / 65536 = 0x100000007F0 / 65536) ∧ tableTier 0x10000000800 = true ∧ s.tierOk 0x10000000800 = true := by decide

/-- A three-level table at the bottom of LPDDR6 with one page, and a 64 MiB page beside it. -/
def tableAt (e2 : BitVec 128) : State :=
  (((on 0 { user with hold := some (.walk 0x10000 false), rootUse := 0x100 }).setEntry 0x10000000000 (BitVec.ofNat 128 (2 ^ 63 + 0x10000002000))).setEntry
    0x10000002000 e2).setEntry 0x10000003008 (BitVec.ofNat 128 (2 ^ 63 + 2 ^ 62 + 2 ^ 61 + 2 ^ 60))

set_option maxRecDepth 40000 in
theorem test_WalksInterruptsAndDeferredFaults_walk : let s := tableAt (BitVec.ofNat 128 (2 ^ 63 + 0x10000003000))
    (s.core 0).hold = some (.walk 0x10000 false) ∧ s.snoop = [] ∧ s.latent = [] ∧ s.tlbFind 0 0x10000 = none ∧ s.xroot 0 = 0x10000000000 ∧
    tableTier 0x10000000000 = true ∧ s.tableOk 0x10000000000 = true ∧ s.poisoned 0x10000000000 = false ∧ s.poisoned 0x10000000004 = false ∧
    (s.entryAt 0x10000000000).getLsbD 63 = true ∧ (s.entryAt 0x10000000000).getLsbD 62 = false ∧ fld (s.entryAt 0x10000000000) 108 4 = 0 ∧
    fld (s.entryAt 0x10000000000) 44 13 = 0 ∧ entPa (s.entryAt 0x10000000000) = 0x10000002000 ∧ entPa (s.entryAt 0x10000002000) = 0x10000003000 ∧
    (s.entryAt 0x10000003008).getLsbD 63 = true ∧ (s.entryAt 0x10000003008).getLsbD 62 = true ∧ leafOk (s.entryAt 0x10000003008) false = true := by
  decide

set_option maxRecDepth 40000 in
theorem test_WalksInterruptsAndDeferredFaults_big : let s := tableAt (BitVec.ofNat 128 (2 ^ 63 + 2 ^ 62 + 2 ^ 61))
    (s.entryAt 0x10000002000).getLsbD 63 = true ∧ (s.entryAt 0x10000002000).getLsbD 62 = true ∧ fld (s.entryAt 0x10000002000) 108 4 = 0 ∧
    fld (s.entryAt 0x10000002000) 44 13 = 0 ∧ leafOk (s.entryAt 0x10000002000) true = true ∧
    (((on 0 user).entryAt 0x10000000000).getLsbD 63 = false) := by decide

theorem test_WalksInterruptsAndDeferredFaults_entry : let s := on 0 { user with ipend := 0x1F, ien := 0x18, hold := some (.fence 1) }
    let c := s.core 0
    c.dst = .run ∧ s.bitReg (rRun 0) 0 = false ∧ c.stopReq = false ∧ c.resetting = false ∧ c.masked = false ∧ c.record.length < 15 ∧
    c.redirect = none ∧ c.walked = false ∧ c.hold = some (.fence 1) ∧ c.deferred = [] ∧ (c.ien.getLsbD 3 && c.ipend.getLsbD 3) = true ∧
    (∀ j < 3, (c.ien.getLsbD j && (if j = 2 then s.pageIrqTo 0 else c.ipend.getLsbD j)) = false) ∧
    [Cause.preempt, .doorbell, .page, .swi, .pyro][3]? = some .swi ∧ s.boundary 0 = none ∧ s.vecResumed 0 = false ∧
    ((on 191 { user with deferred := [{ cause := .poison, faddr := 9, op := 2, susp := some 7 }] }).core 191).deferred =
      [{ cause := .poison, faddr := 9, op := 2, susp := some 7 }] := by decide

/-! ## Tiles and arrays: hypotheses that can be met -/

/-- A core whose Setter is empty: D0 and D1 hold a shape, D2 a word, and two shapes are set. -/
def setr (shape : W32) (a : W64) (word : Word) (shapes : Store W32) : Core :=
  { live with d := [(0, shape.extractLsb' 0 16), (1, shape.extractLsb' 16 16), (2, word)], a := [(0, a)], shapeI := shapes }

theorem test_TileInstructionsEnterTheSetter : runs (on 191 (setr 0x40400040 0 0 [])) 191 .al 2 = true ∧
    runs (on 191 (setr 0x40400040 0 0 [])) 191 .al 4 = true ∧ (setr 0x40400040 0 0 []).setter.length < 32 ∧
    (setr 0x40400040 0 0 []).dpair 0 = 0x40400040 ∧ shapeOk ((setr 0x40400040 0 0 []).dpair 0) = true ∧
    shapeOk ((setr 0xA0400040 0 0 []).dpair 0) = false ∧ 60 % 4 = 0 ∧ 60 + 4 * 1 ≤ 64 ∧ 31 % live.grp = 0 ∧ 31 + live.grp ≤ 32 ∧
    Accepts live .valu false (regsOf 31 live.grp) [] ∧ Accepts live .valu false [31] [] ∧
    (setr 0 4 0 []).sup = true ∧ ((setr 0 4 0 []).areg 0).toNat % 4 = 0 ∧ ((setr 0 6 0 []).areg 0).toNat % 4 ≠ 0 ∧
    ({ setr 0 4 0 [] with sr := 0 }).sup = false := by
  unfold Accepts
  decide

/-- The second parcels of a tile load: a dense one, a saturating one, a transposed one, an expanding one, and a slab at the last tiles. -/
theorem test_TileInstructionsEnterTheSetter_tld : let c := setr 0 0 0 [(1, 0x18400040), (60, 0x00400040), (61, 0x00400040), (62, 0x00400040), (63, 0x00400040)]
    (∀ e ∈ [(0, 4, false), (0, 6, true), (0, 5, false), (1, 11, false)],
      let w : BitVec 32 := BitVec.ofNat 32 (e.2.1 * 2 ^ 25 + (if e.2.2 then 2 ^ 29 else 0))
      let h := c.shape e.1
      let f := shFmt h
      let m := w.toNat / 2 ^ 25 % 16
      let sat := w.getLsbD 29
      w.getLsbD 31 = false ∧ w.toNat / 64 % 4 = 0 ∧ w.getLsbD 0 = false ∧ w.toNat / 2 ^ 22 % 8 = 0 ∧
      ((m ≤ 9 ∧ m = f ∧ sat = false) ∨ (shSp h = false ∧ ((m, f) ∈ [(4, 5), (5, 4), (6, 4), (6, 5)] ∨
        (sat = false ∧ ((m, f) ∈ [(4, 6), (5, 6), (10, 0)] ∨ ((m, f) ∈ [(11, 1), (12, 1)] ∧ shBs h = true)))))) ∧ w.getLsbD 21 = false) ∧
    (let w : BitVec 32 := 0x10C00000
     w.toNat / 2 ^ 25 % 16 = 8 ∧ w.toNat / 2 ^ 22 % 8 = 3 ∧ w.getLsbD 29 = false ∧ w.getLsbD 21 = false ∧ w.getLsbD 31 = false ∧ 60 + 3 ≤ 63 ∧
     w.toNat / 64 % 4 = 0 ∧ w.getLsbD 0 = false ∧ ∀ i ≤ 3, let y := c.shape (60 + i)
       shFmt y = 0 ∧ shBs y = false ∧ shSp y = false ∧ shNr y = shNr (c.shape 60) ∧ shNc y = shNc (c.shape 60)) := by decide

/-- The second parcels of a tile store: a dense one, a narrowing one, a scaled one, and a block-scaled one. -/
theorem test_TileInstructionsEnterTheSetter_tst : let c := setr 0 0 0 [(1, 0x60400020)]
    ∀ e ∈ [(0, 4, false), (1, 5, false), (1, 1, true), (1, 3, true)],
      let w : BitVec 32 := BitVec.ofNat 32 (e.2.1 * 2 ^ 26 + (if e.2.2 then 2 ^ 25 else 0))
      let h := c.shape e.1
      let f := shFmt h
      let m := w.toNat / 2 ^ 26 % 16
      let sat := w.getLsbD 30
      let scv := w.getLsbD 25
      w.getLsbD 31 = false ∧ w.toNat / 32 % 128 = 0 ∧
      ((m ≤ 9 ∧ m = f ∧ sat = false ∧ scv = false) ∨ (shSp h = false ∧ ((m, f) ∈ [(5, 6), (1, 6), (1, 4), (2, 6), (2, 4)] ∨
        ((m, f) = (4, 6) ∧ scv = false) ∨ ((m, f) = (10, 0) ∧ sat = false ∧ scv = false) ∨
        (m ∈ [3, 11, 12] ∧ f ∈ [4, 6] ∧ scv = true ∧ sat = false ∧ shNc h % 32 = 0)))) := by decide

/-- A Setter entry that waits, and one that fired. -/
def entryOf (o : SOp) (p : SPhase) (shapes : List (Nat × W32)) : SEntry := SEntry.mk 7 o shapes p false false 0 0 0 [] [] [] none none none
def withEntry (e : SEntry) : State := on 191 { live with setter := [e] }

theorem test_TileOperationsTakeEffect : ∀ o ∈ [SOp.tcfg 63 0x40400040, .tzero 63, .tmask 63 0 true, .tmvVt 63 60 (List.replicate 256 1) (List.replicate 64 true),
    .tmvTv 31 63 60 1, .tmeta 31 63 3], let e := entryOf o .waiting []
    On (withEntry e) ∧ ((withEntry e).core 191).setter = [e] ∧ e.phase = .waiting ∧ ((withEntry e).core 191).fops = [] := by
  simp only [List.mem_cons, List.not_mem_nil, or_false]
  rintro o (rfl | rfl | rfl | rfl | rfl | rfl) <;> exact ⟨⟨rfl, rfl⟩, rfl, rfl, rfl⟩

/-- A tile load of 32 dense rows of BF16 that one block of 2,048 words holds. -/
def tldOp : FOp := { id := 8, kind := .setter 7, next := 1, placed := true, failed := false, cut := false, rd := [], wr := [] }
def tldArgs : TArgs := TArgs.mk 0 0x08000000 0x10000000000 64 0 0 0 true
def tldEntry : SEntry := SEntry.mk 7 (.tld 63 tldArgs) [(63, 0x40200040)] .fired true true 0 0 0 [] [] [] none none none
def tldBlock : Block :=
  { id := 9, fop := 8, start := 0, len := 2048, dsts := [], banks := [], tags := [], got := [], wrote := false, fail := none, out := [], keep := [],
    srcs := (List.range 32).map (fun i => Run.mk (tldArgs.an + BitVec.ofNat 64 i * tldArgs.pitch.signExtend 64)
      (BitVec.ofNat 64 (0x10000000000 + 64 * i)) 64 none) }
def tldState : State := on 191 { live with setter := [tldEntry], fops := [tldOp], blocks := [tldBlock] }

set_option maxRecDepth 20000 in
theorem test_TileOperationsTakeEffect_tld : let s := tldState
    let h := tldEntry.shapeOf 63
    let row (i : Nat) : W64 := tldArgs.an + BitVec.ofNat 64 i * tldArgs.pitch.signExtend 64
    let len := (shNc h * tileW (shFmt h) + 15) / 16
    On s ∧ (s.core 191).setter = [tldEntry] ∧ (s.core 191).fops = [tldOp] ∧ (s.core 191).blocks = [tldBlock] ∧ s.snoop = [] ∧ s.latent = [] ∧
    tldOp.kind = .setter tldEntry.id ∧ tldSl tldArgs.p2 = 0 ∧ tldSrcf tldArgs.p2 = shFmt h ∧ tldArgs.p2.getLsbD 31 = false ∧
    tldArgs.p2.getLsbD 5 = false ∧ shBs h = false ∧ shSp h = false ∧ shFmt h ≤ 9 ∧ 1 ≤ shNc h ∧ shNc h * tileW (shFmt h) ≤ 1024 ∧
    1 ≤ shNr h ∧ shNr h ≤ 64 ∧ shNr h * len ≤ 2048 ∧ len = 64 ∧ shNr h = 32 ∧
    (∀ i < shNr h, (row i).toNat / 2048 = (row 0).toNat / 2048 ∧ (row i).toNat % 2048 + len ≤ 2048 ∧ 0x10000000000 + 64 * i + len ≤ 2 ^ 44) := by
  decide

/-- A core with array 3 whose groups and accumulators are given, D0 to D3 and shapes 0 to 2. -/
def arrCore (d : Store Word) (shapes : Store W32) (x : Arr) : Core :=
  { live with d := d, a := [(0, 0xE0000002000)], shapeI := shapes, arrs := [(3, x)] }
def openG (tree : Bool) (used : Nat) : Group := Machine.Group.mk true 31 tree false (if tree then 1 else 0) used 0 false 0 []

theorem test_ArrayInstructionsEnterTheSetter : let off := { on 191 live with fuses := [.col 191 3 5, .col 191 3 6] }
    runs off 191 .al 2 = true ∧ (startOf off 191 2).arrWidth 191 3 = 0 ∧ (startOf (on 191 live) 191 2).arrWidth 191 3 = 64 ∧
    (startOf { on 191 live with fuses := [.col 191 3 5] } 191 2).arrWidth 191 3 = 63 ∧ live.setter.length < 32 := by decide

/-- What Table 9-4 refuses: a held accumulator, a reserved bit, an odd register, and a load whose second row leaves the window. -/
theorem test_ArrayInstructionsEnterTheSetter_refused : let x := { Arr.reset with groups := [(7, openG true 0)] }
    (∃ g < 8, (x.group g).openI = true ∧ (x.group g).baseI ≤ 31 ∧
      31 ≤ (x.group g).baseI + (if (x.group g).treeI then Nat.clog 2 (x.group g).totI else 0)) ∧
    (0x8000 : Word).getLsbD 15 = true ∧ evenReg 15 = false ∧ ¬(0x20 : Word).toNat < 32 ∧ (x.group 7).openI ≠ false ∧
    (let row (r : Nat) : W64 := (0xE00000FFF80 : W64) + BitVec.ofNat 64 r * (0x80 : W32).signExtend 64
     (startOf (on 191 live) 191 2).inWindow (row 1) 128 = false ∧ ∀ m < 1, (startOf (on 191 live) 191 2).inWindow (row m) 128 = true) := by decide

/-- Products: of dense BF16, of dense INT8 in group 7 at accumulator 31, and of FP4 with an index tile. -/
theorem test_ArrayInstructionsEnterTheSetter_mma :
    let ok (glaze : Bool) (c : Core) (tw ta : Nat) (w : Word) : Prop :=
      let x := c.arr 3
      let typ (a : Nat) : Bool := look false x.accI a
      let hw := c.shape tw
      let ha := c.shape ta
      let hx := c.shape (tw + 1)
      let spx := w.getLsbD 14
      let a := w.toNat % 32
      let y := x.group (w.toNat / 32 % 8)
      w.getLsbD 15 = false ∧ (shFmt hw, shFmt ha) ∈ (if glaze then
        [(4, 4), (4, 5), (5, 4), (5, 5), (1, 1), (1, 2), (2, 1), (2, 2), (0, 0), (3, 3)] else [(4, 4), (0, 0)]) ∧
      shSp ha = false ∧ shNc ha = shNc hw ∧ (spx = true ∨ shSp hw = true → shNr ha % 2 = 0) ∧ shNr hw ≤ 64 ∧
      (spx = true → shFmt hw = 3 ∧ shSp hw = false ∧ tw < 63 ∧ shFmt hx = 0 ∧ shNr hx = shNr hw ∧ 4 * shNc hx = shNc hw) ∧
      (w.getLsbD 12 = true ∨ w.getLsbD 13 = true → shFmt hw = 0) ∧ (typ a = true ↔ shFmt hw = 0) ∧
      (if w.getLsbD 8 then y.openI = true ∧ y.baseI = a ∧ (y.treeI = true → y.usedI < y.totI)
        else ¬∃ g < 8, (x.group g).openI = true ∧ (x.group g).baseI ≤ a ∧
          a ≤ (x.group g).baseI + (if (x.group g).treeI then Nat.clog 2 (x.group g).totI else 0))
    ok false (arrCore [] [] Arr.reset) 0 63 0 ∧
    ok false (arrCore [] [(0, 0x00400080), (63, 0x00400080)] { Arr.reset with accI := [(31, true)], groups := [(7, openG true 0)] }) 0 63 0x31FF ∧
    ok true (arrCore [] [(62, 0x30400040), (63, 0x00400010), (1, 0x30400040)] Arr.reset) 62 1 0x4000 := by
  dsimp only
  refine ⟨by decide, by decide, by decide⟩

theorem test_ArrayInstructionsEnterTheSetter_groups :
    (Arr.reset.group 7).openI = false ∧ 30 + Nat.clog 2 2 ≤ 31 ∧ look false Arr.reset.accI 31 = false ∧
    (let x := { Arr.reset with groups := [(7, openG true 1)] }
     (x.group 7).openI = true ∧ ((x.group 7).treeI = true → (x.group 7).totI ≤ (x.group 7).usedI) ∧ (x.group 0).openI = false ∧
     (∃ j ≤ 1, ∃ g < 8, (x.group g).openI = true ∧ (x.group g).baseI ≤ 30 + j ∧
       30 + j ≤ (x.group g).baseI + (if (x.group g).treeI then Nat.clog 2 (x.group g).totI else 0)) ∧
     (∀ j ≤ 1, ¬∃ g < 8, (x.group g).openI = true ∧ (x.group g).baseI ≤ 29 + j ∧
       29 + j ≤ (x.group g).baseI + (if (x.group g).treeI then Nat.clog 2 (x.group g).totI else 0))) ∧
    (openG true 0).treeI = true ∧ (openG true 0).usedI < (openG true 0).totI := by decide

set_option maxRecDepth 20000 in
/-- Drains: to tiles of INT32, INT8, FP32, BF16, FP8 and FP4, to memory with rows at the window's end and one past it, and to a job; and a load. -/
theorem test_ArrayInstructionsEnterTheSetter_drains :
    (∀ h ∈ [(0x60400020 : W32), 0x40400040, 0x10400040, 0x20400040, 0x50400040], (shSp h = false ∧ shNr h = 64) ∧
      ((shFmt h = 6 ∧ shBs h = false ∧ shNc h = 32) ∨ (shNc h = 64 ∧ ((shFmt h = 4 ∧ shBs h = false) ∨ (shFmt h ∈ [1, 2, 5] ∧ shBs h = false))))) ∧
    (∀ h ∈ [(0x70400020 : W32), 0x00400040], (shSp h = false ∧ shNr h = 64) ∧
      ((shFmt h = 7 ∧ shBs h = false ∧ shNc h = 32) ∨ (shFmt h = 0 ∧ shBs h = false ∧ shNc h = 64))) ∧
    (shSp 0x38400040 = false ∧ shNr 0x38400040 = 64 ∧ shFmt 0x38400040 = 3 ∧ shBs 0x38400040 = true ∧ shNc 0x38400040 = 64) ∧
    (let row (r : Nat) : W64 := (0xE00000FE000 : W64) + BitVec.ofNat 64 r * (0x80 : W32).signExtend 64
     ∀ i < 64, (startOf (on 191 live) 191 2).inWindow (row i) 128 = true) ∧
    (let row (r : Nat) : W64 := (0xE00000FE040 : W64) + BitVec.ofNat 64 r * (0x80 : W32).signExtend 64
     (startOf (on 191 live) 191 2).inWindow (row 63) 128 = false ∧ ∀ j < 63, (startOf (on 191 live) 191 2).inWindow (row j) 128 = true) ∧
    (∀ m ∈ [(0, true), (7, true), (6, false), (4, false), (1, false), (5, false)], (BitVec.ofNat 16 (m.1 * 4)).toNat / 4 % 16 = m.1 ∧
      (BitVec.ofNat 16 (m.1 * 4)).getLsbD 0 = false ∧ (BitVec.ofNat 16 (m.1 * 4)).getLsbD 13 = false) ∧
    (0x8002 : Word).toNat % 32768 / 4 = 0 ∧ (0xFFF : Word).toNat < 4096 ∧ (0x1F : Word).toNat < 32 := by
  dsimp only
  simp only [List.mem_cons, List.not_mem_nil, or_false]
  refine ⟨?_, ?_, by decide, by decide, by decide, ?_, by decide, by decide, by decide⟩
  · rintro h (rfl | rfl | rfl | rfl | rfl) <;> decide
  · rintro h (rfl | rfl) <;> decide
  · rintro h (rfl | rfl | rfl | rfl | rfl | rfl) <;> decide

theorem test_ArrayEvents_fires : let h : Held := Held.mk 1 5 none Tile.reset none none
    (∀ x ∈ [Arr.reset, { Arr.reset with shelfW := some h }, { Arr.reset with shadow := some h, shelfA := some (Held.mk 2 5 none Tile.reset none none) }],
      ∀ o ∈ [SOp.accZero 3 31 true, .accOpen 3 7 30 true true true 2, .accClose 3 7 31 0, .mma 3 1 2 0],
      let s := on 191 { live with setter := [entryOf o .waiting []], arrs := [(3, x)] }
      On s ∧ (s.core 191).setter = [entryOf o .waiting []] ∧ (s.core 191).fops = [] ∧ ((s.core 191).arr 3) = x ∧ s.throttle = 0) ∧
    h.since ≤ 7 ∧ h.upTo = none ∧ (Arr.reset.group 7).tree = false ∧ (2 : Nat) ≤ [(1 : W32), 2].length := by
  refine ⟨?_, by decide, by decide, by decide, by decide⟩
  simp only [List.mem_cons, List.not_mem_nil, or_false]
  rintro x (rfl | rfl | rfl) o (rfl | rfl | rfl | rfl) <;> exact ⟨⟨rfl, rfl⟩, rfl, rfl, rfl, rfl⟩

/-- A pass of dense tiles that has started, into a fresh accumulator and into one in use. -/
def passOf (h : W32) : Pass := Pass.mk 7 (Held.mk 1 5 none { Tile.reset with shape := h } none none) (Held.mk 2 5 none { Tile.reset with shape := h } none none)

set_option maxRecDepth 20000 in
theorem test_ArrayEvents_passes : ∀ h ∈ [((0x00400080 : W32), true), (0x40400040, false)], let e := entryOf (.mma 3 1 2 0x1F) .fired [(1, h.1), (2, h.1)]
    let x := { Arr.reset with passes := [passOf h.1], acc := [(31, { Acc.reset with int := h.2 })] }
    let s := on 191 { live with setter := [e], arrs := [(3, x)] }
    On s ∧ (s.core 191).setter = [e] ∧ (s.core 191).fops = [] ∧ ((s.core 191).arr 3).passes = [Pass.mk e.id (passOf h.1).w (passOf h.1).a] ∧
    (0x1F : Word).toNat / 256 % 16 = 0 ∧ (0x1F : Word).getLsbD 14 = false ∧ shSp (e.shapeOf 1) = false ∧ shSp (e.shapeOf 2) = false ∧
    shNc (e.shapeOf 2) = shNc (e.shapeOf 1) ∧ shNr (e.shapeOf 1) ≤ 64 ∧ shNr (e.shapeOf 2) ≤ 64 ∧ (((s.core 191).arr 3).acc1 31).fresh = true ∧
    (((s.core 191).arr 3).acc1 31).int = h.2 ∧ (if h.2 then shFmt (e.shapeOf 1) = 0 else shFmt (e.shapeOf 1) = 4 ∧ shFmt (e.shapeOf 2) = 4) ∧
    shBs (e.shapeOf 1) = false ∧ shBs (e.shapeOf 2) = false ∧ ({ Acc.reset with fresh := false, xe := 0 }).xeI = Tile.reset.xs + Tile.reset.xs := by
  simp only [List.mem_cons, List.not_mem_nil, or_false]
  rintro h (rfl | rfl) <;> exact ⟨⟨rfl, rfl⟩, rfl, rfl, rfl, rfl, rfl, rfl, rfl, rfl, by decide, by decide, rfl, rfl, by decide, rfl, rfl, rfl⟩

theorem test_ArrayEvents_ends : (let g := Machine.Group.mk false 30 true true 2 2 30 true 2 [Leaf.mk [] 1, Leaf.mk [(4095, 1)] 2]
     let e := entryOf (.accClose 3 7 30 1) .fired []
     let s := on 191 { live with setter := [e], arrs := [(3, { Arr.reset with groups := [(7, g)] })] }
     On s ∧ (s.core 191).setter = [e] ∧ (s.core 191).fops = [] ∧ e.phase = .fired ∧ (((s.core 191).arr 3).group 7).tree = true) ∧
    (let e := entryOf (.accDrt 3 31 63 0xA000 0) .fired [(63, 0x70400020)]
     let s := on 191 { live with setter := [e], arrs := [(3, { Arr.reset with acc := [(31, { Acc.reset with int := true, fresh := false })] })] }
     On s ∧ (s.core 191).setter = [e] ∧ (s.core 191).fops = [] ∧ e.phase = .fired ∧ (0xA000 : Word).getLsbD 1 = false ∧
     shFmt (e.shapeOf 63) = 7 ∧ shNc (e.shapeOf 63) = 32 ∧ shBs (e.shapeOf 63) = false ∧ (0xA000 : Word).getLsbD 12 = false ∧
     (((s.core 191).arr 3).acc1 31).int = true) := by decide

theorem test_LeafStage : let e := entryOf (.accDrj 3 31 3 0 2 0) .fired []
    let s := { jobs [] with
      cores := [(191, { live with setter := [e] })]
      jobs := [(3, { job3 with live := [(0, 0x01000000)] })] }
    On s ∧ (s.core 191).setter = [e] ∧ (s.core 191).fops = [] ∧ e.done = 0 ∧ (((s.core 191).arr 3).acc1 31).xe = 0 ∧
    (fp32.decode 0).isFin = true ∧ (s.job 3).open_ = true ∧ (s.job 3).leavesPer = 2 ∧ (s.job 3).leaves = 2 ∧ (s.job 3).rank = 0 ∧
    (s.job 3).res = false ∧ (s.job 3).think = 0 ∧ (s.job 3).wire = false ∧ (s.job 3).nodes = [] ∧ (s.job 3).held = [] ∧ s.slotsOf 0 < 2048 ∧
    0 < (s.job 3).ntile ∧ (s.job 3).leafBusy = [] ∧ ({ s with jobs := [] }.job 3).open_ = false := by decide
theorem test_LeafStage_others : ∀ k ≠ 3, (({ jobs [] with jobs := [(3, job3)] }).job k).nodes = [] ∧ (({ jobs [] with jobs := [(3, job3)] }).job k).held = [] :=
  fun k _ => (quiet_of { jobs [] with jobs := [(3, job3)] } (by decide) rfl).1 k

/-! ## Queues and power: hypotheses that can be met -/

/-- A queue whose ring is at the bottom of LPDDR6, valid and with one descriptor of zeros, whose die 0 may run it. -/
def ring (die : Nat) (desc : Option Desc) : Queue :=
  { qe0 := 0, qe1 := BitVec.ofNat 32 (0x2100 + 2 ^ (18 + die)), qe2 := 1, qe3 := 0, desc := desc, ready := 0, mark := false, wr := 0 }
def queued (desc : Option Desc) : State := { glazed [] with queues := [(1048575, ring 0 desc)] }

set_option maxRecDepth 20000 in
theorem test_QueuesAndDispatch_reads : (let s := queued none
     let e := s.queue 1048575
     let a := (e.qe1.toNat % 4096 * 2 ^ 32 + e.qe0.toNat) / 128 * 128 % 2 ^ 44
     On s ∧ e.qe1.getLsbD 13 = true ∧ e.qe2.toNat % 2 ^ 24 ≠ e.qe3.toNat % 2 ^ 24 ∧ e.desc = none ∧ e.mark = false ∧ e.qe1.getLsbD 12 = false ∧
     s.slotOk a = true ∧ s.snoop = [] ∧ s.latent = [] ∧ s.anyMark a 32 = false ∧ (s.word a).toNat % 2048 = 0 ∧
     ({ s with psn := [(cwOf a, true)] }).anyMark a 32 = true ∧ ({ s with mem := { cells := [(2 * a, 1)], trained := none } }.word a).toNat % 2048 ≠ 0 ∧ (up []).slotOk 0 = false) ∧
    (let s := { glazed [] with queues := [(5, { ring 0 none with qe1 := 0x3000 })] }
     (s.queue 5).qe1.getLsbD 12 = true ∧ (s.queue 5).qe1.getLsbD 13 = true ∧ s.cacheUp = false) := by decide

theorem test_QueuesAndDispatch_registers : (up []).reg rQsel = 0 ∧ ((up []).queue 0).qe1.getLsbD 13 = false ∧
    ({ up [] with queues := [(0, ring 0 none)] }.queue 0).qe1.getLsbD 13 = true ∧ (0x06000000 : BitVec 32).toNat / 2 ^ 22 % 32 ≤ 24 ∧
    (0xFFFFF001 : BitVec 32).toNat % 4096 ≠ 0 ∧ (0xFFFFF000 : BitVec 32).toNat % 4096 = 0 := by decide

/-- Core 0 idle with a task's queue behind it: the descriptor asks for 3 units of headroom. -/
def asked3 : List Word := [0x3800, 7] ++ List.replicate 30 0
def idleCore : State := { glazed [(rAge, 0)] with
  queues := [(1048575, ring 0 (some { words := asked3 }))]
  cores := [(0, { live with dst := .idle })]
  ebud := [(0, (100, 1))] }

set_option maxRecDepth 20000 in
theorem test_QueuesAndDispatch_dispatch : let s := idleCore
    let ws := asked3
    let e := ring 0 (some { words := ws })
    On s ∧ s.queues = [(1048575, e)] ∧
    e.qe1.getLsbD 13 = true ∧ e.qe2.toNat % 2 ^ 24 ≠ e.qe3.toNat % 2 ^ 24 ∧ (e.qe3.getLsbD 27 = false ∨ e.qe1.getLsbD 14 = false) ∧ e.desc ≠ none ∧
    e.mark = false ∧ 24 ≤ ws.length ∧ e.qe1.getLsbD 18 = true ∧ (s.core 0).dst = .idle ∧ (s.core 0).task = none ∧
    (∀ m < 192, m ≠ 0 → (s.core m).dst ≠ .idle) ∧ s.res = [] ∧ (s.reg rAge).toNat % 65536 = 0 ∧ s.snoop = [] ∧
    (natOfWords (ws.take 2) / 4096 % 16 : Int) ≤ s.headroom 0 := by decide
theorem test_QueuesAndDispatch_tasks : (∀ m y, (idleCore.core m).task = some y → y.endAs = none) ∧
    (∀ m, ∀ y ∈ (idleCore.core m).ended, y.elapsed ≠ none) ∧ ∀ m, (idleCore.core m).stopReq = false := by
  have h (m : Nat) : (idleCore.core m).task = none ∧ (idleCore.core m).ended = [] ∧ (idleCore.core m).stopReq = false := by
    cases m <;> exact ⟨rfl, rfl, rfl⟩
  exact ⟨fun m y e => (by rw [(h m).1] at e; cases e), fun m y e => (by rw [(h m).2.1] at e; cases e), fun m => (h m).2.2⟩

/-- A task that has ended, of a ring in LPDDR6. -/
def ended : Task :=
  { queue := 5, slot := 0, host := false, addr := 0x10000000000, sem := 7, cone := 3, sig := true, cyc0 := some 0, endAs := some .tend, elapsed := none }

theorem test_QueuesAndDispatch_record : let s := on 191 { live with dst := .ending, task := some ended }
    let c := s.core 191
    On s ∧ c.task = some ended ∧ ended.endAs = some .tend ∧ ended.elapsed = none ∧ ended.host = false ∧ ended.cyc0 = some 0 ∧ c.stopReq = false ∧
    ended.addr + 32 ≤ 2 ^ 44 ∧ s.snoop = [] ∧ c.setter = [] ∧ c.fops = [] ∧ c.blocks = [] ∧ (s.sem 7).mark = false ∧ (s.sem 7).fifo = [] ∧
    (s.sem 7).count.toNat < 0x7FFFFFFF ∧ (s.sem 7).waits = [] ∧ c.ended = [] ∧
    (∀ x ∈ s.cores, ∀ y ∈ x.2.task.toList ++ x.2.ended, (x.1 = 191 ∧ y = ended) ∨ y.queue ≠ 5) := by decide

/-- The same task ended by a core reset that is over, beside a later task of the core. -/
theorem test_QueuesAndDispatch_reset : let t : Task := { ended with endAs := some .reset }
    let s := on 191 { live with dst := .task, task := some { ended with endAs := none, queue := 6 }, ended := [t] }
    let c := s.core 191
    On s ∧ c.ended = [t] ∧ c.resetting = false ∧ (∀ y ∈ c.task, y.endAs = none) ∧ c.stopReq = false ∧ t.elapsed = none ∧
    (∀ x ∈ s.cores, ∀ y ∈ x.2.task.toList ++ x.2.ended, (x.1 = 191 ∧ y = t) ∨ y.queue ≠ 5) := by decide

/-- An interval with a reading above the cap before Glaze, one above it and one below it in Glaze. -/
theorem test_PowerIntervals : (let s := up []
     On s ∧ s.glaze = false ∧ (∀ d < 4, 0 < (s.eOf d).2) ∧ 4000 < 10 * 401 ∧ 20 * (10 * 0) ≤ 19 * 4000) ∧
    (let s := { glazed [(rPyCap, 0x03E80000), (rRun 0, 0)] with cores := [(0, { live with step := 3 }), (1, live)] }
     On s ∧ s.glaze = true ∧ (∀ d < 4, 0 < (s.eOf d).2) ∧ min (min (10 * ((s.reg rPyCap).toNat / 65536)) 28000) (6 * 800) = 4800 ∧
     ((s.core 0).dst = .run ∧ (s.core 0).gated = false ∧ (s.core 0).waitsReset = false) ∧ s.dieTemp 0 < 105) ∧
    (1 : BitVec 32).toNat % 32 = 1 ∧ (0x241 : BitVec 32).toNat / 32 % 32 = 18 ∧ (0x261 : BitVec 32).toNat / 32 % 32 = 19 := by decide

/-! ## The whole block: hypotheses that can be met -/

set_option maxRecDepth 100000 in
theorem test_EveryStepKeepsMemoryCanonical : Memory.wf State.reset.mem = true ∧ (∀ n, (State.reset.core n).peek = false) ∧
    ∃ t, step State.reset = .next t := ⟨by decide, fun _ => rfl, _, rfl⟩

/-- 2049 and 2051 lie halfway between two FP16 values: to the even one; and 2^-10 is a number that divides. -/
theorem test_RoundingIsToNearestEven : fp16.round (.fin false 2049 0) = 0x6800 ∧ fp16.round (.fin false 2051 0) = 0x6802 ∧
    fp16.round (.fin true 65520 0) = 0xFC00 ∧ (1 : Nat) ≠ 0 ∧ fp16.round (Machine.Num.div (.fin false 3 0) (.fin true 1 (-10))) = 0xEA00 := by decide
end Sys2Proof.Tests
end

/-! # What every step keeps

Keeps a s says that the way from state a to state s keeps the canonical form of memory, makes no error and sets no core's peek; Answers a o, that an
outcome o is a next state with that. Each function of the model has one lemma: it keeps what holds before it. The last of them is that of step, and
both obligations on every step follow from it. -/

namespace Sys2Proof.Machine
open Sys2Proof.Laws

/-! ## The three parts, and the shapes of what functions answer -/

/-- From one memory, list of errors and set of cores to another: the canonical form of memory is kept, no error is made, and no core begins to
look at the instruction of a boundary. -/
structure FieldsKept (m m' : Memory) (u u' : List Upset) (c c' : Store Core) : Prop where
  mem : Memory.wf m = true → Memory.wf m' = true
  upsets : u = [] → u' = []
  peek : ∀ n, (look Core.reset c' n).peek = true → (look Core.reset c n).peek = true

/-- From state a to state s, the same. It speaks of three fields, so that an update of the others leaves the very same statement. -/
@[reducible] def Keeps (a s : State) : Prop := FieldsKept a.mem s.mem a.upsets s.upsets a.cores s.cores

/-- A command answers a next state, and keeps what every step keeps. -/
def Answers (a : State) (o : Host.Outcome State Fault Refusal) : Prop := ∃ t, o = .next t ∧ Keeps a t

/-- An outcome of an instruction's own effect keeps what every step keeps, whatever state it carries. -/
@[reducible] def ResKept (a : State) : Res → Prop
  | .done s => Keeps a s
  | .goto s _ => Keeps a s
  | .branch s _ => Keeps a s
  | .fault _ _ => True
  | .partial_ s _ _ => Keeps a s
  | .first s _ _ => Keeps a s
  | .held s => Keeps a s
  | .taken s => Keeps a s

/-- What holds of the value of an outcome, whichever of the two it is. -/
@[reducible] def ExceptAll {ε α : Type} (p : ε → Prop) (q : α → Prop) : Except ε α → Prop
  | .error e => p e
  | .ok x => q x

/-- What holds of the value of an option, if it has one. -/
@[reducible] def OptionAll {α : Type} (p : α → Prop) : Option α → Prop
  | none => True
  | some x => p x

theorem ExceptAll.ok {ε α : Type} {p : ε → Prop} {q : α → Prop} {r : Except ε α} {x : α} (h : ExceptAll p q r) (e : r = .ok x) : q x := by
  subst e; exact h
theorem ExceptAll.error {ε α : Type} {p : ε → Prop} {q : α → Prop} {r : Except ε α} {x : ε} (h : ExceptAll p q r) (e : r = .error x) :
    p x := by
  subst e; exact h
theorem OptionAll.some {α : Type} {p : α → Prop} {r : Option α} {x : α} (h : OptionAll p r) (e : r = .some x) : p x := by
  subst e; exact h

section
variable {a s t : State}

theorem Keeps.refl (s : State) : Keeps s s := ⟨id, id, fun _ => id⟩
theorem Keeps.trans {s t u : State} (h : Keeps s t) (g : Keeps t u) : Keeps s u :=
  ⟨g.mem ∘ h.mem, g.upsets ∘ h.upsets, fun n => h.peek n ∘ g.peek n⟩

theorem Keeps.peek (h : Keeps a s) (n : Nat) : (s.core n).peek = true → (a.core n).peek = true := FieldsKept.peek h n

theorem Answers.next (h : Keeps a s) : Answers a (.next s) := ⟨s, rfl, h⟩

theorem Keeps.ite {c : Prop} [Decidable c] (hs : Keeps a s) (ht : Keeps a t) : Keeps a (if c then s else t) := by
  split
  · exact hs
  · exact ht

theorem Keeps.fst_of {α : Type} {p : State × α} {x : α} (h : Keeps a p.1) (e : p = (t, x)) : Keeps a t := by subst e; exact h
theorem Keeps.snd_of {α : Type} {p : α × State} {x : α} (h : Keeps a p.2) (e : p = (x, t)) : Keeps a t := by subst e; exact h

/-- A core replaced by one that looks at no instruction, unless the core did so already. -/
theorem Keeps.setCore {n : Nat} {c : Core} (h : Keeps a s) (hc : c.peek = true → (a.core n).peek = true) : Keeps a (s.setCore n c) := by
  refine ⟨h.mem, h.upsets, fun m hm => ?_⟩
  by_cases e : m = n
  · subst e; exact hc (by rwa [State.setCore, look_put_same] at hm)
  · exact FieldsKept.peek h m (by rwa [State.setCore, look_put_ne _ _ _ _ _ e] at hm)

/-- A core changed by a function that does not set peek. -/
theorem Keeps.modCore {n : Nat} {f : Core → Core} (h : Keeps a s)
    (hf : ∀ c, (f c).peek = true → c.peek = true := by exact fun _ h => h) : Keeps a (s.modCore n f) := h.setCore fun hp => h.peek n (hf _ hp)

theorem Keeps.foldl {α : Type} {f : State → α → State} {l : List α} (h : Keeps a s) (hf : ∀ t x, Keeps a t → Keeps a (f t x)) :
    Keeps a (l.foldl f s) := foldl_keeps (Keeps a) f hf l s h

theorem Keeps.repeated {f : State → State} {n : Nat} (h : Keeps a s) (hf : ∀ t, Keeps a t → Keeps a (f t)) : Keeps a (Nat.repeat f n s) := by
  induction n with
  | zero => exact h
  | succ n ih => exact hf _ ih

theorem Keeps.setByte {b : Nat} {v : Byte} (h : Keeps a s) : Keeps a (s.setByte b v) :=
  h.trans ⟨State.setByte_wf s b v, id, fun _ => id⟩
theorem Keeps.over {f : Site → Bool} (h : Keeps a s) : Keeps a (s.over f) :=
  h.trans ⟨id, fun e => by rw [State.over_none s f e]; exact e, fun _ => id⟩
end

/-! ## What changes a core and leaves peek as it is -/

@[simp] theorem Core.setD_peek (c : Core) {i v} : (c.setD i v).peek = c.peek := rfl
@[simp] theorem Core.setA_peek (c : Core) {i v} : (c.setA i v).peek = c.peek := rfl
@[simp] theorem Core.send_peek (c : Core) {d r v} : (c.send d r v).peek = c.peek := rfl
@[simp] theorem Core.sendD_peek (c : Core) {d i v} : (c.sendD d i v).peek = c.peek := rfl
@[simp] theorem Core.sendP_peek (c : Core) {d i v} : (c.sendP d i v).peek = c.peek := rfl
@[simp] theorem Core.sendQ_peek (c : Core) {d i v} : (c.sendQ d i v).peek = c.peek := rfl
@[simp] theorem Core.sendSr_peek (c : Core) {d m v} : (c.sendSr d m v).peek = c.peek := rfl
@[simp] theorem Core.sendFlags_peek (c : Core) {d f} : (c.sendFlags d f).peek = c.peek := rfl
@[simp] theorem Core.cmppSend_peek (c : Core) {cd w p a b} : (c.cmppSend cd w p a b).peek = c.peek := rfl
@[simp] theorem Core.setTile_peek (c : Core) {t v} : (c.setTile t v).peek = c.peek := rfl
@[simp] theorem Core.setShape_peek (c : Core) {t h} : (c.setShape t h).peek = c.peek := rfl
@[simp] theorem Core.setArr_peek (c : Core) {q x} : (c.setArr q x).peek = c.peek := rfl
@[simp] theorem Core.modArr_peek (c : Core) {q f} : (c.modArr q f).peek = c.peek := rfl
@[simp] theorem Core.modEntry_peek (c : Core) {i f} : (c.modEntry i f).peek = c.peek := rfl
@[simp] theorem Core.modFop_peek (c : Core) {i f} : (c.modFop i f).peek = c.peek := rfl
@[simp] theorem Core.relTiles_peek (c : Core) {q} : (c.relTiles q).peek = c.peek := rfl
@[simp] theorem Core.setV_peek (c : Core) {v ws ms} : (c.setV v ws ms).peek = c.peek := rfl
@[simp] theorem Core.tileToVec_peek (c : Core) {vd t r g} : (c.tileToVec vd t r g).peek = c.peek := rfl
@[simp] theorem Core.metaToVec_peek (c : Core) {vd t k} : (c.metaToVec vd t k).peek = c.peek := rfl
@[simp] theorem Core.dropFops_peek (c : Core) {i} : (c.dropFops i).peek = c.peek := rfl
@[simp] theorem Core.fenced_peek (c : Core) {m} : (c.fenced m).peek = c.peek := rfl
@[simp] theorem Core.vRuns_peek (c : Core) {u d s w} : (c.vRuns u d s w).peek = c.peek := rfl
@[simp] theorem Core.sendPred_peek (c : Core) {p v m} : (c.sendPred p v m).peek = c.peek := rfl
@[simp] theorem Core.entered_peek (c : Core) {e v} : (c.entered e v).peek = c.peek := rfl
theorem foldl_peek {α : Type} {f : Core → α → Core} (hf : ∀ c x, (f c x).peek = c.peek) (l : List α) (c : Core) :
    (l.foldl f c).peek = c.peek := by
  induction l generalizing c with
  | nil => rfl
  | cons x l ih => exact (ih _).trans (hf c x)
@[simp] theorem Core.peek_ite {p : Prop} [Decidable p] (c d : Core) : (if p then c else d).peek = if p then c.peek else d.peek :=
  apply_ite Core.peek p c d

@[simp] theorem Core.sendW_peek (c : Core) {d w i v} : (c.sendW d w i v).peek = c.peek := by simp [Core.sendW]
@[simp] theorem Core.aluSend_peek (c : Core) {fn sh f w d a b} : (c.aluSend fn sh f w d a b).peek = c.peek := by simp [Core.aluSend]
@[simp] theorem Core.shiftSend_peek (c : Core) {fn f w d a b} : (c.shiftSend fn f w d a b).peek = c.peek := by simp [Core.shiftSend]
@[simp] theorem Core.deliver_peek (c : Core) {r v} : (c.deliver r v).peek = c.peek := by cases r <;> rfl
@[simp] theorem Core.tick_peek (c : Core) : c.tick.peek = c.peek := foldl_peek (fun c _ => Core.deliver_peek c) _ _
@[simp] theorem Core.drain_peek (c : Core) : c.drain.peek = c.peek := by simp [Core.drain, Nat.repeat]
@[simp] theorem Core.loopEnd_peek (c c1 : Core) {p} : (c.loopEnd c1 p).peek = c1.peek := by
  unfold Core.loopEnd
  split
  · rfl
  · simp
@[simp] theorem Core.advance_peek (c : Core) {len} : (c.advance len).peek = c.peek := by
  unfold Core.advance
  dsimp only
  split <;> simp
@[simp] theorem Core.retire_peek (c : Core) {len} : (c.retire len).peek = c.peek := Core.advance_peek _
@[simp] theorem Core.endLoops_peek (c : Core) {t} : (c.endLoops t).peek = c.peek := by
  refine foldl_peek (fun c _ => ?_) _ c
  split <;> simp
@[simp] theorem Core.takeBranch_peek (c : Core) {len t} : (c.takeBranch len t).peek = c.peek := by simp [Core.takeBranch]
@[simp] theorem Core.movcPut_peek (c : Core) {v r} : (c.movcPut v r).peek = c.peek := by cases r <;> rfl
@[simp] theorem Core.sendLoad_peek (c : Core) {d n r v} : (c.sendLoad d n r v).peek = c.peek := by
  unfold Core.sendLoad
  split <;> simp
@[simp] theorem Core.sendUpd_peek (c : Core) {u} : (c.sendUpd u).peek = c.peek := by rcases u with _ | ⟨i, v⟩ <;> rfl
@[simp] theorem Core.cutHeld_peek (c : Core) {w i} : (c.cutHeld w i).peek = c.peek := by
  unfold Core.cutHeld
  dsimp only
  split
  · rfl
  · refine (foldl_peek (fun c q => ?_) (List.range 4) c :)
    rfl
@[simp] theorem Core.enterSetter_peek (c : Core) {o} : (c.enterSetter o).peek = c.peek := by simp [Core.enterSetter]
@[simp] theorem Core.loopRegs_peek (c : Core) : c.loopRegs.peek = c.peek := by
  refine foldl_peek (fun c f => ?_) _ c
  split <;> simp
@[simp] theorem Core.restored_peek (c : Core) {x f} : (c.restored x f).peek = c.peek := by simp [Core.restored]
@[simp] theorem Core.putEl_peek (c : Core) {e} : (c.putEl e).peek = c.peek := by simp [Core.putEl]
@[simp] theorem Core.writeEls_peek (c : Core) {es} : (c.writeEls es).peek = c.peek := by
  unfold Core.writeEls
  refine (foldl_peek (fun c g => ?_) _ _).trans (foldl_peek (fun c _ => Core.putEl_peek c) es c)
  simp
@[simp] theorem Core.vTook_peek (c : Core) {u d s w} : (c.vTook u d s w).peek = c.peek := by simp [Core.vTook]
@[simp] theorem Core.setSat_peek (c : Core) {b} : (c.setSat b).peek = c.peek := by simp [Core.setSat]
@[simp] theorem Core.scramble_peek (c : Core) {n r} : (c.scramble n r).peek = c.peek := by
  unfold Core.scramble
  refine foldl_peek (fun c r => ?_) _ c
  rfl
@[simp] theorem Core.rowsUp_peek (c : Core) {up t an dk p} : (c.rowsUp up t an dk p).peek = c.peek := by simp [Core.rowsUp]
@[simp] theorem Core.sendVal_peek (c : Core) {d i w v u} : (c.sendVal d i w v u).peek = c.peek := by simp [Core.sendVal]

/-! ## What each function of the model keeps

One lemma for each function of the model that takes a state to a state, by the files of the model in their order: the lemma of a function is put
together from those of the functions it calls, along the branches of its definition. -/

section
/- There are some fifteen hundred short proofs here: elaborated at once, each on a thread of its own, they ask for more threads than a limit on memory
leaves room for. -/
set_option Elab.async false
variable {a s t : State}

/-! ### Regs -/

theorem Keeps.setReg {off v} (h : Keeps a s) : Keeps a (s.setReg off v) := h
theorem Keeps.setFldReg {off lo len v} (h : Keeps a s) : Keeps a (s.setFldReg off lo len v) := h.setReg
theorem Keeps.countReg {off lo len k} (h : Keeps a s) : Keeps a (s.countReg off lo len k) := h.setFldReg
theorem Keeps.msix {v} (h : Keeps a s) : Keeps a (s.msix v) := .ite h h
theorem Keeps.orRise {old : State} (h : Keeps a s) : Keeps a (State.orRise old s) := .ite h.msix h
protected theorem Keeps.withIrq {p : Page} {f : State → State} (h : Keeps a s) (hf : ∀ s, Keeps a s → Keeps a (f s)) :
    Keeps a (withIrq p f s) := (hf _ h).setReg.orRise
theorem Keeps.latchIrq {p m} (h : Keeps a s) : Keeps a (s.latchIrq p m) := h.setReg.orRise
theorem Keeps.errWith {p c} {f : State → State} (h : Keeps a s) (hf : ∀ s, Keeps a s → Keeps a (f s)) : Keeps a (s.errWith p c f) :=
  .ite (h.withIrq fun _ h => hf _ h.setReg) h
theorem Keeps.err {p code} (h : Keeps a s) : Keeps a (s.err p code) := h.errWith (fun _ ht => ht)
theorem Keeps.clearErr {p arriving} (h : Keeps a s) : Keeps a (s.clearErr p arriving) :=
  .ite (h.withIrq (fun _ ht => .ite ht ht.setReg)) (.err (h.withIrq (fun _ ht => .ite ht ht.setReg)))
theorem Keeps.inTurn {src i} {f : State → State} (h : Keeps a s) (hf : ∀ s, Keeps a s → Keeps a (f s)) : Keeps a (s.inTurn src i f) :=
  .ite h (hf _ h)
protected theorem Keeps.command {f : State → State} (h : Keeps a s) (hf : ∀ s, Keeps a s → Keeps a (f s)) : Answers a (command f s) :=
  .next (.ite (hf _ h) h)

/-! ### Mem -/

theorem Keeps.setWord {a1 v} (h : Keeps a s) : Keeps a (s.setWord a1 v) := h.setByte.setByte
theorem Keeps.setMark {a1 m} (h : Keeps a s) : Keeps a (s.setMark a1 m) := h
theorem Keeps.logEvent {a1 ue} (h : Keeps a s) : Keeps a (s.logEvent a1 ue) := h.withIrq (fun _ ht => .ite ht (.ite ht ht.countReg))
theorem Keeps.memEvent {a1 ue} (h : Keeps a s) : Keeps a (s.memEvent a1 ue) := h.countReg.logEvent
theorem Keeps.touch {a1} (h : Keeps a s) : Keeps a (s.touch a1) := by
  unfold State.touch
  split
  · exact h
  · exact .memEvent h
  · exact .memEvent (.setMark h)
theorem Keeps.touchAll {l} (h : Keeps a s) : Keeps a (s.touchAll l) := h.foldl (fun _ _ ht => ht.touch)
theorem Keeps.writeMarked {ws} (h : Keeps a s) : Keeps a (s.writeMarked ws) :=
  .foldl (.foldl (h.foldl (fun _ _ ht => .ite ht ht.touch)) (fun _ _ ht => ht.setMark)) (fun _ _ ht => ht.setWord)
theorem Keeps.writeRun {a1 ws} (h : Keeps a s) : Keeps a (s.writeRun a1 ws) := h.writeMarked
theorem Keeps.biAsk {f} (h : Keeps a s) : Keeps a (s.biAsk f) := h
theorem Keeps.sramEvent {u} (h : Keeps a s) : Keeps a (s.sramEvent u) := h.countReg
theorem Keeps.finds {f : Site → Bool} (h : Keeps a s) : Keeps a (s.finds f).1 :=
  h.trans ⟨by rw [State.finds_mem]; exact id, fun e => by rw [State.finds_none s f e]; exact e, by
    have hc (l : List Upset) (u : State) : (l.foldl State.sramEvent u).cores = u.cores := foldl_same State.cores State.sramEvent (fun _ _ => rfl) l u
    rw [show (s.finds f).1.cores = s.cores from hc _ _]
    exact fun _ => id⟩
theorem Keeps.findsAt {x} (h : Keeps a s) : Keeps a (s.findsAt x).1 := by
  unfold State.findsAt
  dsimp only
  exact h.finds

/-! ### Ops -/

theorem Keeps.unfetch {k a1 n} (h : Keeps a s) : Keeps a (s.unfetch k a1 n) := h.modCore
theorem Keeps.stopCore {n info} (h : Keeps a s) : Keeps a (s.stopCore n info) :=
  h.setFldReg.setReg.err.modCore (by intro c; dsimp only; split <;> simp)
theorem Keeps.pushFrame {n f ws} (h : Keeps a s) : Keeps a (s.pushFrame n f ws) := h.writeRun
theorem Keeps.entryView {n} (h : Keeps a s) : Keeps a (s.entryView n).1 := h.setCore fun hp => h.peek n (by simpa using hp)
theorem Keeps.escalate {n v cause e er} (h : Keeps a s) : Keeps a (s.escalate n v cause e er) := by
  unfold State.escalate
  exact .ite h.stopCore (h.pushFrame.setCore (h.peek n))
theorem Keeps.enter {n cause e} (h : Keeps a s) : Keeps a (s.enter n cause e) := by
  unfold State.enter
  split
  next u w e =>
  have hv := h.entryView.fst_of e
  exact .ite hv.escalate (.ite hv.escalate (.ite hv.escalate (.ite hv.escalate (hv.pushFrame.setCore (hv.peek n)))))
theorem Keeps.syncFault {n cause faddr} (h : Keeps a s) : Keeps a (s.syncFault n cause faddr) := h.enter
protected theorem Keeps.finish {n len r} (h : Keeps a s) (hr : ResKept a r) : Keeps a (finish n len s r) := by
  cases r with
  | done t => exact Keeps.modCore hr (by simp)
  | goto t pc => exact Keeps.modCore hr (by simp)
  | branch t tgt => exact Keeps.modCore hr (by simp)
  | fault x f => exact h.syncFault
  | partial_ t x f => exact Keeps.syncFault hr
  | first t x f => exact Keeps.syncFault hr
  | held t => exact Keeps.modCore hr
  | taken t => exact hr
theorem Keeps.fetched {n len} (h : Keeps a s) : Keeps a (s.fetched n len) := h.touchAll
protected theorem Keeps.issueFetched {n k len isBr legal preds} {body : State → Res} (h : Keeps a s)
    (hb : ∀ t, Keeps a t → ResKept a (body t)) : Keeps a (issueFetched n k len isBr legal preds body s) :=
  .ite h.syncFault (.ite h.syncFault (.ite (h.modCore (by simp)) (h.finish (hb s h))))
protected theorem Keeps.entryFault {n k legal preds} {body : State → Res} (h : Keeps a s)
    (hb : ∀ t, Keeps a t → ResKept a (body t)) : OptionAll (fun r => Keeps a r.1) (entryFault n k legal preds body s) := by
  have hb := hb s h
  unfold entryFault
  dsimp only
  split
  · exact h
  split
  · exact h
  split
  · trivial
  split
  · split
    · exact h
    · trivial
  · next e =>
    rw [e] at hb
    split
    · exact hb
    · trivial
  · trivial
/-- While a core decides at a boundary it looks at the instruction; it did so before, and no longer does once it has decided. -/
protected theorem Keeps.issueAs {n k len isBr legal preds} {body : State → Res} (h : Keeps a s)
    (hb : ∀ t, Keeps a t → ResKept a (body t)) : Answers a (issueAs n k len isBr legal preds body s) := by
  have hf : Keeps a ((s.fetched n len).modCore n (fun c => c.issuing (s.cycles n))) := h.fetched.modCore (by simp [Core.issuing])
  unfold issueAs
  dsimp only
  split
  · exact .next h
  split
  · exact .next hf.syncFault
  split
  · next hp =>
    split
    · next u x f e =>
      have hu := (Keeps.entryFault (hf.setCore fun _ => h.peek n hp) hb).some e
      exact .next (Keeps.syncFault (Keeps.modCore hu (by simp)))
    · exact .next h
  · exact .next (hf.issueFetched hb)
protected theorem Keeps.issue {n k len legal preds} {body : State → Res} (h : Keeps a s) (hb : ∀ t, Keeps a t → ResKept a (body t)) :
    Answers a (issue n k len legal preds body s) := h.issueAs hb
protected theorem Keeps.privileged {n} {body : State → Res} (h : Keeps a s) (hb : ∀ t, Keeps a t → ResKept a (body t)) :
    ResKept a (privileged n body s) := by
  unfold privileged
  split
  · exact hb s h
  · trivial
protected theorem Keeps.shaped {n ok} {body : State → Res} (h : Keeps a s) (hb : ∀ t, Keeps a t → ResKept a (body t)) :
    ResKept a (shaped n ok body s) := by
  unfold shaped
  split
  · exact hb s h
  · trivial
protected theorem Keeps.coreOnly {n} {f : Core → Core} (h : Keeps a s)
    (hf : ∀ c, (f c).peek = true → c.peek = true := by exact fun _ h => h) : ResKept a (coreOnly n f s) := h.modCore hf
theorem Keeps.free (h : Keeps a s) : Keeps a s.free.2 := h

/-! ### AdrBranch -/

protected theorem Keeps.execAddaImm {n c ad aa imm} (h : Keeps a s) : Answers a (execAddaImm n c ad aa imm s) :=
  h.issue (fun _ ht => ht.coreOnly)
protected theorem Keeps.execAddaIdx {n c ad aa di sh ng} (h : Keeps a s) : Answers a (execAddaIdx n c ad aa di sh ng s) :=
  h.issue (fun _ ht => ht.coreOnly)
protected theorem Keeps.execMova {n c ad dn} (h : Keeps a s) : Answers a (execMova n c ad dn s) := h.issue (fun _ ht => ht.coreOnly)
protected theorem Keeps.execMovd {n c dn aa} (h : Keeps a s) : Answers a (execMovd n c dn aa s) := h.issue (fun _ ht => ht.coreOnly)
protected theorem Keeps.execLeapc {n c ad disp} (h : Keeps a s) : Answers a (execLeapc n c ad disp s) := h.issue (fun _ ht => ht.coreOnly)
protected theorem Keeps.execMoviA {n c ad imm} (h : Keeps a s) : Answers a (execMoviA n c ad imm s) := h.issue (fun _ ht => ht.coreOnly)
protected theorem Keeps.jumpTo {n t1} (h : Keeps a s) : ResKept a (jumpTo n t1 s) := by
  unfold jumpTo
  split
  · exact trivial
  · exact h.modCore (by simp)
protected theorem Keeps.callTo {n t1} (h : Keeps a s) : ResKept a (callTo n t1 s) := by
  unfold callTo
  dsimp only
  split
  · exact trivial
  · exact h.unfetch.writeRun.modCore
protected theorem Keeps.retBody {n} (h : Keeps a s) : ResKept a (retBody n s) := by
  unfold retBody
  dsimp only
  split
  · exact trivial
  · split
    · exact h.touchAll
    · split
      · exact h.touchAll
      · split
        · exact h.touchAll
        · exact h.touchAll.modCore
protected theorem Keeps.execBr {n c disp} (h : Keeps a s) : Answers a (execBr n c disp s) := h.issueAs (fun _ ht => ht.jumpTo)
protected theorem Keeps.execCall {n c disp} (h : Keeps a s) : Answers a (execCall n c disp s) := h.issueAs (fun _ ht => ht.callTo)
protected theorem Keeps.execJmp {n c aa} (h : Keeps a s) : Answers a (execJmp n c aa s) := h.issueAs (fun _ ht => ht.jumpTo)
protected theorem Keeps.execCallr {n c aa} (h : Keeps a s) : Answers a (execCallr n c aa s) := h.issueAs (fun _ ht => ht.callTo)
protected theorem Keeps.execRet {n c} (h : Keeps a s) : Answers a (execRet n c s) := h.issueAs (fun _ ht => ht.retBody)
protected theorem Keeps.loopBody {n len off count} (h : Keeps a s) : ResKept a (loopBody n len off count s) := by
  unfold loopBody
  split
  · dsimp only
    split
    · exact trivial
    · exact h.modCore
  · dsimp only
    split
    · exact trivial
    · exact h.modCore
protected theorem Keeps.execLoop {n c dn off} (h : Keeps a s) : Answers a (execLoop n c dn off s) := h.issue (fun _ ht => ht.loopBody)
protected theorem Keeps.execLoopi {n c count off} (h : Keeps a s) : Answers a (execLoopi n c count off s) :=
  h.issue (fun _ ht => ht.loopBody)

/-! ### Alu -/

protected theorem Keeps.aluExec {fn sh n c f w d a1 b} (h : Keeps a s) : Answers a (aluExec fn sh n c f w d a1 b s) :=
  h.issue (fun _ ht => ht.coreOnly (by simp))
protected theorem Keeps.execAdd {n c f w d a1 b} (h : Keeps a s) : Answers a (execAdd n c f w d a1 b s) := h.aluExec
protected theorem Keeps.execAdc {n c f w d a1 b} (h : Keeps a s) : Answers a (execAdc n c f w d a1 b s) := h.aluExec
protected theorem Keeps.execSub {n c f w d a1 b} (h : Keeps a s) : Answers a (execSub n c f w d a1 b s) := h.aluExec
protected theorem Keeps.execSbc {n c f w d a1 b} (h : Keeps a s) : Answers a (execSbc n c f w d a1 b s) := h.aluExec
protected theorem Keeps.execAnd {n c f w d a1 b} (h : Keeps a s) : Answers a (execAnd n c f w d a1 b s) := h.aluExec
protected theorem Keeps.execOr {n c f w d a1 b} (h : Keeps a s) : Answers a (execOr n c f w d a1 b s) := h.aluExec
protected theorem Keeps.execXor {n c f w d a1 b} (h : Keeps a s) : Answers a (execXor n c f w d a1 b s) := h.aluExec
protected theorem Keeps.execAndn {n c f w d a1 b} (h : Keeps a s) : Answers a (execAndn n c f w d a1 b s) := h.aluExec
protected theorem Keeps.execCmp {n c f w d a1 b} (h : Keeps a s) : Answers a (execCmp n c f w d a1 b s) := h.aluExec
protected theorem Keeps.execTst {n c f w d a1 b} (h : Keeps a s) : Answers a (execTst n c f w d a1 b s) := h.aluExec
protected theorem Keeps.execMov {n c f w d a1 b} (h : Keeps a s) : Answers a (execMov n c f w d a1 b s) := h.aluExec
protected theorem Keeps.execNeg {n c f w d a1 b} (h : Keeps a s) : Answers a (execNeg n c f w d a1 b s) := h.aluExec
protected theorem Keeps.execNot {n c f w d a1 b} (h : Keeps a s) : Answers a (execNot n c f w d a1 b s) := h.aluExec
protected theorem Keeps.execMin {n c f w d a1 b} (h : Keeps a s) : Answers a (execMin n c f w d a1 b s) := h.aluExec
protected theorem Keeps.execMax {n c f w d a1 b} (h : Keeps a s) : Answers a (execMax n c f w d a1 b s) := h.aluExec
protected theorem Keeps.execMoviW {n c d imm} (h : Keeps a s) : Answers a (execMoviW n c d imm s) := h.issue (fun _ ht => ht.coreOnly)
protected theorem Keeps.execMoviP {n c d imm} (h : Keeps a s) : Answers a (execMoviP n c d imm s) := h.issue (fun _ ht => ht.coreOnly)
protected theorem Keeps.shiftExec {fn n c f w d a1 b} (h : Keeps a s) : Answers a (shiftExec fn n c f w d a1 b s) :=
  h.issue (fun _ ht => ht.coreOnly (by simp))
protected theorem Keeps.execShl {n c f w d a1 b} (h : Keeps a s) : Answers a (execShl n c f w d a1 b s) := h.shiftExec
protected theorem Keeps.execShr {n c f w d a1 b} (h : Keeps a s) : Answers a (execShr n c f w d a1 b s) := h.shiftExec
protected theorem Keeps.execSar {n c f w d a1 b} (h : Keeps a s) : Answers a (execSar n c f w d a1 b s) := h.shiftExec
protected theorem Keeps.execRor {n c f w d a1 b} (h : Keeps a s) : Answers a (execRor n c f w d a1 b s) := h.shiftExec
protected theorem Keeps.execMulL {n c d a1 b} (h : Keeps a s) : Answers a (execMulL n c d a1 b s) := h.issue (fun _ ht => ht.coreOnly)
protected theorem Keeps.execMulS {n c d a1 b} (h : Keeps a s) : Answers a (execMulS n c d a1 b s) := h.issue (fun _ ht => ht.coreOnly)
protected theorem Keeps.execMulU {n c d a1 b} (h : Keeps a s) : Answers a (execMulU n c d a1 b s) := h.issue (fun _ ht => ht.coreOnly)
protected theorem Keeps.execMulP {n c d a1 b} (h : Keeps a s) : Answers a (execMulP n c d a1 b s) := h.issue (fun _ ht => ht.coreOnly)
protected theorem Keeps.execCmpp {n c cd w p a1 b} (h : Keeps a s) : Answers a (execCmpp n c cd w p a1 b s) :=
  h.issue (fun _ ht => ht.coreOnly)

/-! ### Xlate -/

theorem Keeps.setEntry {a1 e} (h : Keeps a s) : Keeps a (s.setEntry a1 e) := h.writeRun
theorem Keeps.touchEntry {a1} (h : Keeps a s) : Keeps a (s.touchEntry a1) := h.touchAll
theorem Keeps.walkStep {level base va} (h : Keeps a s) : Keeps a (s.walkStep level base va).1 := by
  unfold State.walkStep
  dsimp only
  split
  · exact h
  · split
    · exact h.touchEntry
    · split
      · exact h.touchEntry
      · split
        · split
          · exact h.touchEntry
          · exact h.touchEntry
        · split
          · exact h.touchEntry
          · exact h.touchEntry
theorem Keeps.walk {root va} (h : Keeps a s) : Keeps a (s.walk root va).1 := by
  unfold State.walk
  split
  · rename_i e03
    exact h.walkStep.fst_of e03
  · rename_i e04
    exact h.walkStep.fst_of e04
  · rename_i e03
    split
    · rename_i e13
      exact (h.walkStep.fst_of e03).walkStep.fst_of e13
    · rename_i e14
      exact (h.walkStep.fst_of e03).walkStep.fst_of e14
    · rename_i e13
      split
      · rename_i e23
        exact ((h.walkStep.fst_of e03).walkStep.fst_of e13).walkStep.fst_of e23
      · rename_i e24
        exact ((h.walkStep.fst_of e03).walkStep.fst_of e13).walkStep.fst_of e24
      · rename_i e23
        exact ((h.walkStep.fst_of e03).walkStep.fst_of e13).walkStep.fst_of e23
theorem Keeps.freshBy {hit root va} {drop : State → State} (h : Keeps a s) (hd : ∀ t, Keeps a t → Keeps a (drop t)) :
    Keeps a (s.freshBy hit root va drop) := by
  unfold State.freshBy
  split
  · exact .ite (hd _ h.free) h.free
  · exact h
theorem Keeps.fresh {n va} (h : Keeps a s) : Keeps a (s.fresh n va) := h.freshBy (fun _ ht => ht.modCore)
protected theorem Keeps.freshGo {find : State → Nat → Option TlbEntry} {one : State → Nat → State} {seen vas} (h : Keeps a s)
    (ho : ∀ t va, Keeps a t → Keeps a (one t va)) : Keeps a (freshGo find one seen vas s) := by
  induction vas generalizing seen s with
  | nil => exact h
  | cons va r ih =>
    unfold freshGo
    split
    · exact ih h
    · exact .ite (ih h) (ih (ho s va h))
theorem Keeps.freshAll {n sup as_} (h : Keeps a s) : Keeps a (s.freshAll n sup as_) := .ite (h.freshGo (fun _ _ ht => ht.fresh)) h
theorem Keeps.jobFreshOne {va} (h : Keeps a s) : Keeps a (s.jobFreshOne va) := by
  unfold State.jobFreshOne
  split
  · exact h
  · exact h.freshBy (fun _ ht1 => ht1)
theorem Keeps.jobFresh {sup vas} (h : Keeps a s) : Keeps a (s.jobFresh sup vas) := .ite h (h.freshGo (fun _ _ ht => ht.jobFreshOne))
theorem Keeps.tlbAdd {n e} (h : Keeps a s) : Keeps a (s.tlbAdd n e) := h.modCore
theorem Keeps.coreWalk {n va} (h : Keeps a s) : Keeps a (s.coreWalk n va).1 := by
  have hw := h.walk (root := s.xroot n) (va := va)
  unfold State.coreWalk
  generalize s.walk (s.xroot n) va = r at hw ⊢
  rcases s.tlbFind n va with _ | e
  · rcases r with ⟨t, c | e⟩
    · exact hw
    · exact Keeps.tlbAdd hw
  · exact h
theorem Keeps.coreXlate {n va write k sup} (h : Keeps a s) : Keeps a (s.coreXlate n va write k sup).1 := by
  have hw := h.coreWalk (n := n) (va := va)
  unfold State.coreXlate
  generalize s.coreWalk n va = r at hw ⊢
  split
  · cases k with
    | direct r => exact h
    | feeder => exact h
  · rcases r with ⟨t, c | e⟩
    · exact hw
    · dsimp only
      rcases t.leafCheck e va write k with _ | c
      · exact hw
      · exact hw
theorem Keeps.jobWalk {va} (h : Keeps a s) : Keeps a (s.jobWalk va).1 := by
  have hw := h.walk (root := s.jroot) (va := va)
  unfold State.jobWalk
  generalize s.walk s.jroot va = r at hw ⊢
  rcases s.jobFind va with _ | e
  · rcases r with ⟨t, c | e⟩
    · exact hw
    · exact hw
  · exact h
theorem Keeps.jobXlate {va write sup} (h : Keeps a s) : Keeps a (s.jobXlate va write sup).1 := by
  have hw := h.jobWalk (va := va)
  unfold State.jobXlate
  generalize s.jobWalk va = r at hw ⊢
  split
  · exact h
  · rcases r with ⟨t, c | e⟩
    · exact hw
    · dsimp only
      rcases t.leafCheck e va write .feeder with _ | c
      · dsimp only
        split
        · exact hw
        · exact hw
      · exact hw
theorem Keeps.reviseBy {leaf e f tlb wait} (h : Keeps a s) : Keeps a (s.reviseBy leaf e f tlb wait) := h.foldl (fun _ _ ht => ht.modCore)
theorem Keeps.reviseLeaf {leaf e f} (h : Keeps a s) : Keeps a (s.reviseLeaf leaf e f) := h.reviseBy
theorem Keeps.mouldEntry {leaf f} (h : Keeps a s) : Keeps a (s.mouldEntry leaf f) := h.touchEntry.setEntry.reviseLeaf
theorem Keeps.mouldStale {leaf e f} (h : Keeps a s) : Keeps a (s.mouldStale leaf e f) := h.reviseBy

/-! ### Net -/

theorem Keeps.modLink {l f} (h : Keeps a s) : Keeps a (s.modLink l f) := h
theorem Keeps.pump {l} (h : Keeps a s) : Keeps a (s.pump l) := .ite h h.modLink
theorem Keeps.enqueue {l lane hop from_ p} (h : Keeps a s) : Keeps a (s.enqueue l lane hop from_ p) := h.modLink.pump
theorem Keeps.enqueueMc {l lane hop from_ p} (h : Keeps a s) : Keeps a (s.enqueueMc l lane hop from_ p) := .ite h.modLink h.enqueue
theorem Keeps.sendLocal {l k} (h : Keeps a s) : Keeps a (s.sendLocal l k) := h.enqueue
theorem Keeps.readRoute {k} (h : Keeps a s) : Keeps a (s.readRoute k) := .ite h.findsAt h.findsAt
theorem Keeps.deferAction {n c faddr} (h : Keeps a s) : Keeps a (s.deferAction n c faddr) := h.modCore
theorem Keeps.ownerTakes {r st ws} (h : Keeps a s) : Keeps a (s.ownerTakes r st ws) := by
  unfold State.ownerTakes
  split
  · exact h
  · split
    · exact h
    · exact h.deferAction
  · exact h.modCore
theorem Keeps.completeReq {tag st ws} (h : Keeps a s) : Keeps a (s.completeReq tag st ws) := by
  unfold State.completeReq
  split
  · exact h
  · exact .ownerTakes h
theorem Keeps.timeOut {tag} (h : Keeps a s) : Keeps a (s.timeOut tag) := by
  unfold State.timeOut
  split
  · exact h
  · exact .ownerTakes h
theorem Keeps.fabErr {code dst} (h : Keeps a s) : Keeps a (s.fabErr code dst) := h.errWith (fun _ ht => ht.setReg)
theorem Keeps.routeTo {from_ p} (h : Keeps a s) : Keeps a (s.routeTo from_ p).1 := by
  unfold State.routeTo
  split
  · exact h
  · split
    · exact h.fabErr
    · dsimp only
      split
      · exact h.readRoute.fabErr
      · split
        · exact h.readRoute
        · exact h.readRoute.enqueue
theorem Keeps.originate {k} (h : Keeps a s) : Keeps a (s.originate k) := .ite h.fabErr h.routeTo
theorem Keeps.unreach {p} (h : Keeps a s) : Keeps a (s.unreach p) := .ite h (.ite h.completeReq h.originate)
theorem Keeps.route {from_ p} (h : Keeps a s) : Keeps a (s.route from_ p) := .ite h.routeTo.unreach h.routeTo
theorem Keeps.request {owner addr off k} (h : Keeps a s) : OptionAll (fun r => Keeps a r.1) (s.request owner addr off k) := by
  unfold State.request
  split
  · trivial
  · extract_lets tag r q u
    have hu : Keeps a u := by
      unfold u
      split
      · exact .modCore h
      · exact h
      · exact h
    clear_value u
    split
    · exact hu.fabErr.completeReq
    · exact hu.route
theorem Keeps.postReq {owner addr k} (h : Keeps a s) : Keeps a (s.postReq owner addr k) := by
  unfold State.postReq
  split
  · exact h
  · split
    · rename_i e13
      exact h.request.some e13
    · exact h
theorem Keeps.sendWaiting (h : Keeps a s) : Keeps a s.sendWaiting := by
  refine h.repeated fun t ht => ?_
  split
  · exact ht
  · next u r _ =>
    have hr : Keeps a { t with unsent := r } := ht
    split
    · next e => exact hr.request.some e
    · exact ht
theorem Keeps.readMcast {g staged} (h : Keeps a s) : Keeps a (s.readMcast g staged) := .ite h.findsAt (.ite h.findsAt h.findsAt)
theorem Keeps.multicast {from_ p rx} (h : Keeps a s) : Keeps a (s.multicast from_ p rx) := by
  unfold State.multicast
  extract_lets u e links lane s1
  have hu : Keeps a u := h.readMcast
  have h1 : Keeps a s1 := .ite hu.fabErr (hu.foldl fun _ _ ht => .ite ht.enqueueMc ht.fabErr)
  exact .ite hu.fabErr (.ite h1 h1)
theorem Keeps.originateMc {k} (h : Keeps a s) : Keeps a (s.originateMc k) := .ite h.fabErr h.multicast
theorem Keeps.post {k} (h : Keeps a s) : Keeps a (s.post k) := h.originate
theorem Keeps.consumeAs {p copy} (h : Keeps a s) : Keeps a (s.consumeAs p copy) := by
  unfold State.consumeAs
  split
  · exact h
  · split
    · exact h
    · exact .modLink h
theorem Keeps.consume {p} (h : Keeps a s) : Keeps a (s.consume p) := h.consumeAs
theorem Keeps.mcForward {from_ p} (h : Keeps a s) : Keeps a (s.mcForward from_ p) := by
  unfold State.mcForward
  split
  · exact h.multicast
  · dsimp only
    split
    · exact .multicast h.readMcast
    · exact h.readMcast.consumeAs.multicast
theorem Keeps.keep {p} (h : Keeps a s) : Keeps a (s.keep p) := .ite h h

/-! ### Comb -/

theorem Keeps.setSem {k q} (h : Keeps a s) : Keeps a (s.setSem k q) := h
theorem Keeps.readSem {k} (h : Keeps a s) : Keeps a (s.readSem k) := .ite h.findsAt.setSem h.findsAt
theorem Keeps.addSum {k v} (h : Keeps a s) : Keeps a (s.addSum k v) := h
theorem Keeps.gate {n} (h : Keeps a s) : Keeps a (s.gate n) := by
  unfold State.gate
  dsimp only
  split
  · exact h.modCore.addSum
  · exact h.modCore
theorem Keeps.wake {n} (h : Keeps a s) : Keeps a (s.wake n) := by
  unfold State.wake
  dsimp only
  split
  · exact h.modCore.addSum
  · exact h.modCore
theorem Keeps.releaseCore {n} (h : Keeps a s) : Keeps a (s.releaseCore n) := by
  unfold State.releaseCore
  split
  · exact h.wake.modCore
  · exact h
theorem Keeps.semStore {k q} (h : Keeps a s) : Keeps a (s.semStore k q) := h.setSem.over.foldl (fun _ _ ht => ht.releaseCore)
theorem Keeps.semAdd {k v} (h : Keeps a s) : ExceptAll (fun _ => True) (Keeps a) (s.semAdd k v) := by
  unfold State.semAdd
  split
  · dsimp only
    split
    · exact trivial
    · exact h
  · dsimp only
    split
    · exact trivial
    · split
      · exact trivial
      · exact h.semStore
theorem Keeps.semSub {k v} (h : Keeps a s) : ExceptAll (fun _ => True) (Keeps a) (s.semSub k v) := by
  unfold State.semSub
  split
  · dsimp only
    split
    · exact trivial
    · exact h
  · dsimp only
    split
    · exact trivial
    · split
      · exact trivial
      · exact h.semStore
theorem Keeps.semWait {n k v} (h : Keeps a s) : ExceptAll (fun _ => True) (fun r => Keeps a r.1) (s.semWait n k v) := by
  unfold State.semWait
  split
  · exact trivial
  · dsimp only
    split
    · exact trivial
    · split
      · exact h
      · exact h.setSem
theorem Keeps.semTake {n k v} (h : Keeps a s) : ExceptAll (fun _ => True) (fun r => Keeps a r.1) (s.semTake n k v) := by
  unfold State.semTake
  split
  · exact trivial
  · dsimp only
    split
    · exact trivial
    · split
      · exact h.semStore
      · exact h.setSem
theorem Keeps.semSet {k v} (h : Keeps a s) : Keeps a (s.semSet k v) := h.semStore
theorem Keeps.semFail {k c} (h : Keeps a s) : Keeps a (s.semFail k c) := by
  unfold State.semFail
  split
  · exact h.err
  · exact h.errWith (fun _ ht1 => ht1.setReg)
  · exact h.errWith (fun _ ht1 => ht1.setReg)
theorem Keeps.semSignal {k v} (h : Keeps a s) : Keeps a (s.semSignal k v) := by
  unfold State.semSignal
  dsimp only
  split
  · rename_i e02
    exact h.readSem.semAdd.ok e02
  · exact h.readSem.semFail
theorem Keeps.semFor {n k v faddr} (h : Keeps a s) : Keeps a (s.semFor n k v faddr) := by
  unfold State.semFor
  dsimp only
  split
  · rename_i e02
    exact h.readSem.semAdd.ok e02
  · exact h.readSem.deferAction
theorem Keeps.windowAdd {n k v} (h : Keeps a s) : Keeps a (s.windowAdd n k v) := h.semFor
theorem Keeps.signal {n k} (h : Keeps a s) : Keeps a (s.signal n k) := h.semFor
theorem Keeps.clearTask {n} (h : Keeps a s) : Keeps a (s.clearTask n) := .ite (h.foldl (fun _ _ ht => ht.readSem.setSem)) h
theorem Keeps.setCtx {b c} (h : Keeps a s) : Keeps a (s.setCtx b c) := h
theorem Keeps.clearArrivals {b} (h : Keeps a s) : Keeps a (s.clearArrivals b) := h.setCtx
theorem Keeps.readCtx {b} (h : Keeps a s) : Keeps a (s.readCtx b) := .ite h.findsAt.setFldReg.clearArrivals.setCtx h.findsAt
theorem Keeps.withdraw {n} (h : Keeps a s) : Keeps a (s.withdraw n) := by
  unfold State.withdraw
  split
  · exact h.readSem.wake.modCore.semStore
  · exact h.readCtx.wake.modCore.setCtx
  · exact h
theorem Keeps.combSees {a1} (h : Keeps a s) : Keeps a (s.combSees a1) := by
  unfold State.combSees
  exact .ite h.readSem (.ite h.readCtx h)
theorem Keeps.combWrite {n a1 v} (h : Keeps a s) : Keeps a (s.combWrite n a1 v) := by
  unfold State.combWrite
  exact .ite h.windowAdd h
theorem Keeps.holdWalk {n va write} (h : Keeps a s) : Keeps a (s.holdWalk n va write) := h.modCore
protected theorem Keeps.combHere {n a1 ctx write} {body : Nat → State → Res} (h : Keeps a s)
    (hb : ∀ k t, Keeps a t → ResKept a (body k t)) : ResKept a (combHere n a1 ctx write body s) := by
  have go (t : State) (p : Prop) [Decidable p] (k : Nat) (ht : Keeps a t) : ResKept a (if p then .partial_ t .busError a1 else body k t) := by
    split
    · exact ht
    · exact hb k t ht
  unfold combHere
  dsimp only
  split
  · exact go s _ _ h
  split
  · exact h.fresh.holdWalk
  split
  · exact h.fresh
  · exact go _ _ _ h.fresh
protected theorem Keeps.combInstr {n a1 ctx write remoteOp v} {body : Nat → State → Res}
    (h : Keeps a s) (hbody : ∀ y0 t, Keeps a t → ResKept a (body y0 t)) :
    ResKept a (combInstr n a1 ctx write remoteOp v body s) := by
  unfold combInstr
  split
  · exact trivial
  · exact h.combHere (fun _ _ ht1 => hbody _ _ ht1)
  · exact h.postReq
protected theorem Keeps.combAnswered {n a1 r} (h : Keeps a s) (hr : ExceptAll (fun _ => True) (Keeps a) r) : ResKept a (combAnswered n a1 s r) := by
  cases r with
  | error c => exact h
  | ok t => exact Keeps.modCore hr
protected theorem Keeps.combWaited {n k ctx a1 r} (h : Keeps a s) (hr : ExceptAll (fun _ => True) (fun r => Keeps a r.1) r) :
    ResKept a (combWaited n k ctx a1 s r) := by
  rcases r with c | ⟨t, b⟩
  · exact h
  · cases b with
    | true => exact Keeps.modCore hr
    | false => exact (Keeps.gate hr).modCore

/-! ### Link -/

theorem Keeps.requeue {q} (h : Keeps a s) : Keeps a (s.requeue q) := by
  unfold State.requeue
  dsimp only
  split
  · exact h.readRoute.fabErr
  · split
    · exact h.readRoute
    · exact h.readRoute.enqueue
theorem Keeps.dropLink {l} (h : Keeps a s) : Keeps a (s.dropLink l) :=
  .sendWaiting (.foldl (h.modLink.foldl (fun _ _ ht => ht.unreach)) (fun _ _ ht => ht.requeue))
theorem Keeps.imgStart (h : Keeps a s) : Keeps a s.imgStart := by
  unfold State.imgStart
  split
  · exact h
  · split
    · exact h
    · exact .sendLocal h
theorem Keeps.imgFail (h : Keeps a s) : Keeps a s.imgFail := by
  unfold State.imgFail
  split
  · exact h
  · exact .imgStart h
theorem Keeps.linkTo {l st reason} (h : Keeps a s) : Keeps a (s.linkTo l st reason) := by
  unfold State.linkTo
  extract_lets up s1 s2 s3 t s4
  have h1 : Keeps a s1 := h.withIrq fun _ ht => ht.setReg
  have h2 : Keeps a s2 := .ite h1.latchIrq h1
  have h3 : Keeps a s3 := (Keeps.ite h2 h2.modLink).dropLink
  have ht : Keeps a t := h3.setFldReg
  have h4 : Keeps a s4 := by
    refine .ite ?_ h3
    split
    · exact .ite ht.err ht
    · exact ht
  exact .ite h4.imgFail h4
theorem Keeps.startTrain {l full} (h : Keeps a s) : Keeps a (s.startTrain l full) := h.linkTo.modLink
theorem Keeps.linkStart {l} (h : Keeps a s) : Keeps a (s.linkStart l) := .ite h.startTrain h.linkTo
theorem Keeps.hello1 {l} (h : Keeps a s) : Keeps a (s.hello1 l) := .sendLocal (.modLink h)
theorem Keeps.linkLock {l} (h : Keeps a s) : Keeps a (s.linkLock l) := .ite h h.setReg.hello1
theorem Keeps.offerRate {l} (h : Keeps a s) : Keeps a (s.offerRate l) := .ite h.modLink.sendLocal h
theorem Keeps.admitLink {l} (h : Keeps a s) : Keeps a (s.admitLink l) :=
  .offerRate (.pump (.modLink (h.withIrq (fun _ ht => ht.setFldReg))))
theorem Keeps.authFail {l} (h : Keeps a s) : Keeps a (s.authFail l) := h.setFldReg.linkTo
theorem Keeps.certReceive {l p} (h : Keeps a s) : Keeps a (s.certReceive l p) :=
  .ite h <| .ite h.authFail <| .ite h.setReg.setReg.setReg.modLink <|
    .ite (h.setReg.setReg.setReg.modLink.withIrq (fun _ ht => ht.setFldReg)) h.setReg.setReg.setReg.modLink.admitLink
theorem Keeps.helloReceive {l p} (h : Keeps a s) : Keeps a (s.helloReceive l p) :=
  .ite h (.ite (.sendLocal (.sendLocal (.ite h h.hello1))) h.modLink)
theorem Keeps.rateReceive {l p} (h : Keeps a s) : Keeps a (s.rateReceive l p) := .ite h h.modLink.offerRate.modLink
theorem Keeps.rateDrainEnd {l} (h : Keeps a s) : Keeps a (s.rateDrainEnd l) := .ite h.startTrain h
theorem Keeps.rateOfferTimeout {l} (h : Keeps a s) : Keeps a (s.rateOfferTimeout l) := .ite h.setFldReg h
theorem Keeps.loadChip (h : Keeps a s) : Keeps a s.loadChip := h.setReg
theorem Keeps.discovery (h : Keeps a s) : Keeps a s.discovery := h.loadChip.foldl (fun _ _ ht => .ite ht.hello1 ht)
theorem Keeps.linkEnable {l} (h : Keeps a s) : Keeps a (s.linkEnable l) := .ite h.setFldReg.linkStart h.setFldReg
theorem Keeps.linkDisable {l} (h : Keeps a s) : Keeps a (s.linkDisable l) := .ite h.setFldReg h.setFldReg.linkTo
theorem Keeps.linkRetrain {l} (h : Keeps a s) : Keeps a (s.linkRetrain l) := .ite h h.linkTo
theorem Keeps.linkAdmit {l} (h : Keeps a s) : Keeps a (s.linkAdmit l) := .ite h.admitLink h
theorem Keeps.received {l p} (h : Keeps a s) : Keeps a (s.received l p) := by
  unfold State.received
  split
  · exact h.err
  · split
    · exact h.modLink
    · exact h
theorem Keeps.flitReceive {l bytes fec} (h : Keeps a s) : Keeps a (s.flitReceive l bytes fec) := by
  unfold State.flitReceive
  split
  · exact h
  extract_lets u hd good ft k rest cr moved k1 s1 nak t s2
  have hu : Keeps a u := by
    cases fec with
    | corrected n => exact h.countReg
    | _ => exact h
  have h1 : Keeps a s1 := hu
  have ht : Keeps a t := h1
  have h2 : Keeps a s2 := .ite (.ite ht.linkTo ht) h1
  exact .ite hu.modLink (.ite h2 (.ite h2.pump (.ite h2.modLink.pump (.pump (.foldl h2.modLink fun _ _ ht => ht.received)))))
theorem Keeps.idleFlit {l} (h : Keeps a s) : Keeps a (s.idleFlit l) := .ite h h.modLink.pump
theorem Keeps.windowMiss {l} (h : Keeps a s) : Keeps a (s.windowMiss l) := .ite h (.ite h.modLink.linkTo h.modLink)

/-! ### Scale -/

theorem Keeps.scRaise {n e v} (h : Keeps a s) : Keeps a (s.scRaise n e v) := .ite h.setReg h
theorem Keeps.scNf {n e} (h : Keeps a s) : Keeps a (s.scNf n e) := h.setFldReg
theorem Keeps.scSatf {n e} (h : Keeps a s) : Keeps a (s.scSatf n e) := h.setFldReg
theorem Keeps.scRollOne {n e} (h : Keeps a s) : Keeps a (s.scRollOne n e) := by
  unfold State.scRollOne
  dsimp only
  split
  · split
    · exact .setFldReg (.setReg (h.foldl (fun _ _ ht2 => ht2.setReg)))
    · exact .setReg (h.foldl (fun _ _ ht2 => ht2.setReg))
  · exact .setReg (h.foldl (fun _ _ ht1 => ht1.setReg))
theorem Keeps.scRoll {n hi w} (h : Keeps a s) : Keeps a (s.scRoll n hi w) := h.foldl (fun _ _ ht => .ite ht.scRollOne ht)
theorem Keeps.scAmaxw {n e v} (h : Keeps a s) : Keeps a (s.scAmaxw n e v) := by
  unfold State.scAmaxw
  split
  · exact h.scNf
  · exact h.scNf
  · split
    · exact h
    · exact h.scRaise
theorem Keeps.coreNf {n m} (h : Keeps a s) : Keeps a (s.coreNf n m) := h.setReg
theorem Keeps.lossExp {v} (h : Keeps a s) : Keeps a (s.lossExp v) := .ite h h.setFldReg.setFldReg
theorem Keeps.lossUpdate {nf} (h : Keeps a s) : Keeps a (s.lossUpdate nf) :=
  .ite h.setFldReg (.ite h.setFldReg.setFldReg.setFldReg.countReg (.ite h.setFldReg.setFldReg.setFldReg h.setFldReg.setFldReg))
theorem Keeps.lossLive (h : Keeps a s) : Keeps a s.lossLive := h.setReg.lossExp

/-! ### Mould -/

theorem Keeps.startCopy {c} (h : Keeps a s) : Keeps a (s.startCopy c) := h
theorem Keeps.firstTouch {leaf shadow} (h : Keeps a s) : Keeps a (s.firstTouch leaf shadow) := by
  unfold State.firstTouch
  split
  · exact h
  · split
    · exact h
    · split
      · exact h.err
      · exact h.startCopy
theorem Keeps.copyPage {src dst} (h : Keeps a s) : Keeps a (s.copyPage src dst) := h.touchAll.writeMarked
theorem Keeps.copyDone {leaf} (h : Keeps a s) : Keeps a (s.copyDone leaf) := by
  unfold State.copyDone
  split
  · exact h
  · split
    · dsimp only
      split
      · exact h.biAsk
      · split
        · exact .mouldStale (.touchEntry (.copyPage h))
        · exact .setFldReg (.writeRun (.mouldEntry (.copyPage h)))
    · dsimp only
      split
      · exact h.biAsk
      · split
        · exact .mouldStale (.touchEntry (.copyPage h))
        · exact .mouldEntry (.copyPage h)
theorem Keeps.drecWrite (h : Keeps a s) : Keeps a s.drecWrite := by
  unfold State.drecWrite
  split
  · exact h
  · split
    · exact h.biAsk
    · exact h.writeRun
theorem Keeps.take (h : Keeps a s) : Keeps a s.take := by
  unfold State.take
  extract_lets g base s1 s2
  have hs1 : Keeps a s1 := .ite (.drecWrite h) h
  have hs2 : Keeps a s2 := hs1.withIrq (fun _ ht => ht.setFldReg.setFldReg)
  split
  · exact h.err
  · split
    · exact hs2
    · exact hs2.withIrq (fun _ ht2 => ht2.setFldReg)
theorem Keeps.sweepPage {a1} (h : Keeps a s) : Keeps a (s.sweepPage a1) := .ite h h.startCopy.copyDone
theorem Keeps.sweepEnd (h : Keeps a s) : Keeps a s.sweepEnd := by
  unfold State.sweepEnd
  split
  · exact h
  · dsimp only
    split
    · exact h.drecWrite
    · split
      · exact h.drecWrite.biAsk
      · split
        · split
          · exact .foldl (h.drecWrite.foldl (fun _ _ ht5 => ht5.touchEntry)) (fun _ _ ht5 => ht5.sweepPage)
          · exact .withIrq (.foldl (h.drecWrite.foldl (fun _ _ ht5 => ht5.touchEntry)) (fun _ _ ht5 => ht5.sweepPage)) (fun _ ht5 => ht5.setFldReg)
        · split
          · exact h.drecWrite
          · exact h.drecWrite.withIrq (fun _ ht5 => ht5.setFldReg)
theorem Keeps.stepStart {commit} (h : Keeps a s) : Keeps a (s.stepStart commit) := h.withIrq (fun _ ht => ht)
theorem Keeps.stepCommand {commit} (h : Keeps a s) : Keeps a (s.stepCommand commit) := .ite h.err h.stepStart
theorem Keeps.stepLeaf {commit i} (h : Keeps a s) : Keeps a (s.stepLeaf commit i) := .ite h.touch.err h.touch.mouldEntry
theorem Keeps.stepFinish (h : Keeps a s) : Keeps a s.stepFinish := by
  unfold State.stepFinish
  split
  · exact h
  · exact .withIrq (h.foldl (fun _ _ ht1 => ht1.stepLeaf)) (fun _ ht1 => ht1)
theorem Keeps.awaitResolve {r} (h : Keeps a s) : Keeps a (s.awaitResolve r) := .ite h.biAsk h
theorem Keeps.stepCyc {v} (h : Keeps a s) : Keeps a { s with stepCyc := v } := h
theorem Keeps.resolve {r} (h : Keeps a s) : Keeps a (s.resolve r) := by
  unfold State.resolve
  extract_lets out cnt s1 s2 s3 last s4
  have h1 : Keeps a s1 := h.stepStart
  have h2 : Keeps a s2 := .ite h1.setFldReg h1.lossUpdate
  have h3 : Keeps a s3 := .ite h2.setReg h2
  have h4 : Keeps a s4 := h3.setReg
  clear_value s4
  exact .stepCyc (Keeps.ite h4.writeRun h4).setFldReg.setFldReg
theorem Keeps.restoreRead (h : Keeps a s) : Keeps a s.restoreRead := .ite h (.ite h.touchAll.touchAll h.touchAll)
theorem Keeps.restoreApply {rr dr} (h : Keeps a s) : Keeps a (s.restoreApply rr dr) := by
  unfold State.restoreApply
  extract_lets entry s1 s2 s3 s4
  have he (t : State) (n e : Nat) (ht : Keeps a t) : Keeps a (entry t n e) := ht.setReg.setReg.foldl fun _ _ ht => ht.setReg
  have h1 : Keeps a s1 := h.foldl fun _ n ht => ht.foldl fun t e ht => he t n e ht
  have h4 : Keeps a s4 := h1.setReg.setReg.setReg.setReg.setReg.setReg.setFldReg
  exact .ite h4.writeRun h4
theorem Keeps.restoreRun (h : Keeps a s) : Keeps a s.restoreRun := by
  unfold State.restoreRun
  split
  · exact h
  · split
    · exact h.restoreRead.setFldReg
    · exact h.restoreRead.restoreApply.setFldReg
theorem Keeps.restoreGo (h : Keeps a s) : Keeps a s.restoreGo := .ite h h.restoreRun
theorem Keeps.restoreDone (h : Keeps a s) : Keeps a s.restoreDone := .ite h (.ite (.restoreRun (.setFldReg h)) h.setFldReg.setFldReg)

/-! ### JobMem -/

theorem Keeps.jobPlaces {write sup l} (h : Keeps a s) : Keeps a (s.jobPlaces write sup l).1 := by
  induction l generalizing s with
  | nil => exact h
  | cons x r ih =>
    have hx := h.jobXlate (va := x) (write := write) (sup := sup)
    unfold State.jobPlaces
    generalize s.jobXlate x write sup = q at hx ⊢
    rcases q with ⟨t, c | ⟨p, e⟩⟩
    · exact hx
    · have hr := ih hx
      dsimp only at hr ⊢
      generalize t.jobPlaces write sup r = v at hr ⊢
      rcases v with ⟨u, y | l⟩
      · exact hr
      · exact hr
theorem Keeps.jobFault {sup} (h : Keeps a s) : Keeps a (s.jobFault sup) := .ite h h.err
theorem Keeps.awaitCopies {l} (h : Keeps a s) : Keeps a (s.awaitCopies l) := h
theorem Keeps.endWaits {l} (h : Keeps a s) : Keeps a (s.endWaits l) := h

/-! ### Pugmill -/

theorem Keeps.modJob {j f} (h : Keeps a s) : Keeps a (s.modJob j f) := h
theorem Keeps.jobErr {j code} (h : Keeps a s) : Keeps a (s.jobErr j code) := h.errWith (fun _ ht => ht.setReg)
theorem Keeps.jobSticky {j m} (h : Keeps a s) : Keeps a (s.jobSticky j m) := h.modJob
theorem Keeps.jobXf {j} (h : Keeps a s) : Keeps a (s.jobXf j) := h.jobSticky.jobErr.jobFault
theorem Keeps.freeMode {j i} (h : Keeps a s) : Keeps a (s.freeMode j i) := h.free.modJob
theorem Keeps.jobUnd {j} (h : Keeps a s) : Keeps a (s.jobUnd j) := .modJob (h.foldl (fun _ _ ht => ht.freeMode))
theorem Keeps.newEpoch {j} (h : Keeps a s) : Keeps a (s.newEpoch j) := .ite h.jobUnd h
theorem Keeps.jobClose {j} (h : Keeps a s) : Keeps a (s.jobClose j) := h.modJob
theorem Keeps.jobOpen {j} (h : Keeps a s) : Keeps a (s.jobOpen j) := .ite h.jobErr (.ite h.jobErr h.modJob)
/-- What every step keeps, of the state that an access, a packet or a drain of the leaf stage ends in. -/
@[reducible] def OutKept (a : State) {α : Type} : Out α → Prop
  | .ok s _ => Keeps a s
  | .wait s => Keeps a s
  | .bad s _ _ => Keeps a s
@[reducible] def TakeKept (a : State) : Take → Prop
  | .taken s => Keeps a s
  | .later => True
  | .stuck s => Keeps a s
@[reducible] def LeafKept (a : State) : LeafOut → Prop
  | .done s _ => Keeps a s
  | .wait s => Keeps a s
  | .fail s _ _ => Keeps a s

/-! ### JobMem -/

protected theorem Keeps.jobRead {a1 n sup} (h : Keeps a s) : OutKept a (s.jobRead a1 n sup) := by
  have hp := (h.jobFresh (sup := sup) (vas := addrs a1 n)).jobPlaces (write := false) (sup := sup) (l := addrs a1 n)
  unfold State.jobRead
  dsimp only
  generalize (s.jobFresh sup (addrs a1 n)).jobPlaces false sup (addrs a1 n) = r at hp ⊢
  split
  · exact h.biAsk
  · rcases r with ⟨t, ⟨c, x⟩ | l⟩
    · exact hp
    · dsimp only at hp ⊢
      split
      · exact hp.biAsk
      · split
        · exact hp
        · exact hp.touchAll
protected theorem Keeps.jobWrite {sup ws} (h : Keeps a s) : OutKept a (s.jobWrite sup ws) := by
  have hp := (h.jobFresh (sup := sup) (vas := ws.map (·.1))).jobPlaces (write := true) (sup := sup) (l := ws.map (·.1))
  unfold State.jobWrite
  dsimp only
  generalize (s.jobFresh sup (ws.map (·.1))).jobPlaces true sup (ws.map (·.1)) = r at hp ⊢
  split
  · exact h.biAsk
  · rcases r with ⟨t, ⟨c, x⟩ | l⟩
    · exact hp
    · dsimp only at hp ⊢
      have hw := (hp.endWaits (l := leavesOf l)).writeMarked (ws := (l.zip ws).map fun e => (e.1.1, e.2.2))
      split
      · exact hp
      · split
        · exact hp.endWaits.err
        · split
          · exact hp.biAsk
          · split
            · exact hp.awaitCopies
            · exact .ite hw.setFldReg hw
theorem ExceptAll.foldlM {ε α β : Type} {p : ε → Prop} {q : β → Prop} {f : β → α → Except ε β} {l : List α} {b : β} (hb : q b)
    (hf : ∀ b x, q b → ExceptAll p q (f b x)) : ExceptAll p q (l.foldlM f b) := by
  induction l generalizing b with
  | nil => exact hb
  | cons x l ih =>
    have hx := hf b x hb
    rw [List.foldlM_cons]
    generalize f b x = r at hx ⊢
    cases r with
    | error e => exact hx
    | ok b => exact ih hx
theorem ExceptAll.bind {ε α β : Type} {p : ε → Prop} {q : α → Prop} {q' : β → Prop} {r : Except ε α} {f : α → Except ε β}
    (h : ExceptAll p q r)
    (hf : ∀ x, q x → ExceptAll p q' (f x)) : ExceptAll p q' (r >>= f) := by
  cases r with
  | error e => exact h
  | ok x => exact hf x h
theorem ExceptAll.ite {ε α : Type} {p : ε → Prop} {q : α → Prop} {c : Prop} [Decidable c] {x y : Except ε α} (hx : ExceptAll p q x)
    (hy : ExceptAll p q y) : ExceptAll p q (if c then x else y) := by
  split
  · exact hx
  · exact hy
theorem OptionAll.ite {α : Type} {p : α → Prop} {c : Prop} [Decidable c] {x y : Option α} (hx : OptionAll p x) (hy : OptionAll p y) :
    OptionAll p (if c then x else y) := by
  split
  · exact hx
  · exact hy

/-! ### Pugmill -/

theorem Keeps.freeWords {n} (h : Keeps a s) : Keeps a (s.freeWords n).1 := h
theorem Keeps.takeNode {j lo n t1} (h : Keeps a s) : OptionAll (Keeps a) (s.takeNode j lo n t1) := by
  unfold State.takeNode
  refine .ite h (.ite h.modJob (.ite trivial ?_))
  split
  · trivial
  · exact (h.freeWords.writeRun).modJob
theorem Keeps.readNode {j x} (h : Keeps a s) : Keeps a (s.readNode j x).1 := by
  have hf := h.finds (f := fun y => match y with
    | .node k lo n t _ _ => k == j && lo == x.lo && n == x.size && t == x.tile
    | _ => false)
  unfold State.readNode
  dsimp only
  split
  · exact .ite hf.touchAll hf.touchAll.modJob
  · exact .ite hf hf.modJob
theorem Keeps.nodeTake {j lo n t1 right p} (h : Keeps a s) : Keeps a (s.nodeTake j lo n t1 right p) :=
  (Keeps.over (.ite h h.jobErr)).modJob
theorem Keeps.nodeTakeAll {j lo n t1 right ps} (h : Keeps a s) : OptionAll (Keeps a) (s.nodeTakeAll j lo n t1 right ps) := by
  have hn := h.takeNode (j := j) (lo := lo) (n := n) (t1 := t1)
  unfold State.nodeTakeAll
  refine .ite trivial ?_
  generalize s.takeNode j lo n t1 = r at hn ⊢
  cases r with
  | none => trivial
  | some u => exact Keeps.foldl hn fun _ _ ht => ht.nodeTake
protected theorem Keeps.rankChip {j r} (h : Keeps a s) : OutKept a (s.rankChip j r) := by
  have hr := h.jobRead (a1 := (s.job j).rmap + 2 * r) (n := 2) (sup := false)
  unfold State.rankChip
  generalize s.jobRead ((s.job j).rmap + 2 * r) 2 false = o at hr ⊢
  cases o <;> exact hr
theorem Keeps.handUp {j lo n t1 mk} (h : Keeps a s) : ExceptAll (Keeps a) (Keeps a) (s.handUp j lo n t1 mk) := by
  unfold State.handUp
  refine .ite (h.foldl fun _ _ ht => ht.originateMc) ?_
  split
  · exact h
  next plo pn right _ =>
  refine .ite ?_ ?_
  · have hn := h.nodeTakeAll (j := j) (lo := plo) (n := pn) (t1 := t1) (right := right) (ps := (mk 0x10 s.chip).map (fun k => mkPacket s.chip 0 k))
    generalize s.nodeTakeAll j plo pn t1 right ((mk 0x10 s.chip).map (fun k => mkPacket s.chip 0 k)) = o at hn ⊢
    cases o with
    | none => exact h
    | some u => exact hn
  · have hr := h.rankChip (j := j) (r := plo / (s.job j).leavesPer)
    generalize s.rankChip j (plo / (s.job j).leavesPer) = o at hr ⊢
    rcases o with ⟨u, chip, _ | _⟩ | u | ⟨u, _, _⟩
    · exact Keeps.foldl hr fun _ _ ht => ht.originate
    · exact ((Keeps.jobClose hr).jobSticky).jobErr
    · exact hr
    · exact Keeps.jobXf hr
theorem Keeps.nodeSend {j x} (h : Keeps a s) : ExceptAll (Keeps a) (Keeps a) (s.nodeSend j x) := by
  have hn := h.readNode (j := j) (x := x)
  unfold State.nodeSend
  dsimp only
  generalize s.readNode j x = r at hn ⊢
  rcases r with ⟨s, x⟩
  dsimp only at hn ⊢
  have hu (mk) := hn.handUp (j := j) (lo := x.lo) (n := x.size) (t1 := x.tile) (mk := mk)
  split
  · next e => exact (hu _).error e
  · next t e =>
    have ht := (hu _).ok e
    exact .ite (Keeps.ite ht.jobErr ht) (Keeps.modJob (.ite ht.jobErr ht))
protected theorem ExceptAll.firstDone {α : Type} {f : State → α → Except State State} {l : List α} (h : Keeps a s)
    (hf : ∀ t x, Keeps a t → ExceptAll (Keeps a) (Keeps a) (f t x)) : ExceptAll (Keeps a) (Keeps a) (firstDone f l s) := by
  induction l generalizing s with
  | nil => exact h
  | cons x l ih =>
    have hx := hf s x h
    unfold firstDone
    generalize f s x = r at hx ⊢
    cases r with
    | ok t => exact hx
    | error t => exact ih hx
theorem Keeps.resultTake {j p} (h : Keeps a s) : ExceptAll (Keeps a) (Keeps a) (s.resultTake j p) := by
  unfold State.resultTake
  extract_lets q t1 ok flag note s0
  have hn (u : State) (bad : Bool) (hu : Keeps a u) : Keeps a (note u bad) := .modJob (.ite hu hu.jobErr)
  have h0 : Keeps a s0 := .ite h h
  have hw := h0.jobWrite (sup := false) (ws := s.resultWords q p)
  clear_value note s0
  generalize s0.jobWrite false (s.resultWords q p) = o at hw ⊢
  cases o with
  | wait u => exact hw
  | bad u _ _ => exact hn _ _ hw.jobXf
  | ok u _ => exact hn _ _ hw
theorem Keeps.redTake {j p} (h : Keeps a s) : TakeKept a (s.redTake j p) := by
  unfold State.redTake
  dsimp only
  split
  · split
    · trivial
    · have hr := h.resultTake (j := j) (p := p)
      generalize s.resultTake j p = r at hr ⊢
      cases r <;> exact hr
  · split
    · exact h
    · next lo n _ =>
      split
      · exact h
      · split
        · trivial
        · have hn := h.takeNode (j := j) (lo := lo) (n := n) (t1 := p.rTile)
          generalize s.takeNode j lo n p.rTile = o at hn ⊢
          cases o with
          | none => exact h
          | some t => exact Keeps.nodeTake hn
theorem Keeps.trySend {j} (h : Keeps a s) : ExceptAll (Keeps a) (Keeps a) (s.trySend j) :=
  .firstDone h fun _ _ ht => ht.nodeSend
theorem Keeps.readHeld {j p} (h : Keeps a s) : Keeps a (s.readHeld j p).1 := by
  have hf := h.findsAt (x := .held j p)
  unfold State.readHeld
  dsimp only
  split
  · exact hf.modJob
  · exact hf
theorem Keeps.tryHeld {j} (h : Keeps a s) : ExceptAll (Keeps a) (Keeps a) (s.tryHeld j) := by
  refine .firstDone h fun t p ht => ?_
  have hr := ht.readHeld (j := j) (p := p)
  generalize t.readHeld j p = r at hr ⊢
  rcases r with ⟨u, p⟩
  have hk := hr.redTake (j := j) (p := p)
  dsimp only at hk ⊢
  generalize u.redTake j p = k at hk ⊢
  cases k with
  | taken v => exact Keeps.modJob hk
  | later => exact hr
  | stuck v => exact hk
theorem Keeps.tryJob {j} (h : Keeps a s) : ExceptAll (Keeps a) (Keeps a) (s.tryJob j) := by
  have hs := h.trySend (j := j)
  unfold State.tryJob
  refine .ite h ?_
  generalize s.trySend j = r at hs ⊢
  cases r with
  | ok t => exact hs
  | error t => exact Keeps.tryHeld hs
protected theorem Keeps.pugRun {k} (h : Keeps a s) : Keeps a (pugRun k s) := by
  induction k generalizing s with
  | zero => exact h
  | succ k ih =>
    have hd := ExceptAll.firstDone (f := State.tryJob) (l := s.jobs.map (·.1)) h fun _ _ ht => ht.tryJob
    unfold pugRun
    generalize firstDone State.tryJob (s.jobs.map (·.1)) s = r at hd ⊢
    cases r with
    | ok t => exact ih hd
    | error t => exact hd
theorem Keeps.runJobs (h : Keeps a s) : Keeps a s.runJobs := h.pugRun
theorem Keeps.readJob {j} (h : Keeps a s) : Keeps a (s.readJob j) := .ite h.findsAt.jobClose.modJob.runJobs h.findsAt
theorem Keeps.redArrive {p} (h : Keeps a s) : ExceptAll (Keeps a) (Keeps a) (s.redArrive p) := by
  unfold State.redArrive
  extract_lets j u q d hold
  have hu : Keeps a u := h.readJob
  have hh (v : State) (hv : Keeps a v) : ExceptAll (Keeps a) (Keeps a) (hold v) := .ite hv.over.modJob hv
  have hr := hu.redTake (j := j) (p := p)
  clear_value hold u
  refine .ite hu.jobErr (.ite hu.jobErr (.ite (hh u hu) ?_))
  generalize u.redTake j p = r at hr ⊢
  cases r with
  | taken t => exact Keeps.runJobs hr
  | later => exact hh u hu
  | stuck t => exact hr
theorem Keeps.delivered {j t1} (h : Keeps a s) : Keeps a (s.delivered j t1) := by
  unfold State.delivered
  extract_lets u q nf cf s1 s2 v v1 d s3 s4 s5
  have hu : Keeps a u := h.readJob
  have h1 : Keeps a s1 := .ite hu.jobSticky hu
  have h2 : Keeps a s2 := .ite h1.setFldReg h1
  have hv : Keeps a v1 := .ite (h2.jobSticky).setFldReg h2.jobSticky
  have h3 : Keeps a s3 := .ite (.ite hv.modCore hv) h2
  have h4 : Keeps a s4 := .ite h3 h3.semSignal
  have h5 : Keeps a s5 := h4.modJob
  exact .ite hu h5.runJobs
theorem Keeps.participant {j lo t1} (h : Keeps a s) : Keeps a (s.participant j lo t1) := by
  unfold State.participant
  dsimp only
  split
  · exact h.readJob
  · exact h.readJob.modJob.jobSticky.jobErr
theorem Keeps.lateRound {j} (h : Keeps a s) : Keeps a (s.lateRound j) := .ite h h.setCtx
theorem OutKept.ite {α : Type} {c : Prop} [Decidable c] {x y : Out α} (hx : OutKept a x) (hy : OutKept a y) :
    OutKept a (if c then x else y) := by
  split
  · exact hx
  · exact hy
theorem LeafKept.ite {c : Prop} [Decidable c] {x y : LeafOut} (hx : LeafKept a x) (hy : LeafKept a y) : LeafKept a (if c then x else y) := by
  split
  · exact hx
  · exact hy
protected theorem Keeps.leafStage {j b xs marks} (h : Keeps a s) : LeafKept a (s.leafStage j b xs marks) := by
  unfold State.leafStage
  extract_lets u q slot t1 leaf key ra
  have hu : Keeps a u := h.readJob
  refine LeafKept.ite hu.jobErr (LeafKept.ite hu.jobErr (LeafKept.ite hu ?_))
  have hr : OutKept a (if q.res = true then u.jobRead ra 8192 false else .ok u []) := .ite hu.jobRead hu
  clear_value ra
  generalize (if q.res = true then u.jobRead ra 8192 false else .ok u []) = o at hr ⊢
  rcases o with ⟨s1, rw⟩ | v | ⟨v, c, x⟩
  · dsimp -zeta only
    extract_lets out xs keep wires vals nf ovf specs resid rws
    clear_value rws specs ovf
    have hw : OutKept a (if q.res = true then s1.jobWrite false rws else .ok s1 ()) := .ite (Keeps.jobWrite hr) hr
    generalize (if q.res = true then s1.jobWrite false rws else .ok s1 ()) = o at hw ⊢
    rcases o with ⟨s2, _⟩ | v | ⟨v, c, x⟩
    · have hh := Keeps.handUp (j := j) (lo := leaf) (n := 1) (t1 := t1) (mk := specs) hw
      dsimp only at hh ⊢
      generalize s2.handUp j leaf 1 t1 specs = r at hh ⊢
      rcases r with v | s3
      · exact hr
      · exact hh.modJob.lateRound.runJobs
    · exact hw
    · exact Keeps.jobXf hw
  · exact hr
  · exact Keeps.jobXf hr
theorem Keeps.jobLive {j} (h : Keeps a s) : Keeps a (s.jobLive j) := .ite h.readJob.modJob.jobErr h.readJob.modJob
theorem Keeps.lossUnd (h : Keeps a s) : Keeps a s.lossUnd := h.free.setReg.lossExp
theorem Keeps.groupUnd {g} (h : Keeps a s) : Keeps a (s.groupUnd g) := h.free.free
theorem Keeps.ctxUnd {b js} (h : Keeps a s) : Keeps a (s.ctxUnd b js) := by
  unfold State.ctxUnd
  extract_lets s1 s2
  have h1 : Keeps a s1 := h.foldl fun _ _ ht => ht.jobUnd
  have h2 : Keeps a s2 := .ite h1.lossUnd h1
  exact h2.foldl fun _ _ ht => ht.groupUnd
theorem Keeps.earlyJobs {b js} (h : Keeps a s) : Keeps a (s.earlyJobs b js) := .ite h h.ctxUnd
theorem Keeps.early {b} (h : Keeps a s) : Keeps a (s.early b) := h.earlyJobs

/-! ### Swarm -/

theorem Keeps.modSwarm {e f} (h : Keeps a s) : Keeps a (s.modSwarm e f) := h
theorem Keeps.swarmErr {e code} (h : Keeps a s) : Keeps a (s.swarmErr e code) := by
  unfold State.swarmErr
  extract_lets pg
  clear_value pg
  exact h.errWith fun _ ht => ht.setReg
theorem Keeps.swarmXf {e} (h : Keeps a s) : Keeps a (s.swarmXf e) := h.swarmErr.jobFault
theorem Keeps.swarmEnable {e} (h : Keeps a s) : Keeps a (s.swarmEnable e) := .ite h.swarmErr h.modSwarm
theorem Keeps.swarmDisable {e} (h : Keeps a s) : Keeps a (s.swarmDisable e) := h.modSwarm
theorem Keeps.readSwarm {e} (h : Keeps a s) : Keeps a (s.readSwarm e) := .ite h.findsAt.swarmDisable.modSwarm h.findsAt
theorem Keeps.readRow {e p} (h : Keeps a s) : Keeps a (s.readRow e p).1 := by
  have hf := h.findsAt (x := .heldRow e p)
  unfold State.readRow
  dsimp only
  split
  · exact hf.modSwarm
  · exact hf
theorem Keeps.swarmRead {e a1 n} (h : Keeps a s) : ExceptAll (Keeps a) (fun r => Keeps a r.1) (s.swarmRead e a1 n) := by
  have hr := h.jobRead (a1 := a1) (n := n) (sup := false)
  unfold State.swarmRead
  generalize s.jobRead a1 n false = o at hr ⊢
  cases o with
  | ok t ws => exact hr
  | wait t => exact hr
  | bad t _ _ => exact Keeps.swarmXf hr
theorem Keeps.swarmWrite {e ws} (h : Keeps a s) : ExceptAll (Keeps a) (Keeps a) (s.swarmWrite e ws) := by
  have hr := h.jobWrite (sup := false) (ws := ws)
  unfold State.swarmWrite
  generalize s.jobWrite false ws = o at hr ⊢
  cases o with
  | ok t ws => exact hr
  | wait t => exact hr
  | bad t _ _ => exact Keeps.swarmXf hr
theorem Keeps.expert {e x} (h : Keeps a s) : ExceptAll (Keeps a) (fun r => Keeps a r.1) (s.expert e x) := by
  have hr := h.swarmRead (e := e) (a1 := (s.swarm e).emap + 2 * x) (n := 2)
  unfold State.expert
  generalize s.swarmRead e ((s.swarm e).emap + 2 * x) 2 = o at hr ⊢
  rcases o with t | ⟨t, _ | ws⟩
  · exact hr
  · exact hr
  · exact .ite (Keeps.swarmErr hr) hr
protected theorem Keeps.sendChoice {e t1 c x row} {b : SendAcc} (h : Keeps a b.s) :
    ExceptAll (Keeps a) (fun r => Keeps a r.1.s) (sendChoice e t1 c x row b) := by
  have hx := h.expert (e := e) (x := x)
  unfold sendChoice
  refine .ite h (.ite h ?_)
  generalize b.s.expert e x = o at hx ⊢
  rcases o with t | ⟨t, _ | ⟨chip, lx⟩⟩
  · exact hx
  · exact hx
  · exact .ite hx hx
protected theorem Keeps.sendToken {e t1} {b : SendAcc} (h : Keeps a b.s) :
    ExceptAll (Keeps a) (fun r => Keeps a r.s) (sendToken e b t1) := by
  unfold sendToken
  extract_lets q status
  have hst (u : State) (v : Nat) (hu : Keeps a u) : ExceptAll (Keeps a) (Keeps a) (status u v) := hu.swarmWrite
  clear_value status
  refine .bind h.swarmRead fun ⟨s1, ws?⟩ h1 => ?_
  rcases ws? with _ | ws
  · exact h1
  · refine .ite (.bind (hst _ _ h1.swarmErr) fun s2 h2 => h2) ?_
    extract_lets addr rest
    have hrest (x : State × Option (List (Word × Bool))) (hx : Keeps a x.1) : ExceptAll (Keeps a) (fun r => Keeps a r.s) (rest x) := by
      refine .bind (q := fun (r : SendAcc × Nat) => Keeps a r.1.s) (.foldlM hx fun r c hr => ?_) fun ⟨b, st⟩ hb =>
        .bind (hst _ _ hb) fun s3 h3 => h3
      exact .bind (Keeps.sendChoice hr) fun ⟨b, d⟩ hb => hb
    clear_value rest
    exact .ite (.bind h1.swarmRead hrest) (.bind (q := fun r => Keeps a r.1) (h1.swarmXf :) hrest)
protected theorem Keeps.sendCount {e used x} {r : State × List PktSpec} (h : Keeps a r.1) :
    ExceptAll (Keeps a) (fun r => Keeps a r.1) (sendCount e used r x) := by
  have hx := h.expert (e := e) (x := x)
  unfold sendCount
  dsimp only
  generalize r.1.expert e x = o at hx ⊢
  rcases o with t | ⟨t, _ | ⟨chip, lx⟩⟩ <;> exact hx
theorem Keeps.swarmSend {e n} (h : Keeps a s) : ExceptAll (Keeps a) (Keeps a) (s.swarmSend e n) := by
  unfold State.swarmSend
  refine .bind (q := fun b => Keeps a b.s) (.foldlM h fun b t hb => hb.sendToken) fun b hb => ?_
  refine .bind (q := fun (r : State × List PktSpec) => Keeps a r.1) ?_ fun (s1, cnts) h1 => ?_
  · exact .foldlM hb fun r x hr => hr.sendCount
  have h2 := h1.modSwarm (e := e) (f := fun q => { q with
    pendRet := q.pendRet + b.rows * q.parts, xe := put 0 q.xe 15 (BitVec.ofNat 32 (satAdd 32 b.drop (q.x 15).toNat)) })
  exact Keeps.foldl (.ite h2.semSignal h2) fun _ _ ht => ht.originate
theorem Keeps.returnRow {e x r j} (h : Keeps a s) : ExceptAll (Keeps a) (Keeps a) (State.returnRow e x r s j) := by
  unfold State.returnRow
  extract_lets q
  have ht := h.swarmRead (e := e) (a1 := q.tgb + 4 * q.slot x r j) (n := 4)
  generalize s.swarmRead e (q.tgb + 4 * q.slot x r j) 4 = o at ht ⊢
  rcases o with t | ⟨t, _ | tw⟩
  · exact ht
  · exact ht
  · have hu := Keeps.swarmRead (e := e) (a1 := q.rxb + q.slot x r j * q.rlen) (n := q.rlen) ht
    dsimp only at hu ⊢
    generalize t.swarmRead e (q.rxb + q.slot x r j * q.rlen) q.rlen = o at hu ⊢
    rcases o with u | ⟨u, _ | ws⟩
    · exact hu
    · exact hu
    · exact Keeps.foldl hu fun _ _ ht => ht.originate
theorem Keeps.returnPair {e i} (h : Keeps a s) : ExceptAll (Keeps a) (Keeps a) (State.returnPair e s i) := by
  unfold State.returnPair
  extract_lets q
  have ht := h.swarmRead (e := e) (a1 := q.cntAddr (i / q.nsrc) (i % q.nsrc)) (n := 2)
  generalize s.swarmRead e (q.cntAddr (i / q.nsrc) (i % q.nsrc)) 2 = o at ht ⊢
  rcases o with t | ⟨t, _ | tw⟩
  · exact ht
  · exact ht
  · exact .foldlM ht fun _ _ hu => hu.returnRow
theorem Keeps.swarmReturn {e} (h : Keeps a s) : ExceptAll (Keeps a) (Keeps a) (s.swarmReturn e) :=
  .foldlM h fun _ _ ht => ht.returnPair
theorem Keeps.swarmWork {e} (h : Keeps a s) : ExceptAll (Keeps a) (Keeps a) (s.swarmWork e) := by
  have hr := h.readSwarm (e := e)
  unfold State.swarmWork
  dsimp only
  generalize s.readSwarm e = u at hr ⊢
  split
  · exact hr
  · next w r _ =>
    have go {x : Except State State} (hx : ExceptAll (Keeps a) (Keeps a) x) :
        ExceptAll (Keeps a) (Keeps a) (match (generalizing := false) x with
          | .ok t => .ok (t.modSwarm e (fun q => { q with work := r }))
          | .error t => .error { u with biWait := t.biWait, touchWait := t.touchWait }) := by
      cases x with
      | ok t => exact Keeps.modSwarm hx
      | error t => exact hr
    cases w with
    | send n => exact go hr.swarmSend
    | ret => exact go hr.swarmReturn
protected theorem Keeps.swarmRun {k e} (h : Keeps a s) : Keeps a (swarmRun k s e) := by
  induction k generalizing s with
  | zero => exact h
  | succ k ih =>
    have hw := h.swarmWork (e := e)
    unfold swarmRun
    generalize s.swarmWork e = r at hw ⊢
    cases r with
    | ok t => exact ih hw
    | error t => exact hw
theorem Keeps.swarmGo {e w} (h : Keeps a s) : Keeps a (s.swarmGo e w) := .ite h.readSwarm.swarmErr h.readSwarm.modSwarm.swarmRun
theorem Keeps.roundCheck {e} (h : Keeps a s) : Keeps a (s.roundCheck e) := .ite h.modSwarm.semSignal h
theorem Keeps.swarmTake {e p} (h : Keeps a s) : ExceptAll (Keeps a) (Keeps a) (s.swarmTake e p) := by
  unfold State.swarmTake
  extract_lets q part put_ i tag
  have go {ws} {f : State → State} (hf : ∀ t, Keeps a t → Keeps a (f t)) : ExceptAll (Keeps a) (Keeps a) (match s.jobWrite false ws with
      | .wait t => .error t
      | .bad t _ _ => .ok (t.swarmXf e)
      | .ok t _ => .ok (f t)) := by
    have hw := h.jobWrite (sup := false) (ws := ws)
    generalize s.jobWrite false ws = o at hw ⊢
    cases o with
    | wait t => exact hw
    | bad t _ _ => exact Keeps.swarmXf hw
    | ok t _ => exact hf t hw
  refine .ite (go fun _ ht => ht.modSwarm.roundCheck) (.ite (go fun _ ht => ht.modSwarm.roundCheck) (go fun _ ht => ?_))
  exact .ite ht.modSwarm.semSignal ht.modSwarm
theorem Keeps.swarmArrive {p} (h : Keeps a s) : ExceptAll (Keeps a) (Keeps a) (s.swarmArrive p) :=
  have hr := h.readSwarm
  .ite hr.swarmErr (.ite hr.swarmErr (.ite (.ite hr.over.modSwarm hr) hr.swarmTake))
theorem Keeps.swarmHeld {e} (h : Keeps a s) : Keeps a (s.swarmHeld e) := by
  refine h.foldl fun t p0 ht => .ite ?_ ht
  have hr := ht.readRow (e := e) (p := p0)
  generalize t.readRow e p0 = r at hr ⊢
  rcases r with ⟨u, p⟩
  have hk := Keeps.swarmTake (e := e) (p := p) hr
  dsimp only at hk ⊢
  generalize u.swarmTake e p = k at hk ⊢
  cases k with
  | ok v => exact Keeps.modSwarm hk
  | error v => exact hk
theorem Keeps.retryPug (h : Keeps a s) : Keeps a s.retryPug := h.runJobs.foldl fun _ _ ht => ht.swarmHeld.swarmRun
theorem Keeps.pugPacket {p} (h : Keeps a s) : Keeps a (s.pugPacket p) := by
  have hx : ExceptAll (Keeps a) (Keeps a) (if p.type = 0x10 ∨ p.type = 0x11 then s.redArrive p else s.swarmArrive p) :=
    .ite h.redArrive h.swarmArrive
  unfold State.pugPacket
  generalize (if p.type = 0x10 ∨ p.type = 0x11 then s.redArrive p else s.swarmArrive p) = x at hx ⊢
  refine .ite h.keep ?_
  cases x with
  | ok t => exact Keeps.consume hx
  | error t => exact Keeps.keep hx

/-! ### Barrier -/

theorem Keeps.barErr {b code} (h : Keeps a s) : Keeps a (s.barErr b code) := h.errWith (fun _ ht => ht.setReg)
theorem Keeps.mcastPut {g e} (h : Keeps a s) : Keeps a { s with mcast := put McEntry.none_ s.mcast g e } := h
theorem Keeps.applyArm {b} (h : Keeps a s) : Keeps a (s.applyArm b) := by
  unfold State.applyArm
  extract_lets s1 s2 s3 s4
  have h1 : Keeps a s1 := h.foldl fun _ _ ht => ht.jobLive
  have h2 : Keeps a s2 := .ite h1.lossLive h1
  have h3 : Keeps a s3 := h2.foldl fun _ _ ht => .mcastPut ht.readMcast.over
  have h4 : Keeps a s4 := h3.setFldReg.setFldReg
  exact h4.early.retryPug
theorem Keeps.releaseRest {b} (h : Keeps a s) : Keeps a (s.releaseRest b) :=
  .foldl (.setCtx (.setFldReg (.ite h.applyArm h))) (fun _ _ ht => ht.releaseCore)
theorem Keeps.release {b refuse} (h : Keeps a s) : Keeps a (s.release b refuse).1 := by
  unfold State.release
  split
  · split
    · exact h.awaitResolve
    · exact h.resolve.releaseRest
  · exact h.releaseRest
protected theorem Keeps.barTest {k b} (h : Keeps a s) : Keeps a (barTest k s b) := by
  induction k generalizing s with
  | zero => exact h
  | succ k ih =>
    unfold barTest
    extract_lets c refuse s1 s2
    have h1 : Keeps a s1 := h.setCtx
    have h2 : Keeps a s2 := h1.originateMc
    have hr := h2.release (b := b) (refuse := refuse)
    clear_value s1 s2 refuse
    refine .ite h (.ite ?_ h1.post)
    generalize s2.release b refuse = r at hr ⊢
    rcases r with ⟨t, _ | _⟩
    · exact hr
    · exact ih hr
theorem Keeps.barTestAll {b} (h : Keeps a s) : Keeps a (s.barTestAll b) := h.barTest
theorem Keeps.arriving {b} (h : Keeps a s) : Keeps a (s.arriving b) := .ite h.earlyJobs h
theorem Keeps.arrive {b core} (h : Keeps a s) : Keeps a (s.arrive b core).1 := by
  have hr := h.readCtx (b := b)
  have hp {u : State} {x : Nat} {c : Prop} [Decidable c] {r : State × Nat} (hu : Keeps a u) (hv : Keeps a r.1) :
      Keeps a (if c then (u, x) else r).1 := by
    split
    · exact hu
    · exact hv
  unfold State.arrive
  dsimp only
  exact hp hr.barErr (hp hr.barErr (hp hr.arriving.setCtx.barTestAll (hp hr.arriving.setCtx.barTestAll hr.barErr)))
theorem Keeps.childArrive {b g refuse} (h : Keeps a s) : Keeps a (s.childArrive b g refuse) :=
  have hr := h.readCtx
  .ite hr.barErr (.ite hr.setCtx.barTestAll (.ite hr.setCtx.barTestAll hr.barErr))
theorem Keeps.relReceive {b g refuse} (h : Keeps a s) : Keeps a (s.relReceive b g refuse) := by
  have hr := h.readCtx (b := b)
  unfold State.relReceive
  dsimp only
  generalize s.readCtx b = u at hr ⊢
  have hl := hr.release (b := b) (refuse := refuse)
  generalize u.release b refuse = r at hl ⊢
  refine .ite hr ?_
  rcases r with ⟨t, _ | _⟩
  · exact hl
  · exact Keeps.barTestAll hl
theorem Keeps.resolveNext (h : Keeps a s) : Keeps a s.resolveNext := by
  unfold State.resolveNext
  split
  · exact h
  · next r rest _ =>
    have h1 := Keeps.resolve (s := { s with resolving := rest }) (r := r) h
    refine .ite h (.ite h.biAsk ?_)
    dsimp only
    split
    · exact h1.releaseRest.barTestAll
    · exact h1
theorem Keeps.stepEnd (h : Keeps a s) : Keeps a s.stepEnd := .ite h.biAsk h.stepFinish.resolveNext.retryPug
theorem Keeps.srsv {src op} (h : Keeps a s) : Keeps a (s.srsv src op) := .ite h (.ite h.awaitResolve h.resolve)
theorem Keeps.ctxWrote {b i} (h : Keeps a s) : Keeps a (s.ctxWrote b i) := h.setCtx
theorem Keeps.bCtlWrite {b w} (h : Keeps a s) : Keeps a (s.bCtlWrite b w) := by
  unfold State.bCtlWrite
  extract_lets s1 old new s11
  have hs1 : Keeps a s1 := h.readCtx
  have hs11 : Keeps a s11 := hs1.setReg
  split
  · split
    · exact hs1.barErr
    · exact .ctxWrote (.ite hs11 hs11.clearArrivals)
  · exact .ctxWrote (.ite hs11.clearArrivals.setFldReg hs11)
theorem Keeps.bNextWrite {b w} (h : Keeps a s) : Keeps a (s.bNextWrite b w) :=
  .ctxWrote (.ite h.readCtx.setReg (.retryPug (.setFldReg (.ite h.readCtx.setReg (h.readCtx.setReg.foldl (fun _ _ ht => ht.newEpoch))))))
theorem Keeps.bCtxWrite {b reg w} (h : Keeps a s) : Keeps a (s.bCtxWrite b reg w) := by
  unfold State.bCtxWrite
  split
  · dsimp only
    split
    · exact h.readCtx.barErr
    · exact h.readCtx.setReg.ctxWrote
  · dsimp only
    split
    · exact h.readCtx.barErr
    · exact h.readCtx.setReg.ctxWrote

/-! ### CombCmd -/

protected theorem Keeps.semOp {n add an v} (h : Keeps a s) : ResKept a (semOp n add an v s) := by
  unfold semOp
  exact h.combInstr (fun _ _ ht => ht.readSem.combAnswered (by
    split
    · exact ht.readSem.semAdd
    · exact ht.readSem.semSub))
protected theorem Keeps.semHold {n take an v} (h : Keeps a s) : ResKept a (semHold n take an v s) := by
  unfold semHold
  exact h.combInstr (fun _ _ ht => ht.readSem.combWaited (by
    split
    · exact ht.readSem.semTake
    · exact ht.readSem.semWait))
protected theorem Keeps.execSemAdd {n c an dn} (h : Keeps a s) : Answers a (execSemAdd n c an dn s) := h.issue (fun _ ht => ht.semOp)
protected theorem Keeps.execSemSub {n c an dn} (h : Keeps a s) : Answers a (execSemSub n c an dn s) := h.issue (fun _ ht => ht.semOp)
protected theorem Keeps.execSemWait {n c an dn} (h : Keeps a s) : Answers a (execSemWait n c an dn s) := h.issue (fun _ ht => ht.semHold)
protected theorem Keeps.execSemTake {n c an dn} (h : Keeps a s) : Answers a (execSemTake n c an dn s) := h.issue (fun _ ht => ht.semHold)
protected theorem Keeps.execSemAddi {n c an imm} (h : Keeps a s) : Answers a (execSemAddi n c an imm s) := h.issue (fun _ ht => ht.semOp)
protected theorem Keeps.execSemSubi {n c an imm} (h : Keeps a s) : Answers a (execSemSubi n c an imm s) := h.issue (fun _ ht => ht.semOp)
protected theorem Keeps.execSemWaiti {n c an imm} (h : Keeps a s) : Answers a (execSemWaiti n c an imm s) :=
  h.issue (fun _ ht => ht.semHold)
protected theorem Keeps.execSemTakei {n c an imm} (h : Keeps a s) : Answers a (execSemTakei n c an imm s) :=
  h.issue (fun _ ht => ht.semHold)
protected theorem Keeps.barArrEffect {n dn b} (h : Keeps a s) : ResKept a (barArrEffect n dn b s) := by
  unfold barArrEffect
  dsimp only
  exact h.arrive.modCore
protected theorem Keeps.execBarArr {n c dn an} (h : Keeps a s) : Answers a (execBarArr n c dn an s) :=
  h.issue (fun _ ht => ht.combInstr (fun _ _ ht1 => ht1.barArrEffect))
protected theorem Keeps.barWaitEffect {n a1 d b} (h : Keeps a s) : ResKept a (barWaitEffect n a1 d b s) := by
  unfold barWaitEffect
  exact h.readCtx.combWaited (by
    split
    · exact h.readCtx
    · exact h.readCtx.setCtx)
protected theorem Keeps.execBarWait {n c an dn} (h : Keeps a s) : Answers a (execBarWait n c an dn s) :=
  h.issue (fun _ ht => ht.combInstr (fun _ _ ht1 => ht1.barWaitEffect))
protected theorem Keeps.combAnswer {n} (h : Keeps a s) : Keeps a (combAnswer n s) := by
  unfold combAnswer
  dsimp only
  split
  · next dst v _ => exact h.setCore fun hp => h.peek n (by cases dst <;> simpa using hp)
  · exact h.setCore fun hp => h.peek n (by simpa using hp)
  · exact h
protected theorem Keeps.execCombAnswer {n} (h : Keeps a s) : Answers a (execCombAnswer n s) := h.command (fun _ ht => ht.combAnswer)
protected theorem Keeps.execCombWindowAdd {n sv v} (h : Keeps a s) : Answers a (execCombWindowAdd n sv v s) :=
  h.command (fun _ ht => ht.windowAdd)
protected theorem Keeps.execHopAdd {src k} (h : Keeps a s) : Answers a (execHopAdd src k s) :=
  h.command (fun _ ht => ht.inTurn (fun _ ht1 => ht1.semSignal))
theorem Keeps.hopSub {k} (h : Keeps a s) : Keeps a (s.hopSub k) := by
  unfold State.hopSub
  dsimp only
  split
  · rename_i e02
    exact h.readSem.semSub.ok e02
  · exact h.readSem.semFail
protected theorem Keeps.execHopSub {src k} (h : Keeps a s) : Answers a (execHopSub src k s) :=
  h.command (fun _ ht => ht.inTurn (fun _ ht1 => ht1.hopSub))
theorem Keeps.hopSet {src k} (h : Keeps a s) : Keeps a (s.hopSet src k) := by
  unfold State.hopSet
  split
  · exact h
  · split
    · exact h.errWith (fun _ ht2 => ht2.setReg)
    · exact h.semSet
protected theorem Keeps.execHopSet {src k} (h : Keeps a s) : Answers a (execHopSet src k s) :=
  h.command (fun _ ht => ht.inTurn (fun _ ht1 => ht1.hopSet))
protected theorem Keeps.execHopArrive {src k} (h : Keeps a s) : Answers a (execHopArrive src k s) :=
  h.command (fun _ ht => ht.inTurn (fun _ ht1 => ht1.arrive))
protected theorem Keeps.execTclr {src w} (h : Keeps a s) : Answers a (execTclr src w s) :=
  h.command (fun _ ht => ht.inTurn (fun _ ht1 => ht1.clearTask))
theorem Keeps.semXlate {va} (h : Keeps a s) : Keeps a (s.semXlate va).1 := by
  have hw := (h.jobFresh (sup := false) (vas := [va])).jobWalk (va := va)
  unfold State.semXlate
  generalize (s.jobFresh false [va]).jobWalk va = r at hw ⊢
  split
  · exact h
  · rcases r with ⟨t, c | e⟩
    · exact hw
    · dsimp only
      split
      · exact hw
      · exact hw
theorem Keeps.semPacket {p} (h : Keeps a s) : Keeps a (s.semPacket p) := by
  have h0 := (h.consume (p := p)).semXlate (va := p.addr)
  unfold State.semPacket
  dsimp only
  generalize (s.consume p).semXlate p.addr = r at h0 ⊢
  rcases r with ⟨t, c | pa⟩
  · exact Keeps.originate h0.jobFault
  · have ht := h0.readSem (k := (pa - combBase) / 16)
    dsimp only at ht ⊢
    refine .ite h0.jobFault.originate ?_
    generalize t.readSem ((pa - combBase) / 16) = t at ht ⊢
    generalize fld p.tsf 62 2 = op
    have hu : ExceptAll (fun _ => True) (Keeps a) (if op = 1 then t.semAdd ((pa - combBase) / 16) (fld p.tsf 0 32)
        else if op = 2 then t.semSub ((pa - combBase) / 16) (fld p.tsf 0 32) else .ok t) := .ite ht.semAdd (.ite ht.semSub ht)
    generalize (if op = 1 then t.semAdd ((pa - combBase) / 16) (fld p.tsf 0 32)
        else if op = 2 then t.semSub ((pa - combBase) / 16) (fld p.tsf 0 32) else .ok t) = u at hu ⊢
    cases u with
    | ok u => exact Keeps.originate hu
    | error c => exact ht.originate
protected theorem Keeps.execSemPacket {p} (h : Keeps a s) : Answers a (execSemPacket p s) := h.command (fun _ ht => ht.semPacket)
protected theorem Keeps.execBarrReceive {p} (h : Keeps a s) : Answers a (execBarrReceive p s) :=
  h.command (fun _ ht => ht.consume.childArrive)
theorem Keeps.brel {p} (h : Keeps a s) : Keeps a (s.brel p) := by
  unfold State.brel
  split
  · split
    · dsimp only
      split
      · exact h.mcForward.consume.relReceive
      · exact h.mcForward
    · dsimp only
      split
      · exact h.consume.relReceive
      · exact h
  · exact h.consume.relReceive
protected theorem Keeps.execBrelReceive {p} (h : Keeps a s) : Answers a (execBrelReceive p s) := h.command (fun _ ht => ht.brel)
protected theorem Keeps.execBCtlWrite {src b w} (h : Keeps a s) : Answers a (execBCtlWrite src b w s) :=
  h.command (fun _ ht => ht.inTurn (fun _ ht1 => ht1.bCtlWrite))
protected theorem Keeps.execBNextWrite {src b w} (h : Keeps a s) : Answers a (execBNextWrite src b w s) :=
  h.command (fun _ ht => ht.inTurn (fun _ ht1 => ht1.bNextWrite))
protected theorem Keeps.execBCtxWrite {src b reg w} (h : Keeps a s) : Answers a (execBCtxWrite src b reg w s) :=
  h.command (fun _ ht => ht.inTurn (fun _ ht1 => ht1.bCtxWrite))

/-! ### MouldCmd -/

theorem Keeps.freeFld {len} (h : Keeps a s) : Keeps a (s.freeFld len).1 := h.free
theorem Keeps.reserve {w lo len max} (h : Keeps a s) : Keeps a (s.reserve w lo len max).1 := by
  unfold State.reserve
  split
  · exact h
  · exact h.freeFld (len := len)
protected theorem Keeps.execSnapshotFirstTouch {leaf} (h : Keeps a s) : Answers a (execSnapshotFirstTouch leaf s) :=
  h.command (fun _ ht => ht.firstTouch)
protected theorem Keeps.execShadowFirstTouch {leaf} (h : Keeps a s) : Answers a (execShadowFirstTouch leaf s) :=
  h.command (fun _ ht => ht.firstTouch)
protected theorem Keeps.execPageCopyComplete {leaf} (h : Keeps a s) : Answers a (execPageCopyComplete leaf s) :=
  h.command (fun _ ht => ht.copyDone.retryPug)
protected theorem Keeps.execMouldTake {src} (h : Keeps a s) : Answers a (execMouldTake src s) :=
  h.command (fun _ ht => ht.inTurn (fun _ ht1 => ht1.take))
protected theorem Keeps.execSnapSweepEnd (h : Keeps a s) : Answers a (execSnapSweepEnd s) := h.command (fun _ ht => ht.sweepEnd.retryPug)
protected theorem Keeps.execStepCommit {src} (h : Keeps a s) : Answers a (execStepCommit src s) :=
  h.command (fun _ ht => ht.inTurn (fun _ ht1 => .ite ht1 ht1.stepCommand))
protected theorem Keeps.execStepRollback {src} (h : Keeps a s) : Answers a (execStepRollback src s) :=
  h.command (fun _ ht => ht.inTurn (fun _ ht1 => .ite ht1 ht1.stepCommand))
protected theorem Keeps.execStepCmdEnd (h : Keeps a s) : Answers a (execStepCmdEnd s) := h.command (fun _ ht => ht.stepEnd)
theorem Keeps.slogWrite {hi w} (h : Keeps a s) : Keeps a (s.slogWrite hi w) := .ite h.err (.ite h.setReg h.reserve.setReg)
protected theorem Keeps.execSlogWrite {src hi w} (h : Keeps a s) : Answers a (execSlogWrite src hi w s) :=
  h.command (fun _ ht => ht.inTurn (fun _ ht1 => ht1.slogWrite))
theorem Keeps.xrootLo {n w} (h : Keeps a s) : Keeps a (s.xrootLo n w) := h.setReg.modCore
protected theorem Keeps.execXrootLoWrite {src n w} (h : Keeps a s) : Answers a (execXrootLoWrite src n w s) :=
  h.command (fun _ ht => ht.inTurn (fun _ ht1 => ht1.xrootLo))
protected theorem Keeps.execXrootHiWrite {src n w} (h : Keeps a s) : Answers a (execXrootHiWrite src n w s) :=
  h.command (fun _ ht => ht.inTurn (fun _ ht1 => ht1.setReg))
theorem Keeps.jrootLo {w} (h : Keeps a s) : Keeps a (s.jrootLo w) := h
protected theorem Keeps.execJrootLoWrite {src w} (h : Keeps a s) : Answers a (execJrootLoWrite src w s) :=
  h.command (fun _ ht => ht.inTurn (fun _ ht1 => ht1.jrootLo))
protected theorem Keeps.execJrootHiWrite {src w} (h : Keeps a s) : Answers a (execJrootHiWrite src w s) :=
  h.command (fun _ ht => ht.inTurn (fun _ ht1 => ht1.setReg))
protected theorem Keeps.execSrsvCommit {src} (h : Keeps a s) : Answers a (execSrsvCommit src s) :=
  h.command (fun _ ht => ht.inTurn (fun _ ht1 => ht1.srsv))
protected theorem Keeps.execSrsvSkip {src} (h : Keeps a s) : Answers a (execSrsvSkip src s) :=
  h.command (fun _ ht => ht.inTurn (fun _ ht1 => ht1.srsv))
protected theorem Keeps.execSrsvRefused {src} (h : Keeps a s) : Answers a (execSrsvRefused src s) :=
  h.command (fun _ ht => ht.inTurn (fun _ ht1 => ht1.srsv))
protected theorem Keeps.execSrsvAbandoned {src} (h : Keeps a s) : Answers a (execSrsvAbandoned src s) :=
  h.command (fun _ ht => ht.inTurn (fun _ ht1 => ht1.srsv))
protected theorem Keeps.execRestoreGo {src} (h : Keeps a s) : Answers a (execRestoreGo src s) :=
  h.command (fun _ ht => ht.inTurn (fun _ ht1 => ht1.restoreGo))
protected theorem Keeps.execRestoreComplete (h : Keeps a s) : Answers a (execRestoreComplete s) := h.command (fun _ ht => ht.restoreDone)
theorem Keeps.sctlWrite {w} (h : Keeps a s) : Keeps a (s.sctlWrite w) := .ite h.setFldReg h.setFldReg.setReg
protected theorem Keeps.execSctlWrite {src w} (h : Keeps a s) : Answers a (execSctlWrite src w s) :=
  h.command (fun _ ht => ht.inTurn (fun _ ht1 => ht1.sctlWrite))
protected theorem Keeps.execStepnWrite {src w} (h : Keeps a s) : Answers a (execStepnWrite src w s) :=
  h.command (fun _ ht => ht.inTurn (fun _ ht1 => .ite ht1 ht1.setReg))
protected theorem Keeps.execScaleRoll {src n hi w} (h : Keeps a s) : Answers a (execScaleRoll src n hi w s) :=
  h.command (fun _ ht => ht.inTurn (fun _ ht1 => ht1.scRoll))
protected theorem Keeps.execScAmaxwWrite {src n e w} (h : Keeps a s) : Answers a (execScAmaxwWrite src n e w s) :=
  h.command (fun _ ht => ht.inTurn (fun _ ht1 => ht1.scAmaxw))
theorem Keeps.lossAbused (h : Keeps a s) : Keeps a s.lossAbused := h.ctxUnd
theorem Keeps.lossCurWrite {w} (h : Keeps a s) : Keeps a (s.lossCurWrite w) := by
  unfold State.lossCurWrite
  dsimp only
  split
  · exact h.lossAbused
  · split
    · exact h.freeFld.lossExp
    · exact h.lossExp
protected theorem Keeps.execLossScaleCurWrite {src w} (h : Keeps a s) : Answers a (execLossScaleCurWrite src w s) :=
  h.command (fun _ ht => ht.inTurn (fun _ ht1 => ht1.lossCurWrite))
theorem Keeps.lossPolWrite {staged w} (h : Keeps a s) : Keeps a (s.lossPolWrite staged w) := .ite h.lossAbused h.reserve.reserve.setReg

/-! ### PugmillCmd -/

protected theorem Keeps.execJcmdOpen {src pg idx} (h : Keeps a s) : Answers a (execJcmdOpen src pg idx s) :=
  h.command (fun _ ht => ht.inTurn (fun _ ht1 => ht1.readJob.jobOpen))
protected theorem Keeps.execJcmdClose {src pg idx} (h : Keeps a s) : Answers a (execJcmdClose src pg idx s) :=
  h.command (fun _ ht => ht.inTurn (fun _ ht1 => ht1.readJob.jobClose.retryPug))
theorem Keeps.jeWrite {j stg i w} (h : Keeps a s) : Keeps a (s.jeWrite j stg i w) := by
  have hr := h.readJob (j := j)
  have hx {c : Prop} [Decidable c] {v : W32} : Keeps a (if c then (s.readJob j).reserve v 29 2 2 else (s.readJob j, v)).1 := by
    split
    · exact hr.reserve
    · exact hr
  exact .ite (.ite hr.modJob (.ite hr.ctxUnd.modJob hr.modJob)) (.ite hr.modJob (.ite hr.jobErr hx.modJob))
protected theorem Keeps.execJeWrite {src pg i w} (h : Keeps a s) : Answers a (execJeWrite src pg i w s) :=
  h.command (fun _ ht => ht.inTurn (fun _ ht1 => ht1.jeWrite))
protected theorem Keeps.execRsumReceive {p} (h : Keeps a s) : Answers a (execRsumReceive p s) := h.command (fun _ ht => ht.pugPacket)
protected theorem Keeps.execRresReceive {p} (h : Keeps a s) : Answers a (execRresReceive p s) := h.command (fun _ ht => ht.pugPacket)
protected theorem Keeps.execResultDelivered {job tile} (h : Keeps a s) : Answers a (execResultDelivered job tile s) :=
  h.command (fun _ ht => ht.delivered)
protected theorem Keeps.execParticipantTimeout {job node tile} (h : Keeps a s) : Answers a (execParticipantTimeout job node tile s) :=
  h.command (fun _ ht => ht.participant)
protected theorem Keeps.execXgoEnable {src pg} (h : Keeps a s) : Answers a (execXgoEnable src pg s) :=
  h.command (fun _ ht => ht.inTurn (fun _ ht1 => ht1.readSwarm.swarmEnable))
protected theorem Keeps.execXgoDisable {src pg} (h : Keeps a s) : Answers a (execXgoDisable src pg s) :=
  h.command (fun _ ht => ht.inTurn (fun _ ht1 => ht1.readSwarm.swarmDisable))
protected theorem Keeps.execXgoSend {src pg count} (h : Keeps a s) : Answers a (execXgoSend src pg count s) :=
  h.command (fun _ ht => ht.inTurn (fun _ ht1 => ht1.swarmGo))
protected theorem Keeps.execXgoReturn {src pg} (h : Keeps a s) : Answers a (execXgoReturn src pg s) :=
  h.command (fun _ ht => ht.inTurn (fun _ ht1 => ht1.swarmGo))
theorem Keeps.xeWrite {e i w} (h : Keeps a s) : Keeps a (s.xeWrite e i w) := by
  have hr := h.readSwarm (e := e)
  have hx {c : Prop} [Decidable c] {v v' : W32} : Keeps a (if c then (s.readSwarm e).reserve v 0 16 4096 else (s.readSwarm e, v')).1 := by
    split
    · exact hr.reserve
    · exact hr
  exact .ite hr.swarmErr hx.modSwarm
protected theorem Keeps.execXeWrite {src pg i w} (h : Keeps a s) : Answers a (execXeWrite src pg i w s) :=
  h.command (fun _ ht => ht.inTurn (fun _ ht1 => ht1.xeWrite))
protected theorem Keeps.execXrowReceive {p} (h : Keeps a s) : Answers a (execXrowReceive p s) := h.command (fun _ ht => ht.pugPacket)
protected theorem Keeps.execXcntReceive {p} (h : Keeps a s) : Answers a (execXcntReceive p s) := h.command (fun _ ht => ht.pugPacket)
protected theorem Keeps.execXretReceive {p} (h : Keeps a s) : Answers a (execXretReceive p s) := h.command (fun _ ht => ht.pugPacket)

/-! ### LinkCmd -/

protected theorem Keeps.linkCmd {l} {f : State → State} (h : Keeps a s) (hf : ∀ t, Keeps a t → Keeps a (f t)) : Answers a (linkCmd l f s) :=
  h.command (fun _ ht => .ite (hf _ ht) ht)
protected theorem Keeps.execLinkEnable {src l} (h : Keeps a s) : Answers a (execLinkEnable src l s) :=
  h.command (fun _ ht => ht.inTurn (fun _ ht1 => .ite ht1.linkEnable ht1))
protected theorem Keeps.execLinkDisable {src l} (h : Keeps a s) : Answers a (execLinkDisable src l s) :=
  h.command (fun _ ht => ht.inTurn (fun _ ht1 => .ite ht1.linkDisable ht1))
protected theorem Keeps.execLinkRetrain {src l} (h : Keeps a s) : Answers a (execLinkRetrain src l s) :=
  h.command (fun _ ht => ht.inTurn (fun _ ht1 => .ite ht1.linkRetrain ht1))
protected theorem Keeps.execLinkAdmit {src l} (h : Keeps a s) : Answers a (execLinkAdmit src l s) :=
  h.command (fun _ ht => ht.inTurn (fun _ ht1 => .ite ht1.linkAdmit ht1))
protected theorem Keeps.execLinkLock {l} (h : Keeps a s) : Answers a (execLinkLock l s) := h.linkCmd (fun _ ht => ht.linkLock)
theorem Keeps.trainTimeout {l} (h : Keeps a s) : Keeps a (s.trainTimeout l) := .ite h.linkTo h
protected theorem Keeps.execTrainTimeout {l} (h : Keeps a s) : Answers a (execTrainTimeout l s) := h.linkCmd (fun _ ht => ht.trainTimeout)
theorem Keeps.downHoldEnd {l} (h : Keeps a s) : Keeps a (s.downHoldEnd l) := .ite h.startTrain h
protected theorem Keeps.execDownHoldEnd {l} (h : Keeps a s) : Answers a (execDownHoldEnd l s) := h.linkCmd (fun _ ht => ht.downHoldEnd)
protected theorem Keeps.execHelloReceive {l p} (h : Keeps a s) : Answers a (execHelloReceive l p s) :=
  h.linkCmd (fun _ ht => ht.consume.helloReceive)
protected theorem Keeps.execCertReceive {l p} (h : Keeps a s) : Answers a (execCertReceive l p s) :=
  h.linkCmd (fun _ ht => ht.consume.certReceive)
protected theorem Keeps.execRateReceive {l p} (h : Keeps a s) : Answers a (execRateReceive l p s) :=
  h.linkCmd (fun _ ht => ht.consume.rateReceive)
protected theorem Keeps.execRateOfferTimeout {l} (h : Keeps a s) : Answers a (execRateOfferTimeout l s) :=
  h.linkCmd (fun _ ht => ht.rateOfferTimeout)
protected theorem Keeps.execRateDrainEnd {l} (h : Keeps a s) : Answers a (execRateDrainEnd l s) := h.linkCmd (fun _ ht => ht.rateDrainEnd)
protected theorem Keeps.execDiscoveryRound {src} (h : Keeps a s) : Answers a (execDiscoveryRound src s) :=
  h.command (fun _ ht => ht.inTurn (fun _ ht1 => ht1.discovery))
protected theorem Keeps.execFlitReceive {l bytes fec} (h : Keeps a s) : Answers a (execFlitReceive l bytes fec s) :=
  h.linkCmd (fun _ ht => ht.flitReceive)
protected theorem Keeps.execIdleFlit {l} (h : Keeps a s) : Answers a (execIdleFlit l s) := h.linkCmd (fun _ ht => ht.idleFlit)
protected theorem Keeps.execWindowMiss {l} (h : Keeps a s) : Answers a (execWindowMiss l s) := h.linkCmd (fun _ ht => ht.windowMiss)

/-! ### Pyro -/

theorem Keeps.rebase {n} (h : Keeps a s) : Keeps a (s.rebase n) := h.modCore
theorem Keeps.pend {n i} (h : Keeps a s) : Keeps a (s.pend n i) := h.modCore
theorem Keeps.setStep {n k} (h : Keeps a s) : Keeps a (s.setStep n k) := .ite h h.rebase.modCore.pend
theorem Keeps.timed {n t1} (h : Keeps a s) : Keeps a (s.timed n t1).1 := by
  unfold State.timed
  split
  · exact h
  · exact h.free
theorem Keeps.closeTask {n} (h : Keeps a s) : Keeps a (s.closeTask n) := by
  unfold State.closeTask
  split
  · exact h
  · split
    · exact h
    · exact h.timed.modCore
theorem Keeps.closeEnded {n} (h : Keeps a s) : Keeps a (s.closeEnded n) := by
  have hl (l : List Task) (p : State × List Task) (hp : Keeps a p.1) : Keeps a (l.foldl (fun p t =>
      if t.elapsed.isSome then (p.1, p.2 ++ [t]) else ((p.1.timed n t).1, p.2 ++ [(p.1.timed n t).2])) p).1 := by
    induction l generalizing p with
    | nil => exact hp
    | cons t l ih =>
      refine ih _ ?_
      beta_reduce
      split
      · exact hp
      · exact hp.timed
  exact .ite h (hl _ _ h).modCore
theorem Keeps.settleCore {n} (h : Keeps a s) : Keeps a (s.settleCore n) := .ite h.closeTask.closeEnded.gate h.closeTask.closeEnded
theorem Keeps.settle (h : Keeps a s) : Keeps a s.settle := h.foldl (fun _ _ ht => ht.settleCore)
theorem Keeps.clocks {t1 high} (h : Keeps a s) : Keeps a (s.clocks t1 high) :=
  .ite (h.foldl (fun _ _ ht => ht.setStep)) (.ite h (h.foldl (fun _ _ ht => .ite ht (ht.foldl (fun _ _ ht1 => ht1.rebase.pend)))))
theorem Keeps.takeBudget {d e} (h : Keeps a s) : Keeps a (s.takeBudget d e) := by
  unfold State.takeBudget
  split
  · exact h
  · split
    · exact .foldl h (fun _ _ ht2 => ht2.pend)
    · exact h
theorem Keeps.showReadings {t1 cap other avg} (h : Keeps a s) : Keeps a (s.showReadings t1 cap other avg) :=
  .foldl (h.setReg.setFldReg.setReg.foldl (fun _ _ ht => ht.setReg.setReg)) (fun _ _ ht => ht.modCore)
theorem Keeps.overCapped {v} (h : Keeps a s) : Keeps a { s with overCap := v } := h
theorem Keeps.pyroClose {t1} (h : Keeps a s) : Keeps a (s.pyroClose t1) := by
  unfold State.pyroClose
  extract_lets cap sum other high gap s1 buds total s2 hist pd s3
  have h1 : Keeps a s1 := h.clocks
  have h2 : Keeps a s2 := h1.foldl fun _ _ ht => ht.takeBudget
  clear_value hist pd s2
  have h3 : Keeps a s3 := h2
  clear_value s3
  exact h3.withIrq fun _ ht => .overCapped ht.showReadings
protected theorem Keeps.execPyroInterval {t1} (h : Keeps a s) : Answers a (execPyroInterval t1 s) :=
  h.command (fun _ ht => ht.settle.pyroClose)
theorem Keeps.dvfsWrite {w} (h : Keeps a s) : Keeps a (s.dvfsWrite w) := .ite h.err h.setReg
protected theorem Keeps.execDvfsWrite {src w} (h : Keeps a s) : Answers a (execDvfsWrite src w s) :=
  h.command (fun _ ht => ht.inTurn (fun _ ht1 => ht1.dvfsWrite))

/-! ### Scarab -/

theorem Keeps.modQueue {q f} (h : Keeps a s) : Keeps a (s.modQueue q f) := h
theorem Keeps.readQueue {q} (h : Keeps a s) : Keeps a (s.readQueue q) := .ite h.findsAt.modQueue h.findsAt
theorem Keeps.readQueues (h : Keeps a s) : Keeps a s.readQueues := h.foldl (fun _ _ ht => ht.readQueue)
theorem Keeps.queueDoorbell {w} (h : Keeps a s) : Keeps a (s.queueDoorbell w) := .ite h h.readQueue.modQueue
theorem Keeps.coreDoorbell {w} (h : Keeps a s) : Keeps a (s.coreDoorbell w) := .ite h.pend h
protected theorem Keeps.execQueueDoorbell {src w} (h : Keeps a s) : Answers a (execQueueDoorbell src w s) :=
  h.command (fun _ ht => ht.inTurn (fun _ ht1 => ht1.queueDoorbell))
protected theorem Keeps.execCoreDoorbell {src w} (h : Keeps a s) : Answers a (execCoreDoorbell src w s) :=
  h.command (fun _ ht => ht.inTurn (fun _ ht1 => ht1.coreDoorbell))
theorem Keeps.queueEnable {q} (h : Keeps a s) : Keeps a (s.queueEnable q) := h.readQueue.modQueue
theorem Keeps.queueDisable {q} (h : Keeps a s) : Keeps a (s.queueDisable q) := h.readQueue.modQueue
protected theorem Keeps.execQueueEnable {src q} (h : Keeps a s) : Answers a (execQueueEnable src q s) :=
  h.command (fun _ ht => ht.inTurn (fun _ ht1 => ht1.queueEnable))
protected theorem Keeps.execQueueDisable {src q} (h : Keeps a s) : Answers a (execQueueDisable src q s) :=
  h.command (fun _ ht => ht.inTurn (fun _ ht1 => ht1.queueDisable))
theorem Keeps.qeWrite {i w} (h : Keeps a s) : Keeps a (s.qeWrite i w) := by
  unfold State.qeWrite
  split
  · split
    · dsimp only
      split
      · exact h.readQueue.err
      · exact h.readQueue.reserve.modQueue
    · dsimp only
      split
      · exact h.readQueue.err
      · exact h.readQueue.reserve.modQueue
  · split
    · dsimp only
      split
      · exact h.readQueue.err
      · exact h.readQueue.modQueue
    · split
      · dsimp only
        split
        · exact h.readQueue.err
        · exact h.readQueue.modQueue
      · dsimp only
        split
        · exact h.readQueue.err
        · exact h.readQueue.modQueue
protected theorem Keeps.execQeWrite {src i w} (h : Keeps a s) : Answers a (execQeWrite src i w s) :=
  h.command (fun _ ht => ht.inTurn (fun _ ht1 => ht1.qeWrite))
theorem Keeps.preempt {w} (h : Keeps a s) : Keeps a (s.preempt w) := .ite h.pend h
protected theorem Keeps.execPreempt {src w} (h : Keeps a s) : Answers a (execPreempt src w s) :=
  h.command (fun _ ht => ht.inTurn (fun _ ht1 => ht1.preempt))
theorem Keeps.refuseDesc {q code} (h : Keeps a s) : Keeps a (s.refuseDesc q code) := .err (.ite h.modQueue h)
theorem Keeps.holdLine {l} (h : Keeps a s) : Keeps a (s.holdLine l) := h
theorem Keeps.descriptorRead {q host} (h : Keeps a s) : Keeps a (s.descriptorRead q host) := by
  unfold State.descriptorRead
  dsimp only
  split
  · exact h.readQueue
  · split
    · split
      · exact h.readQueue.refuseDesc
      · split
        · exact h.readQueue.holdLine.refuseDesc
        · exact h.readQueue.holdLine.modQueue
    · split
      · exact h.readQueue.refuseDesc
      · split
        · exact h.readQueue.biAsk
        · split
          · exact h.readQueue.touchAll.refuseDesc
          · exact h.readQueue.touchAll.modQueue
protected theorem Keeps.execDescriptorRead {q host} (h : Keeps a s) : Answers a (execDescriptorRead q host s) :=
  h.command (fun _ ht => ht.descriptorRead)
theorem Keeps.copyMailbox {n off ws} (h : Keeps a s) : Keeps a (s.copyMailbox n off ws) := h.writeMarked
theorem Keeps.dispatchTo {q n} (h : Keeps a s) : Keeps a (s.dispatchTo q n) := by
  unfold State.dispatchTo
  extract_lets e
  split
  · exact h
  · exact h.copyMailbox.modQueue.addSum.clearTask.modCore (by simp)
protected theorem Keeps.dispatchPass {l} (h : Keeps a s) : Keeps a (dispatchPass l s) := by
  induction l generalizing s with
  | nil => exact h
  | cons d r ih =>
    have hr (v : Store Nat) : Keeps a { s with res := v } := h
    unfold dispatchPass
    split
    · next q clr _ =>
      extract_lets s1
      have h1 : Keeps a s1 := .ite h h
      clear_value s1
      split
      · exact h1.dispatchTo
      · exact h1
    · exact ih (hr _)
    · exact ih (hr _)
    · exact ih h
protected theorem Keeps.execDispatch (h : Keeps a s) : Answers a (execDispatch s) :=
  h.command (fun _ ht => ht.settle.readQueues.dispatchPass)
theorem Keeps.writeRecord {n t1 e elapsed} (h : Keeps a s) : Keeps a (s.writeRecord n t1 e elapsed) :=
  .ite (.semSignal (.ite h h.writeRun.writeRun)) (.ite h h.writeRun.writeRun)
theorem Keeps.recordTask {n t1 e el} (h : Keeps a s) : Keeps a (s.recordTask n t1 e el) :=
  .ite h (.ite h.biAsk (.readQueue (.ite (h.writeRecord.modCore (by simp)) ((h.writeRecord.modCore (by simp)).addSum))))
theorem Keeps.completionRecord {n} (h : Keeps a s) : Keeps a (s.completionRecord n) := by
  unfold State.completionRecord
  dsimp only
  split
  · split
    · exact h.settleCore.recordTask
    · exact h.settleCore
  · exact h.settleCore
protected theorem Keeps.execCompletionRecord {n} (h : Keeps a s) : Answers a (execCompletionRecord n s) :=
  h.command (fun _ ht => ht.completionRecord)
theorem Keeps.scarabReset (h : Keeps a s) : Keeps a s.scarabReset := .foldl h (fun _ _ ht => ht.modQueue)

/-! ### Fabric -/

theorem Keeps.packetRoute {src p} (h : Keeps a s) : Keeps a (s.packetRoute src p) :=
  .ite h (.ite h.keep (.ite h.keep (.ite h.keep h.consume.route)))
protected theorem Keeps.execPacketRoute {src p} (h : Keeps a s) : Answers a (execPacketRoute src p s) :=
  h.command (fun _ ht => ht.packetRoute)
theorem Keeps.forward {src p} (h : Keeps a s) : Keeps a (s.forward src p) := .ite h (.ite (.ite h h) h.mcForward)
protected theorem Keeps.execMulticastForward {src p} (h : Keeps a s) : Answers a (execMulticastForward src p s) :=
  h.command (fun _ ht => ht.forward)
theorem Keeps.answerBad {p c} (h : Keeps a s) : Keeps a (s.answerBad p c) := h.jobFault.originate
theorem Keeps.rdRequest {p} (h : Keeps a s) : Keeps a (s.rdRequest p) := by
  have hr := h.jobRead (a1 := p.addr) (n := reqWords p) (sup := Packet.sup p)
  unfold State.rdRequest
  generalize s.jobRead p.addr (reqWords p) (Packet.sup p) = o at hr ⊢
  cases o with
  | wait t => exact Keeps.keep hr
  | bad t c _ => exact (Keeps.consume hr).answerBad
  | ok t ws => exact (Keeps.consume hr).originate
protected theorem Keeps.execRdRequest {p} (h : Keeps a s) : Answers a (execRdRequest p s) := h.command (fun _ ht => ht.rdRequest)
theorem Keeps.wrRequest {p} (h : Keeps a s) : Keeps a (s.wrRequest p) := by
  unfold State.wrRequest
  extract_lets ws
  have hr := h.jobWrite (sup := Packet.sup p) (ws := ws)
  generalize s.jobWrite (Packet.sup p) ws = o at hr ⊢
  cases o with
  | wait t => exact Keeps.keep hr
  | bad t c _ => exact (Keeps.consume hr).answerBad
  | ok t ws => exact (Keeps.consume hr).originate
protected theorem Keeps.execWrRequest {p} (h : Keeps a s) : Answers a (execWrRequest p s) := h.command (fun _ ht => ht.wrRequest)
theorem Keeps.dbPacket {p} (h : Keeps a s) : Keeps a (s.dbPacket p) := .originate (.ite h.consume.coreDoorbell h.consume.queueDoorbell)
protected theorem Keeps.execDbPacket {p} (h : Keeps a s) : Answers a (execDbPacket p s) := h.command (fun _ ht => ht.dbPacket)
theorem Keeps.fabricAnswer {p} (h : Keeps a s) : Keeps a (s.fabricAnswer p) := h.consume.completeReq.sendWaiting
protected theorem Keeps.execFabricAnswer {p} (h : Keeps a s) : Answers a (execFabricAnswer p s) := h.command (fun _ ht => ht.fabricAnswer)
protected theorem Keeps.execRequestTimeout {tag} (h : Keeps a s) : Answers a (execRequestTimeout tag s) :=
  h.command (fun _ ht => ht.timeOut)
theorem Keeps.remoteDoorbell {n w} (h : Keeps a s) : Keeps a (s.remoteDoorbell n w) := h.postReq
protected theorem Keeps.execRemoteDoorbellStore {src n w} (h : Keeps a s) : Answers a (execRemoteDoorbellStore src n w s) :=
  h.command (fun _ ht => ht.inTurn (fun _ ht1 => .ite ht1.remoteDoorbell ht1))

/-! ### Ras -/

theorem Keeps.setFlash {b m} (h : Keeps a s) : Keeps a (s.setFlash b m) := .ite h h
theorem Keeps.program {b i bs} (h : Keeps a s) : Keeps a (s.program b i bs) := h.setFlash
theorem Keeps.logClear (h : Keeps a s) : Keeps a s.logClear := h.withIrq (fun _ ht => ht)
protected theorem Keeps.execLogClr {src} (h : Keeps a s) : Answers a (execLogClr src s) :=
  h.command (fun _ ht => ht.inTurn (fun _ ht1 => ht1.logClear))
theorem Keeps.scrubOne {clear c} (h : Keeps a s) : Keeps a (s.scrubOne clear c) := by
  unfold State.scrubOne
  extract_lets before ce s1 s2 s3 s4
  have hs1 : Keeps a s1 := h.touch.countReg
  have hs2 : Keeps a s2 := .ite hs1.countReg hs1
  have hs3 : Keeps a s3 := hs2.countReg
  have hs4 : Keeps a s4 := .ite hs3 hs3.setReg.setReg
  split
  · exact hs2
  · split
    · exact hs4.writeRun.countReg
    · exact hs4
theorem Keeps.scrubComplete (h : Keeps a s) : Keeps a s.scrubComplete := by
  unfold State.scrubComplete
  split
  · exact h
  · split
    · exact h.biAsk
    · dsimp only
      split
      · exact .semSignal (.withIrq (h.foldl (fun _ _ ht3 => ht3.scrubOne)) (fun _ ht3 => ht3))
      · exact .withIrq (h.foldl (fun _ _ ht3 => ht3.scrubOne)) (fun _ ht3 => ht3)
theorem Keeps.scrubGo {w} (h : Keeps a s) : Keeps a (s.scrubGo w) := by
  unfold State.scrubGo
  extract_lets s1 base cnt s2 s3
  have hs1 : Keeps a s1 := h.setReg
  have hs2 : Keeps a s2 := hs1.foldl (fun _ _ ht => ht.setReg)
  have hs3 : Keeps a s3 := hs2.withIrq (fun _ ht => ht)
  split
  · exact h.err
  · split
    · exact hs1.err
    · split
      · exact hs3.scrubComplete
      · exact hs3
protected theorem Keeps.execScrubGo {src w} (h : Keeps a s) : Answers a (execScrubGo src w s) :=
  h.command (fun _ ht => ht.inTurn (fun _ ht1 => ht1.scrubGo))
protected theorem Keeps.execScrubComplete (h : Keeps a s) : Answers a (execScrubComplete s) := h.command (fun _ ht => ht.scrubComplete)
theorem Keeps.rpStatus {k} (h : Keeps a s) : Keeps a (s.rpStatus k) := h.setFldReg.setFldReg
theorem Keeps.rpStart {x} (h : Keeps a s) : Keeps a (s.rpStart x) := h
theorem Keeps.rowsTaken {r w} (h : Keeps a s) : Keeps a { s with fieldRows := r, rowWait := w } := h
theorem Keeps.rowGo (h : Keeps a s) : Keeps a s.rowGo := by
  unfold State.rowGo
  split
  · exact h
  · next b _ =>
    generalize rowWords b = l
    exact .ite h.biAsk (.rowsTaken h.touchAll)
theorem Keeps.rowAsked {w} (h : Keeps a s) : Keeps a { s with rowWait := w } := h
theorem Keeps.rpRow (h : Keeps a s) : Keeps a s.rpRow := by
  refine .ite h.err (.ite h.rpStatus ?_)
  rcases stackedMap s s.rpa with ⟨st, ch, b, _⟩
  exact .ite h.rpStatus (.rowGo (.rowAsked h.rpStart))
protected theorem Keeps.execRpRow {src} (h : Keeps a s) : Answers a (execRpRow src s) :=
  h.command (fun _ ht => ht.inTurn (fun _ ht1 => ht1.rpRow))
theorem Keeps.rpAcol {w} (h : Keeps a s) : Keeps a (s.rpAcol w) := .ite h.err (.ite h.rpStatus h.rpStart)
protected theorem Keeps.execRpAcol {src w} (h : Keeps a s) : Answers a (execRpAcol src w s) :=
  h.command (fun _ ht => ht.inTurn (fun _ ht1 => ht1.rpAcol))
theorem Keeps.logRepair {x} (h : Keeps a s) : Keeps a (s.logRepair x) := h.program.program
theorem Keeps.rpComplete (h : Keeps a s) : Keeps a s.rpComplete := by
  unfold State.rpComplete
  split
  · exact h
  · split
    · exact h
    · split
      · exact .rpStatus h
      · split
        · exact .rpStatus h
        · exact .rpStatus (.logRepair h)
protected theorem Keeps.execRpcmdComplete (h : Keeps a s) : Answers a (execRpcmdComplete s) := h.command (fun _ ht => .ite ht ht.rpComplete)
protected theorem Keeps.execJtagBypass (h : Keeps a s) : Answers a (execJtagBypass s) := h.command (fun _ ht => ht)
protected theorem Keeps.execJtagIdcode (h : Keeps a s) : Answers a (execJtagIdcode s) := h.command (fun _ ht => ht)
theorem Keeps.tapSample {i} (h : Keeps a s) : Keeps a (s.tapSample i) := h.free
protected theorem Keeps.execJtagSamplePreload (h : Keeps a s) : Answers a (execJtagSamplePreload s) := h.command (fun _ ht => ht.tapSample)
protected theorem Keeps.execJtagExtest (h : Keeps a s) : Answers a (execJtagExtest s) := h.command (fun _ ht => .ite ht.tapSample ht)

/-! ### Firefly -/

theorem Keeps.setSlotState {b v} (h : Keeps a s) : Keeps a (s.setSlotState b v) := h.program
theorem Keeps.useTry {b} (h : Keeps a s) : Keeps a (s.useTry b) := h.program
theorem Keeps.uartLine {k} (h : Keeps a s) : Keeps a (s.uartLine k) := h
theorem Keeps.setStage {n} (h : Keeps a s) : Keeps a (s.setStage n) :=
  .ite (.ite (.ite h h.setFldReg) (.ite h h.setFldReg)) (.discovery (.ite (.ite h h.setFldReg) (.ite h h.setFldReg)))
theorem Keeps.convertSettings (h : Keeps a s) : Keeps a s.convertSettings := .ite h h
theorem Keeps.imageAccepted {src slot h1} (h : Keeps a s) : Keeps a (s.imageAccepted src slot h1) :=
  .setStage (.uartLine (.convertSettings h))
theorem Keeps.setBox {c b} (h : Keeps a s) : Keeps a (s.setBox c b) := by
  unfold State.setBox
  split
  · exact h.withIrq (fun _ ht1 => ht1)
  · exact h
theorem Keeps.reply {c r} (h : Keeps a s) : Keeps a (s.reply c r) := by
  unfold State.reply
  exact .setBox (by
    split
    · exact h
    · split
      · exact h
      · exact h)
theorem Keeps.iteFst {α : Type} {c : Prop} [Decidable c] {x y : State × α} (hx : Keeps a x.1) (hy : Keeps a y.1) :
    Keeps a (if c then x else y).1 := by
  split
  · exact hx
  · exact hy
theorem Keeps.partOf {c part d} (h : Keeps a s) : Keeps a (s.partOf c part d).1 :=
  .iteFst h (.iteFst h (h.freeFld (len := 8)))
theorem Keeps.stagingRead (h : Keeps a s) : Keeps a s.stagingRead := by
  unfold State.stagingRead
  exact .ite h.touchAll.touchAll h.touchAll
theorem Keeps.mbLoad (h : Keeps a s) : Keeps a s.mbLoad.1 := by
  have hu : Keeps a s.stagingRead := h.stagingRead
  rw [State.mbLoad]
  generalize s.stagingRead = u at hu ⊢
  rcases u.stagingStatus with ⟨k, hdr⟩
  exact .iteFst hu.imageAccepted hu.err
theorem Keeps.eraseHdr {b} (h : Keeps a s) : Keeps a (s.eraseHdr b) := h.program
theorem Keeps.dropSession (h : Keeps a s) : Keeps a s.dropSession := h
theorem Keeps.updBegin {c p} (h : Keeps a s) : Keeps a (s.updBegin c p).1 := by
  unfold State.updBegin
  split
  · exact h
  · split
    · exact h
    · split
      · rename_i e23
        dsimp only
        split
        · exact h
        · split
          · exact h.freeFld.fst_of e23
          · exact h.eraseHdr
theorem Keeps.programBlock {b k blk} (h : Keeps a s) : Keeps a (s.programBlock b k blk) := .ite h h.program
protected theorem Keeps.deltaRun {n k} (h : Keeps a s) : Keeps a (deltaRun n s k).1 := by
  induction n generalizing s k with
  | zero => exact h
  | succ n ih =>
    unfold deltaRun
    refine .iteFst (.iteFst h (.iteFst h (ih h))) (.iteFst h (.iteFst h ?_))
    dsimp only
    split
    · exact h.freeFld (len := 8)
    · exact .iteFst h (ih h.programBlock)
theorem Keeps.deltaRead {p} (h : Keeps a s) : Keeps a (s.deltaRead p) := h.touchAll
theorem Keeps.sessionPut {v} (h : Keeps a s) : Keeps a { s with session := v } := h
theorem Keeps.updData {c p} (h : Keeps a s) : Keeps a (s.updData c p).1 := by
  unfold State.updData
  split
  · exact h
  · refine .iteFst h (.iteFst h (.iteFst h ?_))
    dsimp only
    split
    · exact h.deltaRead
    · exact .ite (.uartLine (.sessionPut h.deltaRead.deltaRun)) (.sessionPut h.deltaRead.deltaRun)
theorem Keeps.updEnd {c} (h : Keeps a s) : Keeps a (s.updEnd c).1 := by
  unfold State.updEnd
  split
  · exact h
  · split
    · exact h
    · split
      · exact h
      · split
        · exact h
        · dsimp only
          split
          · exact h.dropSession
          · split
            · exact h.dropSession
            · exact h.dropSession.program.uartLine
theorem Keeps.updAbort {c} (h : Keeps a s) : Keeps a (s.updAbort c).1 := by
  unfold State.updAbort
  split
  · exact h
  · split
    · exact h
    · exact h.dropSession
theorem Keeps.activate {c} (h : Keeps a s) : Keeps a (s.activate c).1 := by
  unfold State.activate
  split
  · exact h
  · split
    · exact h
    · split
      · exact h
      · dsimp only
        split
        · exact h.uartLine.setSlotState
        · exact h.uartLine.useTry
theorem Keeps.confirm (h : Keeps a s) : Keeps a s.confirm.1 := by
  unfold State.confirm
  split
  · exact h
  · split
    · exact h
    · split
      · exact h
      · dsimp only
        split
        · exact h.setSlotState.uartLine.setSlotState
        · exact h.setSlotState.uartLine
theorem Keeps.putSetting {key value f} (h : Keeps a s) : Keeps a (s.putSetting key value f) := h
theorem Keeps.setPut {p} (h : Keeps a s) : Keeps a (s.setPut p).1 := by
  unfold State.setPut
  split
  · dsimp only
    split
    · exact h
    · exact h
  · dsimp only
    split
    · exact h
    · exact h.uartLine.foldl (fun _ _ ht2 => ht2.putSetting)
theorem Keeps.answered {α : Type} {r : State × α} (h : Keeps a r.1) : Keeps a (r.1, some r.2).1 := h
theorem Keeps.perform {c op p} (h : Keeps a s) : Keeps a (s.perform c op p).1 := by
  rw [State.perform]
  refine .iteFst h <| .iteFst h <| .iteFst h <| .iteFst h <| .iteFst h <| .iteFst (.answered h.partOf) <| .iteFst (.answered h.partOf) <|
    .iteFst h <| .iteFst (.answered h.mbLoad) <| .iteFst (.answered h.updBegin) <| .iteFst ?_ <| .iteFst (.answered h.updEnd) <|
    .iteFst (.answered h.updAbort) <| .iteFst h.activate <| .iteFst (.answered h.confirm) <| .iteFst h (.answered h.setPut)
  exact .iteFst h.biAsk.setBox (.answered h.updData)

/-! ### Comb -/

theorem Keeps.serve {c op p} (h : Keeps a s) : Keeps a (s.serve c op p) := by
  have hp := (h.setBox (c := c) (b := { s.box c with busy := true, req := none })).perform (c := c) (op := op) (p := p)
  unfold State.serve
  dsimp only
  generalize (s.setBox c { s.box c with busy := true, req := none }).perform c op p = r at hp ⊢
  rcases r with ⟨t, _ | r⟩
  · exact hp
  · exact Keeps.reply hp

/-! ### Firefly -/

theorem Keeps.mailbox {c op p} (h : Keeps a s) : Keeps a (s.mailbox c op p) := by
  unfold State.mailbox
  split
  · split
    · exact h.err
    · exact h
  · split
    · split
      · exact h.setBox
      · exact h
    · exact h.serve
protected theorem Keeps.mailboxCmd {c op p} (h : Keeps a s) : Answers a (mailboxCmd c op p s) := h.command (fun _ ht => ht.mailbox)
theorem Keeps.retryBox {c} (h : Keeps a s) : Keeps a (s.retryBox c) := by
  unfold State.retryBox
  split
  · exact h
  · split
    · exact h.serve
    · exact h
theorem Keeps.flyRestart (h : Keeps a s) : Keeps a s.flyRestart := .ite (.reply (.ite (.reply h) h)) (.ite (.reply h) h)
theorem Keeps.flyBack (h : Keeps a s) : Keeps a s.flyBack := .ite h (Keeps.retryBox (s := { s with flyDown := false }) h)
theorem Keeps.activationRestart (h : Keeps a s) : Keeps a s.activationRestart := by
  unfold State.activationRestart
  split
  · exact h
  · exact .flyBack (.reply (.convertSettings h))

/-! ### Mailbox -/

protected theorem Keeps.execGetSvc {ch payload} (h : Keeps a s) : Answers a (execGetSvc ch payload s) := h.mailboxCmd
protected theorem Keeps.execGetId {ch payload} (h : Keeps a s) : Answers a (execGetId ch payload s) := h.mailboxCmd
protected theorem Keeps.execGetCert {ch payload} (h : Keeps a s) : Answers a (execGetCert ch payload s) := h.mailboxCmd
protected theorem Keeps.execQuote {ch payload} (h : Keeps a s) : Answers a (execQuote ch payload s) := h.mailboxCmd
protected theorem Keeps.execSlotInfo {ch payload} (h : Keeps a s) : Answers a (execSlotInfo ch payload s) := h.mailboxCmd
protected theorem Keeps.execLoad {ch payload} (h : Keeps a s) : Answers a (execLoad ch payload s) := h.mailboxCmd
protected theorem Keeps.execUpdBegin {ch payload} (h : Keeps a s) : Answers a (execUpdBegin ch payload s) := h.mailboxCmd
protected theorem Keeps.execUpdData {ch payload} (h : Keeps a s) : Answers a (execUpdData ch payload s) := h.mailboxCmd
protected theorem Keeps.execUpdEnd {ch payload} (h : Keeps a s) : Answers a (execUpdEnd ch payload s) := h.mailboxCmd
protected theorem Keeps.execUpdAbort {ch payload} (h : Keeps a s) : Answers a (execUpdAbort ch payload s) := h.mailboxCmd
protected theorem Keeps.execActivate {ch payload} (h : Keeps a s) : Answers a (execActivate ch payload s) := h.mailboxCmd
protected theorem Keeps.execActivationRestart (h : Keeps a s) : Answers a (execActivationRestart s) :=
  h.command (fun _ ht => ht.activationRestart)
protected theorem Keeps.execConfirm {ch payload} (h : Keeps a s) : Answers a (execConfirm ch payload s) := h.mailboxCmd
protected theorem Keeps.execSetGet {ch payload} (h : Keeps a s) : Answers a (execSetGet ch payload s) := h.mailboxCmd
protected theorem Keeps.execSetPut {ch payload} (h : Keeps a s) : Answers a (execSetPut ch payload s) := h.mailboxCmd
protected theorem Keeps.execFireflyRestartEnd (h : Keeps a s) : Answers a (execFireflyRestartEnd s) := h.command (fun _ ht => ht.flyBack)

/-! ### Control -/

theorem Keeps.abandon {n} (h : Keeps a s) : Keeps a (s.abandon n) := h.withdraw.modCore (by intro c; split <;> simp)
theorem Keeps.haltCore {n} (h : Keeps a s) : Keeps a (s.haltCore n) := h.abandon.setFldReg.modCore (by intro c; split <;> simp)
protected theorem Keeps.execCoreHalt {src n} (h : Keeps a s) : Answers a (execCoreHalt src n s) :=
  h.command (fun _ ht => ht.inTurn (fun _ ht1 => .ite ht1.haltCore ht1))
theorem Keeps.resumeCore {n} (h : Keeps a s) : Keeps a (s.resumeCore n) :=
  .ite h.setFldReg (h.setFldReg.modCore (by intro c; split <;> simp))
protected theorem Keeps.execCoreResume {src n} (h : Keeps a s) : Answers a (execCoreResume src n s) :=
  h.command (fun _ ht => ht.inTurn (fun _ ht1 => .ite ht1.resumeCore ht1))
theorem Keeps.ownersPut {r u} (h : Keeps a s) : Keeps a { s with requests := r, unsent := u } := h
theorem Keeps.resetCore {n} (h : Keeps a s) : Keeps a (s.resetCore n) := by
  have hu : Keeps a (s.settleCore n) := h.settleCore
  have h1 : Keeps a (match ((s.settleCore n).core n).task with
      | some t => if ((s.settleCore n).core n).gheld then s.settleCore n else (s.settleCore n).addSum (3 * (n / 48) + 1) t.cone
      | none => s.settleCore n) := by
    split
    · exact .ite hu hu.addSum
    · exact hu
  exact .setFldReg (.setReg (.setReg (.withIrq
    (.setCore (.clearTask (.ownersPut (.withdraw h1.modCore))) fun hp => nomatch hp) fun _ ht => ht.setReg)))
theorem Keeps.coreResetWrite {n w} (h : Keeps a s) : Keeps a (s.coreResetWrite n w) := .ite h.resetCore h
protected theorem Keeps.execCoreReset {src n w} (h : Keeps a s) : Answers a (execCoreReset src n w s) :=
  h.command (fun _ ht => ht.inTurn (fun _ ht1 => .ite ht1.coreResetWrite ht1))
theorem Keeps.coreResetEnd {n} (h : Keeps a s) : Keeps a (s.coreResetEnd n) := .ite h.modCore.setFldReg h
protected theorem Keeps.execCoreResetEnd {n} (h : Keeps a s) : Answers a (execCoreResetEnd n s) :=
  h.command (fun _ ht => .ite ht.coreResetEnd ht)
theorem Keeps.swi {n w} (h : Keeps a s) : Keeps a (s.swi n w) := .ite h.pend h
protected theorem Keeps.execCoreSwi {src n w} (h : Keeps a s) : Answers a (execCoreSwi src n w s) :=
  h.command (fun _ ht => ht.inTurn (fun _ ht1 => .ite ht1.swi ht1))
theorem Keeps.resolvingPut {v} (h : Keeps a s) : Keeps a { s with resolving := v } := h
theorem Keeps.combReset (h : Keeps a s) : Keeps a s.combReset := by
  have h1 : Keeps a ((s.sems.map (·.1)).foldl (fun (s : State) k => s.setSem k { Sem.reset with mark := (s.sem k).mark }) s) :=
    h.foldl fun _ _ ht => ht.setSem
  exact .resolvingPut (.over (h1.foldl fun _ _ ht => ht.setCtx.setFldReg.setFldReg.setFldReg))
theorem Keeps.pugmillReset (h : Keeps a s) : Keeps a s.pugmillReset :=
  .foldl (h.foldl (fun _ _ ht => ht.jobClose)) (fun _ _ ht => ht.swarmDisable)
theorem Keeps.resetTaken {v w} (h : Keeps a s) : Keeps a { s with heldReset := v, jtlb := w } := h
theorem Keeps.computeReset (h : Keeps a s) : Keeps a s.computeReset := by
  have h1 : Keeps a ((List.range 192).foldl (fun (s : State) n => (s.resetCore n).modCore n (fun c => { c with ended := [] })) s) :=
    h.foldl fun _ _ ht => ht.resetCore.modCore
  exact .resetTaken h1.scarabReset.combReset.pugmillReset.setFldReg.setFldReg
theorem Keeps.heldTake (h : Keeps a s) : Keeps a s.heldTake := .ite h.computeReset h
theorem Keeps.stopWriter {src} (h : Keeps a s) : Keeps a (s.stopWriter src) := by
  unfold State.stopWriter
  split
  · exact h.modCore
  · exact h
theorem Keeps.globalReset {src w} (h : Keeps a s) : Keeps a (s.globalReset src w) := by
  unfold State.globalReset
  extract_lets __src s1
  have h__src : Keeps a __src := h.stopWriter
  have hs1 : Keeps a s1 := .ite h (.ite h.computeReset h__src)
  split
  · exact h
  · split
    · exact hs1
    · split
      · exact hs1.flyRestart
      · exact hs1.err
protected theorem Keeps.execComputeReset {src w} (h : Keeps a s) : Answers a (execComputeReset src w s) :=
  h.command (fun _ ht => ht.inTurn (fun _ ht1 => ht1.globalReset))
protected theorem Keeps.execFireflyRestart {src w} (h : Keeps a s) : Answers a (execFireflyRestart src w s) :=
  h.command (fun _ ht => ht.inTurn (fun _ ht1 => ht1.globalReset))

/-! ### Image -/

theorem Keeps.imgqReceive {l p} (h : Keeps a s) : Keeps a (s.imgqReceive l p) := by
  unfold State.imgqReceive
  split
  · exact h.keep
  · dsimp only
    split
    · split
      · exact h.consume.foldl (fun _ _ ht3 => ht3.sendLocal)
      · exact h.consume
    · exact h.consume
protected theorem Keeps.execImgqReceive {l p} (h : Keeps a s) : Answers a (execImgqReceive l p s) :=
  h.command (fun _ ht => .ite ht.imgqReceive ht)
theorem Keeps.imgGot {v w} (h : Keeps a s) : Keeps a { s with imgLink := v, imgTried := w } := h
theorem Keeps.imgdReceive {l p} (h : Keeps a s) : Keeps a (s.imgdReceive l p) := by
  refine .ite h.consume (.ite h.consume.writeRun ?_)
  extract_lets u
  have hu : Keeps a u := h.consume.writeRun.stagingRead
  clear_value u
  rcases u.stagingStatus with ⟨k, hdr⟩
  exact .ite (.imageAccepted (.imgGot hu)) hu.err.imgFail
protected theorem Keeps.execImgdReceive {l p} (h : Keeps a s) : Answers a (execImgdReceive l p s) := h.command (fun _ ht => ht.imgdReceive)
protected theorem Keeps.execImageTransferTimeout (h : Keeps a s) : Answers a (execImageTransferTimeout s) :=
  h.command (fun _ ht => ht.imgFail)
theorem Keeps.imgRetry (h : Keeps a s) : Keeps a s.imgRetry := .ite h (.imgStart h)
protected theorem Keeps.execImageRetry (h : Keeps a s) : Answers a (execImageRetry s) := h.command (fun _ ht => ht.imgRetry)

/-! ### Link -/

theorem Keeps.lost {p} (_ : Keeps a s) : Keeps a (s.lost p) := ⟨fun _ => rfl, fun _ => rfl, fun _ hp => nomatch hp⟩

/-! ### Bringup -/

protected theorem Keeps.execPowerOn (h : Keeps a s) : Answers a (execPowerOn s) := .next (.ite h.lost h)
protected theorem Keeps.execPowerRemoval (h : Keeps a s) : Answers a (execPowerRemoval s) := .next h.lost
theorem Keeps.coldReset (h : Keeps a s) : Keeps a s.coldReset := .ite h (.ite (.lost h) (.lost h))
protected theorem Keeps.execColdReset (h : Keeps a s) : Answers a (execColdReset s) := .next h.coldReset
protected theorem Keeps.execBrownOut (h : Keeps a s) : Answers a (execBrownOut s) := .next (.ite h h.lost)
theorem Keeps.sampleStraps {straps} (h : Keeps a s) : Keeps a (s.sampleStraps straps) :=
  .foldl (.loadChip (.setFldReg (.setReg (.setReg h)))) (fun _ _ ht => ht.linkStart)
theorem Keeps.leaveReset {straps} (h : Keeps a s) : Keeps a (s.leaveReset straps) :=
  .ite (.sampleStraps h) (.ite (.sampleStraps (.lost h)) h)
protected theorem Keeps.execStrapSample {straps} (h : Keeps a s) : Answers a (execStrapSample straps s) := .next h.leaveReset
protected theorem Keeps.execInternalResetWaitEnd {straps} (h : Keeps a s) : Answers a (execInternalResetWaitEnd straps s) :=
  .next h.leaveReset
theorem Keeps.recover {straps} (h : Keeps a s) : Keeps a (s.recover straps) := .ite h (.ite h.lost.sampleStraps h.lost)
protected theorem Keeps.execBrownOutRecovery {straps} (h : Keeps a s) : Answers a (execBrownOutRecovery straps s) := .next h.recover
theorem Keeps.sensorRead {t1} (h : Keeps a s) : Keeps a (s.sensorRead t1) := .ite h.lost h
protected theorem Keeps.execSensorRead {t1} (h : Keeps a s) : Answers a (execSensorRead t1 s) := h.command (fun _ ht => ht.sensorRead)
theorem Keeps.lpFailed {f} (h : Keeps a s) : Keeps a (s.lpFailed f) := .ite h (.err (h.foldl (fun _ _ ht => .ite ht.setFldReg ht)))
theorem Keeps.fail (h : Keeps a s) : Keeps a s.fail := h.setStage.heldTake
theorem Keeps.bisqueReached {lpFail} (h : Keeps a s) : Keeps a (s.bisqueReached lpFail) := by
  unfold State.bisqueReached
  extract_lets s1
  have hs1 : Keeps a s1 := h.lpFailed.setFldReg.uartLine
  split
  · exact h
  · split
    · exact hs1.fail
    · split
      · exact hs1.setStage.heldTake
      · exact hs1.setStage.imgStart
protected theorem Keeps.execBisqueReached {lpFail} (h : Keeps a s) : Answers a (execBisqueReached lpFail s) :=
  h.command (fun _ ht => ht.bisqueReached)
protected theorem Keeps.tryBoot {l} (h : Keeps a s) : Keeps a (tryBoot l s).1 := by
  induction l generalizing s with
  | nil => exact h
  | cons b r ih => exact .iteFst h (ih h.err)
theorem Keeps.imageRead (h : Keeps a s) : Keeps a s.imageRead := by
  refine .ite h ?_
  extract_lets order s1 s2
  have h1 : Keeps a s1 := by
    unfold s1
    split
    · exact h.writeRun
    · exact h
  have h2 : Keeps a s2 := h1.writeRun
  clear_value s2 order
  have hb := h2.tryBoot (l := order)
  generalize tryBoot order s2 = r at hb ⊢
  rcases r with ⟨t, _ | b⟩
  · exact Keeps.fail hb
  · exact Keeps.imageAccepted (.ite (Keeps.useTry hb) hb)
protected theorem Keeps.execImageRead (h : Keeps a s) : Answers a (execImageRead s) := h.command (fun _ ht => ht.imageRead)
theorem Keeps.lpddrLost (h : Keeps a s) : Keeps a s.lpddrLost :=
  h.trans ⟨Memory.wf_filter s.mem _ _, id, fun _ => id⟩
theorem Keeps.stackTraining {stFail lpFail} (h : Keeps a s) : Keeps a (s.stackTraining stFail lpFail) := by
  refine .ite h ?_
  extract_lets s0 s1 s2 s3 s4 s5 s6 s7
  have h0 : Keeps a s0 := h
  have h1 : Keeps a s1 := h0.setReg.touchAll
  clear_value s1
  have h2 : Keeps a s2 := h1.writeMarked
  clear_value s2
  have h3 : Keeps a s3 := h2.lpddrLost
  have h4 : Keeps a s4 := h3.foldl fun _ _ ht => .ite ht.setFldReg.err ht
  have h7 : Keeps a s7 := h4.lpFailed.setFldReg.setFldReg
  exact .ite h7.fail (h7.uartLine.foldl fun _ _ ht => ht.offerRate)
protected theorem Keeps.execStackTraining {stFail lpFail} (h : Keeps a s) : Answers a (execStackTraining stFail lpFail s) :=
  h.command (fun _ ht => ht.stackTraining)
theorem Keeps.retrainHost (h : Keeps a s) : Keeps a s.retrainHost := h
theorem Keeps.linkStep (h : Keeps a s) : Keeps a s.linkStep := .ite h (.ite h.setFldReg.uartLine.retrainHost h.setFldReg.uartLine)
protected theorem Keeps.execLinkFullRateStep (h : Keeps a s) : Answers a (execLinkFullRateStep s) := h.command (fun _ ht => ht.linkStep)
theorem Keeps.regsPut {r} (h : Keeps a s) : Keeps a { s with regs := r } := h
theorem Keeps.glazeReached (h : Keeps a s) : Keeps a s.glazeReached := by
  have h1 (c : Nat) : Keeps a ((List.range 192).foldl (fun (s : State) n => (s.rebase n).modCore n (fun c' => { c' with step := c })) s) :=
    h.foldl fun _ _ ht => ht.rebase.modCore
  exact .ite h (Keeps.regsPut (h1 _)).setFldReg.uartLine.setStage.heldTake
protected theorem Keeps.execGlazeReached (h : Keeps a s) : Answers a (execGlazeReached s) := h.command (fun _ ht => ht.glazeReached)
theorem Keeps.cableIn {k} (h : Keeps a s) : Keeps a (s.cableIn k) := .ite h (.foldl h (fun _ _ ht => .ite ht.startTrain ht))
protected theorem Keeps.execCableInsert {k} (h : Keeps a s) : Answers a (execCableInsert k s) := .next h.cableIn
theorem Keeps.cableOut {k} (h : Keeps a s) : Keeps a (s.cableOut k) := .ite h (.foldl h (fun _ _ ht => .ite ht ht.linkTo))
protected theorem Keeps.execCableRemove {k} (h : Keeps a s) : Answers a (execCableRemove k s) := .next h.cableOut
theorem Keeps.setPort {p x} (h : Keeps a s) : Keeps a (s.setPort p x) := h
theorem Keeps.snoopDone (h : Keeps a s) : Keeps a s.snoopDone := h.rowGo.retryBox.retryBox.resolveNext.retryPug
theorem Keeps.hostReset {perst} (h : Keeps a s) : Keeps a (s.hostReset perst) :=
  .snoopDone (.foldl (.setReg (.withIrq h (fun _ ht => ht))) (fun _ _ ht => ht.setPort))
protected theorem Keeps.execHostReset {perst} (h : Keeps a s) : Answers a (execHostReset perst s) := by
  unfold execHostReset
  split
  · exact .next h
  · exact h.command (fun _ ht1 => ht1.hostReset)
protected theorem Keeps.execTapReset (h : Keeps a s) : Answers a (execTapReset s) := h.command (fun _ ht => ht)
theorem Keeps.fixedCfg {w lo len} (h : Keeps a s) : Keeps a (s.fixedCfg w lo len).1 := .iteFst h (h.freeFld (len := len))
theorem Keeps.cfgWrite {w} (h : Keeps a s) : Keeps a (s.cfgWrite w) :=
  .ite h.fixedCfg.fixedCfg.fixedCfg.fixedCfg.setReg h.fixedCfg.fixedCfg.fixedCfg.fixedCfg.setReg.discovery
protected theorem Keeps.execGlobalCfgWrite {src w} (h : Keeps a s) : Answers a (execGlobalCfgWrite src w s) :=
  h.command (fun _ ht => ht.inTurn (fun _ ht1 => ht1.cfgWrite))

/-! ### HostIf -/

theorem Keeps.bpErr {p code} (h : Keeps a s) : Keeps a (s.bpErr p code) := h.errWith (fun _ ht => ht.setReg)
theorem Keeps.bpAdvance {p n m bad} (h : Keeps a s) : Keeps a (s.bpAdvance p n m bad) :=
  .ite (.bpErr (.ite h.setPort.bpErr h.setPort)) (.ite h.setPort.bpErr h.setPort)
theorem Keeps.bpWrite {p off data} (h : Keeps a s) : Keeps a (s.bpWrite p off data) := by
  unfold State.bpWrite
  split
  · exact h.bpErr
  · exact h.writeMarked.bpAdvance
theorem Keeps.hostAnswer {d psn} (h : Keeps a s) : Keeps a (s.hostAnswer d psn) := .ite (.countReg h) h
theorem Keeps.bpRead {p off bytes} (h : Keeps a s) : Keeps a (s.bpRead p off bytes) := by
  unfold State.bpRead
  split
  · exact h.bpErr
  · exact h.touchAll.bpAdvance.hostAnswer
theorem Keeps.bar4 {bytes w} {ring : State → W32 → State} (h : Keeps a s) (hring : ∀ t y1, Keeps a t → Keeps a (ring t y1)) :
    Keeps a (s.bar4 ring bytes w) :=
  .ite h.err (.ite (hring _ _ h) (hring _ _ (hring _ _ h)))
theorem Keeps.bpDoneNow {p} (h : Keeps a s) : Keeps a (s.bpDoneNow p) :=
  .ite (.semSignal (h.setPort.withIrq (fun _ ht => ht))) (h.setPort.withIrq (fun _ ht => ht))
protected theorem Keeps.execBpComplete {port} (h : Keeps a s) : Answers a (execBpComplete port s) :=
  h.command (fun _ ht => .ite ht.bpDoneNow ht)
theorem Keeps.bpctlWrite {w} (h : Keeps a s) : Keeps a (s.bpctlWrite w) := by
  unfold State.bpctlWrite
  extract_lets p x v s1 s11 s2
  have hs1 : Keeps a s1 := .ite h.bpErr h
  have hs11 : Keeps a s11 := h.setPort
  have hs2 : Keeps a s2 := hs11.withIrq (fun _ ht => ht)
  split
  · split
    · exact hs1
    · exact hs1.setPort
  · split
    · exact hs11
    · split
      · exact hs2.bpDoneNow
      · exact hs2
theorem Keeps.bpRegWrite {reg w} (h : Keeps a s) : Keeps a (s.bpRegWrite reg w) := by
  unfold State.bpRegWrite
  split
  · dsimp only
    split
    · exact h.bpErr
    · exact h.setPort
  · dsimp only
    split
    · exact h.bpErr
    · exact h.setPort
  · dsimp only
    split
    · exact h.bpErr
    · exact h.setPort
theorem Keeps.makeRoom {o len} (h : Keeps a s) : Keeps a (s.makeRoom o len) := h
theorem Keeps.cxlRead {o len cache} (h : Keeps a s) : Keeps a (s.cxlRead o len cache) :=
  .ite h.err.hostAnswer (.ite h (.ite h.makeRoom (.hostAnswer h.touchAll)))
protected theorem Keeps.execCxlMemRead {o len cache} (h : Keeps a s) : Answers a (execCxlMemRead o len cache s) :=
  h.command (fun _ ht => ht.cxlRead)
theorem Keeps.retryMem (h : Keeps a s) : Keeps a s.retryMem := .foldl h (fun _ _ ht => ht.cxlRead)
theorem Keeps.cxlWrite {o data poison} (h : Keeps a s) : Keeps a (s.cxlWrite o data poison) := .ite h.err (.ite h h.writeMarked)
protected theorem Keeps.execCxlMemWrite {o data poison} (h : Keeps a s) : Answers a (execCxlMemWrite o data poison s) :=
  h.command (fun _ ht => ht.cxlWrite)
theorem Keeps.biGone {line dirty} (h : Keeps a s) : Keeps a (s.biGone line dirty) := by
  unfold State.biGone
  split
  · exact .writeRun h
  · exact h
protected theorem Keeps.execHostCacheSnoop {line} (h : Keeps a s) : Answers a (execHostCacheSnoop line s) := h.command (fun _ ht => ht)
theorem Keeps.hsig {w} (h : Keeps a s) : Keeps a (s.hsig w) := .ite h h.msix
protected theorem Keeps.execHostLinkTrain (h : Keeps a s) : Answers a (execHostLinkTrain s) := h.command (fun _ ht => ht)
theorem Keeps.linkRetry (h : Keeps a s) : Keeps a s.linkRetry := .ite h h.retrainHost
protected theorem Keeps.execHostLinkRetry (h : Keeps a s) : Answers a (execHostLinkRetry s) := h.command (fun _ ht => ht.linkRetry)
theorem Keeps.linkRate {v l} (h : Keeps a s) : Keeps a { s with linkTrain := v, j1Lanes := l } := h
theorem Keeps.linkUp {rate width} (h : Keeps a s) : Keeps a (s.linkUp rate width) :=
  .ite h (.ite (.linkRate h.setReg) (.linkRate h.setReg))
theorem Keeps.modCfg {f} (h : Keeps a s) : Keeps a (s.modCfg f) := h
theorem Keeps.msixUnmask {v m} (h : Keeps a s) : Keeps a (s.msixUnmask v m) := .ite h h
theorem Keeps.msixWrite {k w} (h : Keeps a s) : Keeps a (s.msixWrite k w) := .ite h (.ite h.msixUnmask h.modCfg)
theorem Keeps.bar4Set {o w} (h : Keeps a s) : Keeps a (s.bar4Set o w) := .ite h.queueDoorbell (.ite h.coreDoorbell (.ite h.msixWrite h))
theorem Keeps.bar4Write {o bytes w} (h : Keeps a s) : Keeps a (s.bar4Write o bytes w) :=
  .ite (.ite h.err h) (.ite h (.ite h.bar4Set h.bar4Set.bar4Set))
theorem Keeps.cfgSet {o w} (h : Keeps a s) : Keeps a (s.cfgSet o w) :=
  .ite h (.ite h.modCfg (.ite h.modCfg (.ite h.modCfg (.ite h (.ite h.modCfg (.ite h.modCfg h))))))
protected theorem Keeps.execHostLinkUp {rate width} (h : Keeps a s) : Answers a (execHostLinkUp rate width s) :=
  h.command (fun _ ht => ht.linkUp)

/-! ### Mmio -/

theorem Keeps.pageSees {p o} (h : Keeps a s) : Keeps a (s.pageSees p o) := by
  unfold State.pageSees
  split
  · split
    · exact h.readQueue
    · exact h
  · split
    · exact h.readCtx
    · split
      · exact h.readCtx
      · exact h
  · split
    · exact h.readJob
    · split
      · exact h.readSwarm
      · exact h
  · split
    · split
      · exact h.readRoute
      · exact h
    · split
      · exact h.readMcast
      · exact h
  · exact h
theorem Keeps.mmioSees {off} (h : Keeps a s) : Keeps a (s.mmioSees off) := by
  unfold State.mmioSees
  split
  · exact h.pageSees
  · exact h
theorem Keeps.irqEnWrite {p x} (h : Keeps a s) : Keeps a (s.irqEnWrite p x) := h.setReg.setReg.orRise
theorem Keeps.lockPage {p} (h : Keeps a s) : Keeps a (s.lockPage p) := h.setFldReg
theorem Keeps.headWrite {p o w} (h : Keeps a s) : Keeps a (s.headWrite p o w) :=
  .ite (.ite (.clearErr (.ite h.lockPage h)) (.ite h.lockPage h)) (.ite h.irqEnWrite (.ite h.setReg h))
theorem Keeps.scCtlWrite {n e w} (h : Keeps a s) : Keeps a (s.scCtlWrite n e w) := h.reserve.reserve.setReg
theorem Keeps.scWrite {n x w} (h : Keeps a s) : Keeps a (s.scWrite n x w) :=
  .ite h (.ite h.scCtlWrite (.ite h.setReg (.ite h.scAmaxw (.ite h h.setReg))))
theorem Keeps.mbCmd {w} (h : Keeps a s) : Keeps a (s.mbCmd w) := .ite h.err h.freeWords.mailbox
theorem Keeps.mbBuf {i w} (h : Keeps a s) : Keeps a (s.mbBuf i w) := .ite h.err h
theorem Keeps.routesPut {r m} (h : Keeps a s) : Keeps a { s with routes := r, routeMark := m } := h
theorem Keeps.rdataWrite {w} (h : Keeps a s) : Keeps a (s.rdataWrite w) := by
  unfold State.rdataWrite
  split
  · exact .routesPut h.over
  · exact h
theorem Keeps.mdataWrite {k w} (h : Keeps a s) : Keeps a (s.mdataWrite k w) := .ite h.readMcast (.ite h.readMcast.ctxUnd h.readMcast)
theorem Keeps.linkCtlWrite {n w} (h : Keeps a s) : Keeps a (s.linkCtlWrite n w) := by
  unfold State.linkCtlWrite
  extract_lets s1 s2 s3
  have hs1 : Keeps a s1 := h.setFldReg
  have hs2 : Keeps a s2 := .ite hs1.linkEnable hs1.linkDisable
  have hs3 : Keeps a s3 := .ite hs2.linkRetrain hs2
  split
  · exact hs3.linkAdmit
  · exact hs3
theorem Keeps.hopWrite {src w} (h : Keeps a s) : Keeps a (s.hopWrite src w) := by
  unfold State.hopWrite
  split
  · exact h.semSignal
  · exact h.hopSub
  · exact h.hopSet
  · exact h.arrive
  · exact h
theorem Keeps.pugWrite {i o w} (h : Keeps a s) : Keeps a (s.pugWrite i o w) := by
  have hx : Keeps a (match fld w 29 3 with
      | 1 => (s.readSwarm (s.xsel i)).swarmEnable (s.xsel i)
      | 2 => (s.readSwarm (s.xsel i)).swarmDisable (s.xsel i)
      | 3 => s.swarmGo (s.xsel i) (.send (fld w 0 24))
      | 4 => s.swarmGo (s.xsel i) .ret
      | _ => s) := by
    split
    · exact h.readSwarm.swarmEnable
    · exact h.readSwarm.swarmDisable
    · exact h.swarmGo
    · exact h.swarmGo
    · exact h
  exact .ite h.setReg <| .ite (.ite h.readJob.jobOpen (.ite h.readJob.jobClose.retryPug h)) <| .ite h.setReg <| .ite hx <| .ite h.jeWrite <|
    .ite h.xeWrite <| .ite h <| .ite h.setReg.retryPug <| .ite h.setReg <| .ite h.lossPolWrite <| .ite h.lossCurWrite <| .ite h.setReg <|
    .ite h.lossPolWrite <| .ite h.reserve.setReg h
theorem Keeps.mouldWrite {src o w} (h : Keeps a s) : Keeps a (s.mouldWrite src o w) :=
  .ite h.jrootLo <| .ite h.setReg <| .ite (.ite h.take h) <| .ite (.ite h (.ite h.stepCommand (.ite h.stepCommand h))) <| .ite h.slogWrite <|
    .ite h.slogWrite <| .ite h.sctlWrite <| .ite (.ite h h.setReg) <| .ite h.setReg <| .ite h.setReg <| .ite (.ite h.srsv h) <| .ite h.setReg <|
    .ite h.setReg <| .ite h.setReg <| .ite h.setReg <| .ite (.ite h.restoreGo h) h
theorem Keeps.fabWrite {o w} (h : Keeps a s) : Keeps a (s.fabWrite o w) :=
  .ite h.setReg <| .ite (.ite h.setReg.discovery h.setReg) <| .ite h.setReg <| .ite h.reserve.setReg <| .ite h.rdataWrite <|
    .ite h.setReg <| .ite h.mdataWrite <| .ite (.ite h.setReg h.remoteDoorbell) h
theorem Keeps.combPageWrite {src o w} (h : Keeps a s) : Keeps a (s.combPageWrite src o w) := by
  unfold State.combPageWrite
  extract_lets b
  split
  · exact h.hopWrite
  · split
    · exact h.setReg
    · split
      · exact h.clearTask
      · split
        · exact h.setReg
        · split
          · split
            · exact h.bCtlWrite
            · split
              · exact h.bCtxWrite
              · split
                · exact h.bNextWrite
                · exact h
          · split
            · exact h.bCtxWrite
            · exact h
theorem Keeps.startWrite {n w} (h : Keeps a s) : Keeps a (s.startWrite n w) := by
  unfold State.startWrite
  dsimp only
  split
  · exact h.freeFld.setReg
  · exact h.setReg
theorem Keeps.corePageWrite {n o w} (h : Keeps a s) : Keeps a (s.corePageWrite n o w) :=
  .ite (.ite h.haltCore h.resumeCore) <| .ite h.startWrite <| .ite h.coreResetWrite <| .ite h.swi <| .ite h.scRoll <| .ite h.scRoll <|
  .ite h.setReg <| .ite h.setReg <| .ite h.setReg <| .ite h.xrootLo <| .ite h.setReg <| .ite h.scWrite h
theorem Keeps.scarabWrite {o w} (h : Keeps a s) : Keeps a (s.scarabWrite o w) :=
  .ite h.queueDoorbell <| .ite h.coreDoorbell <| .ite h.setReg <| .ite h.qeWrite <| .ite (.ite h.queueEnable (.ite h.queueDisable h)) <|
    .ite h.setReg <| .ite h.preempt h
theorem Keeps.rasWrite {o w} (h : Keeps a s) : Keeps a (s.rasWrite o w) :=
  .ite h.setReg (.ite (.ite h.logClear h) (.ite h.setReg (.ite h.setReg (.ite h.setReg (.ite (.ite h.rpRow (.ite h.rpAcol h)) h)))))
theorem Keeps.scrubWrite {o w} (h : Keeps a s) : Keeps a (s.scrubWrite o w) :=
  .ite h.setReg (.ite h.setReg (.ite h.setReg (.ite h.setReg (.ite (.ite h.scrubGo h.setReg) h))))
theorem Keeps.hostWrite {o w} (h : Keeps a s) : Keeps a (s.hostWrite o w) :=
  .ite h.hsig (.ite h.setReg (.ite h.bpRegWrite (.ite h.bpRegWrite (.ite h.bpRegWrite (.ite h.bpctlWrite (.ite (h.withIrq (fun _ ht => ht)) h))))))
theorem Keeps.blockWrite {src p o w} (h : Keeps a s) : Keeps a (s.blockWrite src p o w) := by
  cases p with
  | global => exact .ite h.cfgWrite (.ite h.globalReset (.ite h.setReg h))
  | pyro => exact .ite h.setFldReg (.ite h.dvfsWrite (.ite h.setReg h))
  | scarab => exact h.scarabWrite
  | comb => exact h.combPageWrite
  | mould => exact h.mouldWrite
  | pugmill i => exact h.pugWrite
  | fabric => exact h.fabWrite
  | link n => exact .ite h.linkCtlWrite (.ite h.setReg h)
  | core n => exact h.corePageWrite
  | stack n => exact .ite h.setReg (.ite h.setReg h)
  | lpch n => exact .ite h.setReg (.ite h.setReg h)
  | ras => exact h.rasWrite
  | scrub => exact h.scrubWrite
  | host => exact h.hostWrite
  | firefly => exact .ite h.mbCmd (.ite h.mbBuf h)
theorem Keeps.mmioWrite {src off w} (h : Keeps a s) : Keeps a (s.mmioWrite src off w) := by
  unfold State.mmioWrite
  split
  · exact h
  · dsimp only
    split
    · exact h.blockWrite
    · exact h.headWrite
theorem Keeps.registerWrite {src off bytes w} (h : Keeps a s) : Keeps a (s.registerWrite src off bytes w) :=
  .ite h (.ite h.mmioWrite h.mmioWrite.mmioWrite)
protected theorem Keeps.execPgIrqEnWrite {src page w} (h : Keeps a s) : Answers a (execPgIrqEnWrite src page w s) :=
  h.command (fun _ ht => ht.inTurn (fun _ ht1 => .ite ht1.irqEnWrite ht1))
protected theorem Keeps.execPgLock {src page} (h : Keeps a s) : Answers a (execPgLock src page s) :=
  h.command (fun _ ht => ht.inTurn (fun _ ht1 => .ite ht1.lockPage ht1))
protected theorem Keeps.execPgErrClr {src page arriving} (h : Keeps a s) : Answers a (execPgErrClr src page arriving s) :=
  h.command (fun _ ht => ht.inTurn (fun _ ht1 => .ite ht1.clearErr ht1))

/-! ### LoadStore -/

theorem Keeps.devSees {r pa} (h : Keeps a s) : Keeps a (s.devSees r pa) := by
  unfold State.devSees
  split
  · exact h.combSees
  · exact h.mmioSees
theorem Keeps.devWrite {n sup r pa v} (h : Keeps a s) : Keeps a (s.devWrite n sup r pa v) := by
  unfold State.devWrite
  split
  · exact h.combWrite
  · exact h.mmioWrite
protected theorem Keeps.devXlate {n ea r write} {go : State → Nat → Res} (h : Keeps a s) (hgo : ∀ t y1, Keeps a t → ResKept a (go t y1)) :
    ResKept a (devXlate n ea r write go s) := by
  unfold devXlate
  split
  · exact hgo _ _ h
  · dsimp only
    split
    · exact h.fresh.holdWalk
    · split
      · exact h.fresh
      · exact hgo _ _ h.fresh
protected theorem Keeps.loadBody {z n rg an am x} (h : Keeps a s) : ResKept a (loadBody z n rg an am x s) := by
  unfold loadBody
  split
  · exact trivial
  · split
    · exact trivial
    · dsimp only
      split
      · exact h.touchAll
      · exact h.touchAll.coreOnly (by simp)
    · exact h.devXlate (fun _ _ ht2 => ht2.modCore)
theorem ResKept.ite {c : Prop} [Decidable c] {x y : Res} (hx : ResKept a x) (hy : ResKept a y) : ResKept a (if c then x else y) := by
  split
  · exact hx
  · exact hy
theorem ResKept.resetTest {n upd} (h : Keeps a s) :
    ResKept a (if (s.core n).resetting then .taken s else coreOnly n (fun c => c.sendUpd upd) s) := .ite h (h.coreOnly (by simp))
protected theorem Keeps.storeBody {z n rg an am x} (h : Keeps a s) : ResKept a (storeBody z n rg an am x s) := by
  unfold storeBody
  dsimp only
  split
  · trivial
  · split
    · trivial
    · exact h.unfetch.writeRun.coreOnly (by simp)
    · exact h.devXlate fun t pa ht => .resetTest (.ite ht.devWrite.devWrite ht.devWrite)
protected theorem Keeps.lsIssue {z n k rg an am x} {body : State → Res} (h : Keeps a s) (hbody : ∀ t, Keeps a t → ResKept a (body t)) :
    Answers a (lsIssue z n k rg an am x body s) :=
  h.issue (fun _ ht => hbody _ ht)
protected theorem Keeps.execLd {n c rg an am x} (h : Keeps a s) : Answers a (execLd n c rg an am x s) := h.lsIssue (fun _ ht => ht.loadBody)
protected theorem Keeps.execLdP {n c rg an am x} (h : Keeps a s) : Answers a (execLdP n c rg an am x s) :=
  h.lsIssue (fun _ ht => ht.loadBody)
protected theorem Keeps.execLdQ {n c rg an am x} (h : Keeps a s) : Answers a (execLdQ n c rg an am x s) :=
  h.lsIssue (fun _ ht => ht.loadBody)
protected theorem Keeps.execLdA {n c rg an am x} (h : Keeps a s) : Answers a (execLdA n c rg an am x s) :=
  h.lsIssue (fun _ ht => ht.loadBody)
protected theorem Keeps.execSt {n c rg an am x} (h : Keeps a s) : Answers a (execSt n c rg an am x s) :=
  h.lsIssue (fun _ ht => ht.storeBody)
protected theorem Keeps.execStP {n c rg an am x} (h : Keeps a s) : Answers a (execStP n c rg an am x s) :=
  h.lsIssue (fun _ ht => ht.storeBody)
protected theorem Keeps.execStQ {n c rg an am x} (h : Keeps a s) : Answers a (execStQ n c rg an am x s) :=
  h.lsIssue (fun _ ht => ht.storeBody)
protected theorem Keeps.execStA {n c rg an am x} (h : Keeps a s) : Answers a (execStA n c rg an am x s) :=
  h.lsIssue (fun _ ht => ht.storeBody)
theorem Keeps.loadReturn {n} (h : Keeps a s) : Keeps a (s.loadReturn n) := by
  unfold State.loadReturn
  split
  · exact .modCore (.ite h.devSees.devSees h.devSees) (by simp)
  · exact h
protected theorem Keeps.execMmioLoadReturn {n} (h : Keeps a s) : Answers a (execMmioLoadReturn n s) :=
  h.command (fun _ ht => .ite ht.loadReturn ht)

/-! ### TileFmt -/

theorem Keeps.applyFlags {n f} (h : Keeps a s) : Keeps a (s.applyFlags n f) := by
  unfold State.applyFlags
  extract_lets t
  have ht : Keeps a t := by
    unfold t
    split
    · exact h
    · extract_lets s1 s2
      have h1 : Keeps a s1 := by unfold s1; split; exacts [h.scRaise, h]
      have h2 : Keeps a s2 := .ite h1.scNf h1
      exact .ite h2.scSatf h2
  exact .ite ht ht.coreNf
theorem Keeps.convFlags {n k store sce evs} (h : Keeps a s) : Keeps a (s.convFlags n k store sce evs) := h.applyFlags

/-! ### Setter -/

theorem Keeps.coreUe {x1} (h : Keeps a s) : Keeps a (s.coreUe x1) := by
  unfold State.coreUe
  split
  · exact h.modCore
  · exact h.modCore
  · exact h.modCore
  · exact h.modCore
  · exact h.modCore
  · exact h
theorem Keeps.regReads {f} (h : Keeps a s) : Keeps a (s.regReads f) := h.finds.foldl (fun _ _ ht => ht.coreUe)
protected theorem Keeps.intoSetter {n o} {f : Core → Core} (h : Keeps a s)
    (hf : ∀ c, (f c).peek = true → c.peek = true := by exact fun _ h => h) : ResKept a (intoSetter n o f s) :=
  .ite h (h.setCore fun hp => h.peek n (by simpa using hf _ hp))
theorem Keeps.sDone {n id sem} (h : Keeps a s) : Keeps a (s.sDone n id sem) := by
  unfold State.sDone
  split
  · exact h.modCore.signal
  · exact h.modCore

/-! ### Accum -/

theorem Keeps.drainRow {n a1 f dc exp r lo k} (h : Keeps a s) : Keeps a (s.drainRow n a1 f dc exp r lo k).1 := by
  unfold State.drainRow
  split
  · exact h
  · dsimp only
    split
    · exact h.convFlags.coreNf
    · exact h.convFlags
theorem Keeps.drtWrite {n t1 h1 a1 dc exp} (h : Keeps a s) : Keeps a (s.drtWrite n t1 h1 a1 dc exp) :=
  .modCore (h.foldl (fun _ _ ht => ht.drainRow.modCore))

/-! ### Feeder -/

theorem Keeps.placePiece {n sup write a1 len} (h : Keeps a s) : Keeps a (s.placePiece n sup write a1 len).1 := by
  unfold State.placePiece
  split
  · exact h
  · split
    · rename_i e13
      exact h.coreXlate.fst_of e13
    · rename_i e14
      exact h.coreXlate.fst_of e14
theorem Keeps.placePieces {n sup write l} (h : Keeps a s) : Keeps a (s.placePieces n sup write l).1 := by
  induction l generalizing s with
  | nil => exact h
  | cons p r ih =>
    have hp := h.placePiece (n := n) (sup := sup) (write := write) (a1 := p.1) (len := p.2)
    unfold State.placePieces
    generalize s.placePiece n sup write p.1 p.2 = o at hp ⊢
    rcases o with ⟨t, x | x⟩
    · exact hp
    · have hr := ih hp
      dsimp only at hr ⊢
      generalize t.placePieces n sup write r = o at hr ⊢
      rcases o with ⟨u, y | l⟩ <;> exact hr
theorem Keeps.placeSides {n sup src dst} (h : Keeps a s) : Keeps a (s.placeSides n sup src dst).1 := by
  have hp := h.placePieces (n := n) (sup := sup) (write := false) (l := src)
  unfold State.placeSides
  generalize s.placePieces n sup false src = o at hp ⊢
  rcases o with ⟨t, x | x⟩
  · exact hp
  · have hr := Keeps.placePieces (n := n) (sup := sup) (write := true) (l := dst) hp
    dsimp only at hr ⊢
    generalize t.placePieces n sup true dst = o at hr ⊢
    rcases o with ⟨u, y | l⟩ <;> exact hr
theorem Keeps.sideLimit {n sup write a1} (h : Keeps a s) : Keeps a (s.sideLimit n sup write a1).1 := by
  unfold State.sideLimit
  split
  · exact h
  · split
    · rename_i e13
      exact h.coreXlate.fst_of e13
    · rename_i e14
      exact h.coreXlate.fst_of e14
protected theorem Keeps.sendAll {owner l} (h : Keeps a s) : OptionAll (Keeps a) (sendAll owner l s) := by
  induction l generalizing s with
  | nil => exact h
  | cons x r ih =>
    have hr := h.request (owner := owner) (addr := x.2.1) (off := x.1) (k := x.2.2)
    unfold sendAll
    generalize s.request owner x.2.1 x.1 x.2.2 = o at hr ⊢
    rcases o with _ | ⟨t, _⟩
    · trivial
    · exact ih hr
theorem OptionAll.getD {α : Type} {p : α → Prop} {o : Option α} {x : α} (h : OptionAll p o) (hx : p x) : p (o.getD x) := by
  cases o with
  | none => exact hx
  | some y => exact h
theorem Keeps.askRemote {n b} (h : Keeps a s) : Keeps a (s.askRemote n b) := OptionAll.getD (p := Keeps a) h.sendAll h
theorem Keeps.putBlock {n f len total srcs dsts out keep} (h : Keeps a s) : Keeps a (s.putBlock n f len total srcs dsts out keep) :=
  h.modCore.askRemote
theorem Keeps.suspend {n id cause faddr} (h : Keeps a s) : Keeps a (s.suspend n id cause faddr) := by
  unfold State.suspend
  split
  · exact h
  · exact h.modCore
theorem Keeps.fopCheck {n id} (h : Keeps a s) : Keeps a (s.fopCheck n id) := by
  unfold State.fopCheck
  dsimp only
  split
  · exact h
  · split
    · exact h
    · split
      · exact h
      · split
        · exact h
        · split
          · exact h.modCore
          · split
            · exact h.modCore.signal
            · exact h.modCore
theorem Keeps.failBlock {n b cause faddr} (h : Keeps a s) : Keeps a (s.failBlock n b cause faddr) := by
  unfold State.failBlock
  split
  · exact h.modCore
  · split
    · exact h.suspend
    · exact h.modCore.deferAction.fopCheck
theorem Keeps.landRow {n e t1 x i ws} (h : Keeps a s) : Keeps a (s.landRow n e t1 x i ws) := by
  refine Keeps.modCore (.ite h.regReads h.over) fun c hp => ?_
  rw [Core.peek_ite, foldl_peek fun c _ => Core.setTile_peek c, Core.setTile_peek, ite_self] at hp
  exact hp
theorem Keeps.restoreTile {n e t1} (h : Keeps a s) : Keeps a (s.restoreTile n e t1) := by
  rw [State.restoreTile]
  have h1 {c : Prop} [Decidable c] : Keeps a ((if c then s.free.2 else s).over (inTile n t1 (fun _ => true))) := .over (.ite h.free h)
  dsimp only
  split
  · refine .sDone (h1.modCore fun c hp => ?_)
    simpa only [Core.peek_ite, Core.setShape_peek, Core.setTile_peek, ite_self] using hp
  · refine Keeps.modCore (h1.modCore fun c hp => ?_) fun c hp => ?_
    · simpa only [Core.peek_ite, Core.setShape_peek, Core.setTile_peek, ite_self] using hp
    · simpa only [Core.dropFops_peek, Core.cutHeld_peek] using hp
theorem Keeps.applyLoad {n e q a1 dc} (h : Keeps a s) : Keeps a (s.applyLoad n e q a1 dc) := .modCore (.ite h.over (.ite h h.regReads))
theorem Keeps.rowsDone {n e} (h : Keeps a s) : Keeps a (s.rowsDone n e) := by
  unfold State.rowsDone
  split
  · exact (h.modCore fun c hp => by rwa [foldl_peek fun c _ => Core.setTile_peek c] at hp).sDone
  · exact h.restoreTile
  · exact h.applyLoad.sDone
  · exact h
  · exact h.sDone
theorem Keeps.landStaged {n e i} (h : Keeps a s) : Keeps a (s.landStaged n e i) := by
  unfold State.landStaged
  split
  · exact h.landRow.modCore
  · exact h
theorem Keeps.rowDone {n id k} (h : Keeps a s) : Keeps a (s.rowDone n id k) := by
  unfold State.rowDone
  split
  · exact h
  · dsimp only
    split
    · exact .modCore (.foldl (h.foldl (fun _ _ ht2 => ht2.landStaged)) (fun _ _ ht2 => ht2.applyFlags))
    · split
      · exact .rowsDone (.modCore (.foldl (h.foldl (fun _ _ ht3 => ht3.landStaged)) (fun _ _ ht3 => ht3.applyFlags)))
      · exact .modCore (.foldl (h.foldl (fun _ _ ht3 => ht3.landStaged)) (fun _ _ ht3 => ht3.applyFlags))
theorem Keeps.drmRows {n x f dc exp} {marks : Nat → Bool} {l : List Seg} (h : Keeps a s) (w0) :
    Keeps a (l.foldl (fun (p : State × List (Word × Bool)) y =>
      let (t, out) := p.1.drainRow n x f dc exp y.row 0 64
      (if y.off = 0 then t else p.1, p.2 ++ ((drmWords f out.codes (marks y.row)).drop y.off).take y.len)) (s, w0)).1 := by
  induction l generalizing s w0 with
  | nil => exact h
  | cons y l ih => exact ih (.ite h.drainRow h) _
theorem Keeps.blockOut {n e b} (h : Keeps a s) : Keeps a (s.blockOut n e b).1 := by
  unfold State.blockOut
  split
  · exact .iteFst (.ite h h.regReads) (Keeps.modCore (.ite h h.regReads))
  · exact h
  · exact h.regReads.drmRows _
  · exact h
theorem Keeps.stageBlock {n e b ws} (h : Keeps a s) : Keeps a (s.stageBlock n e b ws) := h.modCore
theorem Keeps.releaseRead {n e} (h : Keeps a s) : Keeps a (s.releaseRead n e) := h.modCore
theorem Keeps.scrambleRanges {l} (h : Keeps a s) : Keeps a (s.scrambleRanges l) := .foldl h (fun _ _ ht => ht.setWord)
theorem Keeps.copyWords {f b ws} (h : Keeps a s) : Keeps a (s.copyWords f b ws).1 := by
  unfold State.copyWords
  split
  · exact h.scrambleRanges
  · exact h
theorem Keeps.blockEnd {n b k} (h : Keeps a s) : Keeps a (s.blockEnd n b k) := by
  unfold State.blockEnd
  split
  · exact h.modCore.fopCheck
  · exact h.modCore.rowDone
theorem Keeps.dropAhead {n as_} (h : Keeps a s) : Keeps a (s.dropAhead n as_) := .ite h h.modCore
theorem Keeps.blockEffect {n b f e ws} (h : Keeps a s) : Keeps a (s.blockEffect n b f e ws).1 := by
  unfold State.blockEffect
  split
  · exact h.copyWords.modCore
  · split
    · exact h
    · exact h.stageBlock
  · exact h
theorem Keeps.performBlock {n b f e} (h : Keeps a s) : Keeps a (s.performBlock n b f e) := by
  have h1 : Keeps a (s.touchAll b.reads) := h.touchAll
  have h2 (ws) : Keeps a ((s.touchAll b.reads).blockEffect n b f e ws).1 := h1.blockEffect
  unfold State.performBlock
  refine .ite h ?_
  split
  · exact h.err.failBlock
  · refine .ite h (.ite h.biAsk ?_)
    dsimp only
    generalize s.touchAll b.reads = s1 at h1 h2 ⊢
    have h2 := h2 (s1.srcWords b.got b.srcs 0)
    generalize s1.blockEffect n b f e (s1.srcWords b.got b.srcs 0) = o at h2 ⊢
    rcases o with ⟨s2, out⟩
    dsimp only at h2 ⊢
    split
    · exact h1.failBlock
    · refine .ite ?_ (Keeps.blockEnd (.dropAhead (.ite h2.writeMarked.setFldReg h2.writeMarked)))
      have hs := h1.sendAll (owner := .block n b.id) (l := remoteWrites b.dsts out)
      generalize sendAll (.block n b.id) (remoteWrites b.dsts out) s1 = o at hs ⊢
      cases o with
      | none => exact h
      | some t => exact Keeps.modCore hs
theorem Keeps.blockComplete {n id} (h : Keeps a s) : Keeps a (s.blockComplete n id) := by
  unfold State.blockComplete
  dsimp only
  split
  · exact h
  · split
    · exact h
    · split
      · exact h.failBlock
      · split
        · exact h.askRemote
        · split
          · exact h
          · split
            · exact h.performBlock
            · split
              · exact h
              · split
                · exact h
                · exact h.performBlock
theorem Keeps.settleCopy {n} (h : Keeps a s) : Keeps a (s.settleCopy n) := by
  unfold State.settleCopy
  dsimp only
  split
  · exact h
  · split
    · exact h.setCore (h.peek _)
    · exact (h.setCore (fun hp => h.peek _ (by simpa using hp))).foldl (fun _ _ ht2 => ht2.fopCheck)
/-- What every step keeps, of the state in which a placement ends. -/
@[reducible] def PlaceKept (a : State) : PlaceOut → Prop
  | .placed s => Keeps a s
  | .none_ s => Keeps a s
  | .full s => Keeps a s
  | .walk s _ _ _ => Keeps a s
  | .fault s _ _ _ => Keeps a s
theorem PlaceKept.ite {c : Prop} [Decidable c] {x y : PlaceOut} (hx : PlaceKept a x) (hy : PlaceKept a y) : PlaceKept a (if c then x else y) := by
  split
  · exact hx
  · exact hy
theorem Keeps.placeCopy {n f src dst cnt sup} (h : Keeps a s) : PlaceKept a (s.placeCopy n f src dst cnt sup) := by
  have ht := h.sideLimit (n := n) (sup := sup) (write := false) (a1 := src + BitVec.ofNat 64 f.next)
  unfold State.placeCopy
  dsimp only
  generalize s.sideLimit n sup false (src + BitVec.ofNat 64 f.next) = o at ht ⊢
  rcases o with ⟨t, la⟩
  have hu := Keeps.sideLimit (n := n) (sup := sup) (write := true) (a1 := dst + BitVec.ofNat 64 f.next) ht
  dsimp only at hu ⊢
  generalize t.sideLimit n sup true (dst + BitVec.ofNat 64 f.next) = o at hu ⊢
  rcases o with ⟨u, ld⟩
  rcases la with ⟨c, x⟩ | la <;> rcases ld with ⟨e, y⟩ | ld
  · exact .ite hu hu
  · exact hu
  · exact hu
  · have hv := fun len => Keeps.placeSides (n := n) (sup := sup) (src := pieces (src + BitVec.ofNat 64 f.next) len)
      (dst := pieces (dst + BitVec.ofNat 64 f.next) len) hu
    dsimp only at hv ⊢
    generalize min (cnt - f.next) (min la ld) = len
    have hv := hv len
    generalize u.placeSides n sup (pieces (src + BitVec.ofNat 64 f.next) len) (pieces (dst + BitVec.ofNat 64 f.next) len) = o at hv ⊢
    rcases o with ⟨v, ⟨c, x⟩ | ⟨rs, ws⟩⟩
    · exact hv
    · exact .ite (Keeps.putBlock hv) hv
theorem Keeps.placeMcopy {n f src dst cnt sup} (h : Keeps a s) : PlaceKept a (s.placeMcopy n f src dst cnt sup) :=
  .ite h.freshAll (.ite h.freshAll h.freshAll.placeCopy)
theorem Keeps.placeRows {n f e} (h : Keeps a s) : PlaceKept a (s.placeRows n f e) := by
  unfold State.placeRows
  extract_lets plan b sides w
  refine .ite h.biAsk ?_
  have hp := (h.freshAll (n := n) (sup := e.sup) (as_ := sides.map (·.1))).placeSides (n := n) (sup := e.sup)
    (src := if e.stores then [] else sides) (dst := if e.stores then sides else [])
  generalize (s.freshAll n e.sup (sides.map (·.1))).placeSides n e.sup (if e.stores then [] else sides)
    (if e.stores then sides else []) = o at hp ⊢
  rcases o with ⟨t, ⟨c, x⟩ | ⟨rs, ws⟩⟩
  · exact hp
  · refine .ite hp ?_
    have hb := Keeps.blockOut (n := n) (e := e) (b := b) hp
    dsimp only at hb ⊢
    generalize t.blockOut n e b = o at hb ⊢
    rcases o with ⟨u, out, keep⟩
    exact Keeps.ite (Keeps.putBlock hb) (Keeps.putBlock hb).releaseRead
theorem Keeps.placeNext {n} (h : Keeps a s) : PlaceKept a (s.placeNext n) := by
  unfold State.placeNext
  split
  · exact h
  · split
    · exact .ite (h.modCore (by simp)) h.placeMcopy
    · split
      · exact h.modCore
      · exact .ite (h.modCore (by simp)) h.placeRows
theorem Keeps.placeStep {n} (h : Keeps a s) : PlaceKept a (s.placeStep n) := by
  have hn := h.placeNext (n := n)
  unfold State.placeStep
  generalize s.placeNext n = o at hn ⊢
  cases o with
  | fault t f c x =>
    dsimp only
    split
    · exact Keeps.suspend hn
    · exact hn
  | placed t => exact hn
  | none_ t => exact hn
  | full t => exact hn
  | walk t f va w => exact hn
theorem Keeps.placeAll {k n} (h : Keeps a s) : PlaceKept a (State.placeAll k n s) := by
  induction k generalizing s with
  | zero => exact h
  | succ k ih =>
    have hn := h.placeStep (n := n)
    unfold State.placeAll
    generalize s.placeStep n = o at hn ⊢
    cases o with
    | placed t => exact ih hn
    | fault t f c x => exact hn
    | none_ t => exact hn
    | full t => exact hn
    | walk t f va w => exact hn
theorem Keeps.placeSetter {n} (h : Keeps a s) : Keeps a (s.placeSetter n) := by
  have hn := h.placeAll (k := 128) (n := n)
  unfold State.placeSetter
  generalize State.placeAll 128 n s = o at hn ⊢
  cases o <;> exact Keeps.settleCopy hn
theorem Keeps.feed {n id k} (h : Keeps a s) : Keeps a (s.feed n id k) := h.modCore.placeSetter

/-! ### Sys -/

protected theorem Keeps.execNop {n c} (h : Keeps a s) : Answers a (execNop n c s) := h.issue (fun _ ht => ht)
protected theorem Keeps.trapBody {n code} (h : Keeps a s) : ResKept a (trapBody n code s) := (h.modCore (by simp)).enter
protected theorem Keeps.execTrap {n c code} (h : Keeps a s) : Answers a (execTrap n c code s) := h.issue (fun _ ht => ht.trapBody)
theorem Keeps.resumeOp {n t1} (h : Keeps a s) : Keeps a (s.resumeOp n t1) := by
  unfold State.resumeOp
  split
  · exact h
  · exact h.modCore.feed
theorem Keeps.rteFail {n cause faddr} (h : Keeps a s) : Keeps a (s.rteFail n cause faddr) := by
  unfold State.rteFail
  exact h.entryView.escalate
protected theorem Keeps.rteBody {n} (h : Keeps a s) : ResKept a (rteBody n s) := by
  unfold rteBody
  refine .ite h.rteFail (.ite h.rteFail ?_)
  extract_lets p s1 f s2
  have h1 : Keeps a s1 := h.touchAll
  have h2 : Keeps a s2 := h1.setCore fun hp => h.peek n (by simpa using hp)
  clear_value s2 f
  split
  · exact h1.rteFail
  · split
    · exact h1.rteFail
    · exact Keeps.ite h2.resumeOp h2
protected theorem Keeps.execRte {n c} (h : Keeps a s) : Answers a (execRte n c s) :=
  h.issue (fun _ ht => ht.privileged (fun _ ht1 => ht1.rteBody))
protected theorem Keeps.movcReadBody {n crn k rg} (h : Keeps a s) : ResKept a (movcReadBody n crn k rg s) := by
  unfold movcReadBody
  split
  · exact trivial
  · split
    · exact h.coreOnly (by simp)
    · exact trivial
protected theorem Keeps.execMovcRead {n c crn k rg} (h : Keeps a s) : Answers a (execMovcRead n c crn k rg s) :=
  h.issue (fun _ ht => ht.movcReadBody)
protected theorem Keeps.movcWriteBody {n crn k rg} (h : Keeps a s) : ResKept a (movcWriteBody n crn k rg s) := by
  unfold movcWriteBody
  split
  · dsimp only
    split
    · exact trivial
    · exact trivial
  · split
    · dsimp only
      split
      · exact trivial
      · split
        · exact trivial
        · exact h.coreOnly
    · dsimp only
      split
      · exact trivial
      · split
        · exact trivial
        · exact h.coreOnly
protected theorem Keeps.execMovcWrite {n c crn k rg} (h : Keeps a s) : Answers a (execMovcWrite n c crn k rg s) :=
  h.issue (fun _ ht => ht.movcWriteBody)
protected theorem Keeps.fenceBody {n mask} (h : Keeps a s) : ResKept a (fenceBody n mask s) := by
  unfold fenceBody
  split
  · exact h.coreOnly
  · exact h.modCore
protected theorem Keeps.execFence {n c mask} (h : Keeps a s) : Answers a (execFence n c mask s) := h.issue (fun _ ht => ht.fenceBody)
theorem Keeps.fenceRelease {n} (h : Keeps a s) : Keeps a (s.fenceRelease n) := by
  unfold State.fenceRelease
  dsimp only
  split
  · split
    · exact h.setCore (fun hp => h.peek _ (by simpa using hp))
    · exact h
  · exact h
protected theorem Keeps.execFenceRelease {n} (h : Keeps a s) : Answers a (execFenceRelease n s) :=
  h.command (fun _ ht => .ite ht.fenceRelease ht)
protected theorem Keeps.tlbiBody {n kind aa} (h : Keeps a s) : ResKept a (tlbiBody n kind aa s) := h.coreOnly
protected theorem Keeps.execTlbi {n c kind aa} (h : Keeps a s) : Answers a (execTlbi n c kind aa s) :=
  h.issue (fun _ ht => ht.privileged (fun _ ht1 => ht1.tlbiBody))
protected theorem Keeps.tendBody {n} (h : Keeps a s) : ResKept a (tendBody n s) := h.modCore (by intro c; dsimp only; split <;> simp)
protected theorem Keeps.execTend {n c} (h : Keeps a s) : Answers a (execTend n c s) := h.issue (fun _ ht => ht.tendBody)
theorem Keeps.cutCopy {n id} (h : Keeps a s) : Keeps a (s.cutCopy n id) :=
  (h.setCore (c := { ((s.core n).modFop id (fun f => { f with cut := true })) with prog := _ }) (h.peek n)).fopCheck
theorem Keeps.walkCopy {n id va write} (h : Keeps a s) : Keeps a (s.walkCopy n id va write) := h.cutCopy.modCore
@[simp] theorem Core.copyFop_peek (c : Core) {k} : (c.copyFop k).1.peek = c.peek := by
  unfold Core.copyFop
  dsimp only
  split <;> rfl
protected theorem Keeps.mcopyBody {n ad as_ dn dm sg} (h : Keeps a s) : ResKept a (mcopyBody n ad as_ dn dm sg s) := by
  unfold mcopyBody
  dsimp only
  generalize FKind.mcopy _ _ _ _ _ = k
  have hc := Core.copyFop_peek (s.core n) (k := k)
  generalize (s.core n).copyFop k = o at hc ⊢
  rcases o with ⟨c1, f⟩
  have h1 : Keeps a (s.setCore n c1) := h.setCore fun hp => h.peek n (hc ▸ hp)
  refine .ite (Keeps.fopCheck (h.setCore fun hp => h.peek n (hc ▸ hp))) (.ite ?_ ?_)
  · split
    · exact .ite h h
    · exact h
  · have hp := h1.placeAll (k := 128) (n := n)
    generalize State.placeAll 128 n (s.setCore n c1) = o at hp ⊢
    cases o with
    | walk t g va w => exact Keeps.walkCopy hp
    | fault t g x v => exact .ite (Keeps.cutCopy hp) (Keeps.cutCopy hp)
    | none_ t => exact Keeps.fopCheck hp
    | placed t => exact (Keeps.modCore hp).settleCopy
    | full t => exact (Keeps.modCore hp).settleCopy
protected theorem Keeps.execMcopy {n c ad as_ dn dm sg} (h : Keeps a s) : Answers a (execMcopy n c ad as_ dn dm sg s) :=
  h.issue (fun _ ht => ht.mcopyBody)

/-! ### FeederCmd -/

theorem Keeps.blockPlace {n} (h : Keeps a s) : Keeps a (s.blockPlace n) := by
  have hp := h.placeStep (n := n)
  unfold State.blockPlace
  generalize s.placeStep n = o at hp ⊢
  cases o with
  | placed t => exact Keeps.settleCopy hp
  | none_ t => exact Keeps.settleCopy hp
  | full t => exact hp
  | walk t f va w => exact Keeps.walkCopy hp
  | fault t f c x => exact (Keeps.cutCopy hp).modCore.syncFault
protected theorem Keeps.execFeederBlockPlace {n} (h : Keeps a s) : Answers a (execFeederBlockPlace n s) :=
  h.command (fun _ ht => .ite ht.blockPlace ht)
protected theorem Keeps.execFeederBlockComplete {n id} (h : Keeps a s) : Answers a (execFeederBlockComplete n id s) :=
  h.command (fun _ ht => .ite ht.blockComplete ht)
theorem Keeps.walkEnd {n} (h : Keeps a s) : Keeps a (s.walkEnd n) := by
  unfold State.walkEnd
  split
  · split
    · rename_i e13
      dsimp only
      split
      · exact h.biAsk
      · exact (h.coreWalk.fst_of e13).modCore
    · rename_i e13
      dsimp only
      split
      · exact h.biAsk
      · exact (h.coreWalk.fst_of e13).modCore.syncFault
  · exact h
protected theorem Keeps.execTableWalk {n} (h : Keeps a s) : Answers a (execTableWalk n s) := h.command (fun _ ht => .ite ht.walkEnd ht)
theorem Keeps.ahead {n} (h : Keeps a s) : Keeps a (s.ahead n) := by
  unfold State.ahead
  dsimp only
  split
  · split
    · split
      · exact h.setCore (h.peek _)
      · exact h
    · exact h
  · exact h
protected theorem Keeps.execRunAhead {n} (h : Keeps a s) : Answers a (execRunAhead n s) := h.command (fun _ ht => .ite ht.ahead ht)
theorem Keeps.interrupt {n} (h : Keeps a s) : Keeps a (s.interrupt n) := by
  unfold State.interrupt
  split
  · exact h.abandon.enter
  · exact h
theorem Keeps.deferredEntry {n} (h : Keeps a s) : Keeps a (s.deferredEntry n) := by
  unfold State.deferredEntry
  split
  · exact h.abandon.modCore.enter
  · exact h

/-! ### Vec -/

theorem Keeps.vecWrite {n es} (h : Keeps a s) : Keeps a (s.vecWrite n es) := h.regReads.over.modCore (by simp)
theorem Keeps.vecReads {n regs} (h : Keeps a s) : Keeps a (s.vecReads n regs) := h.regReads
theorem Keeps.vSeen {n reads} (h : Keeps a s) : Keeps a (s.vSeen n reads).2 := by
  unfold State.vSeen
  dsimp only
  split
  · exact h.vecReads
  · exact h.vecReads
protected theorem Keeps.vecEls {n u dist serial reads writes f} (h : Keeps a s) : ResKept a (vecEls n u dist serial reads writes f s) := by
  unfold vecEls
  split
  · exact h
  · exact h.vSeen.vecWrite.modCore (by simp)
protected theorem Keeps.vecIssue {n k len enc legal} {body : State → Res} (h : Keeps a s) (hbody : ∀ t, Keeps a t → ResKept a (body t)) :
    Answers a (vecIssue n k len enc legal body s) :=
  h.issue (fun _ ht => ht.shaped (fun _ ht1 => hbody _ ht1))
protected theorem Keeps.vecIssueAny {n k len enc legal} {body : State → Res} (h : Keeps a s) (hbody : ∀ t, Keeps a t → ResKept a (body t)) :
    Answers a (vecIssueAny n k len enc legal body s) :=
  h.issue (fun _ ht => ht.shaped (fun _ ht1 => hbody _ ht1))

/-! ### Tile -/

protected theorem Keeps.tcfgBody {n t1 dn} (h : Keeps a s) : ResKept a (tcfgBody n t1 dn s) := by
  unfold tcfgBody
  dsimp only
  split
  · exact trivial
  · exact h.intoSetter
protected theorem Keeps.execTcfg {n c t1 dn} (h : Keeps a s) : Answers a (execTcfg n c t1 dn s) := h.issue (fun _ ht => ht.tcfgBody)
protected theorem Keeps.execTzero {n c t1} (h : Keeps a s) : Answers a (execTzero n c t1 s) := h.issue (fun _ ht => ht.intoSetter)
protected theorem Keeps.vecToSetter {n regs o} (h : Keeps a s) : ResKept a (vecToSetter n regs o s) := by
  unfold vecToSetter
  split
  · rename_i e03
    dsimp only
    split
    · exact h
    · exact (h.vSeen.snd_of e03).modCore (by simp)
protected theorem Keeps.execTmvVt {n c t1 va row} (h : Keeps a s) : Answers a (execTmvVt n c t1 va row s) :=
  h.issue (fun _ ht => ht.shaped (fun _ ht1 => ht1.vecToSetter))
protected theorem Keeps.execTmask {n c t1 va} (h : Keeps a s) : Answers a (execTmask n c t1 va s) := h.issue (fun _ ht => ht.vecToSetter)
protected theorem Keeps.execTmvTv {n c t1 vd row} (h : Keeps a s) : Answers a (execTmvTv n c t1 vd row s) :=
  h.issue (fun _ ht => ht.shaped (fun _ ht1 => ht1.intoSetter))
protected theorem Keeps.execTmeta {n c t1 vd k} (h : Keeps a s) : Answers a (execTmeta n c t1 vd k s) := h.issue (fun _ ht => ht.intoSetter)
protected theorem Keeps.imageBody {n an o} (h : Keeps a s) : ResKept a (imageBody n an o s) := by
  unfold imageBody
  dsimp only
  split
  · exact trivial
  · exact h.intoSetter
protected theorem Keeps.execTsave {n c t1 an} (h : Keeps a s) : Answers a (execTsave n c t1 an s) :=
  h.issue (fun _ ht => ht.privileged (fun _ ht1 => ht1.imageBody))
protected theorem Keeps.execTrest {n c t1 an} (h : Keeps a s) : Answers a (execTrest n c t1 an s) :=
  h.issue (fun _ ht => ht.privileged (fun _ ht1 => ht1.imageBody))
protected theorem Keeps.execTld {n c t1 an dk up w} (h : Keeps a s) : Answers a (execTld n c t1 an dk up w s) :=
  h.issue (fun _ ht => ht.shaped (fun _ ht1 => ht1.intoSetter (by simp)))
protected theorem Keeps.execTileStore {n c t1 an dk up w} (h : Keeps a s) : Answers a (execTileStore n c t1 an dk up w s) :=
  h.issue (fun _ ht => ht.shaped (fun _ ht1 => ht1.intoSetter (by simp)))

/-! ### Array -/

protected theorem Keeps.arrIssue {n q ok rows o after} (h : Keeps a s) : ResKept a (arrIssue n q ok rows o after s) := by
  unfold arrIssue
  split
  · exact trivial
  · split
    · exact trivial
    · exact h.intoSetter
protected theorem Keeps.execMma {n c q tw ta dc} (h : Keeps a s) : Answers a (execMma n c q tw ta dc s) := h.issue (fun _ ht => ht.arrIssue)
protected theorem Keeps.accOpenBody {n q g a1 tree z i dn} (h : Keeps a s) : ResKept a (accOpenBody n q g a1 tree z i dn s) := by
  unfold accOpenBody
  dsimp only
  split
  · exact trivial
  · split
    · exact trivial
    · exact h.intoSetter
protected theorem Keeps.execAccOpen {n c q g acc tree z i dn} (h : Keeps a s) : Answers a (execAccOpen n c q g acc tree z i dn s) :=
  h.issue (fun _ ht => ht.accOpenBody)
protected theorem Keeps.accCloseBody {n q g} (h : Keeps a s) : ResKept a (accCloseBody n q g s) := by
  unfold accCloseBody
  exact h.arrIssue
protected theorem Keeps.execAccClose {n c q g} (h : Keeps a s) : Answers a (execAccClose n c q g s) := h.issue (fun _ ht => ht.accCloseBody)
protected theorem Keeps.execAccZero {n c q acc i} (h : Keeps a s) : Answers a (execAccZero n c q acc i s) :=
  h.issue (fun _ ht => ht.arrIssue)
protected theorem Keeps.execAccDrt {n c q acc t1 dc} (h : Keeps a s) : Answers a (execAccDrt n c q acc t1 dc s) :=
  h.issue (fun _ ht => ht.arrIssue)
protected theorem Keeps.execAccDrm {n c q acc an dk dc} (h : Keeps a s) : Answers a (execAccDrm n c q acc an dk dc s) :=
  h.issue (fun _ ht => ht.arrIssue)
protected theorem Keeps.execAccDrj {n c q acc dj dc} (h : Keeps a s) : Answers a (execAccDrj n c q acc dj dc s) :=
  h.issue (fun _ ht => ht.arrIssue)
protected theorem Keeps.execAccLd {n c q acc an dk dc} (h : Keeps a s) : Answers a (execAccLd n c q acc an dk dc s) :=
  h.issue (fun _ ht => ht.arrIssue)
theorem Keeps.shelfFill {n q weight} (h : Keeps a s) : Keeps a (s.shelfFill n q weight) := by
  unfold State.shelfFill
  split
  · dsimp only
    split
    · exact h
    · split
      · exact h
      · split
        · exact h
        · split
          · exact h
          · exact .over (.setCore (.ite h h.regReads) (fun hp => (.ite h h.regReads : Keeps a _).peek _ (by simpa using hp)))
  · dsimp only
    split
    · exact h
    · split
      · exact h
      · split
        · exact h
        · split
          · exact h
          · exact .over (.setCore (.ite h h.regReads) (fun hp => (.ite h h.regReads : Keeps a _).peek _ (by simpa using hp)))
protected theorem Keeps.execShelfFill {n q weight} (h : Keeps a s) : Answers a (execShelfFill n q weight s) :=
  h.command (fun _ ht => .ite ht.shelfFill ht)
theorem Keeps.weightReads {n q tw idx} (h : Keeps a s) : Keeps a (s.weightReads n q tw idx) := h.regReads
theorem Keeps.weightCopy {n q} (h : Keeps a s) : Keeps a (s.weightCopy n q) := by
  unfold State.weightCopy
  dsimp only
  split
  · exact h
  · split
    · split
      · exact h
      · exact (h.weightReads.setCore (fun hp => h.weightReads.peek _ (by simpa using hp))).over
    · exact h
protected theorem Keeps.execWeightCopy {n q} (h : Keeps a s) : Answers a (execWeightCopy n q s) :=
  h.command (fun _ ht => .ite ht.weightCopy ht)
theorem Keeps.swapCells {n q} (h : Keeps a s) : Keeps a (s.swapCells n q) :=
  (h.setCore (n := n) (c := (s.core n).setArr q { (s.core n).arr q with active := _, shadow := _ }) (h.peek n)).trans
    ⟨id, fun e => List.map_eq_nil_iff.2 e, fun _ => id⟩
theorem Keeps.passReads {n e q ta} (h : Keeps a s) : Keeps a (s.passReads n e q ta) := h.regReads
theorem Keeps.passFire {n e q ta} (h : Keeps a s) : Keeps a (s.passFire n e q ta) := by
  unfold State.passFire
  split
  · dsimp only
    split
    · exact h
    · exact h.passReads.setCore (fun hp => h.passReads.peek _ (by simpa using hp))
  · dsimp only
    split
    · exact h
    · exact h.swapCells.passReads.setCore (fun hp => h.swapCells.passReads.peek _ (by simpa using hp))
theorem Keeps.freePast {v} (h : Keeps a s) : Keeps a { s with freeCtr := v } := h
theorem Keeps.tldFire {n e t1 x} (h : Keeps a s) : Keeps a (s.tldFire n e t1 x) :=
  (h.freePast.modCore fun c hp => by rwa [foldl_peek fun c _ => Core.setTile_peek c] at hp).feed
theorem Keeps.tsaveFire {n e t1} (h : Keeps a s) : Keeps a (s.tsaveFire n e t1) := h.modCore.feed
theorem Core.moved_peek {c d : Core} {o : SOp} (h : c.moved o = some d) : d.peek = c.peek := by
  unfold Core.moved at h
  split at h <;> cases h <;> rfl
theorem Keeps.fire {n e} (h : Keeps a s) : Keeps a (s.fire n e) := by
  have hs : Keeps a ((s.regReads (e.op.reads n)).over (e.fresh n)) := h.regReads.over
  unfold State.fire
  dsimp only
  generalize (s.regReads (e.op.reads n)).over (e.fresh n) = u at hs ⊢
  have h1 : Keeps a (u.modCore n (fun c => c.modEntry e.id (fun x => { x with phase := .fired, exp := u.expFor n e.op }))) := hs.modCore (by simp)
  generalize u.modCore n (fun c => c.modEntry e.id (fun x => { x with phase := .fired, exp := u.expFor n e.op })) = v at h1 ⊢
  split
  · exact h1.tldFire
  · exact h1.feed
  · exact h1.tsaveFire
  · exact h1.feed
  · exact h1.feed
  · exact h1.feed
  · exact h1
  · exact h1.feed
  · exact hs.passFire
  · exact (h1.modCore (by simp)).sDone
  · exact .ite h1 (h1.modCore (by simp)).sDone
  · exact (h1.modCore (by simp)).sDone
  · split
    · next o _ _ _ _ _ _ _ _ _ _ _ _ c e => exact (h1.setCore fun hp => h1.peek n (Core.moved_peek e ▸ hp)).sDone
    · exact h1
theorem Keeps.setterFire {n id} (h : Keeps a s) : Keeps a (s.setterFire n id) := by
  unfold State.setterFire
  split
  · exact h
  · split
    · exact h.fire
    · exact h
protected theorem Keeps.execSetterFire {n id} (h : Keeps a s) : Answers a (execSetterFire n id s) :=
  h.command (fun _ ht => .ite ht.setterFire ht)
theorem Keeps.passStart {n q} (h : Keeps a s) : Keeps a (s.passStart n q) := by
  unfold State.passStart
  split
  · exact h
  · split
    · exact h.passFire
    · exact h
protected theorem Keeps.execPassStart {n q} (h : Keeps a s) : Answers a (execPassStart n q s) :=
  h.command (fun _ ht => .ite ht.passStart ht)
theorem Keeps.accReads {n q a1 gv rows} (h : Keeps a s) : Keeps a (s.accReads n q a1 gv rows) := by
  unfold State.accReads
  split
  · exact h
  · exact h.regReads
theorem Keeps.passDone {n q} (h : Keeps a s) : Keeps a (s.passDone n q) := by
  unfold State.passDone
  dsimp only
  split
  · exact h
  · split
    · split
      · exact (h.accReads.setCore (fun hp => h.accReads.peek _ (by simpa using hp))).sDone
      · exact h
    · exact h
protected theorem Keeps.execPassComplete {n q} (h : Keeps a s) : Answers a (execPassComplete n q s) :=
  h.command (fun _ ht => .ite ht.passDone ht)
theorem Keeps.sumReads {n q g} (h : Keeps a s) : Keeps a (s.sumReads n q g) := h.regReads.over
theorem Keeps.treeDone {n q g} (h : Keeps a s) : Keeps a (s.treeDone n q g) := by
  unfold State.treeDone
  split
  · exact h
  · exact h.sumReads.modCore.sDone
protected theorem Keeps.execTreeCloseComplete {n q g} (h : Keeps a s) : Answers a (execTreeCloseComplete n q g s) :=
  h.command (fun _ ht => .ite ht.treeDone ht)
theorem Keeps.drainClear {n q a1 dc} (h : Keeps a s) : Keeps a (s.drainClear n q a1 dc) := .ite h.modCore.over h
theorem Keeps.drainDone {n id} (h : Keeps a s) : Keeps a (s.drainDone n id) := by
  unfold State.drainDone
  split
  · exact h
  · split
    · exact h
    · split
      · exact h.regReads.over.drtWrite.drainClear.sDone
      · split
        · exact h.drainClear.sDone
        · exact h
      · split
        · exact h.drainClear.sDone
        · exact h
      · exact h
protected theorem Keeps.execDrainComplete {n id} (h : Keeps a s) : Answers a (execDrainComplete n id s) :=
  h.command (fun _ ht => .ite ht.drainDone ht)

/-! ### Pugmill -/

theorem Keeps.leafDone {n id} (h : Keeps a s) : Keeps a (s.leafDone n id) := by
  unfold State.leafDone
  split
  · exact h
  refine .ite h ?_
  split
  · next q acc job off dc sem _ =>
    dsimp only
    have hu : Keeps a (s.regReads (inAcc n q acc (fun _ => true))) := h.regReads
    generalize s.regReads (inAcc n q acc (fun _ => true)) = u at hu ⊢
    generalize ((u.core n).arr q).acc1 acc = x
    have hl := hu.leafStage (j := fld job 0 12) (b := off.toNat) (xs := x.tileOut.1) (marks := x.marks)
    generalize u.leafStage (fld job 0 12) off.toNat x.tileOut.1 x.marks = o at hl ⊢
    cases o with
    | wait t => exact hl
    | fail t y f => exact (Keeps.deferAction (.ite hl (Keeps.coreNf hl))).sDone
    | done t v => exact Keeps.modCore (.ite hl (Keeps.coreNf hl)) (by simp)
  · exact h

/-! ### Array -/

protected theorem Keeps.execLeafStage {n id} (h : Keeps a s) : Answers a (execLeafStage n id s) :=
  h.command (fun _ ht => .ite ht.leafDone ht)

/-! ### VecArith -/

protected theorem Keeps.vfnExec {x n k m vd va b} (h : Keeps a s) : Answers a (vfnExec x n k m vd va b s) :=
  h.vecIssue (fun _ ht => ht.vecEls)
protected theorem Keeps.execVadd {n k m vd va b} (h : Keeps a s) : Answers a (execVadd n k m vd va b s) := h.vfnExec
protected theorem Keeps.execVsub {n k m vd va b} (h : Keeps a s) : Answers a (execVsub n k m vd va b s) := h.vfnExec
protected theorem Keeps.execVand {n k m vd va b} (h : Keeps a s) : Answers a (execVand n k m vd va b s) := h.vfnExec
protected theorem Keeps.execVor {n k m vd va b} (h : Keeps a s) : Answers a (execVor n k m vd va b s) := h.vfnExec
protected theorem Keeps.execVxor {n k m vd va b} (h : Keeps a s) : Answers a (execVxor n k m vd va b s) := h.vfnExec
protected theorem Keeps.execVshl {n k m vd va b} (h : Keeps a s) : Answers a (execVshl n k m vd va b s) := h.vfnExec
protected theorem Keeps.execVshr {n k m vd va b} (h : Keeps a s) : Answers a (execVshr n k m vd va b s) := h.vfnExec
protected theorem Keeps.execVsar {n k m vd va b} (h : Keeps a s) : Answers a (execVsar n k m vd va b s) := h.vfnExec
protected theorem Keeps.execVmin {n k m vd va b} (h : Keeps a s) : Answers a (execVmin n k m vd va b s) := h.vfnExec
protected theorem Keeps.execVmax {n k m vd va b} (h : Keeps a s) : Answers a (execVmax n k m vd va b s) := h.vfnExec
protected theorem Keeps.execVminu {n k m vd va b} (h : Keeps a s) : Answers a (execVminu n k m vd va b s) := h.vfnExec
protected theorem Keeps.execVmaxu {n k m vd va b} (h : Keeps a s) : Answers a (execVmaxu n k m vd va b s) := h.vfnExec
protected theorem Keeps.execVmov {n k m vd va b} (h : Keeps a s) : Answers a (execVmov n k m vd va b s) := h.vfnExec
protected theorem Keeps.execVdiv {n k m vd va b} (h : Keeps a s) : Answers a (execVdiv n k m vd va b s) := h.vfnExec
protected theorem Keeps.execVdivu {n k m vd va b} (h : Keeps a s) : Answers a (execVdivu n k m vd va b s) := h.vfnExec
protected theorem Keeps.execVmul {n k m vd va b} (h : Keeps a s) : Answers a (execVmul n k m vd va b s) := h.vfnExec
protected theorem Keeps.execVmulh {n k m vd va b} (h : Keeps a s) : Answers a (execVmulh n k m vd va b s) := h.vfnExec
protected theorem Keeps.execVmulhu {n k m vd va b} (h : Keeps a s) : Answers a (execVmulhu n k m vd va b s) := h.vfnExec
protected theorem Keeps.execVmacc {n k m vd va b} (h : Keeps a s) : Answers a (execVmacc n k m vd va b s) := h.vfnExec
protected theorem Keeps.execVwmul {n k m vd va b} (h : Keeps a s) : Answers a (execVwmul n k m vd va b s) := h.vfnExec
protected theorem Keeps.execVwmulu {n k m vd va b} (h : Keeps a s) : Answers a (execVwmulu n k m vd va b s) := h.vfnExec
protected theorem Keeps.execVwmulsu {n k m vd va b} (h : Keeps a s) : Answers a (execVwmulsu n k m vd va b s) := h.vfnExec
protected theorem Keeps.execVwmacc {n k m vd va b} (h : Keeps a s) : Answers a (execVwmacc n k m vd va b s) := h.vfnExec
protected theorem Keeps.execVsadd {n k m vd va b} (h : Keeps a s) : Answers a (execVsadd n k m vd va b s) := h.vfnExec
protected theorem Keeps.execVsaddu {n k m vd va b} (h : Keeps a s) : Answers a (execVsaddu n k m vd va b s) := h.vfnExec
protected theorem Keeps.execVssub {n k m vd va b} (h : Keeps a s) : Answers a (execVssub n k m vd va b s) := h.vfnExec
protected theorem Keeps.execVssubu {n k m vd va b} (h : Keeps a s) : Answers a (execVssubu n k m vd va b s) := h.vfnExec
protected theorem Keeps.execVaadd {n k m vd va b} (h : Keeps a s) : Answers a (execVaadd n k m vd va b s) := h.vfnExec
protected theorem Keeps.execVaaddu {n k m vd va b} (h : Keeps a s) : Answers a (execVaaddu n k m vd va b s) := h.vfnExec
protected theorem Keeps.execVsmul {n k m vd va b} (h : Keeps a s) : Answers a (execVsmul n k m vd va b s) := h.vfnExec
protected theorem Keeps.execVssra {n k m vd va b} (h : Keeps a s) : Answers a (execVssra n k m vd va b s) := h.vfnExec
protected theorem Keeps.execVssrl {n k m vd va b} (h : Keeps a s) : Answers a (execVssrl n k m vd va b s) := h.vfnExec
protected theorem Keeps.execVnclip {n k m vd va b} (h : Keeps a s) : Answers a (execVnclip n k m vd va b s) := h.vfnExec
protected theorem Keeps.execVnclipu {n k m vd va b} (h : Keeps a s) : Answers a (execVnclipu n k m vd va b s) := h.vfnExec
protected theorem Keeps.execVfadd {n k m vd va b} (h : Keeps a s) : Answers a (execVfadd n k m vd va b s) := h.vfnExec
protected theorem Keeps.execVfsub {n k m vd va b} (h : Keeps a s) : Answers a (execVfsub n k m vd va b s) := h.vfnExec
protected theorem Keeps.execVfmul {n k m vd va b} (h : Keeps a s) : Answers a (execVfmul n k m vd va b s) := h.vfnExec
protected theorem Keeps.execVfmacc {n k m vd va b} (h : Keeps a s) : Answers a (execVfmacc n k m vd va b s) := h.vfnExec
protected theorem Keeps.execVfmin {n k m vd va b} (h : Keeps a s) : Answers a (execVfmin n k m vd va b s) := h.vfnExec
protected theorem Keeps.execVfmax {n k m vd va b} (h : Keeps a s) : Answers a (execVfmax n k m vd va b s) := h.vfnExec
protected theorem Keeps.execVfdiv {n k m vd va b} (h : Keeps a s) : Answers a (execVfdiv n k m vd va b s) := h.vfnExec
protected theorem Keeps.execVfsqrt {n k m vd va b} (h : Keeps a s) : Answers a (execVfsqrt n k m vd va b s) := h.vfnExec
protected theorem Keeps.execVcmpeq {n k m vd va b} (h : Keeps a s) : Answers a (execVcmpeq n k m vd va b s) := h.vfnExec
protected theorem Keeps.execVcmpne {n k m vd va b} (h : Keeps a s) : Answers a (execVcmpne n k m vd va b s) := h.vfnExec
protected theorem Keeps.execVcmplt {n k m vd va b} (h : Keeps a s) : Answers a (execVcmplt n k m vd va b s) := h.vfnExec
protected theorem Keeps.execVcmpge {n k m vd va b} (h : Keeps a s) : Answers a (execVcmpge n k m vd va b s) := h.vfnExec
protected theorem Keeps.execVcmpltu {n k m vd va b} (h : Keeps a s) : Answers a (execVcmpltu n k m vd va b s) := h.vfnExec
protected theorem Keeps.execVcmpgeu {n k m vd va b} (h : Keeps a s) : Answers a (execVcmpgeu n k m vd va b s) := h.vfnExec
protected theorem Keeps.dotExec {t1 ets u f n k m vd va b} (h : Keeps a s) : Answers a (dotExec t1 ets u f n k m vd va b s) :=
  h.vecIssue (fun _ ht => ht.vecEls)
protected theorem Keeps.execVdotQ {n k m vd va b} (h : Keeps a s) : Answers a (execVdotQ n k m vd va b s) := h.dotExec
protected theorem Keeps.execVdotuQ {n k m vd va b} (h : Keeps a s) : Answers a (execVdotuQ n k m vd va b s) := h.dotExec
protected theorem Keeps.execVfdotD {n k m vd va b} (h : Keeps a s) : Answers a (execVfdotD n k m vd va b s) := h.dotExec

/-! ### VecCore -/

protected theorem Keeps.vsetvlBody {n dd dn grp et} (h : Keeps a s) : ResKept a (vsetvlBody n dd dn grp et s) :=
  h.coreOnly fun c hp => by rwa [Core.sendP_peek, Core.send_peek, Core.send_peek] at hp
protected theorem Keeps.execVsetvl {n c dd dn grp et} (h : Keeps a s) : Answers a (execVsetvl n c dd dn grp et s) :=
  h.vecIssueAny (fun _ ht => ht.vsetvlBody)
protected theorem Keeps.execVwait {n c} (h : Keeps a s) : Answers a (execVwait n c s) := by
  unfold execVwait
  exact h.vecIssueAny (fun _ ht => by
    split
    · exact ht
    · exact ht)
protected theorem Keeps.vecScalar {n names reads past} {free : W64 → Core → Core} {f : State → Res} (h : Keeps a s)
    (hfree : ∀ x c, (free x c).peek = c.peek) (hf : ∀ t, Keeps a t → ResKept a (f t)) :
    ResKept a (vecScalar n names reads past free f s) :=
  .ite h (.ite h (.ite (h.free.modCore fun c hp => (hfree _ c).symm.trans hp) (hf _ h.vecReads)))
protected theorem Keeps.vmvXBody {n dd va dn} (h : Keeps a s) : ResKept a (vmvXBody n dd va dn s) := by
  unfold vmvXBody
  exact h.vecScalar (fun _ c => Core.sendVal_peek c) fun _ ht =>
    .ite (ht.free.coreOnly (by simp)) (.ite (ht.free.coreOnly (by simp)) (.ite ht (ht.free.coreOnly (by simp))))
protected theorem Keeps.execVmvX {n c dd va dn} (h : Keeps a s) : Answers a (execVmvX n c dd va dn s) :=
  h.vecIssue (fun _ ht => ht.vmvXBody)
protected theorem Keeps.vinsBody {n vd dm dn} (h : Keeps a s) : ResKept a (vinsBody n vd dm dn s) := by
  unfold vinsBody
  dsimp only
  split
  · exact h
  · split
    · exact h
    · exact h.vecWrite.modCore
protected theorem Keeps.execVins {n c vd dm dn} (h : Keeps a s) : Answers a (execVins n c vd dm dn s) :=
  h.vecIssue (fun _ ht => ht.vinsBody)
protected theorem Keeps.vpredBody {n p vb f} (h : Keeps a s) : ResKept a (vpredBody n p vb f s) :=
  h.vecScalar (fun _ c => Core.sendPred_peek c) fun _ ht => ht.coreOnly (by simp)
protected theorem Keeps.execVany {n c p vb} (h : Keeps a s) : Answers a (execVany n c p vb s) := h.vecIssue (fun _ ht => ht.vpredBody)
protected theorem Keeps.execVall {n c p vb} (h : Keeps a s) : Answers a (execVall n c p vb s) := h.vecIssue (fun _ ht => ht.vpredBody)
protected theorem Keeps.vpopcBody {n dd vb} (h : Keeps a s) : ResKept a (vpopcBody n dd vb s) :=
  h.vecScalar (fun _ c => Core.sendP_peek c) fun _ ht => .ite ht (ht.coreOnly (by simp))
protected theorem Keeps.execVpopc {n c dd vb} (h : Keeps a s) : Answers a (execVpopc n c dd vb s) := h.vecIssue (fun _ ht => ht.vpopcBody)
protected theorem Keeps.redExec {op n k m vd va vb} (h : Keeps a s) : Answers a (redExec op n k m vd va vb s) :=
  h.vecIssue (fun _ ht => ht.vecEls)
protected theorem Keeps.execVredsum {n c m vd va vb} (h : Keeps a s) : Answers a (execVredsum n c m vd va vb s) := h.redExec
protected theorem Keeps.execVredmax {n c m vd va vb} (h : Keeps a s) : Answers a (execVredmax n c m vd va vb s) := h.redExec
protected theorem Keeps.execVredmin {n c m vd va vb} (h : Keeps a s) : Answers a (execVredmin n c m vd va vb s) := h.redExec
protected theorem Keeps.execVslideup {n c m vd va dn} (h : Keeps a s) : Answers a (execVslideup n c m vd va dn s) :=
  h.vecIssue (fun _ ht => ht.vecEls)
protected theorem Keeps.execVslidedown {n c m vd va dn} (h : Keeps a s) : Answers a (execVslidedown n c m vd va dn s) :=
  h.vecIssue (fun _ ht => ht.vecEls)
protected theorem Keeps.execVgatherv {n c m vd va vb} (h : Keeps a s) : Answers a (execVgatherv n c m vd va vb s) :=
  h.vecIssue (fun _ ht => ht.vecEls)
protected theorem Keeps.execVcompress {n c vd va vb} (h : Keeps a s) : Answers a (execVcompress n c vd va vb s) :=
  h.vecIssue (fun _ ht => ht.vecEls)
protected theorem Keeps.execVcvt {n c m vd va tf} (h : Keeps a s) : Answers a (execVcvt n c m vd va tf s) :=
  h.vecIssueAny (fun _ ht => ht.vecEls)
protected theorem Keeps.execVgen {n c m vd dk ds dt db} (h : Keeps a s) : Answers a (execVgen n c m vd dk ds dt db s) :=
  h.vecIssue (fun _ ht => ht.vecEls)
protected theorem Keeps.execVtopk {n c m vd vp va k seg} (h : Keeps a s) : Answers a (execVtopk n c m vd vp va k seg s) :=
  h.vecIssue (fun _ ht => ht.vecEls)
protected theorem Keeps.execVscomb {n c vd va ve nl} (h : Keeps a s) : Answers a (execVscomb n c vd va ve nl s) :=
  h.vecIssue (fun _ ht => ht.vecEls)

/-! ### VecMem -/

theorem Keeps.vfresh {n k c an i} (h : Keeps a s) : Keeps a (s.vfresh n k c an i) := h.foldl (fun _ _ ht => .ite ht.fresh ht)
theorem Keeps.untilEntry {n serial is} (h : Keeps a s) : Keeps a (s.untilEntry n serial is).2.2 := by
  unfold State.untilEntry
  split
  · exact h.free
  · exact h
theorem Keeps.vread {sew i x3} (h : Keeps a s) : Keeps a (s.vread sew i x3).1 := by
  unfold State.vread
  split
  · exact h.touchAll
  · exact h.devSees
protected theorem Keeps.vloadLoop {n k c m quiet vd an is} {x : VRun} (h : Keeps a x.s) : Keeps a (vloadLoop n k c m quiet vd an is x).s := by
  induction is generalizing x with
  | nil => exact h
  | cons i is ih =>
    have hf : Keeps a (x.s.vfresh n k c an i) := h.vfresh
    unfold vloadLoop
    extract_lets y
    have hy : Keeps a y.s := hf
    clear_value y
    split
    · split
      · exact ih hy
      · exact hy
    · exact ih (List.foldlRecOn (motive := fun z : VRun => Keeps a z.s) _ _ hy fun z hz _ _ => Keeps.vread hz)
protected theorem Keeps.vmemEnd {n k an up took head x} (h : Keeps a s) (ht : ∀ c, (took c).peek = c.peek) :
    ResKept a (vmemEnd n k an up took head x s) := by
  unfold vmemEnd
  refine .ite h ?_
  have hc (i : Nat) : Keeps a (s.modCore n (fun c => c.stopsAt head i)) := h.modCore
  split
  · exact h.modCore fun c hp => by rwa [ht, Core.peek_ite, Core.send_peek, ite_self] at hp
  · exact .ite (hc _) (hc _)
  · exact hc _
  · exact (hc _).holdWalk
  · exact hc _
protected theorem Keeps.vloadBody {k n m vd an up} (h : Keeps a s) : ResKept a (vloadBody k n m vd an up s) :=
  .ite h (Keeps.vmemEnd (Keeps.vecWrite (Keeps.vloadLoop (x := { s := _, els := [], out := [], stop := none }) h.vSeen.untilEntry))
    fun c => Core.vTook_peek c)
theorem Keeps.vwrite {n ws} (h : Keeps a s) : Keeps a (s.vwrite n ws) := h.modCore.writeMarked
theorem Keeps.vflush {n sew out} (h : Keeps a s) : Keeps a (s.vflush n sew out) := .ite h.touchAll.vwrite h.vwrite
protected theorem Keeps.vstoreLoop {n k c m quiet qdata vd an is} {x : VRun} (h : Keeps a x.s) :
    Keeps a (vstoreLoop n k c m quiet qdata vd an is x).s := by
  induction is generalizing x with
  | nil => exact h
  | cons i is ih =>
    have hf : Keeps a (x.s.vfresh n k c an i) := h.vfresh
    unfold vstoreLoop
    extract_lets val mk y one
    have hy : Keeps a y.s := hf
    clear_value y
    split
    · split
      · exact ih hy
      · exact hy
    · split
      · exact hy
      · extract_lets z w
        have hz : Keeps a z.s := List.foldlRecOn (motive := fun z : VRun => Keeps a z.s) _ _ hy fun z hz p _ => by
          unfold one
          split
          · split
            · exact hz
            · exact Keeps.devWrite hz
          · exact hz
        clear_value z
        refine ih ?_
        unfold w
        split
        · exact hz.vflush
        · exact hz.vflush
        · exact hz
theorem Keeps.iteRun {c : Prop} [Decidable c] {x y : VRun} (hx : Keeps a x.s) (hy : Keeps a y.s) : Keeps a (if c then x else y).s := by
  split
  · exact hx
  · exact hy
protected theorem Keeps.vstoreBody {k n m vd an up} (h : Keeps a s) : ResKept a (vstoreBody k n m vd an up s) :=
  have hy {x u c m' q q' vd' an' is} (hs : Keeps a u) := Keeps.vstoreLoop (k := k) (n := n) (c := c) (m := m') (quiet := q) (qdata := q') (vd := vd')
    (an := an') (is := is) (x := { s := u, els := [], out := [], stop := x }) hs
  .ite h (Keeps.vmemEnd (Keeps.vflush (.iteRun (Keeps.vstoreLoop (hy h.vSeen.untilEntry)) (hy h.vSeen.untilEntry))) fun c => Core.vTook_peek c)
protected theorem Keeps.execVld {n c m vd an up} (h : Keeps a s) : Answers a (execVld n c m vd an up s) :=
  h.vecIssue (fun _ ht => ht.vloadBody)
protected theorem Keeps.execVst {n c m vd an up} (h : Keeps a s) : Answers a (execVst n c m vd an up s) :=
  h.vecIssue (fun _ ht => ht.vstoreBody)
protected theorem Keeps.execVlds {n c m vd an dk up} (h : Keeps a s) : Answers a (execVlds n c m vd an dk up s) :=
  h.vecIssue (fun _ ht => ht.vloadBody)
protected theorem Keeps.execVsts {n c m vd an dk up} (h : Keeps a s) : Answers a (execVsts n c m vd an dk up s) :=
  h.vecIssue (fun _ ht => ht.vstoreBody)
protected theorem Keeps.execVldseg {n c m vd an nf up} (h : Keeps a s) : Answers a (execVldseg n c m vd an nf up s) :=
  h.vecIssue (fun _ ht => ht.vloadBody)
protected theorem Keeps.execVstseg {n c m vd an nf up} (h : Keeps a s) : Answers a (execVstseg n c m vd an nf up s) :=
  h.vecIssue (fun _ ht => ht.vstoreBody)
protected theorem Keeps.execVldx {n c m vd an vi up} (h : Keeps a s) : Answers a (execVldx n c m vd an vi up s) :=
  h.vecIssue (fun _ ht => ht.vloadBody)
protected theorem Keeps.execVstx {n c m vd an vi up} (h : Keeps a s) : Answers a (execVstx n c m vd an vi up s) :=
  h.vecIssue (fun _ ht => ht.vstoreBody)
theorem Keeps.vecDone {n u} (h : Keeps a s) : Keeps a (s.vecDone n u) := h.modCore
protected theorem Keeps.execVectorComplete {n u} (h : Keeps a s) : Answers a (execVectorComplete n u s) :=
  h.command (fun _ ht => .ite ht.vecDone ht)

/-! ### HostBus -/

theorem Keeps.portWrite {off bytes w} (h : Keeps a s) : Keeps a (s.portWrite off bytes w) :=
  .ite h.registerWrite (.ite h.bar4Write (.ite h.cfgSet h))
protected theorem Keeps.execBpctlWrite {src w} (h : Keeps a s) : Answers a (execBpctlWrite src w s) :=
  h.command (fun _ ht => ht.inTurn (fun _ ht1 => ht1.bpctlWrite))
protected theorem Keeps.execBpRegWrite {src reg w} (h : Keeps a s) : Answers a (execBpRegWrite src reg w s) :=
  h.command (fun _ ht => ht.inTurn (fun _ ht1 => ht1.bpRegWrite))
protected theorem Keeps.execHsigWrite {src w} (h : Keeps a s) : Answers a (execHsigWrite src w s) :=
  h.command (fun _ ht => ht.inTurn (fun _ ht1 => ht1.hsig))
protected theorem Keeps.execRegisterWrite {src off bytes w} (h : Keeps a s) : Answers a (execRegisterWrite src off bytes w s) :=
  h.command (fun _ ht => ht.inTurn (fun _ ht1 => .ite ht1.portWrite ht1.registerWrite))
/-- Every row of the opcode table that a write of the host spells. -/
protected theorem Keeps.rowRun {r} (h : Keeps a s) : Answers a (rowRun r s) := by
  cases r
  exacts [
    h.execComputeReset, h.execFireflyRestart, h.execGlobalCfgWrite, h.execPgIrqEnWrite, h.execPgLock, h.execPgErrClr, h.execRegisterWrite,
    h.execCoreHalt, h.execCoreResume, h.execCoreReset, h.execCoreSwi, h.execMouldTake, h.execStepCommit, h.execStepRollback, h.execSlogWrite,
    h.execXrootLoWrite, h.execXrootHiWrite, h.execJrootLoWrite, h.execJrootHiWrite, h.execQueueDoorbell, h.execCoreDoorbell, h.execQueueEnable,
    h.execQueueDisable, h.execQeWrite, h.execPreempt, h.execDvfsWrite, h.execHopAdd, h.execHopSub, h.execHopSet, h.execHopArrive, h.execTclr,
    h.execBCtlWrite, h.execBNextWrite, h.execBCtxWrite, h.execLinkEnable, h.execLinkDisable, h.execLinkRetrain, h.execLinkAdmit, h.execDiscoveryRound,
    h.execRemoteDoorbellStore, h.execJcmdOpen, h.execJcmdClose, h.execJeWrite, h.execXgoEnable, h.execXgoDisable, h.execXgoSend, h.execXgoReturn,
    h.execXeWrite, h.execScaleRoll, h.execScAmaxwWrite, h.execLossScaleCurWrite, h.execSrsvCommit, h.execSrsvSkip, h.execSrsvRefused,
    h.execSrsvAbandoned, h.execRestoreGo, h.execSctlWrite, h.execStepnWrite, h.execBpctlWrite, h.execBpRegWrite, h.execHsigWrite, h.execRpRow,
    h.execRpAcol, h.execLogClr, h.execScrubGo]
theorem Keeps.hostSees {off bytes} (h : Keeps a s) : Keeps a (s.hostSees off bytes) := .ite h (.ite h.mmioSees.mmioSees h.mmioSees)
theorem Keeps.burstGo {b} (h : Keeps a s) : Keeps a (s.burstGo b) := by
  cases b with
  | write p off data => exact h.bpWrite
  | read p off bytes => exact h.bpRead
  | queueBell bytes w => exact h.bar4 fun _ _ ht => ht.queueDoorbell
  | coreBell bytes w => exact h.bar4 fun _ _ ht => ht.coreDoorbell
  | cmd r =>
    obtain ⟨t, e, ht⟩ : Answers a (rowRun r s) := h.rowRun
    simpa only [State.burstGo, e] using ht
  | regRead off bytes => exact h.hostSees.hostAnswer
theorem Keeps.burstRun {l : List Burst} (h : Keeps a s) : Keeps a (burstRun l s) := by
  induction l generalizing s with
  | nil => exact h
  | cons b l ih => exact .ite (.biAsk (f := inList (s.burstReach b)) h) (ih h.burstGo)
theorem Keeps.burstTake {b} (h : Keeps a s) : Keeps a (s.burstTake b) := .ite h.burstRun h
theorem Keeps.retryBursts (h : Keeps a s) : Keeps a s.retryBursts := .burstRun h
theorem Keeps.biAnswer {line dirty} (h : Keeps a s) : Keeps a (s.biAnswer line dirty) := .ite h h.biGone.snoopDone.retryMem.retryBursts
protected theorem Keeps.execBpBurstWrite {port off data} (h : Keeps a s) : Answers a (execBpBurstWrite port off data s) :=
  h.command fun _ ht => ht.burstTake
protected theorem Keeps.execBpBurstRead {port off len} (h : Keeps a s) : Answers a (execBpBurstRead port off len s) :=
  h.command fun _ ht => ht.burstTake
protected theorem Keeps.execHostQueueDoorbell {bytes w} (h : Keeps a s) : Answers a (execHostQueueDoorbell bytes w s) :=
  h.command fun _ ht => ht.burstTake
protected theorem Keeps.execHostCoreDoorbell {bytes w} (h : Keeps a s) : Answers a (execHostCoreDoorbell bytes w s) :=
  h.command fun _ ht => ht.burstTake
protected theorem Keeps.execBiSnoopAnswer {line dirty} (h : Keeps a s) : Answers a (execBiSnoopAnswer line dirty s) :=
  h.command fun _ ht => ht.biAnswer
/-- The two commands that look at the instruction of a boundary, and so stand on what the others do. -/
def isEntry : Instr → Bool
  | .interruptEntry _ | .deferredFaultEntry _ => true
  | _ => false
/-- Every command but the two entries, in the order of the instruction type. -/
theorem Keeps.exec_of_not_isEntry {i} (h : Keeps a s) (hi : isEntry i = false) : Answers a (exec i s) := by
  cases i
  exacts [
    h.execPowerOn, h.execInternalResetWaitEnd, h.execColdReset, h.execStrapSample, h.execPowerRemoval, h.execBrownOut, h.execBrownOutRecovery,
    h.execSensorRead, h.execHostReset, h.execTapReset, h.execCableInsert, h.execCableRemove, h.execBisqueReached, h.execImageRead,
    h.execStackTraining, h.execLinkFullRateStep, h.execGlazeReached, h.execComputeReset, h.execFireflyRestart, h.execGlobalCfgWrite,
    h.execPgIrqEnWrite, h.execPgLock, h.execPgErrClr, h.execRegisterWrite, h.execCoreHalt, h.execCoreResume, h.execCoreReset, h.execCoreResetEnd,
    h.execCoreSwi, h.execLd, h.execLdP, h.execLdQ, h.execLdA, h.execSt, h.execStP, h.execStQ, h.execStA, h.execMmioLoadReturn, h.execAdd, h.execAdc,
    h.execSub, h.execSbc, h.execAnd, h.execOr, h.execXor, h.execAndn, h.execCmp, h.execTst, h.execMov, h.execNeg, h.execNot, h.execMin, h.execMax,
    h.execMoviW, h.execMoviP, h.execShl, h.execShr, h.execSar, h.execRor, h.execMulL, h.execMulS, h.execMulU, h.execMulP, h.execCmpp, h.execAddaImm,
    h.execAddaIdx, h.execMova, h.execMovd, h.execLeapc, h.execMoviA, h.execBr, h.execCall, h.execJmp, h.execCallr, h.execRet, h.execLoop, h.execLoopi,
    h.execNop, h.execTrap, h.execRte, h.execMovcRead, h.execMovcWrite, h.execFence, h.execFenceRelease, h.execTlbi, h.execTend, h.execMcopy,
    h.execFeederBlockPlace, h.execFeederBlockComplete, h.execTableWalk, h.execCombAnswer, (nomatch hi), (nomatch hi), h.execVsetvl, h.execVwait,
    h.execVmvX, h.execVins, h.execVredsum, h.execVredmax, h.execVredmin, h.execVany, h.execVall, h.execVpopc, h.execVslideup, h.execVslidedown,
    h.execVgatherv, h.execVcompress, h.execVcvt, h.execVgen, h.execVtopk, h.execVscomb, h.execVadd, h.execVsub, h.execVand, h.execVor, h.execVxor,
    h.execVshl, h.execVshr, h.execVsar, h.execVmin, h.execVmax, h.execVminu, h.execVmaxu, h.execVmov, h.execVdiv, h.execVdivu, h.execVmul,
    h.execVmulh, h.execVmulhu, h.execVmacc, h.execVwmul, h.execVwmulu, h.execVwmulsu, h.execVwmacc, h.execVsadd, h.execVsaddu, h.execVssub,
    h.execVssubu, h.execVaadd, h.execVaaddu, h.execVsmul, h.execVssra, h.execVssrl, h.execVnclip, h.execVnclipu, h.execVdotQ, h.execVdotuQ,
    h.execVfadd, h.execVfsub, h.execVfmul, h.execVfmacc, h.execVfmin, h.execVfmax, h.execVfdiv, h.execVfsqrt, h.execVfdotD, h.execVcmpeq,
    h.execVcmpne, h.execVcmplt, h.execVcmpge, h.execVcmpltu, h.execVcmpgeu, h.execVld, h.execVst, h.execVlds, h.execVsts, h.execVldseg, h.execVstseg,
    h.execVldx, h.execVstx, h.execTcfg, h.execTzero, h.execTmvVt, h.execTmvTv, h.execTmask, h.execTmeta, h.execTsave, h.execTrest, h.execTld,
    h.execTileStore, h.execSetterFire, h.execShelfFill, h.execMma, h.execAccOpen, h.execAccClose, h.execAccZero, h.execAccDrt, h.execAccDrm,
    h.execAccDrj, h.execAccLd, h.execWeightCopy, h.execPassStart, h.execPassComplete, h.execTreeCloseComplete, h.execDrainComplete, h.execRunAhead,
    h.execSnapshotFirstTouch, h.execShadowFirstTouch, h.execPageCopyComplete, h.execMouldTake, h.execSnapSweepEnd, h.execStepCommit,
    h.execStepRollback, h.execStepCmdEnd, h.execSlogWrite, h.execXrootLoWrite, h.execXrootHiWrite, h.execJrootLoWrite, h.execJrootHiWrite,
    h.execQueueDoorbell, h.execCoreDoorbell, h.execQueueEnable, h.execQueueDisable, h.execQeWrite, h.execPreempt, h.execDescriptorRead,
    h.execDispatch, h.execCompletionRecord, h.execPyroInterval, h.execDvfsWrite, h.execSemAdd, h.execSemSub, h.execSemWait, h.execSemTake,
    h.execSemAddi, h.execSemSubi, h.execSemWaiti, h.execSemTakei, h.execBarArr, h.execBarWait, h.execCombWindowAdd, h.execHopAdd, h.execHopSub,
    h.execHopSet, h.execHopArrive, h.execTclr, h.execSemPacket, h.execBarrReceive, h.execBrelReceive, h.execBCtlWrite, h.execBNextWrite,
    h.execBCtxWrite, h.execLinkEnable, h.execLinkDisable, h.execLinkRetrain, h.execLinkAdmit, h.execLinkLock, h.execTrainTimeout, h.execDownHoldEnd,
    h.execHelloReceive, h.execCertReceive, h.execRateReceive, h.execRateOfferTimeout, h.execRateDrainEnd, h.execDiscoveryRound, h.execFlitReceive,
    h.execIdleFlit, h.execWindowMiss, h.execPacketRoute, h.execMulticastForward, h.execRdRequest, h.execWrRequest, h.execDbPacket, h.execFabricAnswer,
    h.execRequestTimeout, h.execRemoteDoorbellStore, h.execImgqReceive, h.execImgdReceive, h.execImageTransferTimeout, h.execImageRetry,
    h.execJcmdOpen, h.execJcmdClose, h.execJeWrite, h.execLeafStage, h.execRsumReceive, h.execRresReceive, h.execResultDelivered,
    h.execParticipantTimeout, h.execXgoEnable, h.execXgoDisable, h.execXgoSend, h.execXgoReturn, h.execXeWrite, h.execXrowReceive, h.execXcntReceive,
    h.execXretReceive, h.execScaleRoll, h.execScAmaxwWrite, h.execLossScaleCurWrite, h.execSrsvCommit, h.execSrsvSkip, h.execSrsvRefused,
    h.execSrsvAbandoned, h.execRestoreGo, h.execSctlWrite, h.execStepnWrite, h.execBpBurstWrite, h.execBpBurstRead, h.execBpctlWrite,
    h.execBpRegWrite, h.execBpComplete, h.execHostQueueDoorbell, h.execHostCoreDoorbell, h.execCxlMemRead, h.execCxlMemWrite, h.execBiSnoopAnswer,
    h.execHsigWrite, h.execHostLinkTrain, h.execHostLinkRetry, h.execGetSvc, h.execGetId, h.execGetCert, h.execQuote, h.execSlotInfo, h.execLoad,
    h.execUpdBegin, h.execUpdData, h.execUpdEnd, h.execUpdAbort, h.execActivate, h.execActivationRestart, h.execConfirm, h.execSetGet, h.execSetPut,
    h.execJtagBypass, h.execJtagIdcode, h.execJtagSamplePreload, h.execJtagExtest, h.execRpRow, h.execRpAcol, h.execLogClr, h.execScrubGo,
    h.execScrubComplete, h.execVectorComplete, h.execRestoreComplete, h.execRpcmdComplete, h.execHostLinkUp, h.execHostCacheSnoop,
    h.execFireflyRestartEnd]
/-- What a core fetches means what the command of that name means, or nothing. -/
theorem coreExec_cases (i : Instr) (s : State) : coreExec i s = exec i s ∧ isEntry i = false ∨ coreExec i s = .next s := by
  cases i <;> first | exact .inl ⟨rfl, rfl⟩ | exact .inr rfl

/-! ### Entry -/

protected theorem Keeps.coreExec {i} (h : Keeps a s) : Answers a (coreExec i s) := by
  rcases coreExec_cases i s with ⟨e, hi⟩ | e
  · exact e ▸ h.exec_of_not_isEntry hi
  · exact e ▸ .next h
protected theorem Keeps.fetchRun {n} (h : Keeps a s) : Answers a (s.fetchRun n) := by
  unfold State.fetchRun
  split
  · exact h.coreExec
  · exact h.issue fun _ ht => ht
protected theorem Keeps.runCores (h : Keeps a s) : Answers a s.runCores := by
  refine List.foldlRecOn (motive := Answers a) _ _ (.next h) fun o ho n _ => ?_
  obtain ⟨t, rfl, ht⟩ := ho
  dsimp only
  split
  · exact ht.fetchRun
  · exact .next ht
/-- A state that core n is left out of the boundary with: it looks at no instruction there, and the other cores are as the fetch leaves them. -/
theorem Keeps.of_modCore {n : Nat} {f : Core → Core} (h : Keeps (s.modCore n f) t) (hn : (t.core n).peek = false) : Keeps s t := by
  refine ⟨h.mem, h.upsets, fun m hm => ?_⟩
  by_cases e : m = n
  · subst e; exact absurd (hn.symm.trans hm) Bool.false_ne_true
  · have := FieldsKept.peek h m hm
    rwa [State.modCore, State.setCore, look_put_ne _ _ _ _ _ e] at this
theorem Keeps.boundary {n} (h : Keeps a s) : OptionAll (Keeps a) (s.boundary n) := by
  unfold State.boundary
  obtain ⟨t, e, ht⟩ : Answers _ ((s.modCore n (fun c => { c with peek := true })).fetchRun n) := (Keeps.refl _).fetchRun
  rw [e]
  split
  · trivial
  · dsimp only
    split
    · trivial
    · next hp => exact h.trans (ht.of_modCore (by simpa using hp))
protected theorem Keeps.execInterruptEntry {n} (h : Keeps a s) : Answers a (execInterruptEntry n s) :=
  h.command fun _ ht => .ite (OptionAll.getD ht.boundary ht.interrupt) ht
protected theorem Keeps.execDeferredFaultEntry {n} (h : Keeps a s) : Answers a (execDeferredFaultEntry n s) :=
  h.command fun _ ht => .ite (OptionAll.getD ht.boundary ht.deferredEntry) ht

/-! ### Dispatch -/

protected theorem Keeps.exec {i} (h : Keeps a s) : Answers a (exec i s) := by
  by_cases hi : isEntry i = false
  · exact h.exec_of_not_isEntry hi
  · cases i with
    | interruptEntry n => exact h.execInterruptEntry
    | deferredFaultEntry n => exact h.execDeferredFaultEntry
    | _ => exact absurd rfl hi

/-! ### Step -/

theorem Keeps.tickUsec (h : Keeps a s) : Keeps a s.tickUsec := .ite h.settle h
protected theorem Keeps.step (h : Keeps a s) : Answers a (step s) := by
  unfold Machine.step
  split
  · exact h.tickUsec.runCores
  · exact Keeps.exec h

end

/-! ## The obligations -/

/-- Settles O58: every command and every step answers, which is half of what Answers says of them. -/
theorem everyCommandAnswers : Obligations.EveryCommandAnswers :=
  ⟨fun _ s => (Keeps.exec (.refl s)).imp fun _ h => h.1, fun s => (Keeps.step (.refl s)).imp fun _ h => h.1⟩

/-- Settles O60: a step keeps the canonical form of memory, makes no error, and leaves no core looking at the instruction of a boundary. -/
theorem everyStepKeepsMemoryCanonical : Obligations.EveryStepKeepsMemoryCanonical := by
  intro s t e
  obtain ⟨u, hu, hk⟩ : Answers s (step s) := Keeps.step (.refl s)
  obtain rfl : u = t := by simpa [hu] using e
  exact ⟨hk.mem, hk.upsets, fun hp n => Bool.eq_false_iff.mpr fun h => absurd (hk.peek n h) (by simp [hp n])⟩

end Sys2Proof.Machine

/-! # Loads of MMIO and Comb windows -/

namespace Sys2Proof.Machine

/-- Core 0 holds issue for a load of a pair from semaphore 0, and an uncorrectable error lies in that semaphore. -/
def loadOfBadSem : State :=
  { State.reset with
    power := .running
    cores := [(0, { Core.reset with hold := some (.load 2 (.d 0) (BitVec.ofNat 64 combBase) none) })]
    upsets := [{ site := .sem 0, ue := true }] }

/-- The return of the load reads the semaphore: the error there is found, and no more listed (R495). -/
theorem loadOfBadSem_finds_error : ∃ t, exec (.mmioLoadReturn 0) loadOfBadSem = .next t ∧ t.upsets = [] := ⟨_, rfl, by decide⟩

/-- Refutes O11: its clause on MMIO_LOAD_RETURN supposes a running module and a held load, and not that no error lies in a table (Safety.On), and
says that only the core changes; but a load of a semaphore that an uncorrectable error lies in also finds the error, which is then listed no more. -/
theorem not_deviceLoadsAndStores : ¬ Obligations.DeviceLoadsAndStores := by
  unfold Obligations.DeviceLoadsAndStores
  intro h
  obtain ⟨⟨-, hreturn⟩, -, -⟩ := h
  obtain ⟨t, ht, hnone⟩ := loadOfBadSem_finds_error
  have hsame := (hreturn loadOfBadSem 0 2 (.d 0) (BitVec.ofNat 64 combBase) none rfl (by decide) rfl).1 0 rfl rfl
  rw [ht] at hsame
  injection hsame with e
  rw [e] at hnone
  exact absurd hnone (by simp [State.modCore, State.setCore, loadOfBadSem])

end Sys2Proof.Machine

/-! # The page header and plain registers -/

namespace Sys2Proof.Machine
open Sys2Proof.Laws Sys2Proof.Safety

/-! ### Writes that change registers alone -/

/-- From s to t only the registers at a list of offsets change, of all registers, cores and memory. -/
def OnlyRegs (s t : State) (l : List Nat) : Prop := SameRegs s t l ∧ t.cores = s.cores ∧ t.mem = s.mem

section
variable {s t : State} {l : List Nat} {o : Nat} {p : Page}

theorem OnlyRegs.refl (s : State) (l : List Nat) : OnlyRegs s s l := ⟨fun _ _ => rfl, rfl, rfl⟩

theorem OnlyRegs.setReg {v : W32} (h : OnlyRegs s t l) (ho : o ∈ l) : OnlyRegs s (t.setReg o v) l := by
  obtain ⟨hregs, hcores, hmem⟩ := h
  refine ⟨fun q hq => ?_, hcores, hmem⟩
  rw [State.reg_setReg_ne t o q v (fun e => hq (e ▸ ho)), hregs q hq]

@[simp] theorem State.msix_regs (s : State) (v : Nat) : (s.msix v).regs = s.regs := by unfold State.msix; split <;> rfl
@[simp] theorem State.msix_cores (s : State) (v : Nat) : (s.msix v).cores = s.cores := by unfold State.msix; split <;> rfl
@[simp] theorem State.orRise_regs (old s : State) : (State.orRise old s).regs = s.regs := by unfold State.orRise; split <;> simp
@[simp] theorem State.orRise_cores (old s : State) : (State.orRise old s).cores = s.cores := by unfold State.orRise; split <;> simp
@[simp] theorem State.orRise_reg (old s : State) (o : Nat) : (State.orRise old s).reg o = s.reg o := by simp [State.reg]

theorem OnlyRegs.orRise {old : State} (h : OnlyRegs s t l) : OnlyRegs s (State.orRise old t) l := by
  obtain ⟨hregs, hcores, hmem⟩ := h
  exact ⟨fun q hq => (State.orRise_reg old t q).trans (hregs q hq), by simpa using hcores, by simpa using hmem⟩

/-- The event's own effect, then PG_IRQ. -/
theorem OnlyRegs.withIrq {f : State → State} (h : OnlyRegs s (f t) l) (ho : pageBase p + oIrq ∈ l) : OnlyRegs s (withIrq p f t) l :=
  (h.setReg ho).orRise

theorem withIrq_reg_ne (p : Page) (f : State → State) (s : State) (h : o ≠ pageBase p + oIrq) : (withIrq p f s).reg o = (f s).reg o := by
  unfold Machine.withIrq
  rw [State.orRise_reg, State.reg_setReg_ne _ _ _ _ h]

/-! ### The message of the interrupts -/

/-- A value other than the default is listed. -/
theorem mem_of_look_ne {α : Type} (d : α) (m : Store α) (i : Nat) (h : look d m i ≠ d) : (i, look d m i) ∈ m := by
  induction m with
  | nil => exact absurd rfl h
  | cons e r ih =>
    obtain ⟨k, v⟩ := e
    unfold look at h ⊢
    split at h
    · next hk => simp [hk]
    · next hk => rw [if_neg hk]; exact List.mem_cons_of_mem _ (ih h)

theorem pageBase_mod (p : Page) : pageBase p % 0x1000 = 0 := by
  cases p <;> simp only [pageBase] <;> omega

/-- PG_IRQ resets to 0 in every page. -/
theorem regReset_irq (h : o % 0x1000 = oIrq) : regReset o = 0 := by
  have hne (k : Nat) (hk : k % 0x1000 ≠ oIrq) : o ≠ k := fun e => hk (e ▸ h)
  unfold regReset
  simp only [hne _ (by decide : rSvc % 0x1000 ≠ oIrq), hne _ (by decide : rPyCap % 0x1000 ≠ oIrq), hne _ (by decide : rPyDvfs % 0x1000 ≠ oIrq),
    hne _ (by decide : rAge % 0x1000 ≠ oIrq), hne _ (by decide : rLsPol % 0x1000 ≠ oIrq), hne _ (by decide : rLsPolStg % 0x1000 ≠ oIrq),
    hne _ (by decide : rLsCur % 0x1000 ≠ oIrq), hne _ (by decide : rLsCurStg % 0x1000 ≠ oIrq), hne _ (by decide : rFabId % 0x1000 ≠ oIrq),
    hne _ (by decide : rFabCtl % 0x1000 ≠ oIrq), hne _ (by decide : rFabRto % 0x1000 ≠ oIrq), h]
  have hpage : ¬(0x1050 ≤ o ∧ o < 0x1090 ∧ o % 0x10 = 0) := by simp only [oIrq] at h; omega
  simp [hpage, oIrq]

/-- The OR of the page interrupts is high while a PG_IRQ is not 0. -/
theorem State.anyIrq_of_reg (s : State) (ho : o % 0x1000 = oIrq) (h : s.reg o ≠ 0) : s.anyIrq = true := by
  rw [State.reg, regReset_irq ho] at h
  exact List.any_eq_true.mpr ⟨_, mem_of_look_ne 0 s.regs o h, by simpa [ho] using h⟩

theorem State.orRise_rise (old s : State) (hs : s.anyIrq = true) (hold : old.anyIrq = false) : State.orRise old s = s.msix 0 := by
  simp [State.orRise, hs, hold]

theorem State.orRise_high (old s : State) (hold : old.anyIrq = true) : State.orRise old s = s := by
  simp [State.orRise, hold]

theorem State.msix_sent (s : State) (h : s.msixMask.getLsbD 0 = false) : (s.msix 0).msixSent = s.msixSent ++ [0] := by
  rw [State.msix, if_neg (by rw [h]; decide)]
  rfl

theorem State.msix_pend (s : State) (h : s.msixMask.getLsbD 0 = true) : (s.msix 0).msixPend.getLsbD 0 = true := by
  rw [State.msix, if_pos h]
  simp [setBit, setFld]

/-! ### The page header -/

/-- A write of a register that does not wait is performed by its command. -/
theorem command_inTurn {src : Src} (hon : On s) (ht : InTurn s src) (i : HostRow) (f : State → State) :
    command (fun s => s.inTurn src i f) s = .next (f s) := by
  rw [command_on _ _ hon, State.inTurn_now _ _ _ _ ht]

/-- The sources that a write of PG_IRQ_EN latches. -/
def irqSet (s : State) (p : Page) (w : W32) : W32 := w &&& pageSources p &&& ~~~(s.reg (pageBase p + oIrqEn)) &&& s.irqRaw p

/-- The registers as a write of PG_IRQ_EN leaves them, before the message. -/
def irqEnRegs (s : State) (p : Page) (w : W32) : State :=
  (s.setReg (pageBase p + oIrqEn) (w &&& pageSources p)).setReg (pageBase p + oIrq) (s.reg (pageBase p + oIrq) ||| irqSet s p w)

theorem State.irqEnWrite_eq (s : State) (p : Page) (w : W32) : s.irqEnWrite p w = State.orRise s (irqEnRegs s p w) := rfl

theorem irqEnWrite_only (s : State) (p : Page) (w : W32) : OnlyRegs s (s.irqEnWrite p w) [pageBase p + oIrqEn, pageBase p + oIrq] :=
  (((OnlyRegs.refl s _).setReg (by simp)).setReg (by simp)).orRise

/-- A source that a write of PG_IRQ_EN latches makes the OR of the interrupts high. -/
theorem irqEnRegs_anyIrq (s : State) (p : Page) (w : W32) (h : irqSet s p w ≠ 0) : (irqEnRegs s p w).anyIrq = true := by
  refine State.anyIrq_of_reg _ (o := pageBase p + oIrq) (by have := pageBase_mod p; simp only [oIrq]; omega) fun e => h ?_
  rw [irqEnRegs, State.reg_setReg] at e
  exact (BitVec.or_eq_zero_iff.mp e).2

theorem lockPage_only (s : State) (p : Page) : OnlyRegs s (s.lockPage p) [pageBase p + oCtl] := (OnlyRegs.refl s _).setReg (by simp)

theorem or_of_and_not (x m : W32) : (x &&& ~~~m) ||| m = x ||| m := by
  ext i hi
  simp only [BitVec.getElem_or, BitVec.getElem_and, BitVec.getElem_not]
  cases m[i] <;> simp

/-- Setting the top bit of a register leaves the others. -/
theorem setFld_top (x : W32) : setFld x 31 1 1 = x ||| 0x80000000 := or_of_and_not x 0x80000000

/-- What clearing PG_ERR does before PG_IRQ follows. -/
def errZero (p : Page) (t : State) : State :=
  let u := t.setReg (pageBase p + oErr) 0
  if p = .scarab then { u with errqSet := false } else u

theorem errZero_reg (p : Page) (t : State) : (errZero p t).reg (pageBase p + oErr) = 0 := by
  unfold errZero
  dsimp only
  split
  · exact State.reg_setReg t _ 0
  · exact State.reg_setReg t _ 0

theorem errZero_only (p : Page) (t : State) : OnlyRegs t (errZero p t) [pageBase p + oErr, pageBase p + oIrq] := by
  have h : OnlyRegs t (t.setReg (pageBase p + oErr) 0) [pageBase p + oErr, pageBase p + oIrq] := (OnlyRegs.refl t _).setReg (by simp)
  unfold errZero
  dsimp only
  split
  · exact h
  · exact h

theorem State.clearErr_eq (s : State) (p : Page) (c : Nat) :
    s.clearErr p c = if c = 0 then withIrq p (errZero p) s else (withIrq p (errZero p) s).err p c := rfl

/-- The first error is recorded. -/
theorem State.err_first (s : State) (p : Page) (c : Nat) (h : s.fldReg (pageBase p + oErr) 0 16 = 0) :
    s.err p c = withIrq p (fun t => t.setReg (pageBase p + oErr) (BitVec.ofNat 32 c)) s := if_pos h

/-- A later one is not. -/
theorem State.err_later (s : State) (p : Page) (c : Nat) (h : s.fldReg (pageBase p + oErr) 0 16 ≠ 0) : s.err p c = s := if_neg h

theorem State.err_first_reg (s : State) (p : Page) (c : Nat) (h : s.fldReg (pageBase p + oErr) 0 16 = 0) :
    (s.err p c).reg (pageBase p + oErr) = BitVec.ofNat 32 c := by
  rw [State.err_first s p c h, withIrq_reg_ne p _ s (by simp), State.reg_setReg]

theorem State.err_fld (s : State) (p : Page) (c : Nat) (h : c < 65536) : (s.err p c).fldReg (pageBase p + oErr) 0 16 =
    if s.fldReg (pageBase p + oErr) 0 16 = 0 then c else s.fldReg (pageBase p + oErr) 0 16 := by
  split
  · next h0 =>
    rw [State.fldReg, State.err_first_reg s p c h0, fld, BitVec.toNat_ofNat]
    omega
  · next h0 => rw [State.err_later s p c h0]

theorem clearErr_only (s : State) (p : Page) (c : Nat) : OnlyRegs s (s.clearErr p c) [pageBase p + oErr, pageBase p + oIrq] := by
  have h0 : OnlyRegs s (withIrq p (errZero p) s) [pageBase p + oErr, pageBase p + oIrq] := (errZero_only p s).withIrq (by simp)
  rw [State.clearErr_eq]
  split
  · exact h0
  · unfold State.err State.errWith
    split
    · exact OnlyRegs.withIrq (h0.setReg (by simp)) (by simp)
    · exact h0

theorem clearErr_reg (s : State) (p : Page) (c : Nat) : (s.clearErr p c).reg (pageBase p + oErr) = BitVec.ofNat 32 c := by
  have h0 : (withIrq p (errZero p) s).reg (pageBase p + oErr) = 0 := by rw [withIrq_reg_ne p _ s (by simp), errZero_reg]
  rw [State.clearErr_eq]
  split
  · next hc => rw [hc]; exact h0
  · exact State.err_first_reg _ p c (by rw [State.fldReg, h0]; rfl)
end

/-! ### A register by its offset -/

section
variable {s : State} {src : Src}

/-- BAR0 is the whole of a register write's space below BAR4. -/
theorem exec_registerWrite_bar0 (hon : On s) (ht : InTurn s src) {off : Nat} (ho : off < offBar4) (bytes : Nat) (w : BitVec 64) :
    exec (.registerWrite src off bytes w) s = .next (s.registerWrite src off bytes w) := by
  refine (command_inTurn hon ht _ _).trans (congrArg _ ?_)
  split
  · next e => rw [e, State.portWrite, if_pos ho]
  · rfl

theorem exec_registerWrite_word (hon : On s) (ht : InTurn s src) {off : Nat} (ho : off < offBar4) (h4 : off % 4 = 0) (w : BitVec 64) :
    exec (.registerWrite src off 4 w) s = .next (s.mmioWrite src off (w.truncate 32)) := by
  rw [exec_registerWrite_bar0 hon ht ho, State.registerWrite, if_neg (by omega), if_pos rfl, ← BitVec.setWidth_eq_extractLsb' (by decide)]

theorem exec_registerWrite_discarded (hon : On s) (ht : InTurn s src) {off bytes : Nat} (ho : off < offBar4) (h : bytes < 4 ∨ off % bytes ≠ 0)
    (w : BitVec 64) : exec (.registerWrite src off bytes w) s = .next s := by
  rw [exec_registerWrite_bar0 hon ht ho, State.registerWrite, if_pos h]
end

/-! ### The plain registers -/

section
variable {s : State} {src : Src}

/-- The registers of a core's page lie at its base. -/
theorem pageAt_core {n o : Nat} (hn : n < 192) (ho : o < 0x1000) : pageAt (pageBase (.core n) + o) = some (.core n) := by
  have hdiv : (pageBase (.core n) + o) / 0x1000 = 0x200 + n := by simp only [pageBase]; omega
  unfold pageAt
  simp only [hdiv]
  rw [if_neg (by omega), if_neg (by omega), if_neg (by omega), if_neg (by omega), if_neg (by omega), if_neg (by omega), if_neg (by omega),
    if_neg (by omega), if_neg (by omega), if_pos (by omega), Nat.add_sub_cancel_left]

/-- A write of a block register of a core's page. -/
theorem mmioWrite_core {n o : Nat} (hn : n < 192) (ho : 0x40 ≤ o) (hlt : o < 0x1000) (h4 : o % 4 = 0) (w : W32) :
    s.mmioWrite src (pageBase (.core n) + o) w = s.corePageWrite n o w := by
  have hoff : (pageBase (.core n) + o) % 0x1000 / 4 * 4 = o := by simp only [pageBase]; omega
  unfold State.mmioWrite
  rw [pageAt_core hn hlt]
  simp only [hoff, if_pos ho]
  rfl

/-- NF is cleared by the bits that are written. -/
theorem mmioWrite_nf {n : Nat} (hn : n < 192) (w : W32) : s.mmioWrite src (rNf n) w = s.setReg (rNf n) (s.reg (rNf n) &&& ~~~w) := by
  have hoff : rNf n = pageBase (.core n) + 0x60 := by simp only [rNf, pageBase]; omega
  rw [hoff, mmioWrite_core hn (by decide) (by decide) (by decide), ← hoff]
  rfl

theorem mmioWrite_plain (w : W32) :
    ∀ e ∈ [(rAge, 0xFFFF), (rHopv, 0xFFFFFFFF), (rLsctx, 0x3F), (rFabSeed, 0xFFF), (rFabRto, 0xFFFF), (rLogsel, 0x3F), (rBpsel, 0xFF),
      (rDisp 191, 0xFFFFE), (rJrootHi, 0xFFF), (rIrqRoute, 0x800000FF)], s.mmioWrite src e.1 w = s.setReg e.1 (w &&& e.2) := by
  have hhopv : s.mmioWrite src rHopv w = s.setReg rHopv (w &&& 0xFFFFFFFF) := by
    rw [show w &&& 0xFFFFFFFF = w from BitVec.and_allOnes]
    rfl
  simp only [List.forall_mem_cons]
  exact ⟨rfl, hhopv, rfl, rfl, rfl, rfl, rfl, rfl, rfl, rfl, nofun⟩

theorem mmioWrite_readOnly (w : W32) :
    ∀ o ∈ [rStrap, rPyIn, rErrq, rErrsem, rFabId, rFabErrdst, rSlast, rStopinfo 191, rLkStat 95, rScrScan, rLstat, rErrport, 0xFFC, 0x8040],
      s.mmioWrite src o w = s := by
  simp only [List.forall_mem_cons]
  exact ⟨rfl, rfl, rfl, rfl, rfl, rfl, rfl, rfl, rfl, rfl, rfl, rfl, rfl, rfl, nofun⟩

/-- An even CORE_START is taken. -/
theorem startWrite_even (n : Nat) {w : W32} (h : w.getLsbD 0 = false) : s.startWrite n w = s.setReg (rStart n) (w &&& 0xFFFFF) := by
  rw [State.startWrite, if_neg (by rw [h]; decide)]

/-- An odd one leaves a free value of its 20 bits. -/
theorem startWrite_odd (n : Nat) {w : W32} (h : w.getLsbD 0 = true) :
    ∃ v < 2 ^ 20, s.startWrite n w = (s.freeFld 20).1.setReg (rStart n) (BitVec.ofNat 32 v) :=
  ⟨(s.freeFld 20).2, Nat.mod_lt _ (by decide), by rw [State.startWrite, if_pos h]⟩

theorem freeFld_only (s : State) (len : Nat) (l : List Nat) : OnlyRegs s (s.freeFld len).1 l := ⟨fun _ _ => rfl, rfl, rfl⟩

/-- A row of the host runs as the command of that row does for the host. -/
theorem rowRun_eq_exec (s : State) (i : Instr) (r : HostRow) (hi : sourceOf i = some .host) (hr : rowOf i = some r) : rowRun r s = exec i s := by
  cases i <;> cases hi <;> cases hr <;> rfl

/-- Such a command of the host joins the accesses that wait. -/
theorem exec_waits (hon : On s) (hb : s.bursts ≠ []) (i : Instr) (r : HostRow) (hi : sourceOf i = some .host) (hr : rowOf i = some r) :
    exec i s = .next { s with bursts := s.bursts ++ [.cmd r] } := by
  have h (f : State → State) : command (fun s => s.inTurn .host r f) s = .next { s with bursts := s.bursts ++ [.cmd r] } := by
    rw [command_on _ _ hon, State.inTurn_waits _ _ _ hb]
  cases i <;> cases hi <;> cases hr <;> exact h _

theorem exists_rowOf (i : Instr) (x : Src) (h : sourceOf i = some x) : ∃ r, rowOf i = some r := by
  cases i <;> cases h <;> exact ⟨_, rfl⟩

theorem burstTake_waits (hb : s.bursts ≠ []) (b : Burst) : s.burstTake b = { s with bursts := s.bursts ++ [b] } := if_neg hb
end

/-! ### The obligation -/

section
variable {s : State} {src : Src} {p : Page}

theorem exec_pgIrqEnWrite (hon : On s) (ht : InTurn s src) (hp : pageExists p = true) (w : W32) :
    exec (.pgIrqEnWrite src p w) s = .next (s.irqEnWrite p w) := (command_inTurn hon ht _ _).trans (congrArg _ (if_pos hp))

theorem exec_pgLock (hon : On s) (ht : InTurn s src) (hp : pageExists p = true) : exec (.pgLock src p) s = .next (s.lockPage p) :=
  (command_inTurn hon ht _ _).trans (congrArg _ (if_pos hp))

theorem exec_pgErrClr (hon : On s) (ht : InTurn s src) (hp : pageExists p = true) (e : BitVec 16) :
    exec (.pgErrClr src p e) s = .next (s.clearErr p e.toNat) := (command_inTurn hon ht _ _).trans (congrArg _ (if_pos hp))

theorem irqEnWrite_irqEn (s : State) (p : Page) (w : W32) : (s.irqEnWrite p w).reg (pageBase p + oIrqEn) = w &&& pageSources p := by
  rw [State.irqEnWrite_eq, State.orRise_reg, irqEnRegs, State.reg_setReg_ne _ _ _ _ (by simp), State.reg_setReg]

theorem irqEnWrite_irq (s : State) (p : Page) (w : W32) :
    (s.irqEnWrite p w).reg (pageBase p + oIrq) = s.reg (pageBase p + oIrq) ||| irqSet s p w := by
  rw [State.irqEnWrite_eq, State.orRise_reg, irqEnRegs, State.reg_setReg]

/-- The OR of the interrupts rises by a source that latches, and vector 0 goes out. -/
theorem irqEnWrite_rise {w : W32} (hlow : s.anyIrq = false) (hset : irqSet s p w ≠ 0) : s.irqEnWrite p w = (irqEnRegs s p w).msix 0 := by
  rw [State.irqEnWrite_eq, State.orRise_rise _ _ (irqEnRegs_anyIrq s p w hset) hlow]

/-- While it is high already, nothing goes out. -/
theorem irqEnWrite_high (w : W32) (hhigh : s.anyIrq = true) : s.irqEnWrite p w = irqEnRegs s p w := by
  rw [State.irqEnWrite_eq, State.orRise_high _ _ hhigh]

theorem lockPage_ctl (s : State) (p : Page) : (s.lockPage p).reg (pageBase p + oCtl) = s.reg (pageBase p + oCtl) ||| 0x80000000 := by
  rw [State.lockPage, State.setFldReg, State.reg_setReg, setFld_top]

/-- One of the registers that take their writable bits. -/
theorem exec_plain (hon : On s) (ht : InTurn s src) (w : BitVec 64) :
    ∀ e ∈ [(rAge, 0xFFFF), (rHopv, 0xFFFFFFFF), (rLsctx, 0x3F), (rFabSeed, 0xFFF), (rFabRto, 0xFFFF), (rLogsel, 0x3F), (rBpsel, 0xFF),
      (rDisp 191, 0xFFFFE), (rJrootHi, 0xFFF), (rIrqRoute, 0x800000FF)],
      exec (.registerWrite src e.1 4 w) s = .next (s.setReg e.1 (w.truncate 32 &&& e.2)) := by
  intro e he
  have hoff : e.1 < offBar4 ∧ e.1 % 4 = 0 := by revert e; decide
  rw [exec_registerWrite_word hon ht hoff.1 hoff.2, mmioWrite_plain _ e he]

/-- One that is read-only, or that no page has. -/
theorem exec_readOnly (hon : On s) (ht : InTurn s src) (w : BitVec 64) :
    ∀ o ∈ [rStrap, rPyIn, rErrq, rErrsem, rFabId, rFabErrdst, rSlast, rStopinfo 191, rLkStat 95, rScrScan, rLstat, rErrport, 0xFFC, 0x8040],
      exec (.registerWrite src o 4 w) s = .next s := by
  intro o ho
  have hoff : o < offBar4 ∧ o % 4 = 0 := by revert o; decide
  rw [exec_registerWrite_word hon ht hoff.1 hoff.2, mmioWrite_readOnly _ o ho]

theorem exec_start (hon : On s) (ht : InTurn s src) (w : BitVec 64) :
    exec (.registerWrite src (rStart 191) 4 w) s = .next (s.startWrite 191 (w.truncate 32)) :=
  exec_registerWrite_word hon ht (by decide) (by decide) w

theorem exec_nf (hon : On s) (ht : InTurn s src) (w : BitVec 64) (n : Nat) (hn : n < 192) :
    exec (.registerWrite src (rNf n) 4 w) s = .next (s.setReg (rNf n) (s.reg (rNf n) &&& ~~~(w.truncate 32))) := by
  rw [exec_registerWrite_word hon ht (by simp only [rNf, offBar4]; omega) (by simp only [rNf]; omega), mmioWrite_nf hn]

/-- A 64-bit write is two, the lower address first. -/
theorem exec_two_words (hon : On s) (ht : InTurn s src) (w : BitVec 64) :
    exec (.registerWrite src 0x400040 8 w) s = .next ((s.setReg 0x400040 (w.truncate 32)).setReg 0x400044 (w.extractLsb' 32 32)) := by
  rw [exec_registerWrite_bar0 hon ht (by decide), BitVec.truncate_eq_setWidth, BitVec.setWidth_eq_extractLsb' (by decide)]
  rfl
end

/-- Settles O25: each write is the model's function of it, by its command, and that function writes the registers of the statement. -/
theorem pageHeaderAndRegisterWrites : Obligations.PageHeaderAndRegisterWrites := by
  unfold Obligations.PageHeaderAndRegisterWrites
  refine ⟨fun s src p hon ht hp => ⟨fun w => ?_, ?_, fun e => ?_, fun c _ hc => State.err_fld s p c hc⟩, exists_rowOf,
    fun s i r hi hr => ⟨rowRun_eq_exec s i r hi hr, fun hon hb => exec_waits hon hb i r hi hr⟩,
    fun s hb o k => ⟨burstTake_waits hb _, burstTake_waits hb _⟩,
    fun s src w hon ht => ⟨fun off bytes ho h => exec_registerWrite_discarded hon ht (ho.trans (by decide)) h w, exec_plain hon ht w,
      fun hw => ?_, fun hw => ?_, exec_readOnly hon ht w, exec_nf hon ht w, exec_two_words hon ht w⟩⟩
  case refine_1 =>
    obtain ⟨hregs, hcores, hmem⟩ := irqEnWrite_only s p w
    refine ⟨_, exec_pgIrqEnWrite hon ht hp w, irqEnWrite_irqEn s p w, irqEnWrite_irq s p w, hregs, fun hlow hset hmask => ?_,
      fun hlow hset hmask => ?_, fun hhigh => ?_, hcores, hmem⟩
    · rw [irqEnWrite_rise hlow hset]
      exact State.msix_sent (irqEnRegs s p w) hmask
    · rw [irqEnWrite_rise hlow hset]
      exact State.msix_pend (irqEnRegs s p w) hmask
    · rw [irqEnWrite_high w hhigh]
      exact ⟨rfl, rfl⟩
  case refine_2 =>
    obtain ⟨hregs, hcores, hmem⟩ := lockPage_only s p
    exact ⟨_, exec_pgLock hon ht hp, lockPage_ctl s p, hregs, hcores, hmem⟩
  case refine_3 =>
    obtain ⟨hregs, hcores, hmem⟩ := clearErr_only s p e.toNat
    exact ⟨_, exec_pgErrClr hon ht hp e, (clearErr_reg s p e.toNat).trans (BitVec.ofNat_toNat 32 e), hregs, hcores, hmem⟩
  case refine_4 => rw [exec_start hon ht, startWrite_even 191 (by simpa using hw)]
  case refine_5 =>
    obtain ⟨v, hv, e⟩ := startWrite_odd (s := s) 191 (w := w.truncate 32) (by simpa using hw)
    obtain ⟨hregs, hcores, hmem⟩ := (freeFld_only s 20 [rStart 191]).setReg (v := BitVec.ofNat 32 v) (List.mem_singleton.mpr rfl)
    exact ⟨_, v, (exec_start hon ht w).trans (congrArg _ e), State.reg_setReg _ _ _, hv, hregs, hcores, hmem⟩

end Sys2Proof.Machine

/-! # One step, and the reset state -/

namespace Sys2Proof.Machine
open Sys2Proof.Laws Sys2Proof.Safety

/-! ### One step -/

section
variable {s t u : State} {n : Nat}

/-- A core's turn in the round of the cores. -/
def coreTurn (o : Host.Outcome State Fault Refusal) (n : Nat) : Host.Outcome State Fault Refusal := match o with
  | .next t => if t.issues n then t.fetchRun n else .next t
  | stop => stop

theorem State.runCores_eq (s : State) : s.runCores = (List.range 192).foldl coreTurn (.next s) := rfl

theorem coreTurn_skip (h : s.issues n = false) : coreTurn (.next s) n = .next s := by simp [coreTurn, h]

theorem coreTurn_issue (h : s.issues n = true) : coreTurn (.next s) n = s.fetchRun n := by simp [coreTurn, h]

/-- Cores that do not issue are passed over. -/
theorem foldl_coreTurn_skip (l : List Nat) (h : ∀ m ∈ l, s.issues m = false) : l.foldl coreTurn (.next s) = .next s := by
  induction l with
  | nil => rfl
  | cons m r ih =>
    rw [List.forall_mem_cons] at h
    rw [List.foldl_cons, coreTurn_skip h.1, ih h.2]

/-- The one core that issues runs; those before and after it are passed over. -/
theorem foldl_coreTurn_one (a b : List Nat) (ha : ∀ m ∈ a, s.issues m = false) (hn : s.issues n = true) (hu : s.fetchRun n = .next u)
    (hb : ∀ m ∈ b, u.issues m = false) : (a ++ n :: b).foldl coreTurn (.next s) = .next u := by
  rw [List.foldl_append, foldl_coreTurn_skip a ha, List.foldl_cons, coreTurn_issue hn, hu, foldl_coreTurn_skip b hb]

/-- The numbers below a bound that are not n, around it. -/
theorem exists_range_split {k : Nat} (h : n < k) : ∃ a b, List.range k = a ++ n :: b ∧ ∀ m ∈ a ++ b, m < k ∧ m ≠ n := by
  obtain ⟨a, b, e⟩ := List.append_of_mem (List.mem_range.mpr h)
  refine ⟨a, b, e, fun m hm => ?_⟩
  have hd : (n :: (a ++ b)).Nodup := (List.nodup_middle (l₁ := a)).mp (e ▸ List.nodup_range)
  have hk : m ∈ List.range k := by rw [e]; grind
  exact ⟨List.mem_range.mp hk, fun hmn => (List.nodup_cons.mp hd).1 (hmn ▸ hm)⟩

theorem step_front (s : State) (c : Instr) : step { s with pending := c :: s.pending } = exec c s := rfl

theorem step_idle (h : s.pending = []) : step s = s.tickUsec.runCores := by rw [step, h]

theorem runCores_none (h : ∀ n < 192, s.issues n = false) : s.runCores = .next s :=
  foldl_coreTurn_skip _ fun _ hm => h _ (List.mem_range.mp hm)

theorem runCores_one (hn : n < 192) (hi : s.issues n = true) (hu : s.fetchRun n = .next u)
    (h : ∀ m < 192, m ≠ n → s.issues m = false ∧ u.issues m = false) : s.runCores = .next u := by
  obtain ⟨a, b, e, hab⟩ := exists_range_split hn
  have hoff (m : Nat) (hm : m ∈ a ++ b) : s.issues m = false ∧ u.issues m = false := h m (hab m hm).1 (hab m hm).2
  rw [State.runCores_eq, e]
  exact foldl_coreTurn_one a b (fun m hm => (hoff m (List.mem_append_left b hm)).1) hi hu fun m hm => (hoff m (List.mem_append_right a hm)).2
end

/-- Settles O57: the queue's front is what step matches on, and the round of the cores passes over those that do not issue. -/
theorem stepTakesTheFrontCommand : Obligations.StepTakesTheFrontCommand := by
  unfold Obligations.StepTakesTheFrontCommand
  refine ⟨step_front, fun s hs => ?_⟩
  change step s = s.tickUsec.runCores ∧ _
  rw [step_idle hs]
  exact ⟨rfl, runCores_none, fun n hn u hi hu h => runCores_one hn hi hu h⟩

/-! ### The reset state -/

theorem State.reset_core (n : Nat) : State.reset.core n = Core.reset := rfl
theorem State.reset_queue (q : Nat) : State.reset.queue q = Queue.reset := rfl
theorem State.reset_sem (k : Nat) : State.reset.sem k = Sem.reset := rfl
theorem Core.reset_tile (t : Nat) : Core.reset.tile t = Tile.reset := rfl
theorem Core.reset_arr (q : Nat) : Core.reset.arr q = Arr.reset := rfl
theorem Arr.reset_acc1 (a : Nat) : Arr.reset.acc1 a = Acc.reset := rfl

/-- An idle tile reads READY and no more. -/
theorem Core.reset_tswOf (t : Nat) : Core.reset.tswOf t = 0x80000000 := by
  have hword : setBit (setBit (Tile.reset.tsw &&& 0xFF80) 31 true) 30 false = 0x80000000 := by decide
  exact hword

/-- No group of a reset array is open, so none holds an accumulator. -/
theorem Arr.reset_heldI (a : Nat) : Arr.reset.heldI a = false := rfl

/-- Settles O59: an entry that no table of the reset state lists reads as its default, and the defaults are what the tables of the spec give. -/
theorem resetState : Obligations.ResetState := by
  unfold Obligations.ResetState
  refine ⟨rfl, rfl, rfl, rfl, fun n => ?_, fun q => ?_, fun k => ?_⟩
  · rw [State.reset_core]
    refine ⟨rfl, rfl, rfl, rfl, rfl, rfl, rfl, rfl, fun i => ⟨rfl, rfl⟩, fun t => ?_, fun q a => ?_⟩
    · rw [Core.reset_tile, Core.reset_tswOf]
      exact ⟨rfl, rfl, rfl, rfl, rfl, rfl, rfl⟩
    · rw [Core.reset_arr, Arr.reset_acc1, Arr.reset_heldI]
      exact ⟨rfl, rfl⟩
  · rw [State.reset_queue]
    rfl
  · rw [State.reset_sem]
    rfl
end Sys2Proof.Machine

/-! # Power, cold reset and the straps -/

namespace Sys2Proof.Machine
open Sys2Proof.Laws Sys2Proof.Safety

/-! ### Bit fields -/

section
variable {w lo len : Nat}

theorem getLsbD_fieldMask (i : Nat) :
    (BitVec.ofNat w ((2 ^ len - 1) * 2 ^ lo)).getLsbD i = (decide (i < w) && decide (lo ≤ i) && decide (i < lo + len)) := by
  rw [BitVec.getLsbD_ofNat, Nat.testBit_mul_two_pow, Nat.testBit_two_pow_sub_one]
  grind

/-- A bit after a field was replaced. -/
theorem getLsbD_setFld (x : BitVec w) (lo len v i : Nat) :
    (setFld x lo len v).getLsbD i = if lo ≤ i ∧ i < lo + len ∧ i < w then v.testBit (i - lo) else x.getLsbD i := by
  have hx : ¬ i < w → x.getLsbD i = false := fun h => BitVec.getLsbD_of_ge x i (Nat.le_of_not_lt h)
  rw [setFld, BitVec.getLsbD_or, BitVec.getLsbD_and, BitVec.getLsbD_not, getLsbD_fieldMask, BitVec.getLsbD_ofNat, Nat.testBit_mul_two_pow,
    Nat.testBit_mod_two_pow]
  grind

theorem testBit_fld (x : BitVec w) (lo len i : Nat) : (fld x lo len).testBit i = (decide (i < len) && x.getLsbD (lo + i)) := by
  rw [fld, Nat.testBit_mod_two_pow, Nat.testBit_div_two_pow, BitVec.testBit_toNat, Nat.add_comm]

/-- A field reads as it was written. -/
theorem fld_setFld_same (x : BitVec w) (v : Nat) (h : lo + len ≤ w) : fld (setFld x lo len v) lo len = v % 2 ^ len := by
  refine Nat.eq_of_testBit_eq fun i => ?_
  rw [testBit_fld, getLsbD_setFld, Nat.testBit_mod_two_pow]
  grind

/-- Writing a field leaves a field beside it alone. -/
theorem fld_setFld_ne (x : BitVec w) (v lo' len' : Nat) (h : lo' + len' ≤ lo ∨ lo + len ≤ lo') : fld (setFld x lo len v) lo' len' = fld x lo' len' := by
  refine Nat.eq_of_testBit_eq fun i => ?_
  rw [testBit_fld, testBit_fld, getLsbD_setFld]
  grind

end

/-! ### What the links leave alone

A link that comes or goes answers and routes again what it held, and what those operations record goes to PG_ERR, PG_IRQ, flags and counters: never to the
straps, the configuration, the service word, the chip address and its seed, or the STATE of a link. -/

/-- Registers 0x40 to 0x48 of the pages below the cores': GLOBAL_STRAP, CFG and SVC, FABRIC_ID and SEED, and CTL, STAT and PEER of every link. -/
def mainReg (o : Nat) : Prop := o < 0x200000 ∧ 0x40 ≤ o % 0x1000 ∧ o % 0x1000 ≤ 0x48

/-- From s to t no such register changes, and neither do power and pins. -/
structure MainKept (s t : State) : Prop where
  reg : ∀ o, mainReg o → t.reg o = s.reg o
  power : t.power = s.power
  pins : t.pins = s.pins

/-- The state of a search keeps them. -/
@[reducible] def FirstKept {α : Type} (s : State) : Option (State × α) → Prop
  | none => True
  | some r => MainKept s r.1

section
variable {a s t : State} {p : Page} {l : Nat}

theorem not_mainReg_page (p : Page) {o : Nat} (h : o < 0x40) : ¬ mainReg (pageBase p + o) := by
  have := pageBase_mod p
  rintro ⟨-, h40, -⟩
  omega

theorem MainKept.refl (s : State) : MainKept s s := ⟨fun _ _ => rfl, rfl, rfl⟩

/-- A state with the same registers, power and pins. -/
theorem MainKept.same (h : MainKept a s) (hr : t.regs = s.regs := by rfl) (hp : t.power = s.power := by rfl) (hq : t.pins = s.pins := by rfl) :
    MainKept a t :=
  ⟨fun o ho => by rw [← h.reg o ho, State.reg, hr, State.reg], hp.trans h.power, hq.trans h.pins⟩

theorem MainKept.ite {c : Prop} [Decidable c] (hs : MainKept a s) (ht : MainKept a t) : MainKept a (if c then s else t) := by
  split
  · exact hs
  · exact ht

theorem MainKept.foldl {α : Type} {f : State → α → State} {xs : List α} (h : MainKept a s) (hf : ∀ t x, MainKept a t → MainKept a (f t x)) :
    MainKept a (xs.foldl f s) := foldl_keeps (MainKept a) f hf xs s h

theorem MainKept.setReg {o : Nat} {v : W32} (h : MainKept a s) (ho : ¬ mainReg o) : MainKept a (s.setReg o v) :=
  ⟨fun q hq => (State.reg_setReg_ne s o q v fun e => ho (e ▸ hq)).trans (h.reg q hq), h.power, h.pins⟩

theorem MainKept.orRise {old : State} (h : MainKept a s) : MainKept a (State.orRise old s) := by
  have hmsix : MainKept a (s.msix 0) := .ite h.same h.same
  exact .ite hmsix h

theorem MainKept.withIrq {f : State → State} (h : MainKept a (f s)) : MainKept a (withIrq p f s) :=
  (h.setReg (not_mainReg_page p (by decide))).orRise

theorem MainKept.latchIrq {m : W32} (h : MainKept a s) : MainKept a (s.latchIrq p m) := (h.setReg (not_mainReg_page p (by decide))).orRise

theorem MainKept.errWith {c : Nat} {f : State → State} (h : MainKept a s) (hf : ∀ s, MainKept a s → MainKept a (f s)) :
    MainKept a (s.errWith p c f) :=
  .ite (.withIrq (hf _ (h.setReg (not_mainReg_page p (by decide))))) h

theorem MainKept.err {c : Nat} (h : MainKept a s) : MainKept a (s.err p c) := h.errWith fun _ ht => ht

theorem MainKept.fabErr {c d : Nat} (h : MainKept a s) : MainKept a (s.fabErr c d) := h.errWith fun _ ht => ht.setReg fun ⟨_, _, h48⟩ => absurd h48 (by decide)

theorem MainKept.sramEvent {u : Upset} (h : MainKept a s) : MainKept a (s.sramEvent u) :=
  h.setReg (by rintro ⟨hlt, -⟩; simp only [rRasSram] at hlt; omega)

theorem MainKept.findsAt {x : Site} (h : MainKept a s) : MainKept a (s.findsAt x).1 := .foldl h.same fun _ _ ht => ht.sramEvent

theorem MainKept.readRoute {k : Nat} (h : MainKept a s) : MainKept a (s.readRoute k) := .ite h.findsAt.same h.findsAt

theorem MainKept.pump (h : MainKept a s) : MainKept a (s.pump l) := .ite h h.same

theorem MainKept.enqueue {lane hop : Nat} {from_ : Option Nat} {q : Packet} (h : MainKept a s) : MainKept a (s.enqueue l lane hop from_ q) :=
  .pump h.same

theorem MainKept.ownerTakes {r : Request} {st : Nat} {ws : List (Word × Bool)} (h : MainKept a s) : MainKept a (s.ownerTakes r st ws) := by
  unfold State.ownerTakes
  split
  · exact h
  · exact .ite h h.same
  · exact h.same

theorem MainKept.completeReq {tag : BitVec 17} {st : Nat} {ws : List (Word × Bool)} (h : MainKept a s) : MainKept a (s.completeReq tag st ws) := by
  unfold State.completeReq
  split
  · exact h
  · exact .ownerTakes h.same

theorem MainKept.routeTo {from_ : Option Nat} {q : Packet} (h : MainKept a s) : MainKept a (s.routeTo from_ q).1 := by
  have hr : MainKept a (s.readRoute (s.routeKey q.dst)) := h.readRoute
  unfold State.routeTo
  split
  · exact h.same
  split
  · exact h.fabErr
  dsimp only
  split
  · exact hr.fabErr
  split
  · exact hr.same
  · exact hr.enqueue

theorem MainKept.unreach {q : Packet} (h : MainKept a s) : MainKept a (s.unreach q) := .ite h (.ite h.completeReq (.ite h.fabErr h.routeTo))

theorem MainKept.route {from_ : Option Nat} {q : Packet} (h : MainKept a s) : MainKept a (s.route from_ q) := .ite h.routeTo.unreach h.routeTo

theorem MainKept.request {owner : ReqOwner} {addr : W64} {off : Nat} {k : PktSpec} (h : MainKept a s) : FirstKept a (s.request owner addr off k) := by
  unfold State.request
  split
  · trivial
  · extract_lets tag r q u
    have hu : MainKept a u := by
      cases owner with
      | block n id => exact h.same
      | posted n fa => exact h.same
      | gone => exact h.same
    clear_value u
    split
    · exact hu.fabErr.completeReq
    · exact hu.route

/-- Where the head of the requests that wait is sent, or not. -/
theorem MainKept.sendWaiting (h : MainKept a s) : MainKept a s.sendWaiting := by
  unfold State.sendWaiting
  generalize s.unsent.length = k
  induction k with
  | zero => exact h
  | succ k ih =>
    rw [Nat.repeat]
    generalize Nat.repeat _ k s = t at ih
    split
    · exact ih
    · next u r _ =>
      have hr : FirstKept a (({ t with unsent := r } : State).request u.owner u.addr 0 u.spec) := MainKept.request ih.same
      split
      · next e => rw [e] at hr; exact hr
      · exact ih

theorem MainKept.requeue {q : Queued} (h : MainKept a s) : MainKept a (s.requeue q) := by
  unfold State.requeue
  dsimp only
  split
  · exact h.readRoute.fabErr
  · exact .ite h.readRoute.same h.readRoute.enqueue

theorem MainKept.dropLink (h : MainKept a s) : MainKept a (s.dropLink l) :=
  .sendWaiting (.foldl (.foldl h.same fun _ _ ht => ht.unreach) fun _ _ ht => ht.requeue)

theorem MainKept.imgFail (h : MainKept a s) : MainKept a s.imgFail := by
  unfold State.imgFail
  split
  · exact h
  · refine .ite h.same ?_
    split
    · exact h.same
    · exact .enqueue h.same

/-! ### A link that starts -/

/-- What entering a state writes first: the state, with no rate. -/
def State.linkStat (s : State) (l st : Nat) (reason : Option Nat) : State := s.setReg (rLkStat l) (statWord (s.reg (rLkStat l)) st 0 reason)

/-- Beyond that, a link that enters a state writes none of the registers above. -/
theorem linkTo_kept (s : State) (l st : Nat) (reason : Option Nat) : MainKept (s.linkStat l st reason) (s.linkTo l st reason) := by
  unfold State.linkTo
  extract_lets up s1 s2 s3 t s4
  have h1 : MainKept (s.linkStat l st reason) s1 := .withIrq (.refl _)
  have h2 : MainKept (s.linkStat l st reason) s2 := .ite h1.latchIrq h1
  have h3 : MainKept (s.linkStat l st reason) s3 := .dropLink (.ite h2 h2.same)
  have ht : MainKept (s.linkStat l st reason) t := h3.setReg (by rintro ⟨-, -, h48⟩; simp only [rLkFlags] at h48; omega)
  have h4 : MainKept (s.linkStat l st reason) s4 := by
    refine .ite ?_ h3
    split
    · exact .ite ht.err ht
    · exact ht
  exact .ite h4.imgFail h4

/-- The state a link that becomes able to train goes to. -/
def State.startAs (s : State) (l : Nat) : Nat := if s.cable l then 2 else 1

theorem linkStart_kept (s : State) (l : Nat) : MainKept (s.linkStat l (s.startAs l) none) (s.linkStart l) := by
  unfold State.linkStart State.startAs
  split
  · exact (linkTo_kept s l 2 none).same
  · exact linkTo_kept s l 1 none

/-- Links that start leave every other register above as it is. -/
theorem startLinks_kept (xs : List Nat) (s : State) :
    (xs.foldl State.linkStart s).power = s.power ∧ (xs.foldl State.linkStart s).pins = s.pins ∧
    ∀ o, mainReg o → (∀ l ∈ xs, o ≠ rLkStat l) → (xs.foldl State.linkStart s).reg o = s.reg o := by
  induction xs generalizing s with
  | nil => exact ⟨rfl, rfl, fun _ _ _ => rfl⟩
  | cons l r ih =>
    obtain ⟨hreg, hpower, hpins⟩ := linkStart_kept s l
    obtain ⟨hpower', hpins', hreg'⟩ := ih (s.linkStart l)
    refine ⟨hpower'.trans hpower, hpins'.trans hpins, fun o ho hne => ?_⟩
    rw [List.forall_mem_cons] at hne
    rw [List.foldl_cons, hreg' o ho hne.2, hreg o ho, State.linkStat, State.reg_setReg_ne _ _ _ _ hne.1]

theorem startAs_congr {s t : State} (h : t.pins.cblPrsntN = s.pins.cblPrsntN) (l : Nat) : t.startAs l = s.startAs l := by
  rw [State.startAs, State.startAs, State.cable, State.cable, h]

theorem mainReg_lkStat (h : l < 96) : mainReg (rLkStat l) := ⟨by simp only [rLkStat]; omega, by simp only [rLkStat]; omega, by simp only [rLkStat]; omega⟩

theorem linkStat_lk (s : State) (l : Nat) {st : Nat} (h : st < 16) : (s.linkStat l st none).lk l = st := by
  rw [State.lk, State.fldReg, State.linkStat, State.reg_setReg, statWord, fld_setFld_ne _ _ _ _ (by decide), fld_setFld_same _ _ (by decide)]
  omega

/-- Every link that starts is in TRAIN where it has a cable, and in NOCABLE where not. -/
theorem startLinks_lk (xs : List Nat) (s : State) (hl : l < 96) (h : l ∈ xs) : (xs.foldl State.linkStart s).lk l = s.startAs l := by
  induction xs generalizing s with
  | nil => exact absurd h List.not_mem_nil
  | cons k r ih =>
    obtain ⟨hreg, -, hpins⟩ := linkStart_kept s k
    by_cases hr : l ∈ r
    · exact (ih (s.linkStart k) hr).trans (startAs_congr (by rw [hpins]; rfl) l)
    · obtain rfl : l = k := (List.mem_cons.mp h).resolve_right hr
      obtain ⟨-, -, hrest⟩ := startLinks_kept r (s.linkStart l)
      have hne (k : Nat) (hk : k ∈ r) : rLkStat l ≠ rLkStat k := by
        rintro e
        simp only [rLkStat] at e
        exact hr ((by omega : l = k) ▸ hk)
      have hstart : s.startAs l < 16 := by unfold State.startAs; split <;> omega
      rw [List.foldl_cons, State.lk, State.fldReg, hrest _ (mainReg_lkStat hl) hne, hreg _ (mainReg_lkStat hl)]
      exact linkStat_lk s l hstart

end

/-! ### Power -/

/-- What a loss of every state leaves. -/
theorem lost_wiped (s : State) {p : Power} (h : p ≠ .running) : Wiped s (s.lost p) p := by
  have hfuses (x : Repair) : x ∈ (s.lost p).fuses ↔ x ∈ s.fuses ∨ (x ∈ s.repairs ∧ x.isCol = true) := by
    rw [State.lost, List.mem_dedup, List.mem_append, List.mem_filter]
  have hgood : (s.lost p).pins.modPg = decide (p = .reset) := by
    simp [State.lost, pinsIn, h]
  have htrip : (s.lost p).pins.thermTripN = decide (p ≠ .tripped) := by
    simp [State.lost, pinsIn]
  exact ⟨rfl, hgood, htrip, rfl, rfl, rfl, rfl, rfl, rfl, rfl, rfl, rfl, rfl, rfl, rfl, rfl, rfl, rfl, rfl, rfl, rfl, rfl, rfl, rfl, rfl, rfl,
    hfuses, rfl, rfl, rfl, rfl⟩

section
variable {s : State}

theorem exec_powerOn (h : s.power = .off) : exec .powerOn s = .next (s.lost .reset) := congrArg _ (if_pos h)

theorem exec_brownOut (h : s.power ≠ .off) : exec .brownOut s = .next (s.lost .brownOut) := congrArg _ (if_neg h)

/-- MOD_RST_N is seen low, or high. -/
def State.rstPin (s : State) (b : Bool) : State := { s with pins := { s.pins with modRstN := b } }

theorem exec_coldReset (h : s.power = .reset ∨ s.power = .running) : exec .coldReset s = .next ((s.rstPin false).lost .reset) := by
  have hon : ¬(s.power = .off ∨ s.power = .brownOut) := by grind
  have hcool : ¬(s.power = .tripped ∨ s.power = .tripHeld) := by grind
  exact congrArg _ ((if_neg hon).trans (if_neg hcool))

theorem exec_coldReset_tripped (h : s.power = .tripped ∨ s.power = .tripHeld) : exec .coldReset s = .next ((s.rstPin false).lost .tripHeld) := by
  have hon : ¬(s.power = .off ∨ s.power = .brownOut) := by grind
  exact congrArg _ ((if_neg hon).trans (if_pos h))

/-! ### The sensors -/

theorem foldl_max_lt_iff (xs : List Nat) (a k : Nat) : xs.foldl max a < k ↔ a < k ∧ ∀ x ∈ xs, x < k := by
  induction xs generalizing a with
  | nil => simp
  | cons x r ih => rw [List.foldl_cons, ih, List.forall_mem_cons, max_lt_iff, and_assoc]

/-- No reading reaches a level k above 0 if and only if the highest one does not. -/
theorem hottest_lt_iff (xs : List Nat) {k : Nat} (h : 0 < k) : xs.foldl max 0 < k ↔ ∀ x ∈ xs, x < k := by
  rw [foldl_max_lt_iff, and_iff_right h]

theorem sensorRead_trip (r : Sensors) (h : ∃ x ∈ r.dies ++ r.clusters, 110 ≤ x) : s.sensorRead r = s.lost .tripped := by
  have hhot : ¬ (r.dies ++ r.clusters).foldl max 0 < 110 := by
    rw [hottest_lt_iff _ (by decide)]
    push Not
    exact h
  exact if_pos (Nat.le_of_not_lt hhot)

theorem sensorRead_cool (r : Sensors) (h : ∀ x ∈ r.dies ++ r.clusters, x < 110) : s.sensorRead r = { s with
    sensors := r, pins := { s.pins with alertN := (r.dies ++ r.clusters).all (fun x => decide (x < 105)) && s.stage != 0xF } } := by
  have hcool : ¬ 110 ≤ (r.dies ++ r.clusters).foldl max 0 := Nat.not_le_of_lt ((hottest_lt_iff _ (by decide)).mpr h)
  have halert : decide ((r.dies ++ r.clusters).foldl max 0 < 105) = (r.dies ++ r.clusters).all (fun x => decide (x < 105)) := by
    rw [Bool.eq_iff_iff, decide_eq_true_iff, hottest_lt_iff _ (by decide), List.all_eq_true]
    simp only [decide_eq_true_eq]
  rw [State.sensorRead, if_neg hcool, halert]

theorem exec_sensorRead (hon : On s) (r : Sensors) : exec (.sensorRead r) s = .next (s.sensorRead r) :=
  command_on (fun s => s.sensorRead r) s hon

/-! ### The straps -/

theorem getLsbD_strapLevels (driven straps : BitVec 15) {i : Nat} (h : i < 15) :
    (strapLevels driven straps).getLsbD i = if driven.getLsbD i then straps.getLsbD i else decide (i = 10) := by
  have hfactory : factoryStraps.getLsbD i = decide (i = 10) := by revert i; decide
  simp only [strapLevels, BitVec.getLsbD_or, BitVec.getLsbD_and, BitVec.getLsbD_not, hfactory, h, decide_true, Bool.true_and]
  cases driven.getLsbD i <;> simp

/-- The levels that the strap pins of a module read. -/
abbrev State.straps (s : State) (straps : BitVec 15) : BitVec 15 := strapLevels s.pins.strapDriven straps

/-- Leaving internal reset, before the links start. -/
def State.sampled (s : State) (straps : BitVec 15) : State :=
  (({ s with power := .running, strapAt := s.usec, idKeys := [privateKey, privateKey] }.setReg rStrap ((s.straps straps).zeroExtend 32)).setReg rCfg
    ((s.straps straps).zeroExtend 32)).setFldReg rSvc 16 1 1

theorem State.sampleStraps_eq (s : State) (straps : BitVec 15) :
    s.sampleStraps straps = (List.range 96).foldl State.linkStart (s.sampled straps).loadChip := rfl

theorem sampled_strap (s : State) (straps : BitVec 15) : (s.sampled straps).reg rStrap = (s.straps straps).zeroExtend 32 := by
  rw [State.sampled, State.reg_setFldReg_ne _ _ _ _ _ _ (by decide), State.reg_setReg_ne _ _ _ _ (by decide), State.reg_setReg]

theorem sampled_cfg (s : State) (straps : BitVec 15) : (s.sampled straps).reg rCfg = (s.straps straps).zeroExtend 32 := by
  rw [State.sampled, State.reg_setFldReg_ne _ _ _ _ _ _ (by decide), State.reg_setReg]

theorem sampled_step1 (s : State) (straps : BitVec 15) : (s.sampled straps).bitReg rSvc 16 = true := by
  rw [State.bitReg, State.sampled, State.setFldReg, State.reg_setReg, getLsbD_setFld]
  rfl

theorem loadChip_reg (s : State) {o : Nat} (h : o ≠ rFabId) : s.loadChip.reg o = s.reg o := State.reg_setReg_ne _ _ _ _ h

theorem loadChip_chip (s : State) : s.loadChip.chip = s.fldReg rFabSeed 0 12 * 256 + s.fldReg rCfg 0 8 := by
  have hseed : s.fldReg rFabSeed 0 12 < 2 ^ 12 := Nat.mod_lt _ (by decide)
  have hcfg : s.fldReg rCfg 0 8 < 2 ^ 8 := Nat.mod_lt _ (by decide)
  rw [State.chip, State.fldReg, State.loadChip, State.reg_setReg, fld, BitVec.toNat_ofNat]
  split <;> omega

theorem fld_zeroExtend {w k : Nat} (x : BitVec w) (lo len : Nat) (h : w ≤ k) : fld (x.zeroExtend k) lo len = fld x lo len := by
  rw [fld, fld, BitVec.zeroExtend, BitVec.toNat_setWidth_of_le h]

/-- What leaving internal reset leaves. -/
theorem sampleStraps_leaves (s : State) (straps : BitVec 15) : ∃ t, s.sampleStraps straps = t ∧ t.power = .running ∧
    t.reg rStrap = (s.straps straps).zeroExtend 32 ∧ t.reg rCfg = (s.straps straps).zeroExtend 32 ∧ t.bitReg rSvc 16 = true ∧
    t.chip = t.fldReg rFabSeed 0 12 * 256 + fld (s.straps straps) 0 8 ∧ ∀ l < 96, t.lk l = s.startAs l := by
  have hne {o : Nat} (ho : o < 0x100000) : ∀ l ∈ List.range 96, o ≠ rLkStat l := by intro l _; simp only [rLkStat]; omega
  obtain ⟨hpower, -, hreg⟩ := startLinks_kept (List.range 96) (s.sampled straps).loadChip
  have hmain {o : Nat} (ho : mainReg o) (hlt : o < 0x100000) := hreg o ho (hne hlt)
  refine ⟨_, s.sampleStraps_eq straps, hpower, ?_, ?_, ?_, ?_, fun l hl => startLinks_lk _ _ hl (List.mem_range.mpr hl)⟩
  · rw [hmain ⟨by decide, by decide, by decide⟩ (by decide), loadChip_reg _ (by decide), sampled_strap]
  · rw [hmain ⟨by decide, by decide, by decide⟩ (by decide), loadChip_reg _ (by decide), sampled_cfg]
  · rw [State.bitReg, hmain ⟨by decide, by decide, by decide⟩ (by decide), loadChip_reg _ (by decide)]
    exact sampled_step1 s straps
  · have hid := hmain (o := rFabId) ⟨by decide, by decide, by decide⟩ (by decide)
    have hseed := hmain (o := rFabSeed) ⟨by decide, by decide, by decide⟩ (by decide)
    have hcfg : (s.sampled straps).fldReg rCfg 0 8 = fld (s.straps straps) 0 8 := by
      rw [State.fldReg, sampled_cfg, fld_zeroExtend _ _ _ (by decide)]
    rw [State.chip, State.fldReg, hid, State.fldReg, hseed, loadChip_reg _ (o := rFabSeed) (by decide), ← hcfg]
    exact loadChip_chip _

/-- The commands by which the module leaves internal reset do it from a state with the pins of this one. -/
theorem exec_leavesReset {c : Instr} {straps : BitVec 15}
    (h : ((c = .strapSample straps ∨ c = .internalResetWaitEnd straps) ∧ (s.power = .reset ∨ s.power = .tripHeld)) ∨
      (c = .brownOutRecovery straps ∧ s.power = .brownOut ∧ s.pins.modRstN = true)) :
    ∃ v : State, exec c s = .next (v.sampleStraps straps) ∧ v.pins.strapDriven = s.pins.strapDriven ∧ v.pins.cblPrsntN = s.pins.cblPrsntN := by
  obtain ⟨hc, hp⟩ | ⟨rfl, hp, hrst⟩ := h
  · have hexec : exec c s = .next (s.leaveReset straps) := by obtain rfl | rfl := hc <;> rfl
    obtain hp | hp := hp
    · exact ⟨s.rstPin true, hexec.trans (congrArg _ (if_pos hp)), rfl, rfl⟩
    · have hr : s.power ≠ .reset := by rw [hp]; decide
      exact ⟨(s.rstPin true).lost .reset, hexec.trans (congrArg _ ((if_neg hr).trans (if_pos hp))), rfl, rfl⟩
  · have hexec : exec (.brownOutRecovery straps) s = .next (s.recover straps) := rfl
    exact ⟨s.lost .reset, hexec.trans (congrArg _ ((if_neg (not_not.mpr hp)).trans (if_pos hrst))), rfl, rfl⟩

theorem exec_brownOutRecovery_held (straps : BitVec 15) (hp : s.power = .brownOut) (hrst : s.pins.modRstN = false) :
    exec (.brownOutRecovery straps) s = .next (s.lost .reset) :=
  congrArg _ ((if_neg (not_not.mpr hp)).trans (if_neg (by rw [hrst]; decide)))

end

/-- Settles O21: what is lost is lost by one function of the power state, and after the straps only the links act, which leave what was sampled. -/
theorem powerColdResetAndStraps : Obligations.PowerColdResetAndStraps := by
  unfold Obligations.PowerColdResetAndStraps
  intro s
  refine ⟨fun h => ⟨_, exec_powerOn h, lost_wiped s (by decide)⟩, ⟨_, rfl, lost_wiped s (by decide)⟩,
    fun h => ⟨_, exec_coldReset h, lost_wiped (s.rstPin false) (by decide)⟩,
    fun h => ⟨_, exec_coldReset_tripped h, lost_wiped (s.rstPin false) (by decide)⟩, fun h => ⟨_, exec_brownOut h, lost_wiped s (by decide)⟩,
    fun r hon => ⟨fun h => ⟨_, ?_, lost_wiped s (by decide)⟩, fun h => ?_⟩, fun straps c _ h => ?_,
    fun straps hp hrst => ⟨_, exec_brownOutRecovery_held straps hp hrst, lost_wiped s (by decide)⟩⟩
  case refine_1 => exact (exec_sensorRead hon r).trans (congrArg _ (sensorRead_trip r h))
  case refine_2 => exact (exec_sensorRead hon r).trans (congrArg _ (sensorRead_cool r h))
  case refine_3 =>
    obtain ⟨v, hexec, hdriven, hcable⟩ := exec_leavesReset h
    obtain ⟨t, rfl, hpower, hstrap, hcfg, hsvc, hchip, hlk⟩ := sampleStraps_leaves v straps
    refine ⟨_, v.straps straps, fun i hi => ?_, hexec, hpower, hstrap, hcfg, hsvc, hchip, fun l hl => ?_⟩
    · rw [← hdriven]
      exact getLsbD_strapLevels _ _ hi
    · exact (hlk l hl).trans (startAs_congr hcable l)

end Sys2Proof.Machine

/-! # The host's link and device memory -/

namespace Sys2Proof.Machine
open Sys2Proof.Laws Sys2Proof.Safety

/-! ### Words and bits -/

section
variable {w : Nat}

theorem getLsbD_setBit (x : BitVec w) (i j : Nat) (b : Bool) : (setBit x i b).getLsbD j = if j = i ∧ i < w then b else x.getLsbD j := by
  rw [setBit, getLsbD_setFld]
  have hbit : (if b then 1 else 0).testBit 0 = b := by cases b <;> rfl
  grind

theorem setBit_true (x : BitVec w) (i : Nat) : setBit x i true = x ||| BitVec.ofNat w (2 ^ i) := by
  refine BitVec.eq_of_getLsbD_eq fun j hj => ?_
  rw [getLsbD_setBit, BitVec.getLsbD_or, BitVec.getLsbD_ofNat, Nat.testBit_two_pow]
  grind

theorem fld_extractLsb' (x : BitVec w) {k lo len : Nat} (h : lo + len ≤ k) : fld (x.extractLsb' 0 k) lo len = fld x lo len := by
  refine Nat.eq_of_testBit_eq fun i => ?_
  rw [testBit_fld, testBit_fld, BitVec.getLsbD_extractLsb']
  grind

theorem extractLsb'_low (x : BitVec 64) : x.extractLsb' 0 32 = x.truncate 32 := (BitVec.setWidth_eq_extractLsb' (by decide)).symm

end

section
variable {a s t : State}

/-- The even byte of a word is its low one, and the odd byte its high one (R5). -/
theorem State.byte_eq_even (s : State) {x : Nat} (h : x % 2 = 0) : s.byte x = (s.word (x / 2)).extractLsb' 0 8 := by
  have hx : s.byte (2 * (x / 2)) = s.byte x := by congr 1; omega
  exact hx.symm.trans BitVec.extractLsb'_append_eq_right.symm

theorem State.byte_eq_odd (s : State) {x : Nat} (h : x % 2 = 1) : s.byte x = (s.word (x / 2)).extractLsb' 8 8 := by
  have hx : s.byte (2 * (x / 2) + 1) = s.byte x := by congr 1; omega
  exact hx.symm.trans BitVec.extractLsb'_append_eq_left.symm

/-! ### What the checks of stored data leave alone -/

/-- From s to t neither the cores change nor what the host sees but through its registers: the lines and reads that wait, and the answers it got. -/
structure HostKept (s t : State) : Prop where
  cores : t.cores = s.cores
  snoop : t.snoop = s.snoop
  biWait : t.biWait = s.biWait
  memWait : t.memWait = s.memWait
  hostRead : t.hostRead = s.hostRead

theorem HostKept.refl (s : State) : HostKept s s := ⟨rfl, rfl, rfl, rfl, rfl⟩

theorem HostKept.ite {c : Prop} [Decidable c] (hs : HostKept a s) (ht : HostKept a t) : HostKept a (if c then s else t) := by
  split
  · exact hs
  · exact ht

theorem HostKept.foldl {α : Type} {f : State → α → State} {xs : List α} (h : HostKept a s) (hf : ∀ t x, HostKept a t → HostKept a (f t x)) :
    HostKept a (xs.foldl f s) := foldl_keeps (HostKept a) f hf xs s h

/-- A state with the same cores and host's state. -/
theorem HostKept.same (h : HostKept a s) (g : HostKept s t := by exact ⟨rfl, rfl, rfl, rfl, rfl⟩) : HostKept a t :=
  ⟨g.cores.trans h.cores, g.snoop.trans h.snoop, g.biWait.trans h.biWait, g.memWait.trans h.memWait, g.hostRead.trans h.hostRead⟩

theorem HostKept.withIrq {p : Page} {f : State → State} (h : HostKept a (f s)) : HostKept a (withIrq p f s) :=
  .ite (.ite h.same h.same) h.same

theorem HostKept.err {p : Page} {c : Nat} (h : HostKept a s) : HostKept a (s.err p c) := .ite (.withIrq h.same) h

theorem HostKept.logEvent {x : Nat} {ue : Bool} (h : HostKept a s) : HostKept a (s.logEvent x ue) := by
  unfold State.logEvent
  exact .withIrq (.ite h.same (.ite h.same h.same))

theorem HostKept.memEvent {x : Nat} {ue : Bool} (h : HostKept a s) : HostKept a (s.memEvent x ue) := by
  have hcount : HostKept a (s.countReg (counterOf s x ue).1 (counterOf s x ue).2.1 (counterOf s x ue).2.2 1) := h.same
  exact hcount.logEvent

theorem HostKept.touch {x : Nat} (h : HostKept a s) : HostKept a (s.touch x) := by
  unfold State.touch
  split
  · exact h
  · exact .memEvent h.same
  · exact .memEvent h.same

theorem HostKept.touchAll {xs : List Nat} (h : HostKept a s) : HostKept a (s.touchAll xs) := h.foldl fun _ _ ht => ht.touch

theorem HostKept.writeMarked {ws : List (Nat × Word × Bool)} (h : HostKept a s) : HostKept a (s.writeMarked ws) :=
  .foldl (.foldl (.foldl h fun _ _ ht => .ite ht.same ht.touch) fun _ _ ht => ht.same) fun _ _ ht => ht.same

theorem State.err_mem (s : State) (p : Page) (c : Nat) : (s.err p c).mem = s.mem := by
  unfold State.err State.errWith
  split
  · rw [withIrq_mem]
    rfl
  · rfl

/-! ### Marks of words written -/

theorem cwOf_cwOf (x : Nat) : cwOf (cwOf x) = cwOf x := by
  unfold cwOf cwLen
  by_cases h : x < 0x20000000000
  · rw [if_pos h, if_pos (by omega)]
    omega
  · rw [if_neg h, if_neg (by omega)]
    omega

theorem poisoned_of_psn {s t : State} (hp : t.psn = s.psn) (hm : t.mem.trained = s.mem.trained) (x : Nat) : t.poisoned x = s.poisoned x := by
  rw [State.poisoned, State.poisoned, hp, Memory.unmarked, Memory.unmarked, hm]

/-- A codeword's mark after it was set. -/
theorem poisoned_setMark (s : State) (x y : Nat) (m : Bool) : (s.setMark x m).poisoned y = if cwOf y = cwOf x then m else s.poisoned y := by
  simp only [State.poisoned, State.setMark]
  split
  · next e => rw [e, look_put_same, Bool.xor_assoc, Bool.xor_self, Bool.xor_false]
  · next e => rw [look_put_ne _ _ _ _ _ e]

/-- Codewords' marks after they were set one by one. -/
theorem poisoned_setMarks (f : Nat → Bool) (x : Nat) (cs : List Nat) (s : State) (hcw : ∀ c ∈ cs, cwOf c = c) (h : cwOf x ∈ cs ∨ s.poisoned x = f (cwOf x)) :
    (cs.foldl (fun t c => t.setMark c (f c)) s).poisoned x = f (cwOf x) := by
  induction cs generalizing s with
  | nil => exact h.resolve_left List.not_mem_nil
  | cons c r ih =>
    rw [List.forall_mem_cons] at hcw
    refine ih _ hcw.2 ?_
    rw [poisoned_setMark, hcw.1]
    grind

theorem poisoned_setWord (s : State) (y : Nat) (v : Word) (x : Nat) : (s.setWord y v).poisoned x = s.poisoned x := by
  have htrained : (s.setWord y v).mem.trained = s.mem.trained := by simp only [State.setWord, State.setByte, Memory.setByte]
  exact poisoned_of_psn (s.setWord_psn y v) htrained x

/-- The words of a write change no mark. -/
theorem poisoned_wordsWritten (s : State) (ws : List (Nat × Word × Bool)) (x : Nat) : (wordsWritten s ws).poisoned x = s.poisoned x := by
  induction ws generalizing s with
  | nil => rfl
  | cons e r ih => exact (ih _).trans (poisoned_setWord s e.1 e.2.1 x)

/-- A word written with a mark is marked (R498). -/
theorem poisoned_writeMarked (s : State) (ws : List (Nat × Word × Bool)) (e : Nat × Word × Bool) (he : e ∈ ws) (hm : e.2.2 = true) :
    (s.writeMarked ws).poisoned e.1 = true := by
  unfold State.writeMarked
  extract_lets cws s1 s2
  have hcw : ∀ c ∈ cws, cwOf c = c := by
    intro c hc
    obtain ⟨y, -, rfl⟩ := List.mem_map.mp (List.mem_dedup.mp hc)
    exact cwOf_cwOf y.1
  have hmem : cwOf e.1 ∈ cws := List.mem_dedup.mpr (List.mem_map_of_mem he)
  have hnew : newMark s1 ws (cwOf e.1) = true := by
    have hmine : e ∈ ws.filter (fun y => cwOf y.1 == cwOf e.1) := List.mem_filter.mpr ⟨he, beq_self_eq_true _⟩
    have hany : (ws.filter (fun y => cwOf y.1 == cwOf e.1)).any (fun y => y.2.2) = true := List.any_eq_true.mpr ⟨e, hmine, hm⟩
    exact Bool.or_eq_true_iff.mpr (.inl hany)
  exact (poisoned_wordsWritten s2 ws e.1).trans ((poisoned_setMarks _ e.1 cws s1 hcw (.inl hmem)).trans hnew)

/-! ### What waited for an answer, with nothing that waits -/

theorem firstDone_error {α : Type} (f : State → α → Except State State) (xs : List α) (s : State) (h : ∀ x ∈ xs, f s x = .error s) :
    firstDone f xs s = .error s := by
  induction xs with
  | nil => rfl
  | cons x r ih =>
    rw [List.forall_mem_cons] at h
    rw [firstDone, h.1]
    exact ih h.2

theorem State.tryJob_quiet (s : State) (j : Nat) (hn : (s.job j).nodes = []) (hh : (s.job j).held = []) : s.tryJob j = .error s := by
  have hsend : s.trySend j = .error s := by rw [State.trySend, hn]; rfl
  have hheld : s.tryHeld j = .error s := by rw [State.tryHeld, hh]; rfl
  unfold State.tryJob
  split
  · rfl
  · rw [hsend]
    exact hheld

theorem State.runJobs_quiet (s : State) (h : ∀ k, (s.job k).nodes = [] ∧ (s.job k).held = []) : s.runJobs = s := by
  unfold State.runJobs
  generalize ((s.jobs.map (fun e => 64 * (e.2.nodes.length + e.2.held.length + 1))).sum) = k
  cases k with
  | zero => rfl
  | succ k => rw [pugRun, firstDone_error _ _ s fun j _ => s.tryJob_quiet j (h j).1 (h j).2]

theorem State.retryPug_quiet (s : State) (h : Quiet s) : s.retryPug = s := by
  obtain ⟨hjob, hswarm⟩ := h
  have hentry (e : Nat) : swarmRun (s.swarm e).work.length (s.swarmHeld e) e = s := by
    obtain ⟨hheld, hwork⟩ := hswarm e
    rw [hwork, State.swarmHeld, hheld]
    rfl
  rw [State.retryPug, s.runJobs_quiet hjob]
  exact List.foldl_fixed' hentry _

theorem State.retryBox_free (s : State) (c : Chan) (h : (s.box c).req = none) : s.retryBox c = s := by
  rw [State.retryBox, h]
  exact ite_self s

theorem State.snoopDone_idle (s : State) (h : Unheld s) : s.snoopDone = s := by
  obtain ⟨hquiet, hres, hrow, hbox⟩ := h
  have hgo : s.rowGo = s := by rw [State.rowGo, hrow]
  have hnext : s.resolveNext = s := by rw [State.resolveNext, hres]
  rw [State.snoopDone, hgo, s.retryBox_free .h (hbox .h), s.retryBox_free .m (hbox .m), hnext, s.retryPug_quiet hquiet]

theorem State.retryMem_nil (s : State) (h : s.memWait = []) : s.retryMem = s := by
  have hsame : ({ s with memWait := [] } : State) = s := by rw [← h]
  rw [State.retryMem, hsame, h]
  rfl

theorem State.retryBursts_nil (s : State) (h : s.bursts = []) : s.retryBursts = s := by
  have hsame : ({ s with bursts := [] } : State) = s := by rw [← h]
  rw [State.retryBursts, hsame, h]
  rfl

end

/-! ### Doorbells of BAR4 -/

section
variable {s : State}

theorem burstTake_free (hb : s.bursts = []) (b : Burst) (hr : s.burstReach b = []) : s.burstTake b = s.burstGo b := by
  rw [State.burstTake, if_pos hb, burstRun, hr, if_neg (by simp)]
  rfl

theorem exec_queueBell (hon : On s) (k : Nat) (w : BitVec 64) : exec (.hostQueueDoorbell k w) s = .next (s.burstTake (.queueBell k w)) :=
  command_on (fun s => s.burstTake (.queueBell k w)) s hon

theorem exec_coreBell (hon : On s) (k : Nat) (w : BitVec 64) : exec (.hostCoreDoorbell k w) s = .next (s.burstTake (.coreBell k w)) :=
  command_on (fun s => s.burstTake (.coreBell k w)) s hon

theorem bar4_narrow (ring : State → W32 → State) {k : Nat} (h : k < 4) (w : BitVec 64) : s.bar4 ring k w = s.err .host 7 := if_pos h

theorem modQueue_tail (s : State) (q : Nat) (f : Queue → Queue) : ((s.modQueue q f).queue q).tail = (f (s.queue q)).tail := by
  rw [State.queue, State.modQueue, look_put_same, Queue.tail]
  split <;> rfl

/-- A queue doorbell moves TAIL on (R321). -/
theorem queueDoorbell_tail (hu : s.upsets = []) (w : W32) (h : fld w 0 12 ≠ 0) :
    ((s.queueDoorbell w).queue (fld w 12 20)).tail = ((s.queue (fld w 12 20)).tail + fld w 0 12) % 2 ^ 24 := by
  rw [State.queueDoorbell, if_neg h, State.readQueue_none _ _ hu, modQueue_tail]
  exact fld_setFld_same _ _ (by decide)

theorem queueDoorbell_kept (hu : s.upsets = []) (w : W32) : (s.queueDoorbell w).cores = s.cores ∧ (s.queueDoorbell w).mem = s.mem := by
  unfold State.queueDoorbell
  split
  · exact ⟨rfl, rfl⟩
  · rw [State.readQueue_none _ _ hu]
    exact ⟨rfl, rfl⟩

theorem coreDoorbell_eq (w : W32) (h : fld w 0 8 < 192) :
    s.coreDoorbell w = s.modCore (fld w 0 8) (fun c => { c with ipend := c.ipend ||| 2 }) := by
  have hbit (c : Core) : setBit c.ipend 1 true = c.ipend ||| 2 := setBit_true _ 1
  rw [State.coreDoorbell, if_pos h, State.pend]
  simp only [hbit]

theorem exec_bells_wait (hon : On s) (hb : s.bursts ≠ []) (k : Nat) (w : BitVec 64) :
    exec (.hostQueueDoorbell k w) s = .next { s with bursts := s.bursts ++ [.queueBell k w] } ∧
    exec (.hostCoreDoorbell k w) s = .next { s with bursts := s.bursts ++ [.coreBell k w] } := by
  rw [exec_queueBell hon, exec_coreBell hon, burstTake_waits hb, burstTake_waits hb]
  exact ⟨rfl, rfl⟩

theorem exec_bells_narrow (hon : On s) (hb : s.bursts = []) {k : Nat} (hk : k < 4) (w : BitVec 64) :
    exec (.hostQueueDoorbell k w) s = .next (s.err .host 7) ∧ exec (.hostCoreDoorbell k w) s = .next (s.err .host 7) := by
  rw [exec_queueBell hon, exec_coreBell hon, burstTake_free hb _ rfl, burstTake_free hb _ rfl]
  exact ⟨congrArg _ (bar4_narrow _ hk w), congrArg _ (bar4_narrow _ hk w)⟩

theorem exec_queueBell_word (hon : On s) (hb : s.bursts = []) (w : BitVec 64) (hw : fld w 0 12 ≠ 0) :
    ∃ t, exec (.hostQueueDoorbell 4 w) s = .next t ∧ (t.queue (fld w 12 20)).tail = ((s.queue (fld w 12 20)).tail + fld w 0 12) % 2 ^ 24 ∧
      t.cores = s.cores ∧ t.mem = s.mem := by
  have hk : fld (w.extractLsb' 0 32) 0 12 = fld w 0 12 := fld_extractLsb' w (by decide)
  have hq : fld (w.extractLsb' 0 32) 12 20 = fld w 12 20 := fld_extractLsb' w (by decide)
  have htail := queueDoorbell_tail hon.2 (w.extractLsb' 0 32) (by rw [hk]; exact hw)
  rw [hk, hq] at htail
  rw [exec_queueBell hon, burstTake_free hb _ rfl]
  exact ⟨_, rfl, htail, queueDoorbell_kept hon.2 _⟩

theorem exec_coreBell_word (hon : On s) (hb : s.bursts = []) (w : BitVec 64) (hw : fld w 0 8 < 192) :
    exec (.hostCoreDoorbell 4 w) s = .next (s.modCore (fld w 0 8) (fun c => { c with ipend := c.ipend ||| 2 })) := by
  have hn : fld (w.extractLsb' 0 32) 0 8 = fld w 0 8 := fld_extractLsb' w (by decide)
  rw [exec_coreBell hon, burstTake_free hb _ rfl]
  refine congrArg _ ((coreDoorbell_eq _ (by rw [hn]; exact hw)).trans ?_)
  rw [hn]

/-! ### Device memory -/

theorem glaze_of_stage (h : s.stage = 4) : s.glaze = true := beq_iff_eq.mpr h
theorem not_glaze_of_stage (h : s.stage ≠ 4) : s.glaze = false := beq_eq_false_iff_ne.mpr h

theorem exec_cxlRead (hon : On s) (o len : Nat) (ca : Bool) : exec (.cxlMemRead o len ca) s = .next (s.cxlRead o len ca) :=
  command_on (fun s => s.cxlRead o len ca) s hon
theorem exec_cxlWrite (hon : On s) (o : Nat) (d : List (BitVec 8)) (k : Bool) : exec (.cxlMemWrite o d k) s = .next (s.cxlWrite o d k) :=
  command_on (fun s => s.cxlWrite o d k) s hon

/-- What an answer to a host read changes: its answers, and a counter. -/
theorem hostAnswer_kept (s : State) (d : List Byte) (k : Bool) : (s.hostAnswer d k).hostRead = s.hostRead ++ [(d, k)] ∧
    (s.hostAnswer d k).snoop = s.snoop ∧ (s.hostAnswer d k).mem = s.mem ∧ (s.hostAnswer d k).cores = s.cores := by
  unfold State.hostAnswer
  dsimp only
  split
  · exact ⟨rfl, rfl, rfl, rfl⟩
  · exact ⟨rfl, rfl, rfl, rfl⟩

/-- The words that hold bytes b to b + len − 1 begin at b / 2, and this is their number. -/
def hdmWords (b len : Nat) : Nat := (b + len + 1) / 2 - b / 2

/-- The lines that a read leaves in the filter are those of its bytes that are not there. -/
theorem mem_newLines (s : State) (b len l : Nat) (h : 0 < len) :
    l ∈ s.newLines (b / 2) (hdmWords b len) ↔ l ∉ s.snoop ∧ ∃ x, b ≤ x ∧ x < b + len ∧ x / 64 = l := by
  have hspan : (b / 2 + hdmWords b len + 31) / 32 = (b + len + 63) / 64 := by unfold hdmWords; omega
  rw [State.newLines, hspan, List.mem_filter, List.mem_map, and_comm, Bool.not_eq_true', ← Bool.not_eq_true, List.contains_iff_mem]
  refine and_congr_right fun _ => ⟨?_, ?_⟩
  · rintro ⟨i, hi, rfl⟩
    rw [List.mem_range] at hi
    exact ⟨max b (64 * (b / 2 / 32 + i)), by omega, by omega, by omega⟩
  · rintro ⟨x, hb, hx, rfl⟩
    exact ⟨x / 64 - b / 2 / 32, List.mem_range.mpr (by omega), by omega⟩

/-- The lines that a read of bytes from b puts in the filter. -/
def State.lines (s : State) (b len : Nat) (ca : Bool) : List Nat := if ca then s.newLines (b / 2) (hdmWords b len) else []

/-- A read of bytes from b that the filter has room for: its words are checked, its lines enter the filter, and the host is answered. -/
def State.hdmServe (s : State) (b len : Nat) (ca : Bool) : State :=
  let t := s.touchAll (addrs (b / 2) (hdmWords b len))
  let u : State := { t with snoop := t.snoop ++ s.lines b len ca }
  u.hostAnswer ((List.range len).map (fun i => u.byte (b + i))) (u.anyMark (b / 2) (hdmWords b len))

/-- A CXL.mem read of a committed range (R469, R470). -/
theorem cxlRead_committed {o len : Nat} (hg : s.glaze = true) (hd : s.hdmBase ≠ none) (ho : o + len ≤ 3 * 2 ^ 40) (ca : Bool) :
    s.cxlRead o len ca = if s.lines (hdmByte o) len ca ≠ [] ∧ filterSize < s.snoop.length + (s.lines (hdmByte o) len ca).length
      then s.makeRoom o len else s.hdmServe (hdmByte o) len ca := by
  have hin : ¬(s.hdmBase.isNone = true ∨ 3 * 2 ^ 40 < o + len) := not_or.mpr ⟨fun e => hd (Option.isNone_iff_eq_none.mp e), by omega⟩
  rw [State.cxlRead, hg, if_neg (by decide), if_neg hin]
  rfl

theorem hdmServe_kept (s : State) (b len : Nat) (ca : Bool) :
    (∃ k, (s.hdmServe b len ca).hostRead = s.hostRead ++ [((List.range len).map (fun i => s.byte (b + i)), k)]) ∧
    (s.hdmServe b len ca).snoop = s.snoop ++ s.lines b len ca ∧ (s.hdmServe b len ca).mem = s.mem ∧ (s.hdmServe b len ca).cores = s.cores := by
  unfold State.hdmServe
  extract_lets t u
  have ht : HostKept s t := (HostKept.refl s).touchAll
  have hmem : u.mem = s.mem := State.touchAll_mem s _
  obtain ⟨hread, hsnoop, hmem', hcores⟩ := hostAnswer_kept u ((List.range len).map (fun i => u.byte (b + i))) (u.anyMark (b / 2) (hdmWords b len))
  refine ⟨⟨u.anyMark (b / 2) (hdmWords b len), ?_⟩, ?_, hmem'.trans hmem, hcores.trans ht.cores⟩
  · have hbyte (i : Nat) : u.byte (b + i) = s.byte (b + i) := byte_of_mem hmem _
    simp only [hbyte] at hread ⊢
    exact hread.trans (congrArg (· ++ _) ht.hostRead)
  · exact hsnoop.trans (congrArg (· ++ _) ht.snoop)

/-- The bytes that a write of CXL.mem leaves, and the words that hold them. -/
def State.hdmByteAt (s : State) (b : Nat) (d : List Byte) (x : Nat) : Byte := if b ≤ x ∧ x < b + d.length then d.getD (x - b) 0 else s.byte x
def State.hdmWord (s : State) (b : Nat) (d : List Byte) (w : Nat) : Word := s.hdmByteAt b d (2 * w + 1) ++ s.hdmByteAt b d (2 * w)
def State.hdmRun (s : State) (b : Nat) (d : List Byte) (k : Bool) : List (Nat × Word × Bool) :=
  (addrs (b / 2) (hdmWords b d.length)).map (fun w => (w, s.hdmWord b d w, k))

theorem cxlWrite_committed {o : Nat} {d : List (BitVec 8)} (hg : s.glaze = true) (hd : s.hdmBase ≠ none) (ho : o + d.length ≤ 3 * 2 ^ 40)
    (ho2 : o % 2 = 0) (hl2 : d.length % 2 = 0) (k : Bool) : s.cxlWrite o d k = s.writeMarked (s.hdmRun (hdmByte o) d k) := by
  have hin : ¬(s.hdmBase.isNone = true ∨ 3 * 2 ^ 40 < o + d.length ∨ o % 2 ≠ 0 ∨ d.length % 2 ≠ 0) :=
    not_or.mpr ⟨fun e => hd (Option.isNone_iff_eq_none.mp e), by omega⟩
  rw [State.cxlWrite, hg, if_neg (by decide), if_neg hin]
  rfl

theorem cxlWrite_part {o : Nat} {d : List (BitVec 8)} (hg : s.glaze = true) (h : o % 2 ≠ 0 ∨ d.length % 2 ≠ 0) (k : Bool) : s.cxlWrite o d k = s := by
  rw [State.cxlWrite, hg, if_neg (by decide), if_pos (by omega)]

/-- A word is written if and only if it holds a byte of the write, which begins and ends with a word. -/
theorem mem_hdmAddrs {b len : Nat} (hb : b % 2 = 0) (hl : len % 2 = 0) (x : Nat) : x / 2 ∈ addrs (b / 2) (hdmWords b len) ↔ b ≤ x ∧ x < b + len := by
  rw [addrs, List.mem_map]
  constructor
  · rintro ⟨i, hi, e⟩
    rw [List.mem_range, hdmWords] at hi
    omega
  · rintro ⟨hlo, hhi⟩
    exact ⟨x / 2 - b / 2, List.mem_range.mpr (by rw [hdmWords]; omega), by omega⟩

theorem hdmRun_keys (s : State) (b : Nat) (d : List Byte) (k : Bool) : (s.hdmRun b d k).map (fun e => e.1) = addrs (b / 2) (hdmWords b d.length) := by
  rw [State.hdmRun, List.map_map]
  exact List.map_id _

theorem addrs_nodup (x n : Nat) : (addrs x n).Nodup := List.nodup_range.map fun _ _ h => Nat.add_left_cancel h

/-- Every byte of memory after a write of CXL.mem. -/
theorem byte_hdmRun {b : Nat} {d : List Byte} (hb : b % 2 = 0) (hl : d.length % 2 = 0) (k : Bool) (x : Nat) :
    (s.writeMarked (s.hdmRun b d k)).byte x = if b ≤ x ∧ x < b + d.length then d.getD (x - b) 0 else s.byte x := by
  have hkeys : ((s.hdmRun b d k).map (fun e => e.1)).Nodup := by
    rw [hdmRun_keys]
    exact addrs_nodup _ _
  by_cases hx : b ≤ x ∧ x < b + d.length
  · have hmem : (x / 2, s.hdmWord b d (x / 2), k) ∈ s.hdmRun b d k := List.mem_map_of_mem ((mem_hdmAddrs hb hl x).mpr hx)
    have hword : (s.writeMarked (s.hdmRun b d k)).word (x / 2) = s.hdmWord b d (x / 2) :=
      State.word_writeMarked s (s.hdmRun b d k) hkeys (x / 2, s.hdmWord b d (x / 2), k) hmem
    have hat : s.hdmByteAt b d x = if b ≤ x ∧ x < b + d.length then d.getD (x - b) 0 else s.byte x := rfl
    rw [← hat]
    obtain hpar | hpar := Nat.mod_two_eq_zero_or_one x
    · have hx2 : 2 * (x / 2) = x := by omega
      rw [State.byte_eq_even _ hpar, hword, State.hdmWord, hx2]
      exact BitVec.extractLsb'_append_eq_right
    · have hx2 : 2 * (x / 2) + 1 = x := by omega
      rw [State.byte_eq_odd _ hpar, hword, State.hdmWord, hx2]
      exact BitVec.extractLsb'_append_eq_left
  · rw [if_neg hx]
    refine State.byte_writeMarked_ne s _ x fun e he hxe => hx ((mem_hdmAddrs hb hl x).mp ?_)
    rw [hxe, ← hdmRun_keys s b d k]
    exact List.mem_map_of_mem he

theorem poisoned_hdmRun {b : Nat} {d : List Byte} (hb : b % 2 = 0) (hl : d.length % 2 = 0) {x : Nat} (hx : b ≤ x ∧ x < b + d.length) :
    (s.writeMarked (s.hdmRun b d true)).poisoned (x / 2) = true :=
  poisoned_writeMarked s _ _ (List.mem_map_of_mem ((mem_hdmAddrs hb hl x).mpr hx)) rfl

end

/-! ### Snoops -/

section
variable {s : State}

theorem wordsOfBytes_length (d : List Byte) (n : Nat) (h : d.length = 2 * n) : (wordsOfBytes d).length = n := by
  induction n generalizing d with
  | zero => rw [List.length_eq_zero_iff.mp h]; rfl
  | succ n ih =>
    match d, h with
    | x :: y :: r, h =>
      have hr : r.length = 2 * n := by simpa [Nat.mul_succ] using h
      rw [wordsOfBytes, List.length_cons, ih r hr]

/-- A run that was written reads as it was written. -/
theorem words_writeRun (s : State) (x : Nat) (ws : List Word) : (s.writeRun x ws).words x ws.length = ws := by
  refine List.ext_getElem (by simp [State.words, addrs]) fun i h1 h2 => ?_
  simp only [State.words, addrs, List.map_map, List.getElem_map, List.getElem_range, Function.comp]
  exact State.word_writeRun s x ws i h2

theorem exec_biSnoopAnswer (hon : On s) {l : Nat} (h : l ∈ s.biWait) (d : Option (List (BitVec 8))) :
    exec (.biSnoopAnswer l d) s = .next (s.biGone l d).snoopDone.retryMem.retryBursts :=
  (command_on (fun s => s.biAnswer l d) s hon).trans (congrArg _ (if_neg (not_not.mpr h)))

/-- A line leaves the filter and is no more snooped. -/
def State.lineGone (s : State) (l : Nat) : State := { s with biWait := s.biWait.filter (fun x => x ≠ l), snoop := s.snoop.filter (fun x => x ≠ l) }

/-- The bytes of the line that the host held modified are written back. -/
theorem biGone_some (s : State) (l : Nat) {d : List (BitVec 8)} (h : d.length = 64) :
    s.biGone l (some d) = (s.lineGone l).writeRun (32 * l) (wordsOfBytes d) := by
  have hlen : (wordsOfBytes d).length = 32 := wordsOfBytes_length d 32 h
  exact congrArg ((s.lineGone l).writeRun (32 * l)) (List.take_of_length_le (Nat.le_of_eq hlen))

theorem not_mem_lineGone (s : State) (l : Nat) : l ∉ (s.lineGone l).biWait ∧ l ∉ (s.lineGone l).snoop := by simp [State.lineGone]

/-- What such a write back leaves. -/
theorem biGone_some_leaves (s : State) (l : Nat) {d : List (BitVec 8)} (h : d.length = 64) :
    (s.biGone l (some d)).words (32 * l) 32 = wordsOfBytes d ∧ l ∉ (s.biGone l (some d)).biWait ∧ l ∉ (s.biGone l (some d)).snoop ∧
    ∀ x, (x < 64 * l ∨ 64 * l + 64 ≤ x) → (s.biGone l (some d)).byte x = s.byte x := by
  have hlen : (wordsOfBytes d).length = 32 := wordsOfBytes_length d 32 h
  have hkept : HostKept (s.lineGone l) ((s.lineGone l).writeRun (32 * l) (wordsOfBytes d)) := .writeMarked (.refl _)
  obtain ⟨hwait, hsnoop⟩ := not_mem_lineGone s l
  rw [biGone_some s l h]
  refine ⟨?_, by rwa [hkept.biWait], by rwa [hkept.snoop], fun x hx => ?_⟩
  · have hwords := words_writeRun (s.lineGone l) (32 * l) (wordsOfBytes d)
    rwa [hlen] at hwords
  · exact State.byte_writeRun_ne (s.lineGone l) (32 * l) (wordsOfBytes d) x (by rw [hlen]; omega)

/-- With nothing that waits, an answer lets nothing go on. -/
theorem lineGone_idle (l : Nat) (h : Unheld s) (hm : s.memWait = []) (hb : s.bursts = []) :
    (s.lineGone l).snoopDone.retryMem.retryBursts = s.lineGone l := by
  have hidle : Unheld (s.lineGone l) := h
  rw [State.snoopDone_idle _ hidle, State.retryMem_nil (s.lineGone l) hm, State.retryBursts_nil (s.lineGone l) hb]

theorem exec_hostCacheSnoop (hon : On s) (l : Nat) : exec (.hostCacheSnoop l) s = .next { s with hostLines := put false s.hostLines l false } :=
  command_on (fun s => { s with hostLines := put false s.hostLines l false }) s hon

/-! ### HOST_HSIG and the link -/

theorem exec_hsigWrite {src : Src} (hon : On s) (ht : InTurn s src) (w : BitVec 32) : exec (.hsigWrite src w) s = .next (s.hsig w) :=
  command_inTurn hon ht _ _

theorem hsig_zero (w : W32) (h : fld w 0 5 = 0) : s.hsig w = s := if_pos h

theorem hsig_sent (w : W32) (h : fld w 0 5 ≠ 0) (hm : s.msixMask.getLsbD (fld w 0 5) = false) :
    s.hsig w = { s with msixSent := s.msixSent ++ [BitVec.ofNat 5 (fld w 0 5)] } := by
  rw [State.hsig, if_neg h, State.msix, if_neg (by rw [hm]; decide)]

theorem hsig_masked (w : W32) (h : fld w 0 5 ≠ 0) (hm : s.msixMask.getLsbD (fld w 0 5) = true) :
    s.hsig w = { s with msixPend := s.msixPend ||| BitVec.ofNat 32 (2 ^ fld w 0 5) } := by
  rw [State.hsig, if_neg h, State.msix, if_pos hm, setBit_true]

theorem exec_hostLinkTrain (hon : On s) : exec .hostLinkTrain s = .next { s with linkTrain := true, pins := { s.pins with perstN := true } } :=
  command_on (fun s => { s with linkTrain := true, pins := { s.pins with perstN := true } }) s hon

theorem exec_hostLinkRetry (hon : On s) : exec .hostLinkRetry s = .next s.linkRetry := command_on State.linkRetry s hon

theorem exec_hostLinkUp (hon : On s) (rate width : BitVec 2) : exec (.hostLinkUp rate width) s = .next (s.linkUp rate.toNat width.toNat) :=
  command_on (fun s => s.linkUp rate.toNat width.toNat) s hon

theorem fastCxl_of_stage (h : s.stage = 4) : s.fastCxl = true := by rw [State.fastCxl, glaze_of_stage h, Bool.true_or]

/-- A link that is not in L0, or that may run faster, trains again (R458). -/
theorem linkRetry_retrains (hp : s.pins.perstN = true) (h : s.bitReg rLstat 31 = false ∨ s.stage = 4 ∧ s.fldReg rLstat 29 2 ≠ 3) :
    s.linkRetry = { s.setReg rLstat 0 with linkTrain := true, j1Lanes := [] } := by
  have hlow : (!s.pins.perstN || (s.bitReg rLstat 31 && (!s.fastCxl || s.fldReg rLstat 29 2 == 3))) = false := by
    obtain h | ⟨h4, h3⟩ := h
    · rw [hp, h]
      rfl
    · rw [hp, fastCxl_of_stage h4, beq_eq_false_iff_ne.mpr h3]
      exact Bool.and_false _
  rw [State.linkRetry, hlow]
  rfl

/-- A rate above 32 GT/s that may not be used yet. -/
theorem not_tooFast {rate : BitVec 2} (h : s.stage = 4 ∨ rate = 1) : ¬(1 < rate.toNat ∧ (!s.fastCxl) = true) := by
  rintro ⟨hrate, hfast⟩
  obtain h4 | rfl := h
  · rw [fastCxl_of_stage h4] at hfast
    exact absurd hfast (by decide)
  · exact absurd hrate (by decide)

/-- Training reaches none of the rates. -/
theorem linkUp_none {rate width : BitVec 2} (ht : s.linkTrain = true) (h : rate = 0 ∨ width = 0 ∧ (s.stage = 4 ∨ rate = 1)) :
    s.linkUp rate.toNat width.toNat = { s.setReg rLstat 0 with linkTrain := false, j1Lanes := [] } := by
  have hgo : ¬((!s.linkTrain) = true ∨ (1 < rate.toNat ∧ (!s.fastCxl) = true)) := by
    rw [ht]
    refine not_or.mpr ⟨by decide, ?_⟩
    obtain rfl | ⟨-, h⟩ := h
    · exact fun h => absurd h.1 (by decide)
    · exact not_tooFast h
  have hzero : rate.toNat = 0 ∨ width.toNat = 0 := by
    obtain rfl | ⟨rfl, -⟩ := h
    · exact .inl rfl
    · exact .inr rfl
  rw [State.linkUp, if_neg hgo, if_pos hzero]

/-- The status of a link in L0 at a rate and width. -/
def lstatWord (rate width : Nat) : W32 := BitVec.ofNat 32 (2 ^ 31 + rate * 2 ^ 29 + width * 2 ^ 27)

theorem lstatWord_fields (rate width : BitVec 2) : (lstatWord rate.toNat width.toNat).getLsbD 31 = true ∧
    fld (lstatWord rate.toNat width.toNat) 29 2 = rate.toNat ∧ fld (lstatWord rate.toNat width.toNat) 27 2 = width.toNat := by
  revert rate width
  decide

/-- Training ends: HOST_LSTAT and the lanes in use. -/
def State.linkTrained (s : State) (v : W32) (lanes : List Nat) : State := { s.setReg rLstat v with linkTrain := false, j1Lanes := lanes }

theorem linkTrained_reg (s : State) (v : W32) (lanes : List Nat) : (s.linkTrained v lanes).reg rLstat = v := look_put_same _ _ _ _
theorem linkTrained_kept (s : State) (v : W32) (lanes : List Nat) : (s.linkTrained v lanes).linkTrain = false ∧ (s.linkTrained v lanes).mem = s.mem ∧
    (s.linkTrained v lanes).cores = s.cores ∧ (s.linkTrained v lanes).j1Lanes = lanes := ⟨rfl, rfl, rfl, rfl⟩

/-- Training ends in L0 (R458, R477). -/
theorem linkUp_some {rate width : BitVec 2} (ht : s.linkTrain = true) (hr : rate ≠ 0) (hw : width ≠ 0) (h : s.stage = 4 ∨ rate = 1) :
    s.linkUp rate.toNat width.toNat =
      s.linkTrained (lstatWord rate.toNat width.toNat) ((List.range (2 ^ (width.toNat + 1))).map s.j1Lane) := by
  have hgo : ¬((!s.linkTrain) = true ∨ (1 < rate.toNat ∧ (!s.fastCxl) = true)) := by
    rw [ht]
    exact not_or.mpr ⟨by decide, not_tooFast h⟩
  have hzero : ¬(rate.toNat = 0 ∨ width.toNat = 0) :=
    not_or.mpr ⟨fun e => hr (BitVec.eq_of_toNat_eq e), fun e => hw (BitVec.eq_of_toNat_eq e)⟩
  rw [State.linkUp, if_neg hgo, if_neg hzero]
  rfl

theorem exec_hostLinkUp_some (hon : On s) {rate width : BitVec 2} (ht : s.linkTrain = true) (hr : rate ≠ 0) (hw : width ≠ 0)
    (h : s.stage = 4 ∨ rate = 1) : ∃ t, exec (.hostLinkUp rate width) s = .next t ∧ t.bitReg rLstat 31 = true ∧
      t.fldReg rLstat 29 2 = rate.toNat ∧ t.fldReg rLstat 27 2 = width.toNat ∧ t.linkTrain = false ∧ t.mem = s.mem ∧ t.cores = s.cores ∧
      t.j1Lanes = (List.range (2 ^ (width.toNat + 1))).map (fun i => if (s.reg rStrap).getLsbD 12 then 15 - i else i) := by
  obtain ⟨hup, hrate, hwidth⟩ := lstatWord_fields rate width
  obtain ⟨htrain, hmem, hcores, hlanes⟩ :=
    linkTrained_kept s (lstatWord rate.toNat width.toNat) ((List.range (2 ^ (width.toNat + 1))).map s.j1Lane)
  refine ⟨_, (exec_hostLinkUp hon rate width).trans (congrArg _ (linkUp_some ht hr hw h)), ?_, ?_, ?_, htrain, hmem, hcores, hlanes⟩
  · rw [State.bitReg, linkTrained_reg, hup]
  · rw [State.fldReg, linkTrained_reg, hrate]
  · rw [State.fldReg, linkTrained_reg, hwidth]

/-! ### The host's writes of BAR4 and configuration space -/

theorem exec_portWrite (hon : On s) (hb : s.bursts = []) (off k : Nat) (w : BitVec 64) :
    exec (.registerWrite .host off k w) s = .next (s.portWrite off k w) :=
  (command_inTurn hon (.inr hb) _ _).trans (congrArg _ (if_pos rfl))

theorem portWrite_bar4 {o : Nat} (h : o < 0x20000) (k : Nat) (w : BitVec 64) : s.portWrite (0x1800000 + o) k w = s.bar4Write o k w := by
  have hsub : 0x1800000 + o - offBar4 = o := Nat.add_sub_cancel_left _ _
  rw [State.portWrite, if_neg (by simp only [offBar4]; omega), if_pos (by simp only [offBar4]; omega), hsub]

theorem bar4Write_narrow {o k : Nat} (ho : o < 0x10000) (h0 : 0 < k) (hk : k < 4) (w : BitVec 64) : s.bar4Write o k w = s.err .host 7 := by
  rw [State.bar4Write, if_pos hk, if_pos ⟨Nat.ne_of_gt h0, ho⟩]

theorem bar4Write_word {o : Nat} (h : o % 4 = 0) (w : BitVec 64) : s.bar4Write o 4 w = s.bar4Set o (w.truncate 32) := by
  rw [State.bar4Write, if_neg (by decide), if_neg (not_not.mpr h), extractLsb'_low]
  exact if_pos rfl

theorem bar4Write_two {o : Nat} (h : o % 4 = 0) (w : BitVec 64) :
    s.bar4Write o 8 w = (s.bar4Set o (w.truncate 32)).bar4Set (o + 4) (w.extractLsb' 32 32) := by
  rw [State.bar4Write, if_neg (by decide), if_neg (not_not.mpr h), extractLsb'_low]
  exact if_neg (by decide)

theorem bar4Set_queue {o : Nat} (h : o < 0x8000) (w : W32) : s.bar4Set o w = s.queueDoorbell w := if_pos h

theorem bar4Set_core {o : Nat} (h : 0x8000 ≤ o) (h' : o < 0x10000) (w : W32) : s.bar4Set o w = s.coreDoorbell w :=
  (if_neg (Nat.not_lt_of_le h)).trans (if_pos h')

/-- The mask bit of a vector, at its place in the MSI-X table. -/
theorem bar4Set_mask {v : Nat} (h : v < 32) (w : W32) : s.bar4Set (0x1000C + 16 * v) w = s.msixUnmask v (w.getLsbD 0) := by
  have hword : (0x1000C + 16 * v - 0x10000) / 4 = 4 * v + 3 := by omega
  have hvec : (4 * v + 3) / 4 = v := by omega
  rw [State.bar4Set, if_neg (by omega), if_neg (by omega), if_pos (by omega), hword, State.msixWrite, if_neg (by omega), if_pos (by omega), hvec]

theorem msixUnmask_leaves (s : State) {v : Nat} (h : v < 32) (m : Bool) : (s.msixUnmask v m).msixMask.getLsbD v = m ∧
    (m = false → s.msixPend.getLsbD v = true →
      (s.msixUnmask v m).msixPend.getLsbD v = false ∧ (s.msixUnmask v m).msixSent = s.msixSent ++ [BitVec.ofNat 5 v]) ∧
    (m = true ∨ s.msixPend.getLsbD v = false → (s.msixUnmask v m).msixPend = s.msixPend ∧ (s.msixUnmask v m).msixSent = s.msixSent) ∧
    (s.msixUnmask v m).cores = s.cores ∧ (s.msixUnmask v m).mem = s.mem := by
  have hmask : (setBit s.msixMask v m).getLsbD v = m := by rw [getLsbD_setBit, if_pos ⟨rfl, h⟩]
  have hpend : (setBit s.msixPend v false).getLsbD v = false := by rw [getLsbD_setBit, if_pos ⟨rfl, h⟩]
  unfold State.msixUnmask
  dsimp only
  split
  · next hsend =>
    obtain ⟨hm, hp⟩ := (Bool.and_eq_true _ _).mp hsend
    refine ⟨hmask, fun _ _ => ⟨hpend, rfl⟩, ?_, rfl, rfl⟩
    rintro (rfl | hp')
    · exact absurd hm (by decide)
    · exact absurd (hp.symm.trans hp') (by decide)
  · next hkeep => exact ⟨hmask, fun hm hp => absurd (by rw [hm, hp]; rfl) hkeep, fun _ => ⟨rfl, rfl⟩, rfl, rfl⟩

theorem cfgSet_hdmCtl (h : s.bitReg rSvc 17 = true) (w : W32) :
    s.cfgSet cHdmCtl w = { s with hdmBase := if w.getLsbD 9 then some s.hostCfg.base else none } := by
  have hserved : s.cfgAnswer ≠ .retry := by rw [State.cfgAnswer, h]; decide
  rw [State.cfgSet, if_neg hserved, if_neg (by decide), if_neg (by decide), if_neg (by decide), if_pos rfl]

end

/-! ### The obligation -/

section
variable {s : State}

/-- Before the decoder is committed no access to the range does anything. -/
theorem exec_cxl_uncommitted (hon : On s) (h4 : s.stage = 4) (hd : s.hdmBase = none) (o len : Nat) (ca : Bool) :
    exec (.cxlMemRead o len ca) s = .next s ∧ ∀ d k, exec (.cxlMemWrite o d k) s = .next s := by
  have hg := glaze_of_stage h4
  have hnone : s.hdmBase.isNone = true := Option.isNone_iff_eq_none.mpr hd
  refine ⟨(exec_cxlRead hon o len ca).trans (congrArg _ ?_), fun d k => (exec_cxlWrite hon o d k).trans (congrArg _ ?_)⟩
  · rw [State.cxlRead, hg, if_neg (by decide), if_pos (.inl hnone)]
  · rw [State.cxlWrite, hg, if_neg (by decide), if_pos (.inl hnone)]

/-- Outside Glaze a read is answered with poisoned ones. -/
theorem exec_cxlRead_bisque (hon : On s) (h : s.stage ≠ 4) (o len : Nat) (ca : Bool) :
    ∃ t, exec (.cxlMemRead o len ca) s = .next t ∧ t.hostRead = s.hostRead ++ [(List.replicate len 0xFF, true)] ∧ t.mem = s.mem := by
  have hread : s.cxlRead o len ca = (s.err .host 8).hostAnswer (List.replicate len 0xFF) true := by
    rw [State.cxlRead, not_glaze_of_stage h]
    exact if_pos rfl
  have herr : HostKept s (s.err .host 8) := (HostKept.refl s).err
  obtain ⟨hanswer, -, hmem, -⟩ := hostAnswer_kept (s.err .host 8) (List.replicate len 0xFF) true
  exact ⟨_, (exec_cxlRead hon o len ca).trans (congrArg _ hread), hanswer.trans (congrArg (· ++ _) herr.hostRead), hmem.trans (s.err_mem .host 8)⟩

/-- A read that the snoop filter has room for is served. -/
theorem exec_cxlRead_served (hon : On s) {o len : Nat} {ca : Bool} (h4 : s.stage = 4) (hd : s.hdmBase ≠ none) (ho : o + len ≤ 3 * 2 ^ 40)
    (hroom : s.lines (hdmByte o) len ca = [] ∨ s.snoop.length + (s.lines (hdmByte o) len ca).length ≤ 1048576) :
    exec (.cxlMemRead o len ca) s = .next (s.hdmServe (hdmByte o) len ca) := by
  have hfits : ¬(s.lines (hdmByte o) len ca ≠ [] ∧ filterSize < s.snoop.length + (s.lines (hdmByte o) len ca).length) := by
    rintro ⟨hne, hfull⟩
    exact hroom.elim hne (Nat.not_le_of_lt hfull)
  exact (exec_cxlRead hon o len ca).trans (congrArg _ ((cxlRead_committed (glaze_of_stage h4) hd ho ca).trans (if_neg hfits)))

/-- One that it has no room for waits. -/
theorem exec_cxlRead_waits (hon : On s) {o len : Nat} (h4 : s.stage = 4) (hd : s.hdmBase ≠ none) (ho : o + len ≤ 3 * 2 ^ 40)
    (hne : s.lines (hdmByte o) len true ≠ []) (hfull : 1048576 < s.snoop.length + (s.lines (hdmByte o) len true).length) :
    exec (.cxlMemRead o len true) s = .next (s.makeRoom o len) :=
  (exec_cxlRead hon o len true).trans (congrArg _ ((cxlRead_committed (glaze_of_stage h4) hd ho true).trans (if_pos ⟨hne, hfull⟩)))

/-- The oldest line is snooped, once. -/
theorem makeRoom_biWait (o len : Nat) {l : Nat} (h : s.snoop.head? = some l) :
    (s.makeRoom o len).biWait = if l ∈ s.biWait then s.biWait else s.biWait ++ [l] := by
  rw [State.makeRoom, h]
  split
  · next hl => simp [hl]
  · next hl => simp [hl]

/-- Device memory in Glaze, with the decoder committed: what enters the filter, what is answered, what waits, and what is written. -/
theorem exec_cxl_committed (hon : On s) (h4 : s.stage = 4) (hd : s.hdmBase ≠ none) {o len : Nat} (ho : o + len ≤ 3 * 2 ^ 40) (ca : Bool) :
    let b := hdmByte o
    let new := s.newLines (b / 2) (hdmWords b len)
    (ca = false ∨ new = [] ∨ s.snoop.length + new.length ≤ 1048576 → ∃ t k, exec (.cxlMemRead o len ca) s = .next t ∧
      t.hostRead = s.hostRead ++ [((List.range len).map (fun i => s.byte (b + i)), k)] ∧
      (ca = true → t.snoop = s.snoop ++ new) ∧ (ca = false → t.snoop = s.snoop) ∧ t.mem = s.mem ∧ t.cores = s.cores) ∧
    (ca = true → new ≠ [] → 1048576 < s.snoop.length + new.length → ∃ t, exec (.cxlMemRead o len ca) s = .next t ∧ t.snoop = s.snoop ∧
      t.memWait = s.memWait ++ [(o, len)] ∧ t.hostRead = s.hostRead ∧ t.mem = s.mem ∧
      ∀ l, s.snoop.head? = some l → t.biWait = if l ∈ s.biWait then s.biWait else s.biWait ++ [l]) := by
  refine ⟨fun hroom => ?_, ?_⟩
  · obtain ⟨⟨k, hread⟩, hsnoop, hmem, hcores⟩ := hdmServe_kept s (hdmByte o) len ca
    refine ⟨_, k, exec_cxlRead_served hon h4 hd ho ?_, hread, ?_, ?_, hmem, hcores⟩
    · cases ca with
      | false => exact .inl rfl
      | true => exact hroom.resolve_left (by decide)
    · rintro rfl
      exact hsnoop
    · rintro rfl
      exact hsnoop.trans (List.append_nil _)
  · rintro rfl hne hfull
    exact ⟨_, exec_cxlRead_waits hon h4 hd ho hne hfull, rfl, rfl, rfl, rfl, fun _ hl => makeRoom_biWait o len hl⟩

theorem exec_cxlWrite_committed (hon : On s) (h4 : s.stage = 4) (hd : s.hdmBase ≠ none) {o : Nat} {d : List (BitVec 8)}
    (ho : o + d.length ≤ 3 * 2 ^ 40) (k : Bool) : let b := hdmByte o
    (o % 2 = 0 → d.length % 2 = 0 → ∃ t, exec (.cxlMemWrite o d k) s = .next t ∧
      (∀ x, t.byte x = if b ≤ x ∧ x < b + d.length then d.getD (x - b) 0 else s.byte x) ∧
      (k = true → ∀ x, b ≤ x → x < b + d.length → t.poisoned (x / 2) = true) ∧ t.cores = s.cores) ∧
    ((o % 2 ≠ 0 ∨ d.length % 2 ≠ 0) → exec (.cxlMemWrite o d k) s = .next s) := by
  refine ⟨fun ho2 hl2 => ?_, fun hpart => (exec_cxlWrite hon o d k).trans (congrArg _ (cxlWrite_part (glaze_of_stage h4) hpart k))⟩
  have hb : hdmByte o % 2 = 0 := by unfold hdmByte; split <;> omega
  have hkept : HostKept s (s.writeMarked (s.hdmRun (hdmByte o) d k)) := (HostKept.refl s).writeMarked
  refine ⟨_, (exec_cxlWrite hon o d k).trans (congrArg _ (cxlWrite_committed (glaze_of_stage h4) hd ho ho2 hl2 k)), byte_hdmRun hb hl2 k, ?_,
    hkept.cores⟩
  rintro rfl x hlo hhi
  exact poisoned_hdmRun hb hl2 ⟨hlo, hhi⟩

/-- The doorbell ranges of BAR4. -/
theorem exec_registerWrite_bells (hon : On s) (hb : s.bursts = []) {o : Nat} (ho : o < 0x10000) (w : BitVec 64) :
    (∀ k, 0 < k → k < 4 → exec (.registerWrite .host (0x1800000 + o) k w) s = .next (s.err .host 7)) ∧
    (o % 4 = 0 → o < 0x8000 → exec (.registerWrite .host (0x1800000 + o) 4 w) s = .next (s.queueDoorbell (w.truncate 32)) ∧
      (o + 4 < 0x8000 → exec (.registerWrite .host (0x1800000 + o) 8 w) s =
        .next ((s.queueDoorbell (w.truncate 32)).queueDoorbell (w.extractLsb' 32 32)))) ∧
    (o % 4 = 0 → 0x8000 ≤ o → exec (.registerWrite .host (0x1800000 + o) 4 w) s = .next (s.coreDoorbell (w.truncate 32)) ∧
      (o + 4 < 0x10000 → exec (.registerWrite .host (0x1800000 + o) 8 w) s =
        .next ((s.coreDoorbell (w.truncate 32)).coreDoorbell (w.extractLsb' 32 32)))) := by
  have hexec (k : Nat) : exec (.registerWrite .host (0x1800000 + o) k w) s = .next (s.bar4Write o k w) :=
    (exec_portWrite hon hb _ k w).trans (congrArg _ (portWrite_bar4 (by omega) k w))
  refine ⟨fun k h0 hk => ?_, fun h4 hq => ⟨?_, fun hq4 => ?_⟩, fun h4 hc => ⟨?_, fun hc4 => ?_⟩⟩
  · rw [hexec, bar4Write_narrow ho h0 hk]
  · rw [hexec, bar4Write_word h4, bar4Set_queue hq]
  · rw [hexec, bar4Write_two h4, bar4Set_queue hq, bar4Set_queue hq4]
  · rw [hexec, bar4Write_word h4, bar4Set_core hc ho]
  · rw [hexec, bar4Write_two h4, bar4Set_core hc ho, bar4Set_core (by omega) hc4]

/-- The mask bit of a vector in the MSI-X table (R473). -/
theorem exec_registerWrite_mask (hon : On s) (hb : s.bursts = []) {v : Nat} (hv : v < 32) (w : BitVec 64) :
    exec (.registerWrite .host (0x181000C + 16 * v) 4 w) s = .next (s.msixUnmask v (w.getLsbD 0)) := by
  have hoff : 0x181000C + 16 * v = 0x1800000 + (0x1000C + 16 * v) := by omega
  have hbit : (w.truncate 32).getLsbD 0 = w.getLsbD 0 := by simp
  rw [exec_portWrite hon hb, hoff, portWrite_bar4 (by omega), bar4Write_word (by omega), bar4Set_mask hv, hbit]

/-- The control register of the HDM decoder (R469). -/
theorem exec_registerWrite_hdmCtl (hon : On s) (hb : s.bursts = []) (h : s.bitReg rSvc 17 = true) (w : BitVec 64) :
    exec (.registerWrite .host 0x2000220 4 w) s = .next { s with hdmBase := if w.getLsbD 9 then some s.hostCfg.base else none } := by
  have hbit : (w.extractLsb' 0 32).getLsbD 9 = w.getLsbD 9 := by simp
  have hoff : 0x2000220 - offCfg = cHdmCtl := by decide
  have hcfg : s.portWrite 0x2000220 4 w = s.cfgSet cHdmCtl (w.extractLsb' 0 32) := by
    rw [State.portWrite, if_neg (by decide), if_neg (by decide), if_pos (by decide), hoff]
  rw [exec_portWrite hon hb, hcfg, cfgSet_hdmCtl h, hbit]
end

/-- Settles O38: each command of the host is the model's function of it, and each clause says what that function leaves. -/
theorem hostLinkAndDeviceMemory : Obligations.HostLinkAndDeviceMemory := by
  unfold Obligations.HostLinkAndDeviceMemory
  intro s hon
  refine ⟨fun w => ⟨fun hb k => exec_bells_wait hon hb k w, fun hb => ⟨exec_queueBell_word hon hb w, exec_coreBell_word hon hb w,
      fun k hk => exec_bells_narrow hon hb hk w⟩⟩,
    fun o len ca => ?_, fun l hl => ?_, fun l => ?_, fun src w ht => ?_, exec_hostLinkTrain hon,
    fun hp h => (exec_hostLinkRetry hon).trans (congrArg _ (linkRetry_retrains hp h)),
    fun rate width ht h => (exec_hostLinkUp hon rate width).trans (congrArg _ (linkUp_none ht h)),
    fun hb => ⟨fun o ho w => exec_registerWrite_bells hon hb ho w,
      fun v hv w => ⟨_, exec_registerWrite_mask hon hb hv w, msixUnmask_leaves s hv (w.getLsbD 0)⟩,
      fun h w => exec_registerWrite_hdmCtl hon hb h w⟩,
    fun rate width ht hr hw h => exec_hostLinkUp_some hon ht hr hw h⟩
  case refine_1 =>
    intro b _ ho
    refine ⟨fun h4 hd => exec_cxl_uncommitted hon h4 hd o len ca, fun h4 hd => ?_, fun h => exec_cxlRead_bisque hon h o len ca⟩
    obtain ⟨hserved, hwaits⟩ := exec_cxl_committed hon h4 hd ho ca
    refine ⟨fun hlen l => mem_newLines s b len l hlen, hserved, hwaits, ?_⟩
    rintro d k rfl
    exact exec_cxlWrite_committed hon h4 hd ho k
  case refine_2 =>
    refine ⟨⟨exec_biSnoopAnswer hon hl none, lineGone_idle l⟩, fun d hd => ⟨_, exec_biSnoopAnswer hon hl (some d), biGone_some_leaves s l hd⟩⟩
  case refine_3 =>
    exact ⟨_, exec_hostCacheSnoop hon l, look_put_same false s.hostLines l false, fun k hk => look_put_ne false s.hostLines l k false hk, rfl⟩
  case refine_4 =>
    refine ⟨fun h => ?_, fun h hm => ?_, fun h hm => ?_⟩
    · rw [exec_hsigWrite hon ht, hsig_zero w h]
    · rw [exec_hsigWrite hon ht, hsig_sent w h hm]
    · rw [exec_hsigWrite hon ht, hsig_masked w h hm]

end Sys2Proof.Machine

/-! # Bring-up, resets of parts, cables and the image service -/

namespace Sys2Proof.Machine
open Sys2Proof.Laws Sys2Proof.Safety

/-! ### What packets on links leave alone -/

/-- From s to t only the links' own state changes, and the next draw of the random-number source. -/
def OnLinks (s t : State) : Prop := ∃ links rng, t = { s with links := links, rngCtr := rng }

section
variable {a s t u : State}

theorem OnLinks.refl (s : State) : OnLinks s s := ⟨_, _, rfl⟩

theorem OnLinks.trans (h : OnLinks s t) (g : OnLinks t u) : OnLinks s u := by
  obtain ⟨_, _, rfl⟩ := h
  obtain ⟨_, _, rfl⟩ := g
  exact ⟨_, _, rfl⟩

/-- Whatever does not read those two is the same. -/
theorem OnLinks.same {α : Type} (h : OnLinks s t) (p : State → α)
    (hp : ∀ links rng, p { s with links := links, rngCtr := rng } = p s := by intros; rfl) : p t = p s := by
  obtain ⟨_, _, rfl⟩ := h
  exact hp _ _

theorem OnLinks.ite {c : Prop} [Decidable c] (hs : OnLinks a s) (ht : OnLinks a t) : OnLinks a (if c then s else t) := by
  split
  · exact hs
  · exact ht

theorem OnLinks.foldl {α : Type} {f : State → α → State} (hf : ∀ t x, OnLinks t (f t x)) (xs : List α) (s : State) : OnLinks s (xs.foldl f s) :=
  foldl_keeps (OnLinks s) f (fun t x h => h.trans (hf t x)) xs s (.refl s)

theorem modLink_onLinks (s : State) (l : Nat) (f : Link → Link) : OnLinks s (s.modLink l f) := ⟨_, _, rfl⟩
theorem pump_onLinks (s : State) (l : Nat) : OnLinks s (s.pump l) := .ite (.refl s) (modLink_onLinks s l _)
theorem enqueue_onLinks (s : State) (l lane hop : Nat) (from_ : Option Nat) (p : Packet) : OnLinks s (s.enqueue l lane hop from_ p) :=
  (modLink_onLinks s l _).trans (pump_onLinks _ l)
theorem sendLocal_onLinks (s : State) (l : Nat) (k : PktSpec) : OnLinks s (s.sendLocal l k) := enqueue_onLinks s l 6 0 none _

theorem hello1_onLinks (s : State) (l : Nat) : OnLinks s (s.hello1 l) := by
  have hnonce : OnLinks s { s with rngCtr := s.rngCtr + 1 } := ⟨_, _, rfl⟩
  exact (hnonce.trans (modLink_onLinks _ l _)).trans (sendLocal_onLinks _ l _)

theorem offerRate_onLinks (s : State) (l : Nat) : OnLinks s (s.offerRate l) :=
  .ite ((modLink_onLinks s l _).trans (sendLocal_onLinks _ l _)) (.refl s)

/-- A discovery round loads CHIP, and its HELLOs are packets. -/
theorem discovery_onLinks (s : State) : OnLinks s.loadChip s.discovery :=
  .foldl (fun t l => .ite (hello1_onLinks t l) (.refl t)) _ _

/-- Looking for an image settles which link it is asked on; the rest is a packet. -/
theorem imgStart_onLinks (s : State) (h : s.imgLink = none) : OnLinks
    { s with imgLink := if s.wantsImage then (List.range 96).find? (fun l => s.offers l && decide (l ∉ s.imgTried)) else none } s.imgStart := by
  have hnone : ({ s with imgLink := none } : State) = s := by rw [← h]
  unfold State.imgStart
  cases hw : s.wantsImage with
  | false => simpa [hnone] using OnLinks.refl s
  | true =>
    simp only [h, Option.isSome_none, Bool.not_true, Bool.or_self, Bool.false_eq_true, if_false, if_true]
    split
    · next hf => rw [hf, hnone]; exact .refl s
    · next l hf => rw [hf]; exact sendLocal_onLinks _ l _

theorem imgStart_onLinks_some (s : State) : ∃ i, OnLinks { s with imgLink := i } s.imgStart := by
  cases h : s.imgLink with
  | none => exact ⟨_, imgStart_onLinks s h⟩
  | some l =>
    have hs : s.imgStart = s := if_pos (by rw [h]; exact Bool.or_true _)
    rw [hs]
    exact ⟨some l, by rw [← h]; exact .refl s⟩

/-- A failed transfer: its link is tried, and the search goes on without it. -/
theorem imgFail_onLinks (s : State) {l : Nat} (h : s.imgLink = some l) : ∃ i, i ≠ some l ∧
    OnLinks { s with imgTried := s.imgTried ++ [l], imgLink := i } s.imgFail := by
  have hfail : s.imgFail = ({ s with imgLink := none, imgTried := s.imgTried ++ [l] } : State).imgStart := by rw [State.imgFail, h]
  rw [hfail]
  refine ⟨_, fun e => ?_, imgStart_onLinks _ rfl⟩
  split at e
  · have := List.find?_some e
    simp at this
  · cases e

end

/-! ### What the checks of stored data and the recording of errors leave alone -/

/-- The registers of the pages below the memory channels', but for the page headers and FABRIC_ID. -/
def plainReg (o : Nat) : Prop := o < 0x300000 ∧ 0x40 ≤ o % 0x1000 ∧ o ≠ rFabId

/-- From s to t only marks, latent errors, the address log, interrupts, links and registers that are not plain change. -/
def Aside (s t : State) : Prop :=
  (∃ regs psn latent log pend sent links rng,
    t = { s with regs := regs, psn := psn, latent := latent, log := log, msixPend := pend, msixSent := sent, links := links, rngCtr := rng }) ∧
  ∀ o, plainReg o → t.reg o = s.reg o

section
variable {a s t u : State} {p : Page} {o : Nat}

theorem Aside.refl (s : State) : Aside s s := ⟨⟨_, _, _, _, _, _, _, _, rfl⟩, fun _ _ => rfl⟩

theorem Aside.trans (h : Aside s t) (g : Aside t u) : Aside s u := by
  obtain ⟨⟨_, _, _, _, _, _, _, _, rfl⟩, hreg⟩ := h
  obtain ⟨⟨_, _, _, _, _, _, _, _, rfl⟩, hreg'⟩ := g
  exact ⟨⟨_, _, _, _, _, _, _, _, rfl⟩, fun o ho => (hreg' o ho).trans (hreg o ho)⟩

/-- Whatever reads none of those is the same. -/
theorem Aside.same {α : Type} (h : Aside s t) (p : State → α) (hp : ∀ regs psn latent log pend sent links rng,
    p { s with regs := regs, psn := psn, latent := latent, log := log, msixPend := pend, msixSent := sent, links := links, rngCtr := rng } = p s
      := by intros; rfl) : p t = p s := by
  obtain ⟨⟨_, _, _, _, _, _, _, _, rfl⟩, -⟩ := h
  exact hp _ _ _ _ _ _ _ _

theorem OnLinks.aside (h : OnLinks s t) : Aside s t := by
  obtain ⟨_, _, rfl⟩ := h
  exact ⟨⟨_, _, _, _, _, _, _, _, rfl⟩, fun _ _ => rfl⟩

theorem Aside.ite {c : Prop} [Decidable c] (hs : Aside a s) (ht : Aside a t) : Aside a (if c then s else t) := by
  split
  · exact hs
  · exact ht

theorem Aside.foldl {α : Type} {f : State → α → State} (hf : ∀ t x, Aside t (f t x)) (xs : List α) (s : State) : Aside s (xs.foldl f s) :=
  foldl_keeps (Aside s) f (fun t x h => h.trans (hf t x)) xs s (.refl s)

theorem setReg_aside (s : State) (v : W32) (ho : ¬ plainReg o) : Aside s (s.setReg o v) :=
  ⟨⟨_, _, _, _, _, _, _, _, rfl⟩, fun q hq => State.reg_setReg_ne s o q v fun e => ho (e ▸ hq)⟩

theorem msix_aside (s : State) (v : Nat) : Aside s (s.msix v) :=
  .ite ⟨⟨_, _, _, _, _, _, _, _, rfl⟩, fun _ _ => rfl⟩ ⟨⟨_, _, _, _, _, _, _, _, rfl⟩, fun _ _ => rfl⟩

theorem orRise_aside (old s : State) : Aside s (State.orRise old s) := .ite (msix_aside s 0) (.refl s)

theorem not_plainReg_header (p : Page) (h : o < 0x40) : ¬ plainReg (pageBase p + o) := by
  have := pageBase_mod p
  rintro ⟨-, h40, -⟩
  omega

/-- An event's own effect, and then PG_IRQ. -/
theorem withIrq_aside (p : Page) (f : State → State) (s : State) : Aside (f s) (withIrq p f s) :=
  (setReg_aside (f s) _ (not_plainReg_header p (by decide))).trans (orRise_aside s _)

theorem err_aside (s : State) (p : Page) (c : Nat) : Aside s (s.err p c) :=
  .ite ((setReg_aside s _ (not_plainReg_header p (by decide))).trans (withIrq_aside p _ s)) (.refl s)

theorem err_reg (s : State) (p : Page) (c : Nat) (h : 0x40 ≤ o % 0x1000) : (s.err p c).reg o = s.reg o := by
  have hne (k : Nat) (hk : k < 0x40) : o ≠ pageBase p + k := by
    have := pageBase_mod p
    omega
  by_cases hc : s.fldReg (pageBase p + oErr) 0 16 = 0
  · rw [State.err_first s p c hc, withIrq_reg_ne p _ s (hne _ (by decide)), State.reg_setReg_ne _ _ _ _ (hne _ (by decide))]
  · rw [State.err_later s p c hc]

/-- The counters of memory lie in the pages of the memory channels and of RAS. -/
theorem counterOf_ge (s : State) (x : Nat) (ue : Bool) : 0x300000 ≤ (counterOf s x ue).1 := by
  unfold counterOf
  cases regionOf x <;> cases ue <;> simp only [rStUe, rStCe, rLpUe, rLpCe, rRasSram, if_true, Bool.false_eq_true, if_false] <;> omega

theorem countReg_aside (s : State) (lo len k : Nat) (h : 0x300000 ≤ o) : Aside s (s.countReg o lo len k) :=
  setReg_aside s _ fun ho => absurd ho.1 (Nat.not_lt_of_le h)

theorem logEvent_aside (s : State) (x : Nat) (ue : Bool) : Aside s (s.logEvent x ue) := by
  unfold State.logEvent
  refine .trans (.ite ?_ (.ite ?_ (countReg_aside s _ _ _ (by decide)))) (withIrq_aside .ras _ s)
  · exact ⟨⟨_, _, _, _, _, _, _, _, rfl⟩, fun _ _ => rfl⟩
  · exact ⟨⟨_, _, _, _, _, _, _, _, rfl⟩, fun _ _ => rfl⟩

theorem memEvent_aside (s : State) (x : Nat) (ue : Bool) : Aside s (s.memEvent x ue) :=
  (countReg_aside s _ _ _ (counterOf_ge s x ue)).trans (logEvent_aside _ x ue)

theorem latent_aside (s : State) (m : Store Latent) : Aside s { s with latent := m } := ⟨⟨_, _, _, _, _, _, _, _, rfl⟩, fun _ _ => rfl⟩
theorem setMark_aside (s : State) (x : Nat) (m : Bool) : Aside s (s.setMark x m) := ⟨⟨_, _, _, _, _, _, _, _, rfl⟩, fun _ _ => rfl⟩

theorem touch_aside (s : State) (x : Nat) : Aside s (s.touch x) := by
  unfold State.touch
  split
  · exact .refl s
  · exact (latent_aside s _).trans (memEvent_aside _ x false)
  · exact ((latent_aside s _).trans (setMark_aside _ x true)).trans (memEvent_aside _ x true)

theorem touchAll_aside (s : State) (xs : List Nat) : Aside s (s.touchAll xs) := .foldl touch_aside xs s

theorem stagingRead_aside (s : State) : Aside s s.stagingRead := by
  unfold State.stagingRead
  extract_lets t h
  have ht : Aside s t := touchAll_aside s _
  exact .ite (ht.trans (touchAll_aside t _)) ht

/-- The words of a write change memory alone. -/
theorem wordsWritten_eq (ws : List (Nat × Word × Bool)) (s : State) : ∃ m, wordsWritten s ws = { s with mem := m } := by
  induction ws generalizing s with
  | nil => exact ⟨_, rfl⟩
  | cons e r ih =>
    obtain ⟨m, hm⟩ := ih (s.setWord e.1 e.2.1)
    exact ⟨m, hm⟩

/-- A write of memory is a check of what it replaces, marks, and words. -/
theorem writeMarked_aside (s : State) (ws : List (Nat × Word × Bool)) : ∃ t m, Aside s t ∧ s.writeMarked ws = { t with mem := m } := by
  unfold State.writeMarked
  extract_lets cws s1 s2
  have h1 : Aside s s1 := .foldl (fun t c => .ite (latent_aside t _) (touch_aside t c)) _ _
  have h2 : Aside s s2 := h1.trans (.foldl (fun t c => setMark_aside t c _) _ _)
  obtain ⟨m, hm⟩ := wordsWritten_eq ws s2
  exact ⟨s2, m, h2, hm⟩

end

/-! ### A link that changes its state leaves the others' -/

/-- From s to t no link's STAT register changes, whatever the link's number, and no error lies in a table of t. -/
structure StatKept (s t : State) : Prop where
  reg : ∀ l, t.reg (rLkStat l) = s.reg (rLkStat l)
  none : t.upsets = []

/-- The state of a search keeps them. -/
@[reducible] def StatKeptFirst {α : Type} (s : State) : Option (State × α) → Prop
  | none => True
  | some r => StatKept s r.1

section
variable {a s t : State} {p : Page} {l o : Nat}

/-- A state with the same registers and errors. -/
theorem StatKept.same (h : StatKept a s) (hr : t.regs = s.regs := by rfl) (hu : t.upsets = s.upsets := by rfl) : StatKept a t :=
  ⟨fun l => by rw [← h.reg l, State.reg, hr, State.reg], hu.trans h.none⟩

theorem StatKept.ite {c : Prop} [Decidable c] (hs : StatKept a s) (ht : StatKept a t) : StatKept a (if c then s else t) := by
  split
  · exact hs
  · exact ht

theorem StatKept.foldl {α : Type} {f : State → α → State} {xs : List α} (h : StatKept a s) (hf : ∀ t x, StatKept a t → StatKept a (f t x)) :
    StatKept a (xs.foldl f s) := foldl_keeps (StatKept a) f hf xs s h

theorem StatKept.onLinks (h : StatKept a s) (g : OnLinks s t) : StatKept a t := h.same (g.same State.regs) (g.same State.upsets)

theorem StatKept.setReg {v : W32} (h : StatKept a s) (ho : o % 0x1000 ≠ 0x44) : StatKept a (s.setReg o v) := by
  refine ⟨fun l => (State.reg_setReg_ne s o _ v fun e => ho ?_).trans (h.reg l), h.none⟩
  rw [← e]
  simp only [rLkStat]
  omega

theorem header_ne_stat (p : Page) {k : Nat} (h : k < 0x40) : (pageBase p + k) % 0x1000 ≠ 0x44 := by
  have := pageBase_mod p
  omega

theorem StatKept.orRise {old : State} (h : StatKept a s) : StatKept a (State.orRise old s) := by
  have hmsix : StatKept a (s.msix 0) := .ite h.same h.same
  exact .ite hmsix h

theorem StatKept.withIrq {f : State → State} (h : StatKept a (f s)) : StatKept a (withIrq p f s) :=
  (h.setReg (header_ne_stat p (by decide))).orRise

theorem StatKept.latchIrq {m : W32} (h : StatKept a s) : StatKept a (s.latchIrq p m) := (h.setReg (header_ne_stat p (by decide))).orRise

theorem StatKept.err {c : Nat} (h : StatKept a s) : StatKept a (s.err p c) := .ite (.withIrq (h.setReg (header_ne_stat p (by decide)))) h

theorem StatKept.fabErr {c d : Nat} (h : StatKept a s) : StatKept a (s.fabErr c d) :=
  .ite (.withIrq (.setReg (h.setReg (header_ne_stat .fabric (by decide))) (by decide))) h

theorem StatKept.readRoute {k : Nat} (h : StatKept a s) : StatKept a (s.readRoute k) := by rwa [State.readRoute_none s k h.none]

theorem StatKept.ownerTakes {r : Request} {st : Nat} {ws : List (Word × Bool)} (h : StatKept a s) : StatKept a (s.ownerTakes r st ws) := by
  unfold State.ownerTakes
  split
  · exact h
  · exact .ite h h.same
  · exact h.same

theorem StatKept.completeReq {tag : BitVec 17} {st : Nat} {ws : List (Word × Bool)} (h : StatKept a s) : StatKept a (s.completeReq tag st ws) := by
  unfold State.completeReq
  split
  · exact h
  · exact .ownerTakes h.same

theorem StatKept.routeTo {from_ : Option Nat} {q : Packet} (h : StatKept a s) : StatKept a (s.routeTo from_ q).1 := by
  have hr : StatKept a (s.readRoute (s.routeKey q.dst)) := h.readRoute
  unfold State.routeTo
  split
  · exact h.same
  split
  · exact h.fabErr
  dsimp only
  split
  · exact hr.fabErr
  split
  · exact hr.same
  · exact hr.onLinks (enqueue_onLinks _ _ _ _ _ _)

theorem StatKept.unreach {q : Packet} (h : StatKept a s) : StatKept a (s.unreach q) := .ite h (.ite h.completeReq (.ite h.fabErr h.routeTo))

theorem StatKept.route {from_ : Option Nat} {q : Packet} (h : StatKept a s) : StatKept a (s.route from_ q) := .ite h.routeTo.unreach h.routeTo

theorem StatKept.request {owner : ReqOwner} {addr : W64} {off : Nat} {k : PktSpec} (h : StatKept a s) :
    StatKeptFirst a (s.request owner addr off k) := by
  unfold State.request
  split
  · trivial
  · extract_lets tag r q u
    have hu : StatKept a u := by
      cases owner with
      | block n id => exact h.same
      | posted n fa => exact h.same
      | gone => exact h.same
    clear_value u
    split
    · exact hu.fabErr.completeReq
    · exact hu.route

theorem StatKept.sendWaiting (h : StatKept a s) : StatKept a s.sendWaiting := by
  unfold State.sendWaiting
  generalize s.unsent.length = k
  induction k with
  | zero => exact h
  | succ k ih =>
    rw [Nat.repeat]
    generalize Nat.repeat _ k s = t at ih
    split
    · exact ih
    · next u r _ =>
      have hr : StatKeptFirst a (({ t with unsent := r } : State).request u.owner u.addr 0 u.spec) := StatKept.request ih.same
      split
      · next e => rw [e] at hr; exact hr
      · exact ih

theorem StatKept.requeue {q : Queued} (h : StatKept a s) : StatKept a (s.requeue q) := by
  unfold State.requeue
  dsimp only
  split
  · exact h.readRoute.fabErr
  · exact .ite h.readRoute.same (h.readRoute.onLinks (enqueue_onLinks _ _ _ _ _ _))

theorem StatKept.dropLink (h : StatKept a s) : StatKept a (s.dropLink l) :=
  .sendWaiting (.foldl (.foldl h.same fun _ _ ht => ht.unreach) fun _ _ ht => ht.requeue)

theorem StatKept.imgFail (h : StatKept a s) : StatKept a s.imgFail := by
  cases hl : s.imgLink with
  | none => rwa [State.imgFail, hl]
  | some l =>
    obtain ⟨i, -, hi⟩ := imgFail_onLinks s hl
    have hs : StatKept a { s with imgTried := s.imgTried ++ [l], imgLink := i } := h.same
    exact hs.onLinks hi

/-- A link that enters a state writes its own STAT, and no other. -/
theorem linkTo_stat (s : State) (l st : Nat) (reason : Option Nat) (h : s.upsets = []) : StatKept (s.linkStat l st reason) (s.linkTo l st reason) := by
  unfold State.linkTo
  extract_lets up s1 s2 s3 t s4
  have h1 : StatKept (s.linkStat l st reason) s1 := .withIrq ⟨fun _ => rfl, h⟩
  have h2 : StatKept (s.linkStat l st reason) s2 := .ite h1.latchIrq h1
  have h3 : StatKept (s.linkStat l st reason) s3 := .dropLink (.ite h2 h2.same)
  have ht : StatKept (s.linkStat l st reason) t := h3.setReg (by simp only [rLkFlags]; omega)
  have h4 : StatKept (s.linkStat l st reason) s4 := by
    refine .ite ?_ h3
    split
    · exact .ite ht.err ht
    · exact ht
  exact .ite h4.imgFail h4

/-! ### Cables -/

/-- STATE and REASON of a link that enters a state. -/
theorem linkStat_reg (s : State) (l st : Nat) (reason : Option Nat) :
    (s.linkStat l st reason).reg (rLkStat l) = statWord (s.reg (rLkStat l)) st 0 reason := State.reg_setReg _ _ _

theorem linkStat_reg_ne (s : State) {l k : Nat} (st : Nat) (reason : Option Nat) (h : k ≠ l) :
    (s.linkStat l st reason).reg (rLkStat k) = s.reg (rLkStat k) := State.reg_setReg_ne _ _ _ _ (by simp only [rLkStat]; omega)

theorem statWord_state (w : W32) {st : Nat} (rate : Nat) (reason : Option Nat) (h : st < 16) : fld (statWord w st rate reason) 28 4 = st := by
  have hstate : fld (setFld (setFld w 28 4 st) 26 2 rate) 28 4 = st := by
    rw [fld_setFld_ne _ _ _ _ (by decide), fld_setFld_same _ _ (by decide)]
    omega
  unfold statWord
  cases reason with
  | none => exact hstate
  | some r => exact (fld_setFld_ne _ _ _ _ (by decide)).trans hstate

theorem statWord_reason (w : W32) (st rate : Nat) {r : Nat} (h : r < 8) : fld (statWord w st rate (some r)) 23 3 = r := by
  rw [statWord, fld_setFld_same _ _ (by decide)]
  omega

/-- A run over links, each of which turns its own STAT by g and leaves the others'. -/
theorem foldl_stat {f : State → Nat → State} {g : W32 → W32} (hf : ∀ t l, t.upsets = [] → (f t l).upsets = [] ∧
      (f t l).reg (rLkStat l) = g (t.reg (rLkStat l)) ∧ ∀ j, j ≠ l → (f t l).reg (rLkStat j) = t.reg (rLkStat j))
    (xs : List Nat) (hx : xs.Nodup) (s : State) (hs : s.upsets = []) (j : Nat) :
    (xs.foldl f s).reg (rLkStat j) = if j ∈ xs then g (s.reg (rLkStat j)) else s.reg (rLkStat j) := by
  induction xs generalizing s with
  | nil => rfl
  | cons l r ih =>
    obtain ⟨hl, hr⟩ := List.nodup_cons.mp hx
    obtain ⟨hnone, hsame, hne⟩ := hf s l hs
    rw [List.foldl_cons, ih hr _ hnone]
    by_cases hj : j = l
    · subst hj
      rw [if_neg hl, if_pos List.mem_cons_self, hsame]
    · rw [hne j hj]
      simp only [List.mem_cons, hj, false_or]

theorem linkTo_turns (s : State) (l st : Nat) (reason : Option Nat) (h : s.upsets = []) : (s.linkTo l st reason).upsets = [] ∧
    (s.linkTo l st reason).reg (rLkStat l) = statWord (s.reg (rLkStat l)) st 0 reason ∧
    ∀ j, j ≠ l → (s.linkTo l st reason).reg (rLkStat j) = s.reg (rLkStat j) := by
  obtain ⟨hreg, hnone⟩ := linkTo_stat s l st reason h
  exact ⟨hnone, (hreg l).trans (linkStat_reg s l st reason), fun j hj => (hreg j).trans (linkStat_reg_ne s st reason hj)⟩

theorem linkTo_pins (s : State) (l st : Nat) (reason : Option Nat) : (s.linkTo l st reason).pins = s.pins := (linkTo_kept s l st reason).pins

/-- The STAT of a link whose connector takes a cable, or loses it. -/
def cabledStat (w : W32) : W32 := if fld w 28 4 = 1 then statWord w 2 0 none else w
def uncabledStat (w : W32) : W32 := if fld w 28 4 = 1 then w else statWord w 1 0 (some 6)

theorem connLinks_nodup (k : Nat) : (connLinks k).Nodup := by
  unfold connLinks
  split
  · exact List.nodup_range.map fun i j h => by omega
  · exact List.nodup_nil

theorem mem_connLinks {k : Nat} (h : k < 12) (l : Nat) : l ∈ connLinks k ↔ l / 8 = k := by
  rw [connLinks, if_pos h, List.mem_map]
  refine ⟨?_, fun hl => ⟨l % 8, List.mem_range.mpr (by omega), by omega⟩⟩
  rintro ⟨i, hi, rfl⟩
  rw [List.mem_range] at hi
  omega

/-- CBL_PRSNT_N of a connector is seen at a level. -/
def State.cablePin (s : State) (k : Nat) (b : Bool) : State := { s with pins := { s.pins with cblPrsntN := setBit s.pins.cblPrsntN k b } }

theorem cablePin_level (s : State) {k : Nat} (h : k < 12) (b : Bool) : (s.cablePin k b).pins.cblPrsntN.getLsbD k = b :=
  (getLsbD_setBit s.pins.cblPrsntN k k b).trans (if_pos ⟨rfl, h⟩)

theorem cableIn_leaves (hon : On s) {k : Nat} (h : k < 12) : (s.cableIn k).pins = (s.cablePin k false).pins ∧
    ∀ l, (s.cableIn k).reg (rLkStat l) = if l / 8 = k then cabledStat (s.reg (rLkStat l)) else s.reg (rLkStat l) := by
  have heq : s.cableIn k = (connLinks k).foldl (fun (s : State) l => if s.lk l = 1 then s.startTrain l false else s) (s.cablePin k false) :=
    if_neg (not_not.mpr hon.1)
  rw [heq]
  refine ⟨foldl_same State.pins _ (fun t l => ?_) _ _, fun l => ?_⟩
  · split
    · exact linkTo_pins t l 2 none
    · rfl
  · simp only [← mem_connLinks h]
    refine foldl_stat (fun t l ht => ?_) _ (connLinks_nodup k) (s.cablePin k false) hon.2 l
    split
    · next h1 =>
      have hg : cabledStat (t.reg (rLkStat l)) = _ := if_pos h1
      rw [hg]
      exact linkTo_turns t l 2 none ht
    · next h1 =>
      have hg : cabledStat (t.reg (rLkStat l)) = _ := if_neg h1
      rw [hg]
      exact ⟨ht, rfl, fun _ _ => rfl⟩

theorem cableOut_leaves (hon : On s) {k : Nat} (h : k < 12) : (s.cableOut k).pins = (s.cablePin k true).pins ∧
    ∀ l, (s.cableOut k).reg (rLkStat l) = if l / 8 = k then uncabledStat (s.reg (rLkStat l)) else s.reg (rLkStat l) := by
  have heq : s.cableOut k = (connLinks k).foldl (fun (s : State) l => if s.lk l = 1 then s else s.linkTo l 1 (some 6)) (s.cablePin k true) :=
    if_neg (not_not.mpr hon.1)
  rw [heq]
  refine ⟨foldl_same State.pins _ (fun t l => ?_) _ _, fun l => ?_⟩
  · split
    · rfl
    · exact linkTo_pins t l 1 (some 6)
  · simp only [← mem_connLinks h]
    refine foldl_stat (fun t l ht => ?_) _ (connLinks_nodup k) (s.cablePin k true) hon.2 l
    split
    · next h1 =>
      have hg : uncabledStat (t.reg (rLkStat l)) = _ := if_pos h1
      rw [hg]
      exact ⟨ht, rfl, fun _ _ => rfl⟩
    · next h1 =>
      have hg : uncabledStat (t.reg (rLkStat l)) = _ := if_neg h1
      rw [hg]
      exact linkTo_turns t l 1 (some 6) ht

/-! ### GLOBAL_CFG -/

theorem getLsbD_eq_testBit_fld {n : Nat} (x : BitVec n) (i : Nat) : x.getLsbD i = (fld x i 1).testBit 0 := by
  rw [testBit_fld]
  rfl

/-- The bits of GLOBAL_CFG that a write can reach. -/
theorem testBit_fld_and_low (w : W32) (lo len i : Nat) : (fld (w &&& 0x7FFF) lo len).testBit i = ((fld w lo len).testBit i && decide (lo + i < 15)) := by
  have hmask : (0x7FFF : W32).getLsbD (lo + i) = decide (lo + i < 15) := by
    have h := getLsbD_fieldMask (w := 32) (lo := 0) (len := 15) (lo + i)
    rw [show (0x7FFF : W32) = BitVec.ofNat 32 ((2 ^ 15 - 1) * 2 ^ 0) from rfl, h]
    grind
  rw [testBit_fld, testBit_fld, BitVec.getLsbD_and, hmask, Bool.and_assoc]

theorem fld_and_low (w : W32) {lo len : Nat} (h : lo + len ≤ 15) : fld (w &&& 0x7FFF) lo len = fld w lo len := by
  refine Nat.eq_of_testBit_eq fun i => ?_
  rw [testBit_fld_and_low, testBit_fld]
  grind

theorem fld_and_high (w : W32) {lo len : Nat} (h : 15 ≤ lo) : fld (w &&& 0x7FFF) lo len = 0 := by
  refine Nat.eq_of_testBit_eq fun i => ?_
  rw [testBit_fld_and_low, Nat.zero_testBit, decide_eq_false (by omega), Bool.and_false]

/-- Whether writing w leaves the field at lo as w has it, where the field e is fixed: beside it, or the same with the present value. -/
def Unfixed (s : State) (w : W32) (lo len : Nat) (e : Nat × Nat) : Prop :=
  lo + len ≤ e.1 ∨ e.1 + e.2 ≤ lo ∨ (lo = e.1 ∧ len = e.2 ∧ fld w lo len = s.fldReg rCfg lo len)

theorem fixedCfg_leaves (s : State) (w : W32) (e : Nat × Nat) : (∃ k, (s.fixedCfg w e.1 e.2).1 = { s with freeCtr := k }) ∧
    ∀ lo len, Unfixed s w lo len e → fld (s.fixedCfg w e.1 e.2).2 lo len = fld w lo len := by
  unfold State.fixedCfg
  split
  · exact ⟨⟨_, rfl⟩, fun _ _ _ => rfl⟩
  · next hne =>
    refine ⟨⟨_, rfl⟩, fun lo len h => ?_⟩
    obtain h | h | ⟨rfl, rfl, h⟩ := h
    · exact fld_setFld_ne _ _ _ _ (.inl h)
    · exact fld_setFld_ne _ _ _ _ (.inr h)
    · exact absurd h hne

/-- The word that a write of GLOBAL_CFG stores, after its fixed fields in their order. -/
def State.cfgTaken (s : State) (w : W32) (es : List (Nat × Nat)) : State × W32 :=
  es.foldl (fun r e => r.1.fixedCfg r.2 e.1 e.2) (s, w)

theorem cfgTaken_leaves (es : List (Nat × Nat)) (s : State) (w : W32) : (∃ k, (s.cfgTaken w es).1 = { s with freeCtr := k }) ∧
    ∀ lo len, (∀ e ∈ es, Unfixed s w lo len e) → fld (s.cfgTaken w es).2 lo len = fld w lo len := by
  induction es generalizing s w with
  | nil => exact ⟨⟨_, rfl⟩, fun _ _ _ => rfl⟩
  | cons e r ih =>
    obtain ⟨⟨k, hk⟩, hfld⟩ := fixedCfg_leaves s w e
    obtain ⟨⟨k', hk'⟩, hfld'⟩ := ih (s.fixedCfg w e.1 e.2).1 (s.fixedCfg w e.1 e.2).2
    have hstep : s.cfgTaken w (e :: r) = (s.fixedCfg w e.1 e.2).1.cfgTaken (s.fixedCfg w e.1 e.2).2 r := rfl
    rw [hstep]
    refine ⟨⟨k', by rw [hk', hk]⟩, fun lo len h => ?_⟩
    obtain ⟨he, hr⟩ := List.forall_mem_cons.mp h
    have hsame := hfld lo len he
    refine (hfld' lo len fun x hx => ?_).trans hsame
    have hx := hr x hx
    unfold Unfixed at hx ⊢
    rwa [hsame, hk]

/-- The fixed fields of GLOBAL_CFG. -/
def cfgFixed : List (Nat × Nat) := [(13, 1), (12, 1), (10, 2), (8, 2)]

/-- A write of GLOBAL_CFG: the word is stored, and a change of SPARE starts a discovery round. -/
def State.cfgStored (s : State) (w : W32) : State := (s.cfgTaken (w &&& 0x7FFF) cfgFixed).1.setReg rCfg (s.cfgTaken (w &&& 0x7FFF) cfgFixed).2

theorem cfgWrite_eq (s : State) (w : W32) :
    s.cfgWrite w = if s.bitReg rCfg 14 = (s.cfgStored w).bitReg rCfg 14 then s.cfgStored w else (s.cfgStored w).discovery := rfl

/-- What the word stored leaves, beside a free value that may have been used. -/
theorem cfgStored_leaves (s : State) (w : W32) : (∃ k r, s.cfgStored w = { s with freeCtr := k, regs := r }) ∧
    (∀ o, o ≠ rCfg → (s.cfgStored w).reg o = s.reg o) ∧ (s.cfgStored w).fldReg rCfg 0 8 = fld w 0 8 ∧ (s.cfgStored w).bitReg rCfg 14 = w.getLsbD 14 ∧
    (s.cfgStored w).fldReg rCfg 15 17 = 0 ∧ ∀ e ∈ [(8, 2), (10, 2), (12, 1), (13, 1)], fld w e.1 e.2 = s.fldReg rCfg e.1 e.2 →
      (s.cfgStored w).fldReg rCfg e.1 e.2 = s.fldReg rCfg e.1 e.2 := by
  obtain ⟨⟨k, hk⟩, hfld⟩ := cfgTaken_leaves cfgFixed s (w &&& 0x7FFF)
  have hreg : (s.cfgStored w).reg rCfg = (s.cfgTaken (w &&& 0x7FFF) cfgFixed).2 := State.reg_setReg _ _ _
  have hbeside (lo len : Nat) (h : ∀ e ∈ cfgFixed, lo + len ≤ e.1 ∨ e.1 + e.2 ≤ lo) :
      (s.cfgStored w).fldReg rCfg lo len = fld (w &&& 0x7FFF) lo len := by
    rw [State.fldReg, hreg, hfld lo len fun e he => (h e he).imp_right .inl]
  refine ⟨⟨k, _, by rw [State.cfgStored, hk]; rfl⟩, fun o ho => ?_, ?_, ?_, ?_, fun e he hw => ?_⟩
  · rw [State.cfgStored, State.reg_setReg_ne _ _ _ _ ho, hk]
    rfl
  · rw [hbeside 0 8 (by decide), fld_and_low w (by decide)]
  · rw [State.bitReg, getLsbD_eq_testBit_fld, getLsbD_eq_testBit_fld, ← fld_and_low w (by decide), ← hbeside 14 1 (by decide)]
    rfl
  · rw [hbeside 15 17 (by decide), fld_and_high w (by decide)]
  · have hplace : e.1 + e.2 ≤ 15 ∧ ∀ x ∈ cfgFixed, e.1 + e.2 ≤ x.1 ∨ x.1 + x.2 ≤ e.1 ∨ (e.1 = x.1 ∧ e.2 = x.2) := by
      clear hw
      revert e
      decide
    have hlow := fld_and_low w hplace.1
    rw [State.fldReg, hreg, hfld e.1 e.2 fun x hx => ?_, hlow, hw]
    obtain h | h | ⟨h1, h2⟩ := hplace.2 x hx
    · exact .inl h
    · exact .inr (.inl h)
    · exact .inr (.inr ⟨h1, h2, hlow.trans hw⟩)

/-- What a write of GLOBAL_CFG leaves. -/
theorem cfgWrite_leaves (s : State) (w : W32) : ∃ t, s.cfgWrite w = t ∧ (∀ o, o ≠ rFabId → t.reg o = (s.cfgStored w).reg o) ∧
    (w.getLsbD 14 ≠ s.bitReg rCfg 14 → t.chip = s.fldReg rFabSeed 0 12 * 256 + fld w 0 8) ∧
    (w.getLsbD 14 = s.bitReg rCfg 14 → t.reg rFabId = s.reg rFabId) ∧ t.cores = s.cores ∧ t.mem = s.mem := by
  obtain ⟨⟨k, r, hk⟩, hne, hseed, hspare, -, -⟩ := cfgStored_leaves s w
  have hcores : (s.cfgStored w).cores = s.cores := by rw [hk]
  have hmem : (s.cfgStored w).mem = s.mem := by rw [hk]
  rw [cfgWrite_eq, hspare]
  split
  · next h => exact ⟨_, rfl, fun _ _ => rfl, fun h' => absurd h.symm h', fun _ => hne _ (by decide), hcores, hmem⟩
  · next h =>
    have hround := discovery_onLinks (s.cfgStored w)
    have hreg (o : Nat) : (s.cfgStored w).discovery.reg o = (s.cfgStored w).loadChip.reg o := hround.same (fun t => t.reg o)
    refine ⟨_, rfl, fun o ho => (hreg o).trans (loadChip_reg _ ho), fun _ => ?_, fun h' => absurd h'.symm h,
      (hround.same State.cores).trans hcores, (hround.same State.mem).trans hmem⟩
    rw [State.chip, State.fldReg, hreg, ← hseed]
    refine (loadChip_chip (s.cfgStored w)).trans ?_
    rw [State.fldReg, hne _ (by decide)]
    rfl

end

/-- Settles O24: each cable turns the STAT of its connector's links one by one, and a write of GLOBAL_CFG stores its word and may start a round. -/
theorem cablesAndConfiguration : Obligations.CablesAndConfiguration := by
  unfold Obligations.CablesAndConfiguration
  intro s hon
  refine ⟨fun k hk => ?_, fun k hk => ?_, fun src w ht => ?_⟩
  case refine_1 =>
    obtain ⟨hpins, hstat⟩ := cableIn_leaves hon hk
    refine ⟨_, rfl, by rw [hpins]; exact cablePin_level s hk false, fun l => ?_⟩
    rw [State.lk, State.fldReg, hstat l, ite_and]
    split
    · unfold cabledStat
      split
      · next h1 => rw [statWord_state _ _ _ (by decide), if_pos (show s.lk l = 1 from h1)]
      · next h1 => exact (if_neg (show ¬ s.lk l = 1 from h1)).symm
    · rfl
  case refine_2 =>
    obtain ⟨hpins, hstat⟩ := cableOut_leaves hon hk
    refine ⟨_, rfl, by rw [hpins]; exact cablePin_level s hk true, fun l => ?_, fun l hl h1 => ?_⟩
    · rw [State.lk, State.fldReg, hstat l]
      split
      · unfold uncabledStat
        split
        · next h1 => exact h1
        · exact statWord_state _ _ _ (by decide)
      · rfl
    · rw [State.fldReg, hstat l, if_pos hl, uncabledStat, if_neg (show ¬ fld (s.reg (rLkStat l)) 28 4 = 1 from h1),
        statWord_reason _ _ _ (by decide)]
  case refine_3 =>
    obtain ⟨-, -, hseed, hspare, hzero, hfixed⟩ := cfgStored_leaves s w
    obtain ⟨t, rfl, hreg, hchip, hid, hcores, hmem⟩ := cfgWrite_leaves s w
    have hcfg := hreg rCfg (by decide)
    exact ⟨_, command_inTurn hon ht _ _, (congrArg (fld · 0 8) hcfg).trans hseed, (congrArg (·.getLsbD 14) hcfg).trans hspare,
      (congrArg (fld · 15 17) hcfg).trans hzero, fun e he hw => (congrArg (fld · e.1 e.2) hcfg).trans (hfixed e he hw), hchip, hid, hcores, hmem⟩

end Sys2Proof.Machine

/-! # The image service and the steps of bring-up -/

namespace Sys2Proof.Machine
open Sys2Proof.Laws Sys2Proof.Safety

/-! ### What a write of memory leaves alone -/

/-- From s to t, beyond what lies aside, only memory changes, and the next free value. -/
def Stored (s t : State) : Prop := ∃ m k, Aside { s with mem := m, freeCtr := k } t

section
variable {a s t u : State} {o l : Nat}

theorem Aside.stored (h : Aside s t) : Stored s t := ⟨s.mem, s.freeCtr, h⟩

theorem Stored.trans (h : Stored s t) (g : Stored t u) : Stored s u := by
  obtain ⟨_, _, ⟨⟨_, _, _, _, _, _, _, _, rfl⟩, hreg⟩⟩ := h
  obtain ⟨_, _, ⟨⟨_, _, _, _, _, _, _, _, rfl⟩, hreg'⟩⟩ := g
  exact ⟨_, _, ⟨_, _, _, _, _, _, _, _, rfl⟩, fun o ho => (hreg' o ho).trans (hreg o ho)⟩

theorem Stored.reg (h : Stored s t) (ho : plainReg o) : t.reg o = s.reg o := by
  obtain ⟨_, _, -, hreg⟩ := h
  exact hreg o ho

/-- Whatever reads nothing of what changes is the same. -/
theorem Stored.same {α : Type} (h : Stored s t) (p : State → α) (hp : ∀ mem regs psn latent log pend sent links rng k,
    p { s with mem := mem, regs := regs, psn := psn, latent := latent, log := log, msixPend := pend, msixSent := sent, links := links, rngCtr := rng,
               freeCtr := k } = p s := by intros; rfl) : p t = p s := by
  obtain ⟨_, _, ⟨_, _, _, _, _, _, _, _, rfl⟩, -⟩ := h
  exact hp _ _ _ _ _ _ _ _ _ _

theorem writeMarked_stored (s : State) (ws : List (Nat × Word × Bool)) : Stored s (s.writeMarked ws) := by
  obtain ⟨t, m, ht, hm⟩ := writeMarked_aside s ws
  rw [hm]
  exact ht.stored.trans ⟨m, t.freeCtr, .refl _⟩

theorem writeRun_stored (s : State) (x : Nat) (ws : List Word) : Stored s (s.writeRun x ws) := writeMarked_stored s _

theorem plainReg_svc : plainReg rSvc := ⟨by decide, by decide, by decide⟩
theorem plainReg_strap : plainReg rStrap := ⟨by decide, by decide, by decide⟩

/-! ### Bits and fields of a register after one field was written -/

theorem bitReg_setFldReg (s : State) (o : Nat) {lo : Nat} (h : lo < 32) (v i : Nat) :
    (s.setFldReg o lo 1 v).bitReg o i = if i = lo then v.testBit 0 else s.bitReg o i := by
  rw [State.bitReg, State.setFldReg, State.reg_setReg, getLsbD_setFld, State.bitReg]
  grind

theorem fldReg_setFldReg_ne (s : State) (o v : Nat) {lo len lo' len' : Nat} (h : lo' + len' ≤ lo ∨ lo + len ≤ lo') :
    (s.setFldReg o lo len v).fldReg o lo' len' = s.fldReg o lo' len' := by
  rw [State.fldReg, State.setFldReg, State.reg_setReg, fld_setFld_ne _ _ _ _ h, State.fldReg]

/-! ### A change of the service stage -/

/-- A stage entered, before the round that it may start. -/
def State.atStage (s : State) (n : Nat) : State := { s.setFldReg rSvc 28 4 n with
  svcStop := if n = 4 ∨ n = 0xE ∨ n = 0xF then some (s.usec - s.strapAt) else s.svcStop
  pins := if n = 0xF then { s.pins with alertN := false } else s.pins }

theorem setStage_eq (s : State) (n : Nat) :
    s.setStage n = if (s.atStage n).stg = s.stg then s.atStage n else (s.atStage n).discovery := by
  unfold State.setStage State.atStage
  by_cases hF : n = 0xF
  · subst hF
    rfl
  · by_cases h4 : n = 4 ∨ n = 0xE
    · simp only [hF, or_false, h4, if_true, if_false]
      rfl
    · simp only [hF, or_false, h4, if_false]
      rfl

/-- The round changes links, and CHIP. -/
theorem setStage_leaves (s : State) (n : Nat) : (∃ regs links rng, s.setStage n = { s.atStage n with regs := regs, links := links, rngCtr := rng }) ∧
    ∀ o, o ≠ rFabId → (s.setStage n).reg o = (s.atStage n).reg o := by
  rw [setStage_eq]
  split
  · exact ⟨⟨_, _, _, rfl⟩, fun _ _ => rfl⟩
  · have hround := discovery_onLinks (s.atStage n)
    refine ⟨?_, fun o ho => (hround.same (fun t => t.reg o)).trans (loadChip_reg _ ho)⟩
    obtain ⟨links, rng, e⟩ := hround
    exact ⟨_, links, rng, e⟩

theorem setStage_same {α : Type} (s : State) (n : Nat) (p : State → α) (hp : ∀ regs stop pins links rng,
    p { s with regs := regs, svcStop := stop, pins := pins, links := links, rngCtr := rng } = p s := by intros; rfl) : p (s.setStage n) = p s := by
  obtain ⟨⟨_, _, _, e⟩, -⟩ := setStage_leaves s n
  rw [e]
  exact hp _ _ _ _ _

theorem setStage_pins (s : State) (n : Nat) : (s.setStage n).pins = if n = 0xF then { s.pins with alertN := false } else s.pins := by
  obtain ⟨⟨_, _, _, e⟩, -⟩ := setStage_leaves s n
  rw [e]
  rfl

theorem setStage_svcStop (s : State) : (s.setStage 4).svcStop = some (s.usec - s.strapAt) := by
  obtain ⟨⟨_, _, _, e⟩, -⟩ := setStage_leaves s 4
  rw [e]
  rfl

theorem setStage_reg (s : State) (n : Nat) (h : o ≠ rSvc) (h' : o ≠ rFabId) : (s.setStage n).reg o = s.reg o :=
  ((setStage_leaves s n).2 o h').trans (State.reg_setFldReg_ne s rSvc 28 4 n o h)

theorem setStage_svc (s : State) (n : Nat) : (s.setStage n).reg rSvc = setFld (s.reg rSvc) 28 4 n :=
  ((setStage_leaves s n).2 rSvc (by decide)).trans (State.reg_setReg s rSvc _)

theorem setStage_stage (s : State) {n : Nat} (h : n < 16) : (s.setStage n).stage = n := by
  rw [State.stage, State.fldReg, setStage_svc, fld_setFld_same _ _ (by decide)]
  omega

theorem setStage_fldReg (s : State) (n : Nat) {lo len : Nat} (h : lo + len ≤ 28) : (s.setStage n).fldReg rSvc lo len = s.fldReg rSvc lo len := by
  rw [State.fldReg, setStage_svc, fld_setFld_ne _ _ _ _ (.inl h), State.fldReg]

theorem setStage_bitReg (s : State) (n : Nat) {i : Nat} (h : i < 28) : (s.setStage n).bitReg rSvc i = s.bitReg rSvc i := by
  rw [State.bitReg, setStage_svc, getLsbD_setFld, if_neg (by omega), State.bitReg]

/-- No compute reset is held, so none takes effect. -/
theorem heldTake_none (h : s.heldReset = false) : s.heldTake = s := by
  rw [State.heldTake, h]
  rfl

theorem fail_eq (h : s.heldReset = false) : s.fail = s.setStage 0xF := heldTake_none ((setStage_same s 0xF State.heldReset).trans h)

/-! ### An image that was accepted -/

theorem convertSettings_eq (s : State) : ∃ x, s.convertSettings = { s with settings := x } := by
  unfold State.convertSettings
  dsimp only
  split
  · exact ⟨_, rfl⟩
  · exact ⟨_, rfl⟩

/-- Bring-up goes on with step 3, with the source and slot of the image. -/
theorem imageAccepted_leaves (s : State) {src : Nat} (h : src < 16) (slot : Option Bool) (hdr : List Byte) :
    (s.imageAccepted src slot hdr).stage = 3 ∧ (s.imageAccepted src slot hdr).bitReg rSvc 18 = true ∧
    (s.imageAccepted src slot hdr).fldReg rSvc 24 4 = src ∧ (s.imageAccepted src slot hdr).running = slot := by
  unfold State.imageAccepted
  extract_lets s1 s2
  obtain ⟨x, hx⟩ := convertSettings_eq { s1 with running := slot, runHdr := hdr }
  have hs2 : s2 = { s1 with running := slot, runHdr := hdr, settings := x } := hx
  have hreg : s2.reg rSvc = s1.reg rSvc := by rw [hs2]; rfl
  have hrun : s2.running = slot := by rw [hs2]
  refine ⟨setStage_stage _ (by decide), ?_, ?_, (setStage_same _ 3 State.running).trans hrun⟩
  · rw [setStage_bitReg _ _ (by decide)]
    refine (congrArg (·.getLsbD 18) hreg).trans ?_
    exact (bitReg_setFldReg (s.setFldReg rSvc 24 4 src) rSvc (by decide) 1 18).trans rfl
  · rw [setStage_fldReg _ _ (by decide)]
    refine (congrArg (fld · 24 4) hreg).trans ?_
    refine (fldReg_setFldReg_ne (s.setFldReg rSvc 24 4 src) rSvc 1 (.inr (by decide))).trans ?_
    rw [State.fldReg, State.setFldReg, State.reg_setReg, fld_setFld_same _ _ (by decide)]
    omega

/-! ### Slots depend on the flash alone -/

theorem slotBytes_congr (h : t.flash = s.flash) : t.slotBytes = s.slotBytes := by
  funext b i n
  rw [State.slotBytes, State.slotBytes, h]

theorem slotHdr_congr (h : t.flash = s.flash) : t.slotHdr = s.slotHdr := by
  funext b
  rw [State.slotHdr, State.slotHdr, slotBytes_congr h]

theorem imageWords_congr (h : t.flash = s.flash) : t.imageWords = s.imageWords := by
  funext b
  rw [State.imageWords, State.imageWords, slotBytes_congr h, slotHdr_congr h]

theorem slotStatus_congr (h : t.flash = s.flash) : t.slotStatus = s.slotStatus := by
  funext b
  rw [State.slotStatus, State.slotStatus, State.slotBody, State.slotBody, slotHdr_congr h, slotBytes_congr h]

/-! ### The image service -/

theorem consume_eq (s : State) (p : Packet) : ∃ inbox links, s.consume p = { s with inbox := inbox, links := links } := by
  unfold State.consume State.consumeAs
  split
  · exact ⟨_, _, rfl⟩
  · dsimp only
    split
    · exact ⟨_, _, rfl⟩
    · exact ⟨_, _, rfl⟩

theorem consume_same {α : Type} (s : State) (q : Packet) (p : State → α)
    (hp : ∀ inbox links, p { s with inbox := inbox, links := links } = p s := by intros; rfl) : p (s.consume q) = p s := by
  obtain ⟨_, _, e⟩ := consume_eq s q
  rw [e]
  exact hp _ _

theorem lkLocal_of (hl : l < 96) (h3 : 3 ≤ s.lk l) (h6 : s.lk l ≤ 6) : s.lkLocal l = true := by
  simp [State.lkLocal, hl, h3, h6]

theorem wantsImage_iff (s : State) : s.wantsImage = true ↔ s.fldReg rStrap 8 2 = 2 ∧ s.stage = 2 := by
  simp [State.wantsImage]

/-- A module that offers its image sends the packets of it. -/
theorem imgqReceive_sends (hfly : s.flyDown = false) (h4 : s.stage = 4) (hoffer : s.bitReg rFabCtl 30 = true) {b : Bool} (hb : s.running = some b)
    (l : Nat) (p : Packet) :
    s.imgqReceive l p = (imageSpecs (s.imageWords b)).foldl (fun (s : State) k => s.sendLocal l k) (s.consume p) := by
  have hrun : (s.consume p).running = some b := (consume_same s p State.running).trans hb
  have hoff : (s.consume p).imgOffer = true := by
    rw [consume_same s p State.imgOffer, State.imgOffer, glaze_of_stage h4, hoffer]
    rfl
  rw [State.imgqReceive, hfly, if_neg (by decide)]
  dsimp only
  rw [hrun]
  dsimp only
  rw [hoff, imageWords_congr (consume_same s p State.flash)]
  rfl

/-- The words of an IMGD are in the staging area. -/
def State.imgdWords (s : State) (p : Packet) : State :=
  (s.consume p).writeRun (stagingBase + fld p.tsf 0 24) (p.data.take (16777216 - fld p.tsf 0 24))

theorem imgdWords_stored (s : State) (p : Packet) : Stored (s.consume p) (s.imgdWords p) := writeRun_stored _ _ _

theorem imgdReceive_words (hl : s.imgLink = some l) (hw : s.wantsImage = true) {p : Packet} (h : p.tsf.getLsbD 63 = false) :
    s.imgdReceive l p = s.imgdWords p := by
  have hlink : (s.consume p).imgLink = some l := (consume_same s p State.imgLink).trans hl
  have hwant : (s.consume p).wantsImage = true := (consume_same s p State.wantsImage).trans hw
  unfold State.imgdReceive
  extract_lets s1 off s2 s3
  have hin : ¬ (s1.imgLink ≠ some l || !s1.wantsImage) = true := by simp [s1, hlink, hwant]
  have h2 : s2 = s.imgdWords p := rfl
  rw [if_neg hin, h, if_pos (by decide), h2]

/-- After the last word the image is accepted, or its transfer fails. -/
theorem imgdReceive_last (hl : s.imgLink = some l) (hw : s.wantsImage = true) {p : Packet} (h : p.tsf.getLsbD 63 = true) :
    ((s.imgdWords p).stagingRead.stagingStatus.1 = 0 → ∃ t hdr, s.imgdReceive l p = State.imageAccepted t 3 none hdr) ∧
    ((s.imgdWords p).stagingRead.stagingStatus.1 ≠ 0 → s.imgdReceive l p = ((s.imgdWords p).stagingRead.err .global 4).imgFail) := by
  have hlink : (s.consume p).imgLink = some l := (consume_same s p State.imgLink).trans hl
  have hwant : (s.consume p).wantsImage = true := (consume_same s p State.wantsImage).trans hw
  unfold State.imgdReceive
  extract_lets s1 off s2 s3
  have hin : ¬ (s1.imgLink ≠ some l || !s1.wantsImage) = true := by simp [s1, hlink, hwant]
  have h3 : s3 = (s.imgdWords p).stagingRead := rfl
  rw [if_neg hin, h, if_neg (by decide), h3]
  rcases (s.imgdWords p).stagingRead.stagingStatus with ⟨k, hdr⟩
  exact ⟨fun e => ⟨_, hdr, if_pos e⟩, fun e => if_neg e⟩

/-- A transfer that fails goes on without its link. -/
theorem imgFail_leaves (hl : s.imgLink = some l) : l ∈ s.imgFail.imgTried ∧ s.imgFail.imgLink ≠ some l ∧ s.imgFail.mem = s.mem ∧
    s.imgFail.stage = s.stage := by
  obtain ⟨i, hi, h⟩ := imgFail_onLinks s hl
  exact ⟨(h.same State.imgTried).symm ▸ List.mem_append_right _ (List.mem_singleton.mpr rfl), (h.same State.imgLink).symm ▸ hi, h.same State.mem,
    h.same State.stage⟩

theorem imgdReceive_fails (hl : s.imgLink = some l) (hw : s.wantsImage = true) {p : Packet} (h : p.tsf.getLsbD 63 = true)
    (hk : (s.imgdWords p).stagingRead.stagingStatus.1 ≠ 0) :
    (s.imgdReceive l p).stage = s.stage ∧ l ∈ (s.imgdReceive l p).imgTried ∧ (s.imgdReceive l p).imgLink ≠ some l := by
  have hstored : Stored (s.consume p) ((s.imgdWords p).stagingRead.err .global 4) :=
    (imgdWords_stored s p).trans ((stagingRead_aside _).trans (err_aside _ .global 4)).stored
  have hlink : ((s.imgdWords p).stagingRead.err .global 4).imgLink = some l :=
    (hstored.same State.imgLink).trans ((consume_same s p State.imgLink).trans hl)
  have hsvc : ((s.imgdWords p).stagingRead.err .global 4).reg rSvc = s.reg rSvc :=
    (hstored.reg plainReg_svc).trans (consume_same s p (fun t => t.reg rSvc))
  obtain ⟨htried, hother, -, hstage⟩ := imgFail_leaves hlink
  rw [(imgdReceive_last hl hw h).2 hk]
  exact ⟨hstage.trans (congrArg (fld · 28 4) hsvc), htried, hother⟩

theorem imgRetry_leaves (h : s.imgLink = none) : s.imgRetry.imgTried = [] ∧ s.imgRetry.mem = s.mem ∧
    s.imgRetry.imgLink = if s.fldReg rStrap 8 2 = 2 ∧ s.stage = 2 then (List.range 96).find? s.offers else none := by
  have hretry : s.imgRetry = ({ s with imgTried := [] } : State).imgStart := by
    rw [State.imgRetry, h]
    rfl
  have hlinks := imgStart_onLinks { s with imgTried := [] } h
  rw [hretry]
  refine ⟨hlinks.same State.imgTried, hlinks.same State.mem, (hlinks.same State.imgLink).trans ?_⟩
  simp only [List.not_mem_nil, not_false_eq_true, decide_true, Bool.and_true]
  exact if_congr (wantsImage_iff s) rfl rfl

/-- Settles O31: each command's effect, its steps taken by the lemmas above. -/
theorem imageService : Obligations.ImageService := by
  unfold Obligations.ImageService
  intro s l p hon
  refine ⟨fun h96 h3 h6 hfly h4 hoffer b hb => ?_, fun hl h2 hst => ?_, fun hl => ?_, fun hl => ?_⟩
  · rw [← imgqReceive_sends hfly h4 hoffer hb l p]
    exact (command_on _ s hon).trans (congrArg _ (if_pos (lkLocal_of h96 h3 h6)))
  · have hrun : exec (.imgdReceive l p) s = .next (s.imgdReceive l p) := command_on (fun s => s.imgdReceive l p) s hon
    have hw : s.wantsImage = true := (wantsImage_iff s).mpr ⟨h2, hst⟩
    refine ⟨fun h63 => ?_, fun h63 hk => ?_, fun h63 hk => ?_⟩
    · exact hrun.trans (congrArg _ (imgdReceive_words hl hw h63))
    · obtain ⟨t, hdr, e⟩ := (imgdReceive_last hl hw h63).1 hk
      obtain ⟨hstage, hfw, hsrc, hslot⟩ := imageAccepted_leaves t (src := 3) (by decide) none hdr
      exact ⟨_, hrun.trans (congrArg _ e), hstage, hfw, hsrc, hslot⟩
    · obtain ⟨hstage, htried, hother⟩ := imgdReceive_fails hl hw h63 hk
      exact ⟨_, hrun, hstage.trans hst, htried, hother⟩
  · obtain ⟨htried, hother, hmem, -⟩ := imgFail_leaves hl
    exact ⟨_, command_on _ s hon, htried, hother, hmem⟩
  · obtain ⟨htried, hmem, hlink⟩ := imgRetry_leaves hl
    exact ⟨_, command_on _ s hon, htried, hmem, hlink⟩

end

end Sys2Proof.Machine

/-! # The steps of bring-up -/

namespace Sys2Proof.Machine
open Sys2Proof.Laws Sys2Proof.Safety

/-- What one element's step establishes and every step keeps, a fold over a list with that element establishes; I is what the steps rest on. -/
theorem foldl_reaches {α : Type} (I P : State → Prop) {f : State → α → State} {x : α} {xs : List α} (hx : x ∈ xs) (hI : ∀ s y, I s → I (f s y))
    (hset : ∀ s, I s → P (f s x)) (hkeep : ∀ s y, I s → P s → P (f s y)) (s : State) (hs : I s) : P (xs.foldl f s) := by
  induction xs generalizing s with
  | nil => cases hx
  | cons y ys ih =>
    rw [List.foldl_cons]
    rcases List.mem_cons.mp hx with rfl | hys
    · refine (foldl_keeps (fun t => I t ∧ P t) f (fun t z ht => ⟨hI t z ht.1, hkeep t z ht.1 ht.2⟩) ys _ ⟨hI s _ hs, hset s hs⟩).2
    · exact ih hys _ (hI s y hs)

/-- A table of which some keys are dropped. -/
theorem look_filter_keys {α : Type} (d : α) (keep : Nat → Bool) (m : Store α) (i : Nat) :
    look d (m.filter (fun e => keep e.1)) i = if keep i then look d m i else d := by
  induction m with
  | nil => simp [look]
  | cons e r ih =>
    obtain ⟨k, v⟩ := e
    rw [List.filter_cons]
    by_cases hk : i = k
    · subst hk
      cases hi : keep i <;> simp [look, hi, ih]
    · cases hi : keep k <;> simp [look, hk, ih]

section
variable {s t : State}

/-! ### Step 1 -/

theorem not_plainReg_lpStat (c : Nat) : ¬ plainReg (rLpStat c) := fun h => by
  have := h.1
  simp only [rLpStat] at this
  omega

theorem not_plainReg_stStat (c : Nat) : ¬ plainReg (rStStat c) := fun h => by
  have := h.1
  simp only [rStStat] at this
  omega

theorem lpFailed_aside (s : State) (f : BitVec 32) : Aside s (s.lpFailed f) :=
  .ite (.refl s) ((Aside.foldl (fun t c => .ite (setReg_aside t _ (not_plainReg_lpStat c)) (.refl t)) _ s).trans (err_aside _ .global 0x20))

/-- Each channel that failed is marked as such. -/
theorem lpFailed_bit (s : State) {f : BitVec 32} {c : Nat} (hc : c < 32) (hf : f.getLsbD c = true) : (s.lpFailed f).bitReg (rLpStat c) 0 = true := by
  have hf0 : f ≠ 0 := by
    rintro rfl
    simp at hf
  have hset (t : State) (k : Nat) : (t.setFldReg (rLpStat k) 0 1 1).bitReg (rLpStat k) 0 = true := bitReg_setFldReg t _ (by decide) 1 0
  rw [State.lpFailed, if_neg hf0, State.bitReg, err_reg _ _ _ (by simp only [rLpStat]; omega)]
  refine foldl_reaches (fun _ => True) (fun t => t.bitReg (rLpStat c) 0 = true) (List.mem_range.mpr hc) (fun _ _ _ => trivial) (fun t _ => ?_)
    (fun t k _ ht => ?_) s trivial
  · rw [if_pos hf]
    exact hset t c
  · split
    · by_cases hk : c = k
      · exact hk ▸ hset t c
      · rwa [State.bitReg, State.reg_setFldReg_ne _ _ _ _ _ _ (by simp only [rLpStat]; omega)]
    · exact ht

/-- Step 1 has been completed, with its failures. -/
def State.stepOne (s : State) (f : BitVec 32) : State := ((s.lpFailed f).setFldReg rSvc 17 1 1).uartLine 1

theorem bisqueReached_eq (h1 : s.stage = 1) (h16 : s.bitReg rSvc 16 = true) (h : s.heldReset = false) (f : BitVec 32) : s.bisqueReached f =
    if f ≠ 0 then (s.stepOne f).setStage 0xF
    else if s.fldReg rStrap 8 2 = 3 then (s.stepOne f).setStage 0xE
    else ((s.stepOne f).setStage 2).imgStart := by
  have hheld : (s.stepOne f).heldReset = false := ((lpFailed_aside s f).same State.heldReset).trans h
  have hstrap : (s.stepOne f).fldReg rStrap 8 2 = s.fldReg rStrap 8 2 :=
    congrArg (fld · 8 2) ((State.reg_setFldReg_ne _ _ _ _ _ _ (by decide)).trans ((lpFailed_aside s f).2 _ plainReg_strap))
  have hin : ¬ (s.stage ≠ 1 ∨ (!s.bitReg rSvc 16) = true) := by simp [h1, h16]
  have hHold : ((s.stepOne f).setStage 0xE).heldTake = (s.stepOne f).setStage 0xE := heldTake_none ((setStage_same _ 0xE State.heldReset).trans hheld)
  rw [State.bisqueReached, if_neg hin, ← hstrap, ← hHold, ← fail_eq hheld]
  rfl

theorem bisqueReached_leaves (h1 : s.stage = 1) (h16 : s.bitReg rSvc 16 = true) (h : s.heldReset = false) (f : BitVec 32) :
    (s.bisqueReached f).bitReg rSvc 17 = true ∧
    (s.bisqueReached f).stage = (if f ≠ 0 then 0xF else if s.fldReg rStrap 8 2 = 3 then 0xE else 2) ∧
    ∀ c < 32, f.getLsbD c = true → (s.bisqueReached f).bitReg (rLpStat c) 0 = true := by
  have h17 : (s.stepOne f).bitReg rSvc 17 = true := bitReg_setFldReg (s.lpFailed f) rSvc (by decide) 1 17
  have hlp (c : Nat) (hc : c < 32) (hf : f.getLsbD c = true) : (s.stepOne f).bitReg (rLpStat c) 0 = true :=
    (congrArg (·.getLsbD 0) (State.reg_setFldReg_ne (s.lpFailed f) _ _ _ _ _ (by simp only [rLpStat, rSvc]; omega))).trans (lpFailed_bit s hc hf)
  have hstage (n : Nat) : ((s.stepOne f).setStage n).bitReg rSvc 17 = true ∧
      ∀ c < 32, f.getLsbD c = true → ((s.stepOne f).setStage n).bitReg (rLpStat c) 0 = true :=
    ⟨(setStage_bitReg _ n (by decide)).trans h17, fun c hc hf =>
      (congrArg (·.getLsbD 0) (setStage_reg _ n (by simp only [rLpStat, rSvc]; omega) (by simp only [rLpStat, rFabId]; omega))).trans (hlp c hc hf)⟩
  rw [bisqueReached_eq h1 h16 h]
  by_cases hf : f ≠ 0
  · rw [if_pos hf, if_pos hf]
    exact ⟨(hstage _).1, setStage_stage _ (by decide), (hstage _).2⟩
  by_cases h3 : s.fldReg rStrap 8 2 = 3
  · rw [if_neg hf, if_neg hf, if_pos h3, if_pos h3]
    exact ⟨(hstage _).1, setStage_stage _ (by decide), (hstage _).2⟩
  · rw [if_neg hf, if_neg hf, if_neg h3, if_neg h3]
    obtain ⟨i, hi⟩ := imgStart_onLinks_some ((s.stepOne f).setStage 2)
    exact ⟨(hi.same (fun t => t.bitReg rSvc 17)).trans (hstage 2).1, (hi.same State.stage).trans (setStage_stage _ (by decide)),
      fun c hc hfc => (hi.same (fun t => t.bitReg (rLpStat c) 0)).trans ((hstage 2).2 c hc hfc)⟩

/-! ### Step 2 -/

/-- Trying the slots finds the first that verifies. -/
theorem tryBoot_finds (order : List Bool) (s : State) : ∃ t, Aside s t ∧ tryBoot order s = (t, order.find? (fun b => s.slotStatus b == 0)) := by
  induction order generalizing s with
  | nil => exact ⟨s, .refl s, rfl⟩
  | cons b r ih =>
    rw [tryBoot, List.find?_cons]
    by_cases h0 : s.slotStatus b = 0
    · rw [if_pos h0, h0]
      exact ⟨s, .refl s, rfl⟩
    · have herr := err_aside s .global (if b then 2 else 1)
      obtain ⟨t, ht, e⟩ := ih (s.err .global (if b then 2 else 1))
      rw [slotStatus_congr (herr.same State.flash)] at e
      rw [if_neg h0, beq_eq_false_iff_ne.mpr h0]
      exact ⟨t, herr.trans ht, e⟩

/-- A slot that verifies is accepted; without one the module fails. -/
def State.booted (t : State) : Option Bool → State
  | none => t.fail
  | some b => ((if t.slotState b = slotPending ∧ t.pins.fwWpN then t.useTry b else t) : State).imageAccepted (if b then 1 else 0) (some b)
      (State.slotHdr (if t.slotState b = slotPending ∧ t.pins.fwWpN then t.useTry b else t) b)

theorem imageRead_booted (h2 : s.stage = 2) (h0 : s.fldReg rStrap 8 2 = 0) :
    ∃ t, Stored s t ∧ s.imageRead = t.booted (s.bootOrder.find? (fun b => s.slotStatus b == 0)) := by
  have hin : ¬ (s.stage ≠ 2 ∨ s.fldReg rStrap 8 2 ≠ 0) := by simp [h2, h0]
  unfold State.imageRead
  extract_lets order s1 s2
  have h1 : Stored s s1 := by
    unfold s1
    split
    · exact writeRun_stored s _ _
    · exact (Aside.refl s).stored
  have hs2 : Stored s s2 := h1.trans (writeRun_stored s1 _ _)
  clear_value s2
  obtain ⟨t, ht, e⟩ := tryBoot_finds order s2
  rw [slotStatus_congr (hs2.same State.flash)] at e
  refine ⟨t, hs2.trans ht.stored, (if_neg hin).trans ?_⟩
  rw [e]
  cases order.find? (fun b => s.slotStatus b == 0) with
  | none => rfl
  | some b => rfl

theorem booted_some (t : State) (b : Bool) : (t.booted (some b)).stage = 3 ∧ (t.booted (some b)).bitReg rSvc 18 = true ∧
    (t.booted (some b)).running = some b ∧ (t.booted (some b)).fldReg rSvc 24 4 = (if b then 1 else 0) := by
  rw [State.booted]
  generalize (if t.slotState b = slotPending ∧ t.pins.fwWpN then t.useTry b else t) = u
  obtain ⟨hstage, hfw, hsrc, hrun⟩ := imageAccepted_leaves u (src := if b then 1 else 0) (by cases b <;> decide) (some b) (u.slotHdr b)
  exact ⟨hstage, hfw, hrun, hsrc⟩

theorem booted_none (h : t.heldReset = false) : (t.booted none).stage = 0xF ∧ (t.booted none).pins.alertN = false := by
  rw [State.booted, fail_eq h]
  exact ⟨setStage_stage t (by decide), congrArg Pins.alertN (setStage_pins t 0xF)⟩

end

section
variable {s t : State}

/-! ### Step 3 -/

theorem plainReg_ilv : plainReg rIlv := ⟨by decide, by decide, by decide⟩

theorem Aside.word (h : Aside s t) (a : Nat) : t.word a = s.word a := h.same (fun t => t.word a)
theorem Stored.heldReset (h : Stored s t) : t.heldReset = s.heldReset := h.same State.heldReset
theorem Stored.fieldRows (h : Stored s t) : t.fieldRows = s.fieldRows := h.same State.fieldRows

/-- Outside the part that a training leaves unspecified a byte that nothing has written reads as zero. -/
theorem unwritten_outside (m : Memory) {b : Nat} (h : inTrained (b / 2) = false) : m.unwritten b = 0 := by
  unfold Memory.unwritten
  split
  · rw [h]
    rfl
  · rfl

theorem lpddrLost_stored (s : State) : Stored s s.lpddrLost :=
  ⟨s.lpddrLost.mem, s.lpddrLost.freeCtr, ⟨s.regs, s.lpddrLost.psn, s.lpddrLost.latent, s.log, s.msixPend, s.msixSent, s.links, s.rngCtr, rfl⟩,
    fun _ _ => rfl⟩

theorem lpddrLost_byte (s : State) {b : Nat} (h : inTrained (b / 2) = false) : s.lpddrLost.byte b = s.byte b := by
  have hcell : look 0 s.lpddrLost.mem.cells b = look 0 s.mem.cells b :=
    (look_filter_keys 0 (fun k => !inTrained (k / 2)) s.mem.cells b).trans (if_pos (by rw [h]; rfl))
  rw [State.byte, State.byte, Memory.byte, Memory.byte, hcell, unwritten_outside _ h, unwritten_outside _ h]

theorem word_of_bytes {a : Nat} (h : ∀ b, b / 2 = a → t.byte b = s.byte b) : t.word a = s.word a := by
  rw [State.word, State.word, h (2 * a + 1) (by omega), h (2 * a) (by omega)]

/-- The staging area has been copied into die-shared memory, and LPDDR6 trained. -/
def State.copied (s : State) (n : Nat) : State :=
  let s1 := s.touchAll (addrs stagingBase n)
  (s1.writeMarked (runMarked (topShared n) (s1.readRun stagingBase n))).lpddrLost

theorem copied_stored (s : State) (n : Nat) : Stored s (s.copied n) :=
  ((touchAll_aside s _).stored.trans (writeMarked_stored _ _)).trans (lpddrLost_stored _)

/-- The staging area lies below the copy and above the part that a training leaves unspecified. -/
theorem copied_word (s : State) {n a : Nat} (hn : n ≤ 0x2000000) (ha : stagingBase ≤ a) (hb : a < 0x20000000000) : (s.copied n).word a = s.word a := by
  have htouch : (s.touchAll (addrs stagingBase n)).word a = s.word a := (touchAll_aside s _).word a
  have hout : inTrained a = false := by rw [inTrained, decide_eq_false (Nat.not_lt_of_le ha), Bool.and_false]
  rw [← htouch]
  refine word_of_bytes fun b hba => (lpddrLost_byte _ (hba ▸ hout)).trans (State.byte_writeMarked_ne _ _ b fun e he => ?_)
  obtain ⟨x, -, rfl⟩ := List.mem_map.mp he
  simp only [topShared]
  omega

/-- The stacks that failed are marked. -/
def State.stFailed (s : State) (f : BitVec 8) : State :=
  (List.range 8).foldl (fun (s : State) m => if f.getLsbD m then (s.setFldReg (rStStat m) 0 1 1).err .global (0x10 + m) else s) s

theorem stFailed_aside (s : State) (f : BitVec 8) : Aside s (s.stFailed f) :=
  .foldl (fun t m => .ite ((setReg_aside t _ (not_plainReg_stStat m)).trans (err_aside _ .global _)) (.refl t)) _ s

/-- What a training starts from: the spare rows of the repair log, and the interleave. -/
def State.rowsTaken (s : State) : State := { s with fieldRows := s.repairs.filter Repair.isRow }.setReg rIlv (BitVec.ofNat 32 s.ilvSet)

/-- Training has been done, and each channel that failed is marked. -/
def State.trained (s : State) (sf : BitVec 8) (lf : BitVec 32) : State := ((s.rowsTaken.copied 16777216).stFailed sf).lpFailed lf

theorem trained_stored (s : State) (sf : BitVec 8) (lf : BitVec 32) : Stored s.rowsTaken (s.trained sf lf) :=
  (copied_stored _ _).trans ((stFailed_aside _ sf).trans (lpFailed_aside _ lf)).stored

theorem trained_word (s : State) (sf : BitVec 8) (lf : BitVec 32) {a : Nat} (ha : stagingBase ≤ a) (hb : a < 0x20000000000) :
    (s.trained sf lf).word a = s.word a := by
  have haside : Aside (s.rowsTaken.copied 16777216) (s.trained sf lf) := (stFailed_aside _ sf).trans (lpFailed_aside _ lf)
  have hword : (s.trained sf lf).word a = (s.rowsTaken.copied 16777216).word a := haside.word a
  rw [hword, copied_word s.rowsTaken (by decide) ha hb]
  rfl

/-- The bits of step 3 are set. -/
def State.stepThree (s : State) (sf : BitVec 8) (lf : BitVec 32) : State :=
  (s.setFldReg rSvc 19 1 (if sf = 0 then 1 else 0)).setFldReg rSvc 20 1 (if lf = 0 then 1 else 0)

theorem stepThree_same (s : State) (sf : BitVec 8) (lf : BitVec 32) : (s.stepThree sf lf).heldReset = s.heldReset ∧
    (s.stepThree sf lf).stage = s.stage ∧ (s.stepThree sf lf).reg rIlv = s.reg rIlv ∧ (s.stepThree sf lf).mem = s.mem ∧
    (s.stepThree sf lf).fieldRows = s.fieldRows := by
  refine ⟨rfl, ?_, ?_, rfl, rfl⟩
  · rw [State.stage, State.stepThree, fldReg_setFldReg_ne _ _ _ (.inr (by decide)), fldReg_setFldReg_ne _ _ _ (.inr (by decide)), State.stage]
  · rw [State.stepThree, State.reg_setFldReg_ne _ _ _ _ _ _ (by decide), State.reg_setFldReg_ne _ _ _ _ _ _ (by decide)]

theorem stepThree_done (s : State) (sf : BitVec 8) (lf : BitVec 32) :
    (s.stepThree sf lf).bitReg rSvc 19 = decide (sf = 0) ∧ (s.stepThree sf lf).bitReg rSvc 20 = decide (lf = 0) := by
  rw [State.stepThree, bitReg_setFldReg _ _ (by decide), bitReg_setFldReg _ _ (by decide), bitReg_setFldReg _ _ (by decide)]
  constructor
  · rw [if_neg (by decide), if_pos rfl]
    by_cases hf : sf = 0
    · rw [if_pos hf, decide_eq_true hf]; rfl
    · rw [if_neg hf, decide_eq_false hf]; rfl
  · rw [if_pos rfl]
    by_cases hf : lf = 0
    · rw [if_pos hf, decide_eq_true hf]; rfl
    · rw [if_neg hf, decide_eq_false hf]; rfl

/-- Step 3 ends in FAILED, or each link offers the full rate. -/
def State.endThree (s : State) (sf : BitVec 8) (lf : BitVec 32) : State :=
  if sf ≠ 0 ∨ lf ≠ 0 then s.fail else (List.range 96).foldl (fun (s : State) l => s.offerRate l) (s.uartLine 3)

/-- The end of step 3 moves the stage, and leaves what the training did. -/
theorem endThree_leaves (h3 : s.stage = 3) (h : s.heldReset = false) (sf : BitVec 8) (lf : BitVec 32) :
    (s.endThree sf lf).stage = (if sf = 0 ∧ lf = 0 then 3 else 0xF) ∧
    (∀ i < 28, (s.endThree sf lf).bitReg rSvc i = s.bitReg rSvc i) ∧ (s.endThree sf lf).reg rIlv = s.reg rIlv ∧
    (s.endThree sf lf).mem = s.mem ∧ (s.endThree sf lf).fieldRows = s.fieldRows := by
  rw [State.endThree]
  by_cases hf : sf ≠ 0 ∨ lf ≠ 0
  · rw [if_pos hf, if_neg (by tauto), fail_eq h]
    exact ⟨setStage_stage _ (by decide), fun i hi => setStage_bitReg _ _ hi, setStage_reg _ _ (by decide) (by decide),
      setStage_same _ _ State.mem, setStage_same _ _ State.fieldRows⟩
  · rw [if_neg hf, if_pos (by tauto)]
    have hoffers := OnLinks.foldl offerRate_onLinks (List.range 96) (s.uartLine 3)
    exact ⟨(hoffers.same State.stage).trans h3, fun i _ => hoffers.same (fun t => t.bitReg rSvc i), hoffers.same (fun t => t.reg rIlv),
      hoffers.same State.mem, hoffers.same State.fieldRows⟩

theorem stackTraining_eq (h3 : s.stage = 3) (h19 : s.bitReg rSvc 19 = false) (h20 : s.bitReg rSvc 20 = false) (sf : BitVec 8)
    (lf : BitVec 32) : s.stackTraining sf lf = ((s.trained sf lf).stepThree sf lf).endThree sf lf := by
  have hin : ¬ (s.stage ≠ 3 ∨ s.bitReg rSvc 19 = true ∨ s.bitReg rSvc 20 = true) := by simp [h3, h19, h20]
  unfold State.stackTraining
  extract_lets s0 s1 s2 s3 s4 s5 s6 s7
  have hcopy : s3 = s.rowsTaken.copied 16777216 := rfl
  have hst : s4 = s3.stFailed sf := rfl
  have hend : s7 = (s.trained sf lf).stepThree sf lf := by
    unfold s7 s6 s5
    rw [hst, hcopy, State.stepThree, State.trained]
  rw [if_neg hin, hend, State.endThree]

theorem mem_rows (s : State) (x : Repair) : x ∈ s.repairs.filter Repair.isRow ↔ x ∈ s.repairs ∧ ∃ st b r, x = .row st b r := by
  rw [List.mem_filter]
  cases x <;> simp [Repair.isRow]

theorem stackTraining_leaves (h3 : s.stage = 3) (h19 : s.bitReg rSvc 19 = false) (h20 : s.bitReg rSvc 20 = false) (h : s.heldReset = false)
    (sf : BitVec 8) (lf : BitVec 32) : (s.stackTraining sf lf).reg rIlv = BitVec.ofNat 32 s.ilvSet ∧
    (s.stackTraining sf lf).bitReg rSvc 19 = decide (sf = 0) ∧ (s.stackTraining sf lf).bitReg rSvc 20 = decide (lf = 0) ∧
    (s.stackTraining sf lf).stage = (if sf = 0 ∧ lf = 0 then 3 else 0xF) ∧
    (∀ x, x ∈ (s.stackTraining sf lf).fieldRows ↔ x ∈ s.repairs ∧ ∃ st b r, x = .row st b r) ∧
    ∀ a, stagingBase ≤ a → a < 0x20000000000 → (s.stackTraining sf lf).word a = s.word a := by
  have hstored := trained_stored s sf lf
  have hword (a : Nat) := trained_word s sf lf (a := a)
  rw [stackTraining_eq h3 h19 h20]
  generalize s.trained sf lf = u at hstored hword ⊢
  have hsvc : u.stage = 3 := (congrArg (fld · 28 4) ((hstored.reg plainReg_svc).trans (State.reg_setReg_ne _ _ _ _ (by decide)))).trans h3
  obtain ⟨hheld', hstage', hilv', hmem', hrows'⟩ := stepThree_same u sf lf
  obtain ⟨hst, hlp⟩ := stepThree_done u sf lf
  obtain ⟨hstage, hbits, hilv, hmem, hrows⟩ := endThree_leaves (hstage'.trans hsvc) (hheld'.trans (hstored.heldReset.trans h)) sf lf
  refine ⟨(hilv.trans hilv').trans ?_, (hbits 19 (by decide)).trans hst, (hbits 20 (by decide)).trans hlp, hstage, fun x => ?_, fun a ha hb => ?_⟩
  · exact (hstored.reg plainReg_ilv).trans (State.reg_setReg _ _ _)
  · rw [hrows, hrows', hstored.fieldRows, ← mem_rows]
    rfl
  · rw [← hword a ha hb]
    exact word_of_bytes fun b _ => byte_of_mem (hmem.trans hmem') b

/-! ### Steps 4 and 5 -/

theorem linkStep_leaves (h3 : s.stage = 3) (h19 : s.bitReg rSvc 19 = true) (h20 : s.bitReg rSvc 20 = true) (h21 : s.bitReg rSvc 21 = false)
    (hl : ∀ l < 96, s.lk l ≠ 2 ∧ s.lk l ≠ 3 ∧ (s.lk l = 4 → (s.link l).full = true)) :
    s.linkStep.bitReg rSvc 21 = true ∧ s.linkStep.stage = 3 ∧
    (s.pins.perstN = true → s.linkStep.linkTrain = true ∧ s.linkStep.reg rLstat = 0) ∧ s.linkStep.cores = s.cores ∧ s.linkStep.mem = s.mem := by
  have hnone : ¬ (List.range 96).any s.linkWaits = true := by
    rw [List.any_eq_true]
    rintro ⟨l, hmem, hwait⟩
    obtain ⟨h2, h3, h4⟩ := hl l (List.mem_range.mp hmem)
    simp only [State.linkWaits, Bool.or_eq_true, Bool.and_eq_true, beq_iff_eq, Bool.not_eq_true', h2, h3, false_or] at hwait
    rw [h4 hwait.1] at hwait
    exact absurd hwait.2 (by decide)
  have hin : ¬ (s.stage ≠ 3 ∨ (!s.bitReg rSvc 19) = true ∨ (!s.bitReg rSvc 20) = true ∨ s.bitReg rSvc 21 = true ∨
      (List.range 96).any s.linkWaits = true) := by
    simp only [h3, h19, h20, h21, hnone, ne_eq, not_true_eq_false, Bool.not_true, Bool.false_eq_true, or_self, not_false_eq_true]
  have hsvc (t : State) (ht : t.reg rSvc = (s.setFldReg rSvc 21 1 1).reg rSvc) : t.bitReg rSvc 21 = true ∧ t.stage = 3 :=
    ⟨(congrArg (·.getLsbD 21) ht).trans (bitReg_setFldReg s rSvc (by decide) 1 21),
      (congrArg (fld · 28 4) ht).trans ((fldReg_setFldReg_ne s rSvc 1 (.inr (by decide))).trans h3)⟩
  rw [State.linkStep, if_neg hin]
  dsimp only
  by_cases hp : s.pins.perstN = true
  · have hpt : ((s.setFldReg rSvc 21 1 1).uartLine 4).pins.perstN = true := hp
    rw [if_pos hp]
    obtain ⟨h21', h3'⟩ := hsvc (((s.setFldReg rSvc 21 1 1).uartLine 4).retrainHost)
      (State.reg_setReg_ne ((s.setFldReg rSvc 21 1 1).uartLine 4) rLstat rSvc 0 (by decide))
    exact ⟨h21', h3', fun _ => ⟨rfl, State.reg_setReg ((s.setFldReg rSvc 21 1 1).uartLine 4) rLstat 0⟩, rfl, rfl⟩
  · rw [if_neg hp]
    obtain ⟨h21', h3'⟩ := hsvc ((s.setFldReg rSvc 21 1 1).uartLine 4) rfl
    exact ⟨h21', h3', fun h => absurd h hp, rfl, rfl⟩

end

section
variable {s t : State}

/-! ### Step 5 -/

/-- The reset values of the core pages. -/
theorem regReset_core {o : Nat} (h : 0x200000 ≤ o) (h' : o < 0x2C0000) : regReset o =
    if o % 0x1000 = 0x040 then 1 else if 0x400 ≤ o % 0x1000 ∧ (o % 0x1000 - 0x400) % 0x30 = 0 then 0x01000000 else 0 := by
  have hne {k : Nat} (hk : k < 0x200000) : o ≠ k := by omega
  have hle : ¬ o < 0x160000 := by omega
  unfold regReset
  rw [if_neg (hne (by decide)), if_neg (hne (by decide)), if_neg (hne (by decide)), if_neg (hne (by decide)),
    if_neg (not_or.mpr ⟨hne (by decide), hne (by decide)⟩), if_neg (not_or.mpr ⟨hne (by decide), hne (by decide)⟩), if_neg (hne (by decide)),
    if_neg (hne (by decide)), if_neg (hne (by decide)), if_neg (by omega), if_neg (fun e => hle e.2.1), if_neg (fun e => hle e.2.1), if_pos ⟨h, h'⟩]

theorem rScCtl_place {n e : Nat} (hn : n < 192) (he : e < 64) :
    0x200000 ≤ rScCtl n e ∧ rScCtl n e < 0x2C0000 ∧ rScCtl n e % 0x1000 = 0x400 + 0x30 * e := by
  simp only [rScCtl]
  omega

theorem rScAmax_place {n e : Nat} (hn : n < 192) (he : e < 64) :
    0x200000 ≤ rScAmax n e ∧ rScAmax n e < 0x2C0000 ∧ rScAmax n e % 0x1000 = 0x404 + 0x30 * e := by
  simp only [rScAmax]
  omega

/-- The scale tables are initialised in step 5. -/
theorem stepFiveReg_scale {o : Nat} (h : 0x200000 ≤ o) (h' : o < 0x2C0000) (h4 : 0x400 ≤ o % 0x1000) : stepFiveReg o = true := by
  rw [stepFiveReg, decide_eq_true h, decide_eq_true h', decide_eq_true h4]
  rfl

/-- Every core of a list starts at a clock step. -/
def State.atCeil (s : State) (k : Nat) (ns : List Nat) : State :=
  ns.foldl (fun (s : State) n => (s.rebase n).modCore n (fun c => { c with step := k })) s

/-- It moves the cores, and nothing else. -/
theorem atCeil_cores (s : State) (k : Nat) (ns : List Nat) : ∃ cores, s.atCeil k ns = { s with cores := cores } := by
  refine foldl_keeps (fun t => ∃ cores, t = { s with cores := cores }) _ (fun t n ht => ?_) ns s ⟨s.cores, rfl⟩
  obtain ⟨cores, rfl⟩ := ht
  exact ⟨_, rfl⟩

theorem atCeil_step (s : State) (k : Nat) {ns : List Nat} {n : Nat} (hn : n ∈ ns) : ((s.atCeil k ns).core n).step = k := by
  refine foldl_reaches (fun _ => True) (fun t => (t.core n).step = k) hn (fun _ _ _ => trivial) (fun t _ => ?_) (fun t m _ ht => ?_) s trivial
  · rw [State.core_modCore]
  · by_cases hm : n = m
    · rw [hm, State.core_modCore]
    · rwa [State.core_modCore_ne _ _ _ _ hm, State.rebase, State.core_modCore_ne _ _ _ _ hm]

/-- Step 5 initialises the scale tables, and is complete. -/
def State.stepFive (s : State) : State := ({ s with regs := s.regs.filter (fun e => !stepFiveReg e.1) }.setFldReg rSvc 22 1 1).uartLine 5

theorem stepFive_reg (s : State) {o : Nat} (h : stepFiveReg o = true) : s.stepFive.reg o = regReset o := by
  have hne : o ≠ rSvc := by
    rintro rfl
    exact absurd h (by decide)
  have hdrop : ¬ (!stepFiveReg o) = true := by rw [h]; decide
  exact (State.reg_setFldReg_ne _ rSvc 22 1 1 o hne).trans ((look_filter_keys _ (fun k => !stepFiveReg k) s.regs o).trans (if_neg hdrop))

/-- What stands after step 5. -/
theorem stepFive_leaves (s : State) : (s.stepFive.setStage 4).bitReg rSvc 22 = true ∧
    (s.stepFive.setStage 4).svcStop = some (s.usec - s.strapAt) ∧ (s.stepFive.setStage 4).core = s.core ∧
    (∀ n < 192, ∀ e < 64, (s.stepFive.setStage 4).reg (rScCtl n e) = 0x01000000 ∧ (s.stepFive.setStage 4).reg (rScAmax n e) = 0) ∧
    (s.stepFive.setStage 4).reg rLsCur = 16 ∧ (s.stepFive.setStage 4).mem = s.mem := by
  have hscale {o : Nat} (h : 0x200000 ≤ o) (h' : o < 0x2C0000) (h4 : 0x400 ≤ o % 0x1000) : (s.stepFive.setStage 4).reg o = regReset o := by
    have hne {k : Nat} (hk : k < 0x200000) : o ≠ k := by omega
    rw [setStage_reg _ _ (hne (by decide)) (hne (by decide)), stepFive_reg _ (stepFiveReg_scale h h' h4)]
  refine ⟨?_, setStage_svcStop _, setStage_same _ 4 State.core, fun n hn e he => ⟨?_, ?_⟩, ?_, setStage_same _ 4 State.mem⟩
  · rw [setStage_bitReg _ _ (by decide)]
    exact bitReg_setFldReg _ rSvc (by decide) 1 22
  · obtain ⟨hlo, hhi, hmod⟩ := rScCtl_place hn he
    rw [hscale hlo hhi (by omega), regReset_core hlo hhi, if_neg (by omega), if_pos (by omega)]
  · obtain ⟨hlo, hhi, hmod⟩ := rScAmax_place hn he
    rw [hscale hlo hhi (by omega), regReset_core hlo hhi, if_neg (by omega), if_neg (by omega)]
  · rw [setStage_reg _ _ (by decide) (by decide), stepFive_reg _ (by decide)]
    decide

theorem glazeReached_eq (h3 : s.stage = 3) (h21 : s.bitReg rSvc 21 = true) :
    s.glazeReached = ((s.atCeil (s.fldReg rPyDvfs 5 5) (List.range 192)).stepFive.setStage 4).heldTake := by
  have hin : ¬ (s.stage ≠ 3 ∨ (!s.bitReg rSvc 21) = true) := by simp [h3, h21]
  rw [State.glazeReached, if_neg hin, State.stepFive, State.atCeil]

theorem glazeReached_leaves (h3 : s.stage = 3) (h21 : s.bitReg rSvc 21 = true) (h : s.heldReset = false) :
    s.glazeReached.stage = 4 ∧ s.glazeReached.bitReg rSvc 22 = true ∧ s.glazeReached.svcStop = some (s.usec - s.strapAt) ∧
    (∀ n < 192, (s.glazeReached.core n).step = s.fldReg rPyDvfs 5 5) ∧
    (∀ n < 192, ∀ e < 64, s.glazeReached.reg (rScCtl n e) = 0x01000000 ∧ s.glazeReached.reg (rScAmax n e) = 0) ∧
    s.glazeReached.reg rLsCur = 16 ∧ s.glazeReached.mem = s.mem := by
  have hstep (n : Nat) (hn : n < 192) := atCeil_step s (s.fldReg rPyDvfs 5 5) (List.mem_range.mpr hn)
  obtain ⟨cores, e⟩ := atCeil_cores s (s.fldReg rPyDvfs 5 5) (List.range 192)
  rw [glazeReached_eq h3 h21]
  rw [e] at hstep ⊢
  obtain ⟨h22, hstop, hcore, hscales, hloss, hmem⟩ := stepFive_leaves { s with cores := cores }
  rw [heldTake_none ((setStage_same (State.stepFive { s with cores := cores }) 4 State.heldReset).trans h)]
  refine ⟨setStage_stage _ (by decide), h22, hstop, fun n hn => ?_, hscales, hloss, hmem⟩
  rw [hcore, hstep n hn]

/-- Settles O22: what each of the five steps leaves. -/
theorem bringUpSteps : Obligations.BringUpSteps := by
  unfold Obligations.BringUpSteps
  intro s hon h
  refine ⟨fun f h1 h16 => ⟨_, command_on (fun s => s.bisqueReached f) s hon, bisqueReached_leaves h1 h16 h f⟩, fun h2 h0 => ?_,
    fun sf lf h3 h19 h20 => ⟨_, command_on (fun s => s.stackTraining sf lf) s hon, stackTraining_leaves h3 h19 h20 h sf lf⟩,
    fun h3 h19 h20 h21 hl => ⟨_, command_on _ s hon, linkStep_leaves h3 h19 h20 h21 hl⟩,
    fun h3 h21 => ⟨_, command_on _ s hon, glazeReached_leaves h3 h21 h⟩⟩
  obtain ⟨t, ht, e⟩ := imageRead_booted h2 h0
  have hrun : exec .imageRead s = .next s.imageRead := command_on State.imageRead s hon
  refine ⟨_, hrun.trans (congrArg _ e), ?_⟩
  cases s.bootOrder.find? (fun b => s.slotStatus b == 0) with
  | none => exact booted_none (ht.heldReset.trans h)
  | some b => exact booted_some t b

end

end Sys2Proof.Machine

/-! # The resets of parts of the module -/

namespace Sys2Proof.Machine
open Sys2Proof.Laws Sys2Proof.Safety

/-! ### What a compute reset leaves as it is -/

/-- A compute reset leaves memory, power, the host's accesses that wait and GLOBAL_SVC, and no error lies in a table. -/
structure ResetKept (a t : State) : Prop where
  mem : t.mem = a.mem
  power : t.power = a.power
  bursts : t.bursts = a.bursts
  upsets : t.upsets = []
  svc : t.reg rSvc = a.reg rSvc

/-- Beside those, the reset of core n leaves the other cores that hold nothing, and the registers outside its page. -/
structure CoreResetKept (n : Nat) (a t : State) : Prop extends ResetKept a t where
  core : ∀ k ≠ n, (a.core k).hold = none → t.core k = a.core k
  reg : ∀ o, o / 0x1000 ≠ 0x200 + n → t.reg o = a.reg o

section
variable {a s t : State} {n : Nat}

theorem CoreResetKept.refl (h : s.upsets = []) : CoreResetKept n s s := ⟨⟨rfl, rfl, rfl, h, rfl⟩, fun _ _ _ => rfl, fun _ _ => rfl⟩

/-- A step that moves neither cores nor registers. -/
theorem CoreResetKept.same (h : CoreResetKept n a s) (hcores : t.cores = s.cores := by rfl) (hregs : t.regs = s.regs := by rfl)
    (hmem : t.mem = s.mem := by rfl) (hpower : t.power = s.power := by rfl) (hbursts : t.bursts = s.bursts := by rfl)
    (hupsets : t.upsets = s.upsets := by rfl) : CoreResetKept n a t := by
  have hreg (o : Nat) : t.reg o = s.reg o := by rw [State.reg, hregs, State.reg]
  have hcore (k : Nat) : t.core k = s.core k := by rw [State.core, hcores, State.core]
  exact ⟨⟨hmem.trans h.mem, hpower.trans h.power, hbursts.trans h.bursts, hupsets.trans h.upsets, (hreg _).trans h.svc⟩,
    fun k hk hold => (hcore k).trans (h.core k hk hold), fun o ho => (hreg o).trans (h.reg o ho)⟩

theorem CoreResetKept.ite {c : Prop} [Decidable c] (hs : CoreResetKept n a s) (ht : CoreResetKept n a t) :
    CoreResetKept n a (if c then s else t) := by
  split
  · exact hs
  · exact ht

theorem CoreResetKept.setCore {c : Core} (h : CoreResetKept n a s) : CoreResetKept n a (s.setCore n c) :=
  ⟨⟨h.mem, h.power, h.bursts, h.upsets, h.svc⟩, fun k hk hold => (s.core_setCore_ne n k c hk).trans (h.core k hk hold), h.reg⟩

theorem CoreResetKept.modCore {f : Core → Core} (h : CoreResetKept n a s) : CoreResetKept n a (s.modCore n f) := h.setCore

theorem CoreResetKept.setReg {o : Nat} {v : W32} (h : CoreResetKept n a s) (ho : o / 0x1000 = 0x200 + n) : CoreResetKept n a (s.setReg o v) := by
  have hne (p : Nat) (hp : p / 0x1000 ≠ 0x200 + n) : p ≠ o := fun e => hp (e ▸ ho)
  exact ⟨⟨h.mem, h.power, h.bursts, h.upsets, (State.reg_setReg_ne s o rSvc v (hne _ (by simp only [rSvc]; omega))).trans h.svc⟩, h.core,
    fun p hp => (State.reg_setReg_ne s o p v (hne p hp)).trans (h.reg p hp)⟩

theorem CoreResetKept.orRise {old : State} (h : CoreResetKept n a s) : CoreResetKept n a (State.orRise old s) := by
  have hmsix : CoreResetKept n a (s.msix 0) := .ite h.same h.same
  exact .ite hmsix h

theorem CoreResetKept.withIrq {f : State → State} (h : CoreResetKept n a (f s)) : CoreResetKept n a (withIrq (.core n) f s) :=
  (h.setReg (by simp only [pageBase, oIrq]; omega)).orRise

theorem CoreResetKept.addSum {k v : Nat} (h : CoreResetKept n a s) : CoreResetKept n a (s.addSum k v) := h.same
theorem CoreResetKept.setSem {k : Nat} {q : Sem} (h : CoreResetKept n a s) : CoreResetKept n a (s.setSem k q) := h.same
theorem CoreResetKept.setCtx {b : Nat} {c : Ctx} (h : CoreResetKept n a s) : CoreResetKept n a (s.setCtx b c) := h.same
theorem CoreResetKept.readSem {k : Nat} (h : CoreResetKept n a s) : CoreResetKept n a (s.readSem k) := by rwa [State.readSem_none s k h.upsets]
theorem CoreResetKept.readCtx {b : Nat} (h : CoreResetKept n a s) : CoreResetKept n a (s.readCtx b) := by rwa [State.readCtx_none s b h.upsets]

theorem CoreResetKept.gate (h : CoreResetKept n a s) : CoreResetKept n a (s.gate n) := by
  unfold State.gate
  dsimp only
  split
  · exact h.modCore.addSum
  · exact h.modCore

/-- A core that holds something is none of those that are left as they are. -/
theorem CoreResetKept.modHeld {m : Nat} {f : Core → Core} (h : CoreResetKept n a s) (hm : (s.core m).hold ≠ none) :
    CoreResetKept n a (s.modCore m f) := by
  refine ⟨⟨h.mem, h.power, h.bursts, h.upsets, h.svc⟩, fun k hk hold => ?_, h.reg⟩
  have hne : k ≠ m := by
    rintro rfl
    exact hm ((h.core k hk hold).symm ▸ hold)
  rw [State.core_modCore_ne _ _ _ _ hne, h.core k hk hold]

theorem CoreResetKept.wake {m : Nat} (h : CoreResetKept n a s) (hm : m = n ∨ (s.core m).hold ≠ none) : CoreResetKept n a (s.wake m) := by
  have hmod : CoreResetKept n a (s.modCore m fun c => { c with gated := false, gheld := false }) := by
    rcases hm with rfl | hm
    · exact h.modCore
    · exact h.modHeld hm
  unfold State.wake
  dsimp only
  split
  · exact hmod.addSum
  · exact hmod

theorem wake_hold (s : State) (m : Nat) : ((s.wake m).core m).hold = (s.core m).hold := by
  have hmod : ((s.modCore m fun c => { c with gated := false, gheld := false }).core m).hold = (s.core m).hold := by rw [State.core_modCore]
  unfold State.wake
  dsimp only
  split
  · exact hmod
  · exact hmod

/-- A wait that ends is that of a core that holds it. -/
theorem CoreResetKept.releaseCore {m : Nat} (h : CoreResetKept n a s) : CoreResetKept n a (s.releaseCore m) := by
  unfold State.releaseCore
  split
  · next hold =>
    have hm : (s.core m).hold ≠ none := by rw [hold]; exact Option.some_ne_none _
    exact (h.wake (.inr hm)).modHeld (by rwa [wake_hold])
  · exact h

theorem CoreResetKept.foldl {α : Type} {f : State → α → State} {xs : List α} (h : CoreResetKept n a s)
    (hf : ∀ t x, CoreResetKept n a t → CoreResetKept n a (f t x)) : CoreResetKept n a (xs.foldl f s) := foldl_keeps (CoreResetKept n a) f hf xs s h

theorem CoreResetKept.semStore {k : Nat} {q : Sem} (h : CoreResetKept n a s) : CoreResetKept n a (s.semStore k q) := by
  have hset : CoreResetKept n a (s.setSem k q.serve.1) := h.setSem
  have hover : CoreResetKept n a ((s.setSem k q.serve.1).over (fun x => x == .sem k)) := by rwa [State.over_none _ _ hset.upsets]
  exact hover.foldl fun _ _ ht => ht.releaseCore

theorem CoreResetKept.withdraw (h : CoreResetKept n a s) : CoreResetKept n a (s.withdraw n) := by
  unfold State.withdraw
  split
  · exact (h.readSem.wake (.inl rfl)).modCore.semStore
  · exact (h.readCtx.wake (.inl rfl)).modCore.setCtx
  · exact h

theorem CoreResetKept.clearTask {m : Nat} (h : CoreResetKept n a s) : CoreResetKept n a (s.clearTask m) :=
  .ite (h.foldl fun _ _ ht => ht.readSem.setSem) h

theorem CoreResetKept.timed {task : Task} (h : CoreResetKept n a s) : CoreResetKept n a (s.timed n task).1 := by
  unfold State.timed
  split
  · exact h
  · exact h.same

theorem CoreResetKept.closeTask (h : CoreResetKept n a s) : CoreResetKept n a (s.closeTask n) := by
  unfold State.closeTask
  split
  · exact h
  · exact .ite h h.timed.modCore

theorem CoreResetKept.closeEnded (h : CoreResetKept n a s) : CoreResetKept n a (s.closeEnded n) := by
  have hfold (ts : List Task) (p : State × List Task) (hp : CoreResetKept n a p.1) : CoreResetKept n a (ts.foldl
      (fun (p : State × List Task) t => if t.elapsed.isSome then (p.1, p.2 ++ [t]) else ((p.1.timed n t).1, p.2 ++ [(p.1.timed n t).2])) p).1 := by
    induction ts generalizing p with
    | nil => exact hp
    | cons t ts ih =>
      refine ih _ ?_
      dsimp only
      split
      · exact hp
      · exact hp.timed
  exact .ite h (hfold _ (s, []) h).modCore

theorem CoreResetKept.settleCore (h : CoreResetKept n a s) : CoreResetKept n a (s.settleCore n) := .ite h.closeTask.closeEnded.gate h.closeTask.closeEnded

/-- The reset of core n leaves what is not its own. -/
theorem CoreResetKept.resetCore (h : CoreResetKept n a s) : CoreResetKept n a (s.resetCore n) := by
  unfold State.resetCore
  extract_lets t c s1 s2 gone s3 pc after s4 s5
  have h1 : CoreResetKept n a s1 := by
    unfold s1
    split
    · exact .ite h.settleCore h.settleCore.addSum
    · exact h.settleCore
  have h2 : CoreResetKept n a s2 := h1.modCore.withdraw
  have h4 : CoreResetKept n a s4 := (CoreResetKept.clearTask h2.same).setCore
  have h5 : CoreResetKept n a s5 := (h4.setReg (by simp only [pageBase, oErr]; omega)).withIrq
  exact ((h5.setReg (by simp only [rStopinfo]; omega)).setReg (by simp only [rNf]; omega)).setReg (by simp only [rRun]; omega)

/-! ### What it leaves of a core -/

/-- A core held in reset, with nothing of what it did. -/
structure Core.Cleared (c : Core) : Prop where
  resetting : c.resetting = true
  dst : c.dst = .off
  hold : c.hold = none
  setter : c.setter = []
  fops : c.fops = []
  blocks : c.blocks = []
  task : c.task = none

theorem resetCore_core (s : State) (n : Nat) : ∃ c pc ended, (s.resetCore n).core n = { Core.afterReset c pc with ended := ended } := by
  unfold State.resetCore
  extract_lets t c s1 s2 gone s3 pc after s4 s5
  have h4 : s4.core n = { c.afterReset pc with ended := c.ended ++ (c.task.map Task.byReset).toList } := State.core_setCore _ _ _
  have h5 : s5.core n = s4.core n := (withIrq_aside (.core n) (fun (s : State) => s.setReg (pageBase (.core n) + oErr) 0) s4).same (fun t => t.core n)
  exact ⟨c, pc, _, h5.trans h4⟩

theorem resetCore_run (s : State) (n : Nat) : (s.resetCore n).bitReg (rRun n) 0 = true := bitReg_setFldReg _ (rRun n) (by decide) 1 0

theorem ResetKept.trans {u : State} (h : ResetKept s t) (g : ResetKept t u) : ResetKept s u :=
  ⟨g.mem.trans h.mem, g.power.trans h.power, g.bursts.trans h.bursts, g.upsets, g.svc.trans h.svc⟩

theorem ResetKept.refl (h : s.upsets = []) : ResetKept s s := ⟨rfl, rfl, rfl, h, rfl⟩

/-- A core reset without a record of what it ended. -/
def State.clearCore (s : State) (n : Nat) : State := (s.resetCore n).modCore n (fun c => { c with ended := [] })

theorem clearCore_kept (h : s.upsets = []) (n : Nat) : CoreResetKept n s (s.clearCore n) := (CoreResetKept.refl h).resetCore.modCore

theorem clearCore_cleared (s : State) (n : Nat) : ((s.clearCore n).core n).Cleared ∧ (s.clearCore n).bitReg (rRun n) 0 = true := by
  obtain ⟨c, pc, ended, hc⟩ := resetCore_core s n
  refine ⟨?_, resetCore_run s n⟩
  rw [State.clearCore, State.core_modCore, hc]
  exact ⟨rfl, rfl, rfl, rfl, rfl, rfl, rfl⟩

theorem clearCores_kept (h : s.upsets = []) (ns : List Nat) : ResetKept s (ns.foldl State.clearCore s) :=
  foldl_keeps (ResetKept s) _ (fun _ n ht => ht.trans (clearCore_kept ht.upsets n).toResetKept) ns s (.refl h)

/-- Each core of a list is cleared, and stays so while others are. -/
theorem clearCores_cleared (h : s.upsets = []) {ns : List Nat} (hn : n ∈ ns) :
    ((ns.foldl State.clearCore s).core n).Cleared ∧ (ns.foldl State.clearCore s).bitReg (rRun n) 0 = true := by
  refine foldl_reaches (fun t => t.upsets = []) (fun t => (t.core n).Cleared ∧ t.bitReg (rRun n) 0 = true) hn
    (fun t m ht => (clearCore_kept ht m).upsets) (fun t _ => clearCore_cleared t n) (fun t m ht hP => ?_) s h
  by_cases hm : n = m
  · exact hm ▸ clearCore_cleared t n
  · obtain ⟨hclear, hrun⟩ := hP
    have hkept := clearCore_kept ht m
    rw [hkept.core n hm hclear.hold, State.bitReg, hkept.reg (rRun n) (by simp only [rRun]; omega)]
    exact ⟨hclear, hrun⟩

/-! ### The Scarab, the Comb and the Pugmills -/

/-- The resets of the engines leave the cores and their RUN registers, too. -/
structure EngineResetKept (a t : State) : Prop extends ResetKept a t where
  cores : t.cores = a.cores
  run : ∀ n, t.reg (rRun n) = a.reg (rRun n)

theorem EngineResetKept.refl (h : s.upsets = []) : EngineResetKept s s := ⟨.refl h, rfl, fun _ => rfl⟩

theorem EngineResetKept.same (h : EngineResetKept a s) (hcores : t.cores = s.cores := by rfl) (hregs : t.regs = s.regs := by rfl)
    (hmem : t.mem = s.mem := by rfl) (hpower : t.power = s.power := by rfl) (hbursts : t.bursts = s.bursts := by rfl)
    (hupsets : t.upsets = s.upsets := by rfl) : EngineResetKept a t := by
  have hreg (o : Nat) : t.reg o = s.reg o := by rw [State.reg, hregs, State.reg]
  exact ⟨⟨hmem.trans h.mem, hpower.trans h.power, hbursts.trans h.bursts, hupsets.trans h.upsets, (hreg _).trans h.svc⟩,
    hcores.trans h.cores, fun n => (hreg _).trans (h.run n)⟩

theorem EngineResetKept.setFldReg {o lo len v : Nat} (h : EngineResetKept a s) (ho : o < 0x200000) (hsvc : o ≠ rSvc) :
    EngineResetKept a (s.setFldReg o lo len v) :=
  ⟨⟨h.mem, h.power, h.bursts, h.upsets, (State.reg_setFldReg_ne s o lo len v rSvc hsvc.symm).trans h.svc⟩, h.cores,
    fun n => (State.reg_setFldReg_ne s o lo len v (rRun n) (by simp only [rRun]; omega)).trans (h.run n)⟩

theorem EngineResetKept.foldl {α : Type} {f : State → α → State} {xs : List α} (h : EngineResetKept a s)
    (hf : ∀ t x, EngineResetKept a t → EngineResetKept a (f t x)) : EngineResetKept a (xs.foldl f s) :=
  foldl_keeps (EngineResetKept a) f hf xs s h

theorem EngineResetKept.scarabReset (h : EngineResetKept a s) : EngineResetKept a s.scarabReset := .foldl h.same fun _ _ ht => ht.same

/-- A barrier context disarmed, with GEN 0. -/
def State.resetCtx (s : State) (b : Nat) : State :=
  (((s.setCtx b { Ctx.reset with mark := (s.ctx b).mark, wr := (s.ctx b).wr }).setFldReg (rBctl b) 31 1 0).setFldReg (rBctl b) 28 1 0).setFldReg
    (rBgen b) 0 16 0

/-- A semaphore at zero, its mark left. -/
def State.resetSem (s : State) (k : Nat) : State := s.setSem k { Sem.reset with mark := (s.sem k).mark }

theorem EngineResetKept.resetCtx {b : Nat} (h : EngineResetKept a s) (hb : b < 64) : EngineResetKept a (s.resetCtx b) := by
  have hset : EngineResetKept a (s.setCtx b { Ctx.reset with mark := (s.ctx b).mark, wr := (s.ctx b).wr }) := h.same
  have hctl : rBctl b < 0x200000 ∧ rBctl b ≠ rSvc := by
    simp only [rBctl, rSvc]
    omega
  have hgen : rBgen b < 0x200000 ∧ rBgen b ≠ rSvc := by
    simp only [rBgen, rSvc]
    omega
  exact ((hset.setFldReg hctl.1 hctl.2).setFldReg hctl.1 hctl.2).setFldReg hgen.1 hgen.2

/-- What every step of a fold over the elements of its list keeps, the fold keeps. -/
theorem foldl_keeps_mem {α : Type} (P : State → Prop) {f : State → α → State} {xs : List α} (hf : ∀ s, ∀ x ∈ xs, P s → P (f s x)) (s : State)
    (h : P s) : P (xs.foldl f s) := by
  induction xs generalizing s with
  | nil => exact h
  | cons x xs ih => exact ih (fun s y hy => hf s y (List.mem_cons_of_mem x hy)) _ (hf s x List.mem_cons_self h)

/-- The Comb's semaphores and contexts reset. -/
def State.combCleared (s : State) : State := (List.range 64).foldl State.resetCtx ((s.sems.map (·.1)).foldl State.resetSem s)

/-- The state with other resolutions that wait. -/
def State.withResolving (s : State) (rs : List Resolving) : State := { s with resolving := rs }

theorem EngineResetKept.withResolving {rs : List Resolving} (h : EngineResetKept a s) : EngineResetKept a (s.withResolving rs) := h.same
theorem sem_withResolving (s : State) (rs : List Resolving) (k : Nat) : (s.withResolving rs).sem k = s.sem k := rfl
theorem ctx_withResolving (s : State) (rs : List Resolving) (b : Nat) :
    (s.withResolving rs).bEn b = s.bEn b ∧ (s.withResolving rs).bGen b = s.bGen b := ⟨rfl, rfl⟩

theorem combReset_eq (h : s.upsets = []) : ∃ rs, s.combReset = s.combCleared.withResolving rs := by
  have hover : s.combCleared.upsets = [] :=
    (foldl_same State.upsets State.resetCtx (fun _ _ => rfl) _ _).trans ((foldl_same State.upsets State.resetSem (fun _ _ => rfl) _ s).trans h)
  refine ⟨s.combCleared.resolving.filter (fun r => r.ctx.isNone), ?_⟩
  unfold State.combReset
  extract_lets r s1 rc s2 u
  have hs2 : s2 = s.combCleared := rfl
  have hu : u = s.combCleared := by
    unfold u
    rw [hs2, State.over_none _ _ hover]
  rw [hu, hs2, State.withResolving]

theorem EngineResetKept.combReset (h : EngineResetKept a s) : EngineResetKept a s.combReset := by
  have hsems : EngineResetKept a ((s.sems.map (·.1)).foldl State.resetSem s) := h.foldl fun _ _ ht => ht.same
  have hctxs : EngineResetKept a s.combCleared :=
    foldl_keeps_mem (EngineResetKept a) (fun _ _ hb ht => ht.resetCtx (List.mem_range.mp hb)) _ hsems
  obtain ⟨rs, e⟩ := combReset_eq h.upsets
  rw [e]
  exact hctxs.withResolving

theorem EngineResetKept.pugmillReset (h : EngineResetKept a s) : EngineResetKept a s.pugmillReset := by
  have hjobs : EngineResetKept a ((s.jobs.map (·.1)).foldl State.jobClose s) := h.foldl fun _ _ ht => ht.same
  exact hjobs.foldl fun _ _ ht => ht.same

/-- A semaphore with no count and no waiters. -/
def Sem.Cleared (q : Sem) : Prop := q.count = 0 ∧ q.fifo = [] ∧ q.waits = []

theorem resetSem_cleared (s : State) (k : Nat) : ((s.resetSem k).sem k).Cleared := by
  rw [State.resetSem, State.sem_setSem]
  exact ⟨rfl, rfl, rfl⟩

theorem resetSems_cleared (s : State) (k : Nat) : (((s.sems.map (·.1)).foldl State.resetSem s).sem k).Cleared := by
  have hkeep (t : State) (j : Nat) (ht : (t.sem k).Cleared) : ((t.resetSem j).sem k).Cleared := by
    by_cases hj : k = j
    · exact hj ▸ resetSem_cleared t k
    · rwa [State.resetSem, State.sem_setSem_ne _ _ _ _ hj]
  by_cases hk : s.sem k = Sem.reset
  · exact foldl_keeps (fun t => (t.sem k).Cleared) _ hkeep _ s (hk ▸ ⟨rfl, rfl, rfl⟩)
  · have hmem : k ∈ s.sems.map (·.1) := List.mem_map.mpr ⟨_, mem_of_look_ne _ _ _ hk, rfl⟩
    exact foldl_reaches (fun _ => True) (fun t => (t.sem k).Cleared) hmem (fun _ _ _ => trivial) (fun t _ => resetSem_cleared t k)
      (fun t j _ ht => hkeep t j ht) s trivial

theorem resetCtx_disarmed (s : State) (b : Nat) : (s.resetCtx b).bEn b = false ∧ (s.resetCtx b).bGen b = 0 := by
  constructor
  · rw [State.bEn, State.bitReg, State.resetCtx, State.reg_setFldReg_ne _ _ _ _ _ _ (by simp only [rBctl, rBgen]; omega)]
    refine (bitReg_setFldReg _ (rBctl b) (by decide) 0 31).trans ?_
    rw [if_neg (by decide)]
    exact bitReg_setFldReg _ (rBctl b) (by decide) 0 31
  · rw [State.bGen, State.fldReg, State.resetCtx, State.setFldReg, State.reg_setReg, fld_setFld_same _ _ (by decide)]
    decide

theorem resetCtx_others (s : State) {b c : Nat} (h : b ≠ c) : (s.resetCtx c).bEn b = s.bEn b ∧ (s.resetCtx c).bGen b = s.bGen b := by
  have hreg (o : Nat) (hctl : o ≠ rBctl c) (hgen : o ≠ rBgen c) : (s.resetCtx c).reg o = s.reg o := by
    rw [State.resetCtx, State.reg_setFldReg_ne _ _ _ _ _ _ hgen, State.reg_setFldReg_ne _ _ _ _ _ _ hctl, State.reg_setFldReg_ne _ _ _ _ _ _ hctl]
    rfl
  exact ⟨congrArg (·.getLsbD 31) (hreg (rBctl b) (by simp only [rBctl]; omega) (by simp only [rBctl, rBgen]; omega)),
    congrArg (fld · 0 16) (hreg (rBgen b) (by simp only [rBctl, rBgen]; omega) (by simp only [rBgen]; omega))⟩

theorem resetCtxs_disarmed (s : State) {bs : List Nat} {b : Nat} (hb : b ∈ bs) :
    (bs.foldl State.resetCtx s).bEn b = false ∧ (bs.foldl State.resetCtx s).bGen b = 0 := by
  refine foldl_reaches (fun _ => True) (fun t => t.bEn b = false ∧ t.bGen b = 0) hb (fun _ _ _ => trivial) (fun t _ => resetCtx_disarmed t b)
    (fun t c _ ht => ?_) s trivial
  by_cases hc : b = c
  · exact hc ▸ resetCtx_disarmed t b
  · rwa [(resetCtx_others t hc).1, (resetCtx_others t hc).2]

theorem combCleared_sem (s : State) (k : Nat) : (s.combCleared.sem k).Cleared := by
  rw [State.combCleared, foldl_same (fun u => u.sem k) State.resetCtx (fun _ _ => rfl)]
  exact resetSems_cleared s k

theorem combCleared_ctx (s : State) {b : Nat} (hb : b < 64) : s.combCleared.bEn b = false ∧ s.combCleared.bGen b = 0 := by
  rw [State.combCleared]
  exact resetCtxs_disarmed _ (List.mem_range.mpr hb)

theorem combReset_cleared (h : s.upsets = []) : (∀ k, (s.combReset.sem k).Cleared) ∧ ∀ b < 64, s.combReset.bEn b = false ∧ s.combReset.bGen b = 0 := by
  obtain ⟨rs, e⟩ := combReset_eq h
  refine ⟨fun k => ?_, fun b hb => ?_⟩
  · rw [e, sem_withResolving]
    exact combCleared_sem s k
  · rw [e, (ctx_withResolving _ rs b).1, (ctx_withResolving _ rs b).2]
    exact combCleared_ctx s hb

end

section
variable {a s t : State} {n : Nat}

theorem pugmillReset_same {α : Type} (s : State) (p : State → α) (hj : ∀ t j, p (t.jobClose j) = p t) (he : ∀ t e, p (t.swarmDisable e) = p t) :
    p s.pugmillReset = p s := (foldl_same p _ he _ _).trans (foldl_same p _ hj _ s)

theorem scarabReset_res (s : State) : s.scarabReset.res = [] := by
  rw [State.scarabReset, foldl_same State.res _ (by intros; rfl)]

theorem combCleared_res (s : State) : s.combCleared.res = s.res :=
  (foldl_same State.res State.resetCtx (fun _ _ => rfl) _ _).trans (foldl_same State.res State.resetSem (fun _ _ => rfl) _ s)

theorem res_withResolving (s : State) (rs : List Resolving) : (s.withResolving rs).res = s.res := rfl

/-- The Scarab, the Comb and the Pugmills reset. -/
def State.enginesReset (s : State) : State := s.scarabReset.combReset.pugmillReset

theorem EngineResetKept.enginesReset (h : EngineResetKept a s) : EngineResetKept a s.enginesReset := h.scarabReset.combReset.pugmillReset

/-- A state whose engines hold nothing. -/
def State.EnginesCleared (t : State) : Prop :=
  (∀ k, (t.sem k).count = 0 ∧ (t.sem k).fifo = [] ∧ (t.sem k).waits = []) ∧ (∀ b < 64, t.bEn b = false ∧ t.bGen b = 0) ∧ ∀ d, look 0 t.res d = 0

theorem enginesReset_cleared (h : s.upsets = []) : s.enginesReset.EnginesCleared := by
  have hup : s.scarabReset.upsets = [] := (EngineResetKept.refl h).scarabReset.upsets
  obtain ⟨hsem, hctx⟩ := combReset_cleared hup
  refine ⟨fun k => ?_, fun b hb => ?_, fun d => ?_⟩
  · rw [State.enginesReset, pugmillReset_same _ (fun t => t.sem k) (fun _ _ => rfl) (fun _ _ => rfl)]
    exact hsem k
  · rw [State.enginesReset, pugmillReset_same _ (fun t => t.bEn b) (fun _ _ => rfl) (fun _ _ => rfl),
      pugmillReset_same _ (fun t => t.bGen b) (fun _ _ => rfl) (fun _ _ => rfl)]
    exact hctx b hb
  · obtain ⟨rs, e⟩ := combReset_eq hup
    rw [State.enginesReset, pugmillReset_same _ State.res (fun _ _ => rfl) (fun _ _ => rfl), e, res_withResolving, combCleared_res, scarabReset_res]
    rfl

/-- A compute reset is complete: REFUSE and CF clear, and nothing of it is held. -/
def State.resetDone (s : State) : State := { (s.setFldReg rSctl 30 1 0).setFldReg rSctl 29 1 0 with heldReset := false, jtlb := [] }

theorem EngineResetKept.resetDone (h : EngineResetKept a s) : EngineResetKept a s.resetDone := by
  have hset : EngineResetKept a ((s.setFldReg rSctl 30 1 0).setFldReg rSctl 29 1 0) :=
    (h.setFldReg (by decide) (by decide)).setFldReg (by decide) (by decide)
  exact hset.same

theorem resetDone_engines (h : s.EnginesCleared) : s.resetDone.EnginesCleared := by
  obtain ⟨hsem, hctx, hres⟩ := h
  have hreg {o : Nat} (ho : o ≠ rSctl) : s.resetDone.reg o = s.reg o :=
    (State.reg_setFldReg_ne _ _ _ _ _ _ ho).trans (State.reg_setFldReg_ne s _ _ _ _ _ ho)
  refine ⟨hsem, fun b hb => ?_, hres⟩
  rw [State.bEn, State.bGen, State.bitReg, State.fldReg, hreg (by simp only [rBctl, rSctl]; omega), hreg (by simp only [rBgen, rSctl]; omega)]
  exact hctx b hb

theorem computeReset_eq (s : State) : s.computeReset = ((List.range 192).foldl State.clearCore s).enginesReset.resetDone := by
  unfold State.computeReset
  extract_lets s1 s2 u
  have h1 : s1 = (List.range 192).foldl State.clearCore s := rfl
  unfold u s2
  rw [h1, State.resetDone, State.enginesReset]

/-- A compute reset leaves every core reset and halted, the engines with nothing, and the rest as it was. -/
theorem computeReset_leaves (h : s.upsets = []) : ResetKept s s.computeReset ∧ s.computeReset.heldReset = false ∧
    (∀ n < 192, (s.computeReset.core n).Cleared ∧ s.computeReset.bitReg (rRun n) 0 = true) ∧ s.computeReset.EnginesCleared := by
  have hkept := clearCores_kept h (List.range 192)
  have hcores (n : Nat) (hn : n < 192) := clearCores_cleared h (List.mem_range.mpr hn)
  rw [computeReset_eq]
  generalize (List.range 192).foldl State.clearCore s = t at hkept hcores ⊢
  have hengines := (EngineResetKept.refl hkept.upsets).enginesReset.resetDone
  refine ⟨hkept.trans hengines.toResetKept, rfl, fun n hn => ?_, resetDone_engines (enginesReset_cleared hkept.upsets)⟩
  rw [State.core, hengines.cores, State.bitReg, hengines.run n]
  exact hcores n hn

end

/-! ### The host's resets -/

theorem mem_insertKey {α : Type} {i : Nat} {v : α} {m : Store α} {e : Nat × α} (h : e ∈ insertKey i v m) : e = (i, v) ∨ e ∈ m := by
  induction m with
  | nil => exact List.mem_cons.mp h
  | cons x r ih =>
    obtain ⟨k, w⟩ := x
    unfold insertKey at h
    split at h
    · exact List.mem_cons.mp h
    · rcases List.mem_cons.mp h with hx | hr
      · exact .inr (hx ▸ List.mem_cons_self)
      · exact (ih hr).imp_right (List.mem_cons_of_mem _)

/-- A write adds its own entry at most. -/
theorem mem_put {α : Type} [DecidableEq α] {d : α} {m : Store α} {i : Nat} {v : α} {e : Nat × α} (h : e ∈ put d m i v) : e = (i, v) ∨ e ∈ m := by
  unfold put at h
  split at h
  · exact .inr (List.mem_filter.mp h).1
  · exact (mem_insertKey h).imp_right fun he => (List.mem_filter.mp he).1

section
variable {s t : State} {i o : Nat}

/-- A register written with what it holds raises no interrupt. -/
theorem anyIrq_setReg_self (ho : o % 0x1000 = oIrq) (h : (s.setReg o (s.reg o)).anyIrq = true) : s.anyIrq = true := by
  obtain ⟨e, he, hx⟩ := List.any_eq_true.mp h
  rcases mem_put he with rfl | he
  · simp only [Bool.and_eq_true, decide_eq_true_eq] at hx
    exact State.anyIrq_of_reg s ho hx.2
  · exact List.any_eq_true.mpr ⟨e, he, hx⟩

theorem orRise_setReg_self (ho : o % 0x1000 = oIrq) : State.orRise s (s.setReg o (s.reg o)) = s.setReg o (s.reg o) := by
  refine if_neg fun h => ?_
  obtain ⟨hnew, hold⟩ := Bool.and_eq_true_iff.mp h
  rw [anyIrq_setReg_self ho hnew] at hold
  exact absurd hold (by decide)

/-- That DONE clears raises nothing. -/
theorem bpDone_clear (s : State) : withIrq .host (fun (s : State) => { s with bpDone := 0 }) s =
    { s with bpDone := 0 }.setReg (pageBase .host + oIrq) (s.reg (pageBase .host + oIrq)) := by
  have hraised : State.irqRaw { s with bpDone := 0 } .host &&& ~~~(s.irqRaw .host) = 0#32 := by
    have herr : State.fldReg { s with bpDone := 0 } (pageBase .host + oErr) 0 16 = s.fldReg (pageBase .host + oErr) 0 16 := rfl
    simp only [State.irqRaw, herr, ne_eq, not_true_eq_false, decide_false]
    clear herr
    generalize decide (¬ s.fldReg (pageBase .host + oErr) 0 16 = 0) = x
    generalize decide (¬ s.bpDone = 0) = y
    cases x <;> cases y <;> rfl
  unfold withIrq
  dsimp only
  rw [hraised, BitVec.zero_and, BitVec.or_zero]
  exact orRise_setReg_self (s := { s with bpDone := 0 }) (by decide)

/-- A Bulk Port disabled. -/
def State.portOff (s : State) (p : Nat) : State := s.setPort p { s.port p with ctl := setBit (s.port p).ctl 31 false }

theorem portOff_same (s : State) (p i : Nat) : ((s.portOff p).port i).addr = (s.port i).addr ∧ ((s.portOff p).port i).cnt = (s.port i).cnt := by
  by_cases hi : i = p
  · rw [hi, State.portOff, State.port_setPort]
    exact ⟨rfl, rfl⟩
  · rw [State.portOff, State.port, State.setPort, look_put_ne _ _ _ _ _ hi]
    exact ⟨rfl, rfl⟩

theorem portOff_self (s : State) (p : Nat) : ((s.portOff p).port p).ctl.getLsbD 31 = false := by
  rw [State.portOff, State.port_setPort]
  exact (getLsbD_setBit _ 31 31 false).trans (if_pos ⟨rfl, by decide⟩)

theorem portOff_off (s : State) (p : Nat) (h : (s.port i).ctl.getLsbD 31 = false) : ((s.portOff p).port i).ctl.getLsbD 31 = false := by
  by_cases hi : i = p
  · exact hi ▸ portOff_self s i
  · rwa [State.portOff, State.port, State.setPort, look_put_ne _ _ _ _ _ hi]

/-- Every Bulk Port disabled. -/
def State.portsOff (s : State) : State := (s.ports.map (·.1)).foldl State.portOff s

theorem portsOff_port (s : State) (i : Nat) : (s.portsOff.port i).ctl.getLsbD 31 = false ∧ (s.portsOff.port i).addr = (s.port i).addr ∧
    (s.portsOff.port i).cnt = (s.port i).cnt := by
  refine ⟨?_, foldl_same (fun t => (t.port i).addr) State.portOff (fun t p => (portOff_same t p i).1) _ s,
    foldl_same (fun t => (t.port i).cnt) State.portOff (fun t p => (portOff_same t p i).2) _ s⟩
  by_cases hi : s.port i = Port.reset
  · exact foldl_keeps (fun t => (t.port i).ctl.getLsbD 31 = false) _ (fun t p ht => portOff_off t p ht) _ s (hi ▸ rfl)
  · have hmem : i ∈ s.ports.map (·.1) := List.mem_map.mpr ⟨_, mem_of_look_ne _ _ _ hi, rfl⟩
    exact foldl_reaches (fun _ => True) (fun t => (t.port i).ctl.getLsbD 31 = false) hmem (fun _ _ _ => trivial) (fun t _ => portOff_self t i)
      (fun t p _ ht => portOff_off t p ht) s trivial

theorem portsOff_ports (s : State) : ∃ ports, s.portsOff = { s with ports := ports } := by
  refine foldl_keeps (fun t => ∃ ports, t = { s with ports := ports }) _ (fun t p ht => ?_) _ s ⟨s.ports, rfl⟩
  obtain ⟨ports, rfl⟩ := ht
  exact ⟨_, rfl⟩

/-- What a host reset clears, before what waited for the host's lines goes on. -/
def State.hostCleared (s : State) (perst : Bool) : State :=
  (({ s with hdmBase := none, msixMask := BitVec.allOnes 32, msixPend := 0, hostLines := [], snoop := [], biWait := [], bursts := [],
             memWait := [], hostCfg := State.reset.hostCfg, linkTrain := false, j1Lanes := [], bpDone := 0
             pins := { s.pins with perstN := if perst then false else s.pins.perstN } }.setReg
    (pageBase .host + oIrq) (s.reg (pageBase .host + oIrq))).setReg rLstat 0)

theorem hostReset_eq (s : State) (perst : Bool) : s.hostReset perst = (s.hostCleared perst).portsOff.snoopDone := by
  unfold State.hostReset
  extract_lets pins s1 s2
  have h2 : s2.setReg rLstat 0 = s.hostCleared perst := congrArg (State.setReg · rLstat 0) (bpDone_clear s1)
  have hports : s2.ports = (s.hostCleared perst).ports := (congrArg State.ports h2 : (s2.setReg rLstat 0).ports = _)
  rw [h2, hports, State.portsOff]
  rfl

/-- The part of a host reset that does not wait. -/
theorem hostCleared_leaves (s : State) (p : Bool) : let t := (s.hostCleared p).portsOff
    (Unheld s → Unheld t) ∧ t.hdmBase = none ∧ t.msixPend = 0 ∧ t.msixMask = BitVec.allOnes 32 ∧ t.hostCfg = State.reset.hostCfg ∧ t.memWait = [] ∧
    t.hostLines = [] ∧ t.snoop = [] ∧ t.biWait = [] ∧ t.bursts = [] ∧ t.linkTrain = false ∧ t.j1Lanes = [] ∧ t.bpDone = 0 ∧ t.reg rLstat = 0 ∧
    (∀ i, (t.port i).ctl.getLsbD 31 = false ∧ (t.port i).addr = (s.port i).addr ∧ (t.port i).cnt = (s.port i).cnt) ∧
    t.cores = s.cores ∧ t.mem = s.mem ∧ t.sems = s.sems ∧ t.links = s.links := by
  have hport (i : Nat) := portsOff_port (s.hostCleared p) i
  have hlstat : (s.hostCleared p).reg rLstat = 0 := State.reg_setReg _ _ _
  obtain ⟨ports, e⟩ := portsOff_ports (s.hostCleared p)
  rw [e] at hport ⊢
  exact ⟨fun h => h, rfl, rfl, rfl, rfl, rfl, rfl, rfl, rfl, rfl, rfl, rfl, rfl, hlstat, hport, rfl, rfl, rfl, rfl⟩

end

section
variable {s t : State} {src : Src} {w : W32}

/-! ### A Firefly restart -/

theorem arrived_iff (s : State) : s.arrived = true ↔ s.stage = 4 ∨ s.stage = 0xE ∨ s.stage = 0xF := by
  simp [State.arrived, or_assoc]

theorem not_arrived (h4 : s.stage ≠ 4) (hE : s.stage ≠ 0xE) (hF : s.stage ≠ 0xF) : s.arrived = false :=
  Bool.eq_false_iff.mpr fun h => ((arrived_iff s).mp h).elim h4 fun h => h.elim hE hF

/-- The answer to a request that a restart loses. -/
def lostBox : Mailbox := { busy := false, status := 0x0F, resp := [], req := none }

theorem reply_h_aside (s : State) : ∃ buf, Aside { s with buf := buf, boxH := lostBox } (s.reply .h (st 0x0F)) :=
  ⟨_, withIrq_aside .firefly (fun (s : State) => { s with boxH := lostBox }) _⟩

theorem reply_m_eq (s : State) : ∃ ibi, s.reply .m (st 0x0F) = { s with ibi := ibi, boxM := lostBox } := by
  unfold State.reply
  dsimp only
  split
  · exact ⟨s.ibi, rfl⟩
  · exact ⟨_, rfl⟩

/-- A request on channel H that is lost. -/
def State.loseH (s : State) : State := if s.boxH.busy then s.reply .h (st 0x0F) else s
/-- A request on channel M that is lost. -/
def State.loseM (s : State) : State := if s.boxM.busy then s.reply .m (st 0x0F) else s

theorem loseH_aside (s : State) : ∃ buf box, Aside { s with buf := buf, boxH := box } s.loseH ∧ box.busy = false ∧
    (s.boxH.busy = true → box.status = 0x0F) := by
  rw [State.loseH]
  by_cases hb : s.boxH.busy = true
  · obtain ⟨buf, h⟩ := reply_h_aside s
    rw [if_pos hb]
    exact ⟨buf, lostBox, h, rfl, fun _ => rfl⟩
  · rw [if_neg hb]
    exact ⟨s.buf, s.boxH, .refl s, Bool.eq_false_iff.mpr hb, fun h => absurd h hb⟩

theorem loseM_eq (s : State) : ∃ ibi box, s.loseM = { s with ibi := ibi, boxM := box } ∧ box.busy = false ∧
    (s.boxM.busy = true → box.status = 0x0F) := by
  rw [State.loseM]
  by_cases hb : s.boxM.busy = true
  · obtain ⟨ibi, h⟩ := reply_m_eq s
    rw [if_pos hb]
    exact ⟨ibi, lostBox, h, rfl, fun _ => rfl⟩
  · rw [if_neg hb]
    exact ⟨s.ibi, s.boxM, rfl, Bool.eq_false_iff.mpr hb, fun h => absurd h hb⟩

theorem flyRestart_leaves (s : State) : s.flyRestart.flyDown = true ∧ s.flyRestart.session = none ∧ s.flyRestart.activating = none ∧
    s.flyRestart.boxH.busy = false ∧ s.flyRestart.boxM.busy = false ∧ (s.boxH.busy = true → s.flyRestart.boxH.status = 0x0F) ∧
    (s.boxM.busy = true → s.flyRestart.boxM.status = 0x0F) ∧ s.flyRestart.cores = s.cores ∧ s.flyRestart.mem = s.mem := by
  have hlose : s.flyRestart = ({ s with flyDown := true, session := none, activating := none } : State).loseH.loseM := rfl
  obtain ⟨buf, boxH, hH, hfree, hlost⟩ := loseH_aside { s with flyDown := true, session := none, activating := none }
  have hM : ({ s with flyDown := true, session := none, activating := none } : State).loseH.boxM = s.boxM := hH.same State.boxM
  rw [hlose]
  generalize ({ s with flyDown := true, session := none, activating := none } : State).loseH = t at hH hM ⊢
  obtain ⟨ibi, boxM, e, hfree', hlost'⟩ := loseM_eq t
  rw [e]
  exact ⟨hH.same State.flyDown, hH.same State.session, hH.same State.activating, (congrArg Mailbox.busy (hH.same State.boxH)).trans hfree, hfree',
    fun hb => (congrArg Mailbox.status (hH.same State.boxH)).trans (hlost hb), fun hb => hlost' (hM ▸ hb), hH.same State.cores, hH.same State.mem⟩

/-! ### A write of GLOBAL_RESET -/

/-- The compute reset of a write of GLOBAL_RESET. -/
def State.resetTaken (s : State) (src : Src) (asked : Bool) : State :=
  if !asked then s else if s.arrived then s.computeReset else { s.stopWriter src with heldReset := true }

/-- Its Firefly restart. -/
def State.restartTaken (s : State) (asked : Bool) : State :=
  if !asked then s else if s.arrived then s.flyRestart else s.err .global 0x40

theorem globalReset_eq (hu : Src.user src = false) (hk : fld w 24 8 = 0xA5) :
    s.globalReset src w = (s.resetTaken src (w.getLsbD 0)).restartTaken (w.getLsbD 1) := by
  have hin : ¬ (Src.user src || fld w 24 8 ≠ 0xA5) = true := by simp [hu, hk]
  exact if_neg hin

/-- The three outcomes of the command of a source that does not wait. -/
theorem globalReset_on (hon : On s) (ht : InTurn s src) (hu : Src.user src = false) (hk : fld w 24 8 = 0xA5) :
    exec (.computeReset src w) s = .next ((s.resetTaken src (w.getLsbD 0)).restartTaken (w.getLsbD 1)) ∧
    exec (.fireflyRestart src w) s = .next ((s.resetTaken src (w.getLsbD 0)).restartTaken (w.getLsbD 1)) := by
  rw [← globalReset_eq hu hk]
  exact ⟨command_inTurn hon ht (.computeReset w) (fun s => s.globalReset src w), command_inTurn hon ht (.fireflyRestart w) (fun s => s.globalReset src w)⟩

theorem resetTaken_none (s : State) (src : Src) : s.resetTaken src false = s := rfl
theorem restartTaken_none (s : State) : s.restartTaken false = s := rfl
theorem resetTaken_now (h : s.arrived = true) : s.resetTaken src true = s.computeReset := if_pos h
theorem restartTaken_now (h : s.arrived = true) : s.restartTaken true = s.flyRestart := if_pos h
theorem resetTaken_held (h : s.arrived = false) : s.resetTaken src true = { s.stopWriter src with heldReset := true } := by
  rw [State.resetTaken, h]
  rfl
theorem restartTaken_early (h : s.arrived = false) : s.restartTaken true = s.err .global 0x40 := by
  rw [State.restartTaken, h]
  rfl

theorem stopWriter_same (s : State) (src : Src) : (s.stopWriter src).sems = s.sems ∧ (s.stopWriter src).mem = s.mem ∧ (s.stopWriter src).regs = s.regs := by
  unfold State.stopWriter
  split
  · exact ⟨rfl, rfl, rfl⟩
  · exact ⟨rfl, rfl, rfl⟩

theorem stopWriter_other (s : State) (h : ∀ n b, src ≠ .core n b) : s.stopWriter src = s := by
  unfold State.stopWriter
  split
  · next n b => exact absurd rfl (h n b)
  · rfl

/-- A mask of ones leaves a field. -/
theorem fld_and_ones {m : W32} {lo len : Nat} (h : ∀ i < len, m.getLsbD (lo + i) = true) : fld (w &&& m) lo len = fld w lo len := by
  refine Nat.eq_of_testBit_eq fun i => ?_
  rw [testBit_fld, testBit_fld, BitVec.getLsbD_and]
  by_cases hi : i < len
  · rw [h i hi, Bool.and_true]
  · simp [hi]

/-- One bit of the write cleared leaves its key and the other bit. -/
theorem reset_alone (hk : fld w 24 8 = 0xA5) (h0 : w.getLsbD 0 = true) (h1 : w.getLsbD 1 = true) :
    (fld (w &&& 0xFFFFFFFD) 24 8 = 0xA5 ∧ (w &&& 0xFFFFFFFD).getLsbD 0 = true ∧ (w &&& 0xFFFFFFFD).getLsbD 1 = false) ∧
    fld (w &&& 0xFFFFFFFE) 24 8 = 0xA5 ∧ (w &&& 0xFFFFFFFE).getLsbD 0 = false ∧ (w &&& 0xFFFFFFFE).getLsbD 1 = true := by
  rw [fld_and_ones (by decide), fld_and_ones (by decide), BitVec.getLsbD_and, BitVec.getLsbD_and, BitVec.getLsbD_and, BitVec.getLsbD_and, h0, h1]
  exact ⟨⟨hk, rfl, rfl⟩, hk, rfl, rfl⟩

/-- A compute reset leaves the stage, and what waits of the host. -/
theorem computeReset_goes_on (hon : On s) (ht : InTurn s src) (ha : s.arrived = true) :
    On s.computeReset ∧ InTurn s.computeReset src ∧ s.computeReset.arrived = true := by
  obtain ⟨hkept, -, -, -⟩ := computeReset_leaves hon.2
  have hstage : s.computeReset.stage = s.stage := congrArg (fld · 28 4) hkept.svc
  refine ⟨⟨hkept.power.trans hon.1, hkept.upsets⟩, ht.imp_right hkept.bursts.trans, ?_⟩
  rw [State.arrived, hstage]
  exact ha

/-- Settles O23: the resets of parts, each by what it leaves. -/
theorem resetsOfParts : Obligations.ResetsOfParts := by
  unfold Obligations.ResetsOfParts
  intro s hon
  refine ⟨fun p => ?_, command_on (fun (s : State) => { s with tap := .idcode, tapDr := 0x1096A3C5 }) s hon, fun src w ht hu hk => ?_⟩
  · obtain ⟨hheld, hleaves⟩ := hostCleared_leaves s p
    have hrun : exec (.hostReset p) s = .next (s.hostReset p) :=
      (if_neg fun h => h.2 hon.1).trans (command_on (fun s => s.hostReset p) s hon)
    exact ⟨_, hrun.trans (congrArg _ (hostReset_eq s p)), fun h => State.snoopDone_idle _ (hheld h), hleaves⟩
  · obtain ⟨hcr, hfr⟩ := globalReset_on hon ht hu hk
    refine ⟨fun h0 h1 ha => ?_, fun h0 h1 h4 hE hF => ?_, fun h0 h1 ha => ?_, fun h0 h1 h4 hE hF => ?_, fun h0 h1 ha => ?_, fun h0 h1 h4 hE hF hsrc => ?_⟩
    · rw [h0, h1, restartTaken_none, resetTaken_now ((arrived_iff s).mpr ha)] at hcr
      obtain ⟨hkept, hheld, hcores, hsem, hctx, hres⟩ := computeReset_leaves hon.2
      refine ⟨_, hcr, hheld, fun n hn => ?_, hsem, hctx, hres, hkept.mem⟩
      obtain ⟨⟨hr, hd, hh, hs, hf, hb, htask⟩, hrun⟩ := hcores n hn
      exact ⟨hr, hd, hh, hs, hf, hb, htask, hrun⟩
    · rw [h0, h1, restartTaken_none, resetTaken_held (not_arrived h4 hE hF)] at hcr
      obtain ⟨hsems, hmem, hregs⟩ := stopWriter_same s src
      exact ⟨_, hcr, rfl, hsems, hmem, hregs⟩
    · rw [h0, h1, resetTaken_none, restartTaken_now ((arrived_iff s).mpr ha)] at hfr
      exact ⟨_, hfr, flyRestart_leaves s⟩
    · rw [hfr, h0, h1, resetTaken_none, restartTaken_early (not_arrived h4 hE hF)]
    · have harr := (arrived_iff s).mpr ha
      obtain ⟨hon', ht', harr'⟩ := computeReset_goes_on hon ht harr
      obtain ⟨⟨hk', h0', h1'⟩, hk'', h0'', h1''⟩ := reset_alone hk h0 h1
      obtain ⟨hfirst, -⟩ := globalReset_on hon ht hu hk'
      obtain ⟨-, hthen⟩ := globalReset_on hon' ht' hu hk''
      rw [h0', h1', restartTaken_none, resetTaken_now harr] at hfirst
      rw [h0'', h1'', resetTaken_none, restartTaken_now harr'] at hthen
      rw [h0, h1, resetTaken_now harr, restartTaken_now harr'] at hcr hfr
      intro c hc
      refine ⟨_, _, hfirst, hthen, ?_, (flyRestart_leaves _).1⟩
      rcases List.mem_pair.mp hc with rfl | rfl
      · exact hcr
      · exact hfr
    · have hearly : ({ s with heldReset := true } : State).arrived = false := not_arrived h4 hE hF
      rw [hcr, h0, h1, resetTaken_held (not_arrived h4 hE hF), stopWriter_other s hsrc, restartTaken_early hearly]

end

end Sys2Proof.Machine

/-! # The quote of an image without a header -/

namespace Sys2Proof.Machine
open Sys2Proof.Laws Sys2Proof.Safety

theorem length_bytesOfNat (n x : Nat) : (bytesOfNat n x).length = n := by
  induction n generalizing x with
  | zero => rfl
  | succ n ih => rw [bytesOfNat, List.length_cons, ih]

/-- A block leaves at most as many words as there were. -/
theorem length_shaBlocks_le (blocks : List (List Byte)) (h : List W64) : (blocks.foldl shaBlock h).length ≤ h.length := by
  induction blocks generalizing h with
  | nil => exact le_rfl
  | cons b blocks ih =>
    refine (ih (shaBlock h b)).trans ?_
    rw [shaBlock, List.length_map, List.length_zip]
    exact min_le_left _ _

theorem length_sha512_le (m : List Byte) : (sha512 m).length ≤ 64 := by
  have hwords := length_shaBlocks_le ((shaPad m).toChunks 128) shaInit
  rw [sha512]
  generalize ((shaPad m).toChunks 128).foldl shaBlock shaInit = ws at hwords
  have hbytes : ((ws.map (fun (x : W64) => (bytesOfNat 8 x.toNat).reverse)).flatten).length = 8 * ws.length := by
    induction ws with
    | nil => rfl
    | cons x ws ih =>
      have htail : ws.length ≤ shaInit.length := (Nat.le_succ _).trans hwords
      rw [List.map_cons, List.flatten_cons, List.length_append, ih htail, List.length_reverse, length_bytesOfNat, List.length_cons]
      omega
  have hinit : shaInit.length = 8 := rfl
  omega

/-- A quote takes the version, the security version and the digest from the header: without one they are not there. -/
theorem length_quoteBytes_le {s : State} (hfw : s.firmware = true) (hhdr : s.runHdr = []) (nonce : List Byte) :
    (s.quoteBytes nonce).length ≤ 160 + nonce.length := by
  rw [State.quoteBytes, hfw, hhdr]
  simp only [if_true, List.drop_nil, List.take_nil, List.append_nil, List.length_append, length_bytesOfNat, List.length_replicate, State.identitySign,
    List.length_map, List.length_range]
  have hdigest := length_sha512_le
    ((s.settings.filter (fun r => !r.1 && r.2.2.2 == s.sfmt)).map (fun r => Config.settingRecord r.2.1 r.2.2.1 r.2.2.2)).flatten
  omega

theorem perform_quote (s : State) {nonce : List Byte} (h : nonce.length = 32) :
    s.perform .h 4 (nonce ++ [0]) = (s, some { status := 0, data := s.quoteBytes nonce }) := by
  have hlen : mbLenOk .h 4 (nonce ++ [0]) = true := by
    simp [mbLenOk, h]
  have hpart : hdrField (nonce ++ [0]) 32 1 = 0 := by
    rw [hdrField, List.drop_append_of_le_length h.ge, List.drop_of_length_le h.le]
    rfl
  have hnonce : (nonce ++ [0]).take 32 = nonce := by rw [List.take_append_of_le_length h.ge, List.take_of_length_le h.le]
  rw [State.perform, hlen, hpart, hnonce]
  rfl

theorem reply_h_resp (s : State) (r : Reply) : (s.reply .h r).boxH.resp = r.data :=
  congrArg Mailbox.resp ((withIrq_aside .firefly (fun (s : State) =>
    { s with boxH := { busy := false, status := BitVec.ofNat 8 r.status, resp := r.data, req := none } }) _).same State.boxH)

/-- A quote on channel H answers over the state in which it is BUSY. -/
theorem quote_resp {s : State} (hon : On s) (hfree : s.boxH.busy = false) (hfly : s.flyDown = false) {nonce : List Byte} (h : nonce.length = 32) :
    ∃ t u, exec (.quote .h (nonce ++ [0])) s = .next t ∧ Aside { s with boxH := { s.boxH with busy := true, req := none } } u ∧
      t.boxH.resp = u.quoteBytes nonce := by
  have hbusy : Aside { s with boxH := { s.boxH with busy := true, req := none } } (s.setBox .h { s.boxH with busy := true, req := none }) :=
    withIrq_aside .firefly (fun (s' : State) => { s' with boxH := { s.boxH with busy := true, req := none } }) s
  have hserve : s.mailbox .h 4 (nonce ++ [0]) = (s.setBox .h { s.boxH with busy := true, req := none }).reply .h
      { status := 0, data := (s.setBox .h { s.boxH with busy := true, req := none }).quoteBytes nonce } := by
    have hbox : (s.box .h).busy = false := hfree
    rw [State.mailbox, hbox, hfly, State.serve]
    dsimp only
    rw [State.box, perform_quote _ h]
    rfl
  exact ⟨_, _, (command_on (fun s => s.mailbox .h 4 (nonce ++ [0])) s hon).trans (congrArg _ hserve), hbusy, reply_h_resp _ _⟩

/-- A module that runs an image of which no header is held. -/
def headless : State := { State.reset with power := .running, regs := [(rSvc, 0x00040000)] }

/-- Refutes O40: on a state with an image running and no bytes of its header held, the quote has no version, security version and digest, so it
ends before the 264 bytes that are stated. -/
theorem not_mailboxAnswers : ¬ Obligations.MailboxAnswers := by
  unfold Obligations.MailboxAnswers
  intro h
  have hon : On headless := ⟨rfl, rfl⟩
  have hfw : headless.bitReg rSvc 18 = true := by decide
  obtain ⟨-, -, -, hquote, -⟩ := h headless .h hon rfl rfl
  obtain ⟨d, g, hd, hg, -, -, -, ⟨t, ht, -, -, hresp, -⟩, -⟩ := hquote (List.replicate 32 0) (List.length_replicate ..)
  obtain ⟨t', u, ht', hu, hresp'⟩ := quote_resp hon rfl rfl (nonce := List.replicate 32 0) (List.length_replicate ..)
  obtain rfl : t = t' := Host.Outcome.next.inj (ht.symm.trans ht')
  have hfwu : u.firmware = true := (congrArg (·.getLsbD 18) (hu.2 rSvc plainReg_svc)).trans hfw
  have hshort := length_quoteBytes_le hfwu (hu.same State.runHdr) (List.replicate 32 0)
  have hlong : (u.quoteBytes (List.replicate 32 0)).length = 264 := by
    have hquoted : u.quoteBytes (List.replicate 32 0) = d ++ g := hresp'.symm.trans (hresp.trans (if_pos rfl))
    rw [hquoted, List.length_append, hd, hg]
  rw [hlong] at hshort
  exact absurd hshort (by decide)

end Sys2Proof.Machine

/-! # How an instruction issues that is not ready

What the issue of an instruction answers where it is illegal or its condition is false, and what a body leaves that acts on its own core. -/

namespace Sys2Proof.Machine
open Sys2Proof.Laws Sys2Proof.Safety

section
variable {s t : State} {n len : Nat} {k : Cond}

/-- Core n issues an instruction of len words in state s, no word of it is marked, and t is the state after its fetch. -/
structure Fetched (s t : State) (n len : Nat) : Prop where
  issues : s.issues n = true
  peek : (s.core n).peek = false
  start : t = (s.fetched n len).modCore n (fun c => c.issuing (s.cycles n))
  clean : t.fetchPoison n len = none

theorem ready_fetched (h : Ready s t n k len) : Fetched s t n len := by
  obtain ⟨hissues, -, hpeek, hstart, hclean, -, -⟩ := h
  exact ⟨hissues, hpeek, hstart, hclean⟩

/-- The fetch of a ready instruction makes no error in a register file or table. -/
theorem ready_upsets (h : Ready s t n k len) : t.upsets = [] := by
  obtain ⟨-, hnone, -, rfl, -, -, -⟩ := h
  have hkept : Keeps s (s.fetched n len) := (Keeps.refl s).touchAll
  exact hkept.upsets hnone

/-- A fetched instruction goes on to the checks of its encoding and condition. -/
theorem issueAs_fetched (h : Fetched s t n len) (br : Bool) (legal : Core → Bool) (preds : List Nat) (body : State → Res) :
    issueAs n k len br legal preds body s = .next (issueFetched n k len br legal preds body t) := by
  obtain ⟨hissues, hpeek, rfl, hclean⟩ := h
  simp [issueAs, hissues, hpeek, hclean]

/-- An instruction whose encoding or place is illegal faults, whatever its condition. -/
theorem issue_illegal (h : Fetched s t n len) {legal : Core → Bool} (hl : legal (t.core n) = false) (preds : List Nat) (body : State → Res) :
    issue n k len legal preds body s = .next (t.syncFault n .illegalOp 0) := by
  refine (issueAs_fetched h false legal preds body).trans (congrArg _ ?_)
  simp [issueFetched, hl]

theorem Core.deliver_slot (c : Core) (r : RegRef) (v : W64) : (c.deliver r v).slot = c.slot := by cases r <;> rfl

theorem Core.tick_slot (c : Core) : c.tick.slot = c.slot :=
  List.foldlRecOn (motive := fun (d : Core) => d.slot = c.slot) _ _ rfl fun d hd f _ => (d.deliver_slot f.ref f.val).trans hd

theorem Core.advance_slot (c : Core) (len : Nat) : (c.advance len).slot = false := by
  have htick := Core.tick_slot { c with slot := false, resumed := false }
  unfold Core.advance Core.loopEnd
  dsimp only
  split
  · exact htick
  · split
    · exact htick
    · split
      · split <;> exact htick
      · exact htick

/-- An instruction whose condition is false changes nothing but the place in the program (R84). -/
theorem issue_false (h : Fetched s t n len) {legal : Core → Bool} (hl : legal (t.core n) = true) (hp : (condPreds k).any (t.core n).pp = false)
    (hc : (t.core n).cond k = false) (body : State → Res) :
    issue n k len legal [] body s = .next (t.modCore n (fun c => c.advance len)) := by
  have hslot (c : Core) : { c.advance len with slot := false } = c.advance len := by
    rw [← Core.advance_slot c len]
  refine (issueAs_fetched h false legal [] body).trans (congrArg _ ?_)
  simp only [issueFetched, hl, List.append_nil, hp, hc, hslot]
  rfl

/-- What an instruction does to its core is what it does to the core that issued it. -/
theorem after_congr {f g : Core → Core} (h : f (t.core n) = g (t.core n)) : after t n len f = after t n len g := by
  simp only [after, State.modCore, h]

/-- A ready and legal instruction whose only effect is on its core. -/
theorem issue_coreOnly (h : Ready s t n k len) {legal : Core → Bool} (hl : legal (t.core n) = true) {body : State → Res} {f g : Core → Core}
    (hb : body t = coreOnly n f t) (hg : f (t.core n) = g (t.core n)) : issue n k len legal [] body s = .next (after t n len g) := by
  rw [issue_ready h legal [] body hl rfl, hb, finish_coreOnly, after_congr hg]

/-- A ready and legal instruction that faults. -/
theorem issue_fault (h : Ready s t n k len) {legal : Core → Bool} (hl : legal (t.core n) = true) {body : State → Res} {x : Cause} {a : W64}
    (hb : body t = .fault x a) : issue n k len legal [] body s = .next (t.syncFault n x a) := by
  rw [issue_ready h legal [] body hl rfl, hb]
  rfl

end

end Sys2Proof.Machine

/-! # Traps and privilege -/

namespace Sys2Proof.Machine
open Sys2Proof.Laws Sys2Proof.Safety

section
variable {s t : State} {n : Nat} {k : Cond}

/-- The control registers that user level may not use (R143). -/
theorem mayCr_user {c : Core} {crn : BitVec 6} (hu : c.sup = false) (h : crn.toNat ∈ [0x18, 0x19, 0x20, 0x21, 0x22, 0x23, 0x24]) :
    c.mayCr crn = false := by
  have hinfo : ∀ x ∈ [0x18, 0x19, 0x20, 0x21, 0x22, 0x23, 0x24], (crInfo x).map Prod.snd = some false := by decide
  have hx := hinfo _ h
  unfold Core.mayCr
  split
  · next e => simp_all
  · next e => simp [e] at hx

theorem movcReadBody_user {crn : BitVec 6} {kk : BitVec 2} {rg : BitVec 4} (h : (t.core n).mayCr crn = false) :
    movcReadBody n crn kk rg t = .fault .privilege 0 := by simp [movcReadBody, h]

theorem movcWriteBody_user {crn : BitVec 6} {kk : BitVec 2} {rg : BitVec 4} (h : (t.core n).mayCr crn = false) :
    movcWriteBody n crn kk rg t = .fault .privilege 0 := by simp [movcWriteBody, h]

end

/-- Settles O13: trap's body is its end and the entry; at user level the bodies of the others are the fault. -/
theorem trapsAndPrivilege : Obligations.TrapsAndPrivilege := by
  unfold Obligations.TrapsAndPrivilege
  refine ⟨fun s t n k code h => issue_ready h _ [] (trapBody n code) rfl rfl, fun s t n k h hu => ⟨fun hslot => ?_, fun kind aa hkind => ?_,
    fun crn kk rg hcrn hlegal => ⟨?_, fun h22 => ?_⟩⟩⟩
  · exact issue_fault h hslot (privileged_user n _ t hu)
  · exact issue_fault h (decide_eq_true hkind) (privileged_user n _ t hu)
  · exact issue_fault h hlegal (movcReadBody_user (mayCr_user hu hcrn))
  · have hne : (crn != 0x22) = true := bne_iff_ne.mpr fun e => h22 (e ▸ rfl)
    exact issue_fault h (by rw [hlegal, hne]; rfl) (movcWriteBody_user (mayCr_user hu hcrn))

end Sys2Proof.Machine

/-! # Control registers -/

namespace Sys2Proof.Machine
open Sys2Proof.Laws Sys2Proof.Safety

/-- Whether a control register is 64 bits wide, if there is one of that number (Tables 3-3 and 5-2). -/
def crWide (x : Nat) : Option Bool := (crInfo x).map Prod.fst

section
variable {s t : State} {n : Nat} {k : Cond} {crn : BitVec 6} {kk : BitVec 2} {rg : BitVec 4} {r : MovcReg}

theorem movcReg_pair (hk : kk = 0) (hr : evenReg rg.toNat = true) : movcReg kk rg = some (.pair rg.toNat) := by simp [movcReg, hk, hr]
theorem movcReg_quad (hk : kk = 1) (hr : quadReg rg.toNat = true) : movcReg kk rg = some (.quad rg.toNat) := by simp [movcReg, hk, hr]
theorem movcReg_addr (hk : kk = 2) (hr : rg.toNat < 8) : movcReg kk rg = some (.addr rg.toNat) := by simp [movcReg, hk, hr]

/-- A movc whose operand has the width of its control register is legal (R130). -/
theorem movcLegal_of_width (hw : crWide crn.toNat = some (movcWide r)) (hr : movcReg kk rg = some r) : movcLegal crn kk rg = true := by
  obtain ⟨⟨wide, user⟩, hi, hw⟩ := Option.map_eq_some_iff.mp hw
  simp [movcLegal, hi, hr, show wide = movcWide r from hw]

/-- A movc read that the level may make sends what the register reads as (R130, R131). -/
theorem exec_movcRead (h : Ready s t n k 2) (hm : (t.core n).mayCr crn = true) (hr : movcReg kk rg = some r)
    (hw : crWide crn.toNat = some (movcWide r)) : exec (.movcRead n k crn kk rg) s = .next (after t n 2 (fun c => c.movcPut (t.crGet n crn.toNat) r)) := by
  have hb : movcReadBody n crn kk rg t = coreOnly n (fun c => c.movcPut (t.crGet n crn.toNat) r) t := by simp [movcReadBody, hm, hr]
  exact issue_coreOnly h (movcLegal_of_width hw hr) hb rfl

/-- A movc write that the level may make, of another register than SR, sends its value at distance 3 (R131, Table 3-8). -/
theorem exec_movcWrite (h : Ready s t n k 2) (hm : (t.core n).mayCr crn = true) (hr : movcReg kk rg = some r)
    (hw : crWide crn.toNat = some (movcWide r)) (hx : crn.toNat ≠ 0 ∧ crn.toNat ≠ 0x22)
    (hl : (t.core n).loopWriteOk crn.toNat ((t.core n).movcGet r) = true) :
    exec (.movcWrite n k crn kk rg) s = .next (after t n 2 (fun c => c.send 3 (crRef crn.toNat) (c.movcGet r))) := by
  have hsr : crn ≠ 0 := fun e => hx.1 (e ▸ rfl)
  have hdepth : (crn != 0x22) = true := bne_iff_ne.mpr fun e => hx.2 (e ▸ rfl)
  have hb : movcWriteBody n crn kk rg t = coreOnly n (fun c => c.send 3 (crRef crn.toNat) ((t.core n).movcGet r)) t := by
    simp only [movcWriteBody, hm, hr, if_neg hsr, hl, Bool.not_true, Bool.false_eq_true, if_false]
  exact issue_coreOnly h (by rw [movcLegal_of_width hw hr, hdepth]; rfl) hb rfl

/-- A movc write of SR sends what the level may write at distance 1; at supervisor level its LA and LH must meet R79 (R104, R131). -/
theorem exec_movcWrite_sr (h : Ready s t n k 2) (hcrn : crn = 0) (hk : kk = 0) (hr : evenReg rg.toNat = true)
    (hl : (t.core n).sup = true → laLhOk (fld ((t.core n).dpair rg.toNat) 24 4) (fld ((t.core n).dpair rg.toNat) 20 4) = true) :
    exec (.movcWrite n k crn kk rg) s =
      .next (after t n 2 (fun c => c.sendSr 1 (if c.sup then 0xCFFF00FF else 0xFF) (c.dpair rg.toNat))) := by
  subst hcrn
  have hm : (t.core n).mayCr 0 = true := Bool.or_true _
  have hv : ((t.core n).movcGet (.pair rg.toNat)).truncate 32 = (t.core n).dpair rg.toNat := BitVec.setWidth_setWidth_of_le _ (by decide)
  have hf (lo : Nat) : fld ((t.core n).movcGet (.pair rg.toNat)) lo 4 = fld ((t.core n).dpair rg.toNat) lo 4 := by
    rw [fld, fld, show ((t.core n).movcGet (.pair rg.toNat)).toNat = ((t.core n).dpair rg.toNat).toNat from BitVec.toNat_setWidth_of_le (by decide)]
  have hok : ((t.core n).sup && !laLhOk (fld ((t.core n).dpair rg.toNat) 24 4) (fld ((t.core n).dpair rg.toNat) 20 4)) = false := by
    cases hs : (t.core n).sup
    · rfl
    · rw [hl hs]; rfl
  have hb : movcWriteBody n 0 kk rg t = coreOnly n (fun c => c.sendSr 1 (if (t.core n).sup then 0xCFFF00FF else 0xFF) ((t.core n).dpair rg.toNat)) t := by
    simp only [movcWriteBody, hm, movcReg_pair hk hr, hf, hok, hv, if_true, Bool.not_true, Bool.false_eq_true, if_false]
    rfl
  have hlegal : movcLegal 0 kk rg = true := movcLegal_of_width rfl (movcReg_pair hk hr)
  exact issue_coreOnly h (by rw [hlegal]; rfl) hb rfl

/-- A control register that is no loop register is written without a check of nesting (R104). -/
theorem loopWriteOk_other (c : Core) {x : Nat} (h : 0xB < x) (v : W64) : c.loopWriteOk x v = true := by
  unfold Core.loopWriteOk
  dsimp only
  rw [if_neg (by omega), if_neg (by omega)]

/-- What the narrow control registers read as. -/
theorem crGet_narrow (t : State) (n : Nat) : let c := t.core n
    ∀ e ∈ [(0x00, c.sr), (0x0C, c.lcr 0), (0x0D, c.lcr 1), (0x0E, c.lcr 2), (0x0F, c.lcr 3), (0x10, c.vl), (0x11, c.vtype), (0x19, c.prog),
      (0x22, BitVec.ofNat 32 c.record.length), (0x23, t.ipendWord n), (0x24, c.ien)],
    crWide e.1 = some false ∧ (t.crGet n e.1).truncate 32 = e.2 := by
  simp [State.crGet, crWide, crInfo]

/-- What the wide control registers read as. -/
theorem crGet_wide (t : State) (n : Nat) : let c := t.core n
    ∀ e ∈ [(0x04, c.lsr 0), (0x05, c.lsr 1), (0x06, c.lsr 2), (0x07, c.lsr 3), (0x08, c.ler 0), (0x09, c.ler 1), (0x0A, c.ler 2), (0x0B, c.ler 3),
      (0x18, c.escSp), (0x20, c.vbr), (0x21, c.escLim)],
    crWide e.1 = some true ∧ t.crGet n e.1 = e.2 := by
  simp [State.crGet, crWide, crInfo]

/-- Where the writes of narrow control registers go. -/
theorem crRef_narrow : ∀ e ∈ [(0x0C, RegRef.lc 0), (0x0D, .lc 1), (0x0E, .lc 2), (0x0F, .lc 3), (0x10, .vl), (0x11, .vtype), (0x19, .prog),
    (0x23, .ipend), (0x24, .ien)], crWide e.1 = some false ∧ crRef e.1 = e.2 ∧ (e.1 ≠ 0 ∧ e.1 ≠ 0x22) ∧ 0xB < e.1 := by decide

/-- Where the writes of wide control registers go. -/
theorem crRef_wide : ∀ e ∈ [(0x04, RegRef.ls 0), (0x05, .ls 1), (0x06, .ls 2), (0x07, .ls 3), (0x08, .le 0), (0x09, .le 1), (0x0A, .le 2),
    (0x0B, .le 3), (0x18, .escSp), (0x20, .vbr), (0x21, .escLim)], crWide e.1 = some true ∧ crRef e.1 = e.2 ∧ (e.1 ≠ 0 ∧ e.1 ≠ 0x22) := by decide

end

/-- Settles O15: a movc acts on the register that its number names, by the tables of what each reads as and where a write of it goes. -/
theorem controlRegisters : Obligations.ControlRegisters := by
  unfold Obligations.ControlRegisters
  refine ⟨fun s t n k crn kk rg h hm => ⟨fun e he hcrn hk hr => ?_, fun e he hcrn hk hr => ?_, fun e he hcrn hk hr => ?_⟩,
    fun s t n k crn kk rg h => ⟨exec_movcWrite_sr h, fun hm e he hcrn hk hr => ?_, fun hm e he hcrn => ⟨fun hk hr hl => ?_, fun hk hr hl => ?_⟩⟩⟩
  · obtain ⟨hw, hv⟩ := hcrn ▸ crGet_narrow t n e he
    rw [exec_movcRead h hm (movcReg_pair hk hr) hw, ← hv]
    rfl
  · obtain ⟨hw, hv⟩ := hcrn ▸ crGet_wide t n e he
    rw [exec_movcRead h hm (movcReg_quad hk hr) hw, hv]
    rfl
  · obtain ⟨hw, hv⟩ := hcrn ▸ crGet_wide t n e he
    rw [exec_movcRead h hm (movcReg_addr hk hr) hw, hv]
    rfl
  · obtain ⟨hw, hv, hx, hb⟩ := hcrn ▸ crRef_narrow e he
    rw [exec_movcWrite h hm (movcReg_pair hk hr) hw hx (loopWriteOk_other _ hb _), hv]
    rfl
  · obtain ⟨hw, hv, hx⟩ := hcrn ▸ crRef_wide e he
    rw [exec_movcWrite h hm (movcReg_quad hk hr) hw hx hl, hv]
    rfl
  · obtain ⟨hw, hv, hx⟩ := hcrn ▸ crRef_wide e he
    rw [exec_movcWrite h hm (movcReg_addr hk hr) hw hx hl, hv]
    rfl

end Sys2Proof.Machine

/-! # Predicates and false conditions -/

namespace Sys2Proof.Machine
open Sys2Proof.Laws Sys2Proof.Safety

/-! ### The flags of a difference on plain numbers -/

theorem nzcv_bits (n z c v : Bool) : (nzcv n z c v).getLsbD 3 = n ∧ (nzcv n z c v).getLsbD 2 = z ∧ (nzcv n z c v).getLsbD 1 = c ∧
    (nzcv n z c v).getLsbD 0 = v := by
  revert n z c v
  decide

/-- The signed value of the number that a bit vector spells is that of the bit vector. -/
theorem sval_toNat {m : Nat} (hm : 0 < m) (x : BitVec m) : sval m x.toNat = x.toInt := by
  have hpow : 2 ^ m = 2 * 2 ^ (m - 1) := by rw [← Nat.pow_succ', Nat.succ_eq_add_one, Nat.sub_add_cancel hm]
  rw [BitVec.toInt_eq_toNat_cond, sval]
  exact if_congr (by omega) rfl rfl

theorem ssubOverflow_eq_sOverflow {m : Nat} (x y : BitVec m) : x.ssubOverflow y = sOverflow m (x.toInt - y.toInt) := Bool.or_comm _ _

/-- The signed comparison of R83: N differs from V where the first number is the smaller. -/
theorem msb_sub_bne_sOverflow {m : Nat} (x y : BitVec m) :
    ((x - y).msb != sOverflow m (x.toInt - y.toInt)) = decide (x.toInt < y.toInt) := by
  rw [← ssubOverflow_eq_sOverflow]
  cases ho : x.ssubOverflow y
  · have hd : (x - y).toInt = x.toInt - y.toInt := BitVec.toInt_sub_of_not_ssubOverflow (by simp [ho])
    rw [Bool.bne_false, BitVec.msb_eq_toInt, hd]
    exact decide_eq_decide.mpr sub_neg
  · rw [BitVec.ssubOverflow_eq] at ho
    simp only [Bool.or_eq_true, Bool.and_eq_true, Bool.not_eq_true'] at ho
    rcases ho with ⟨⟨hx, hy⟩, hd⟩ | ⟨⟨hx, hy⟩, hd⟩
    · have hge := BitVec.toInt_nonneg_of_msb_false hx
      have hneg := BitVec.toInt_neg_of_msb_true hy
      rw [hd, eq_comm]
      exact decide_eq_false (by omega)
    · have hneg := BitVec.toInt_neg_of_msb_true hx
      have hge := BitVec.toInt_nonneg_of_msb_false hy
      rw [hd, eq_comm]
      exact decide_eq_true (by omega)

/-- Whether a condition of cmpp holds on the flags of a difference is what the numbers say (R124, Table 3-6). -/
theorem flagsHold_sub {m : Nat} (hm : 0 < m) (x y : BitVec m) {cd : Cond} (hcd : cd ∈ [Cond.eq, .ne, .lt, .ge, .cs, .cc, .mi]) :
    flagsHold cd (fnSub m x y false).2 = some (cmppHit cd m x.toNat y.toNat) := by
  obtain ⟨hn, hz, hc, hv⟩ := nzcv_bits (x - y).msb (x - y == 0) (decide (x.toNat < y.toNat)) (sOverflow m (x.toInt - y.toInt))
  have hflags : (fnSub m x y false).2 = nzcv (x - y).msb (x - y == 0) (decide (x.toNat < y.toNat)) (sOverflow m (x.toInt - y.toInt)) := by
    simp [fnSub, subResult]
  have heq : (x - y == 0) = decide (x.toNat = y.toNat) := by
    rw [Bool.eq_iff_iff, beq_iff_eq, decide_eq_true_iff, BitVec.toNat_inj]
    exact sub_eq_zero
  have hlt : ((x - y).msb != sOverflow m (x.toInt - y.toInt)) = decide (sval m x.toNat < sval m y.toNat) := by
    rw [sval_toNat hm, sval_toNat hm, msb_sub_bne_sOverflow]
  have hnot (p q : Prop) [Decidable p] [Decidable q] (h : ¬p ↔ q) : (!decide p) = decide q := by
    rw [← decide_not]
    exact decide_eq_decide.mpr h
  have hge : ((x - y).msb == sOverflow m (x.toInt - y.toInt)) = decide (sval m y.toNat ≤ sval m x.toNat) := by
    rw [← Bool.not_not (_ == _), ← bne, hlt, hnot _ _ not_lt]
  have hmsb : (x - y).msb = decide (2 ^ (m - 1) ≤ (x.toNat + 2 ^ m - y.toNat) % 2 ^ m) := by
    have hy := y.isLt
    rw [BitVec.msb_eq_decide, BitVec.toNat_sub, show 2 ^ m - y.toNat + x.toNat = x.toNat + 2 ^ m - y.toNat by omega]
  simp only [List.mem_cons, List.not_mem_nil, or_false] at hcd
  rw [hflags]
  rcases hcd with rfl | rfl | rfl | rfl | rfl | rfl | rfl
  · exact congrArg some (hz.trans heq)
  · exact congrArg some (by rw [hz, heq, ← decide_not]; rfl)
  · exact congrArg some (by rw [hn, hv, hlt]; rfl)
  · exact congrArg some (by rw [hn, hv, hge]; rfl)
  · exact congrArg some hc
  · exact congrArg some (by exact (congrArg (!·) hc).trans (hnot _ _ not_lt))
  · exact congrArg some (hn.trans hmsb)

/-! ### What cmpp does -/

/-- The operands of an ALU instruction are numbers of its width. -/
theorem aluReg_lt (c : Core) (w : Bool) (i : Nat) : (c.aluReg w i).toNat < 2 ^ bitsOfW w := by
  cases w
  · exact (BitVec.toNat_setWidth_of_le (b := c.dreg i) (by decide : 16 ≤ 32)).trans_lt (c.dreg i).isLt
  · exact (c.dpair i).isLt

theorem flagsHold_aluApply {w : Bool} {x y : W32} (hx : x.toNat < 2 ^ bitsOfW w) (hy : y.toNat < 2 ^ bitsOfW w) {cd : Cond}
    (hcd : cd ∈ [Cond.eq, .ne, .lt, .ge, .cs, .cc, .mi]) :
    flagsHold cd (aluApply fnSub w x y false).2 = some (cmppHit cd (bitsOfW w) x.toNat y.toNat) := by
  cases w
  · have hlow (z : W32) (hz : z.toNat < 2 ^ 16) : (z.truncate 16).toNat = z.toNat := by
      rw [BitVec.truncate_eq_setWidth, BitVec.toNat_setWidth, Nat.mod_eq_of_lt hz]
    have hsub := flagsHold_sub (by decide : 0 < 16) (x.truncate 16) (y.truncate 16) hcd
    rwa [hlow x hx, hlow y hy] at hsub
  · exact flagsHold_sub (by decide) x y hcd

theorem predBit : ∀ p : Fin 4, ∀ hit : Bool,
    setBit (0 : W32) (4 + p.val) hit = if hit then BitVec.ofNat 32 (2 ^ (4 + p.val)) else 0 := by decide
theorem predMask : ∀ p : Fin 4, setBit (setBit (0 : W32) (4 + p.val) true) (16 + p.val) true = BitVec.ofNat 32 (2 ^ (4 + p.val) + 2 ^ (16 + p.val)) := by
  decide

theorem cmppSend_eq (c : Core) {cd : Cond} (hcd : cd ∈ [Cond.eq, .ne, .lt, .ge, .cs, .cc, .mi]) (w : Bool) (p : Fin 4) (a b : Fin 16) :
    c.cmppSend cd w p a b = c.sendSr 1 (BitVec.ofNat 32 (2 ^ (4 + p.val) + 2 ^ (16 + p.val)))
      (if cmppHit cd (bitsOfW w) (c.aluReg w a.val).toNat (c.aluReg w b.val).toNat then BitVec.ofNat 32 (2 ^ (4 + p.val)) else 0) := by
  unfold Core.cmppSend
  dsimp only
  rw [flagsHold_aluApply (aluReg_lt c w a.val) (aluReg_lt c w b.val) hcd, predMask, predBit]
  rfl

theorem flagsHold_isSome (cd : Cond) : (flagsHold cd 0).isSome = decide (cd ∈ [Cond.eq, .ne, .lt, .ge, .cs, .cc, .mi]) := by
  cases cd <;> rfl

theorem cmppLegal_iff {cd : Cond} {w : Bool} {a b : Fin 16} : cmppLegal cd w a b = true ↔
    cd ∈ [Cond.eq, .ne, .lt, .ge, .cs, .cc, .mi] ∧ (w = true → evenReg a.val = true ∧ evenReg b.val = true) := by
  rw [cmppLegal, flagsHold_isSome, Bool.and_eq_true, decide_eq_true_iff]
  cases w <;> simp

/-! ### The obligation -/

section
variable {s t : State} {n : Nat} {k : Cond}

theorem exec_alu_false (h : Fetched s t n 2) (hp : (condPreds k).any (t.core n).pp = false) (hc : (t.core n).cond k = false)
    {f w : Bool} {d a : Fin 16} {b : AluSrc} (hl : aluLegal .full f w d a b = true) :
    ∀ e ∈ [Instr.add, Instr.sub, Instr.and, Instr.max], exec (e n k f w d a b) s = .next (t.modCore n (fun c => c.advance 2)) := by
  have halu (fn : AluFn) : aluExec fn .full n k f w d a b s = .next (t.modCore n (fun c => c.advance 2)) :=
    issue_false h hl hp hc (coreOnly n fun c => c.aluSend fn .full f w d a b)
  simp only [List.forall_mem_cons, List.not_mem_nil, false_imp_iff, implies_true, and_true]
  exact ⟨halu fnAdd, halu fnSub, halu fnAnd, halu fnMax⟩

end

/-- Settles O4: cmpp sends what the flags of the difference say, which the numbers give; the rest have a legal encoding and a false condition. -/
theorem predicatesAndConditions : Obligations.PredicatesAndConditions := by
  unfold Obligations.PredicatesAndConditions
  refine ⟨⟨fun s t n k cd w p a b h hcd heven => ?_, fun s t n k cd w p a b h hbad => ?_⟩,
    fun s t n k hissues hpeek hstart hclean hp hc f w d a b hl => ?_⟩
  · exact issue_coreOnly h (cmppLegal_iff.mpr ⟨hcd, heven⟩) rfl (cmppSend_eq _ hcd w p a b)
  · refine issue_illegal (ready_fetched h) (Bool.eq_false_iff.mpr fun hlegal => ?_) [] _
    obtain ⟨hcd, heven⟩ := cmppLegal_iff.mp hlegal
    exact hbad.elim (· hcd) fun hodd => hodd.2 (heven hodd.1)
  · have h : Fetched s t n 2 := ⟨hissues, hpeek, hstart, hclean⟩
    refine ⟨exec_alu_false h hp hc hl, fun rg an => ⟨?_, ?_⟩, ?_, fun code => ?_⟩
    · exact issue_false h rfl hp hc (storeBody .word n rg an.val 0 0)
    · exact issue_false h rfl hp hc (loadBody .word n rg an.val 0 0)
    · split
      · next hslot => exact issue_false h hslot hp hc (privileged n (rteBody n))
      · next hslot => exact issue_illegal h (Bool.eq_false_iff.mpr hslot) [] (privileged n (rteBody n))
    · exact issue_false h rfl hp hc (trapBody n code)

end Sys2Proof.Machine

/-! # Branches and hardware loops -/

namespace Sys2Proof.Machine
open Sys2Proof.Laws Sys2Proof.Safety

/-! ### The place in the program -/

theorem Core.deliver_pc (c : Core) (r : RegRef) (v : W64) : (c.deliver r v).pc = c.pc := by cases r <;> rfl

theorem Core.tick_pc (c : Core) : c.tick.pc = c.pc :=
  List.foldlRecOn (motive := fun (d : Core) => d.pc = c.pc) _ _ rfl fun d hd f _ => (d.deliver_pc f.ref f.val).trans hd

/-- What waits for its distance, results of registers aside, is one instruction nearer. -/
def Core.aged (c : Core) : Core :=
  { c with vpend := (c.vpend.filter (fun p => 1 < p.left)).map (fun p => { p with left := p.left - 1 })
           unfetched := (c.unfetched.filter (fun u => 1 < u.left)).map (fun u => { u with left := u.left - 1 }) }

/-- With no result on its way, an instruction that counts moves no register. -/
theorem Core.tick_idle {c : Core} (h : c.flight = []) : c.tick = c.aged := by
  simp only [Core.tick, Core.aged, h, List.filter_nil, List.map_nil, List.foldl_nil]

theorem Core.takeBranch_pc (c : Core) (len : Nat) (tgt : W64) : (c.takeBranch len tgt).pc = c.pc + BitVec.ofNat 64 len :=
  congrArg (· + _) (Core.tick_pc _)

/-- The instruction in a delay slot goes on at the target. -/
theorem Core.retire_slot {c : Core} {tgt : W64} (h : c.redirect = some tgt) (len : Nat) :
    (c.retire len).pc = tgt ∧ (c.retire len).redirect = none := by
  unfold Core.retire Core.advance
  dsimp only
  rw [h]
  exact ⟨rfl, rfl⟩

/-- With nothing on its way and no branch pending, an instruction ends with the test of the loop end. -/
theorem Core.retire_idle {c : Core} (hf : c.flight = []) (hr : c.redirect = none) (len : Nat) :
    c.retire len = c.loopEnd (Core.aged { c with prog := 0, slot := false, resumed := false }) (c.pc + BitVec.ofNat 64 len) := by
  have htick := Core.tick_idle (c := { c with prog := 0, slot := false, resumed := false }) hf
  unfold Core.retire Core.advance
  dsimp only
  rw [htick, hr]
  rfl

/-- What the end of an instruction that goes elsewhere leaves, when its own effect is on its core. -/
theorem finish_goto_modCore (n len : Nat) (t : State) (f : Core → Core) (pc : W64) :
    finish n len t (.goto (t.modCore n f) pc) = t.modCore n (fun c => { (f c).retire len with pc := pc }) :=
  t.modCore_modCore n f (fun c => { c.retire len with pc := pc })

theorem finish_branch_modCore (n len : Nat) (t : State) (f : Core → Core) (tgt : W64) :
    finish n len t (.branch (t.modCore n f) tgt) = t.modCore n (fun c => (f c).takeBranch len tgt) :=
  t.modCore_modCore n f (fun c => c.takeBranch len tgt)

/-! ### Taken branches -/

/-- The target of br as a number (R126). -/
theorem relTarget_eq (c : Core) (d : BitVec 22) : c.relTarget d = BitVec.ofInt 64 (c.pc.toNat + 2 * sval 22 d.toNat) := by
  rw [sval_toNat (by decide), BitVec.ofInt_add, BitVec.ofInt_mul]
  simp [Core.relTarget, BitVec.signExtend]

section
variable {s t : State} {n : Nat} {k : Cond}

/-- A branch to an instruction address is taken: the loops that it leaves end, and one instruction follows (R96, R103). -/
theorem issue_jumpTo (h : Ready s t n k 2) (hok : (t.core n).branchOk = true) {tgt : W64} (hf : t.fetchFault tgt = none) {body : State → Res}
    (hb : body t = jumpTo n tgt t) : issueAs n k 2 true Core.branchOk [] body s =
      .next (t.modCore n (fun c => (c.endLoops (pcOf tgt)).takeBranch 2 (pcOf tgt))) := by
  have hj : jumpTo n tgt t = .branch (t.modCore n (fun c => c.endLoops (pcOf tgt))) (pcOf tgt) := by simp [jumpTo, hf]
  rw [issueAs_ready h true Core.branchOk [] body hok rfl, hb, hj, finish_branch_modCore]

end

/-- Settles O6: a branch leaves its target behind the next instruction, which takes it; br and jmp both branch to their target. -/
theorem branchesHaveOneDelaySlot : Obligations.BranchesHaveOneDelaySlot := by
  unfold Obligations.BranchesHaveOneDelaySlot
  refine ⟨fun c len m tgt => ⟨(c.takeBranch_pc len tgt).trans (congrArg (· + _) c.tick_pc.symm), rfl, Core.retire_slot rfl m⟩,
    fun s t n k i tgt h hok hf hi => ?_⟩
  rcases hi with ⟨d, rfl, rfl⟩ | ⟨aa, rfl, rfl⟩
  · exact issue_jumpTo h hok hf (congrArg (jumpTo n · t) (relTarget_eq _ d))
  · exact issue_jumpTo h hok hf rfl

/-! ### The end of a loop body -/

theorem fld_lt {w : Nat} (x : BitVec w) (lo len : Nat) : fld x lo len < 2 ^ len := Nat.mod_lt _ (Nat.two_pow_pos len)

/-- A level that is not held, and the innermost one, ends: LA loses its bit, and LH stays (R79, R101). -/
theorem levels_end : ∀ la < 2 ^ 4, ∀ lh < 2 ^ 4, laLhOk la lh = true → levels lh < levels la →
    la % 2 ^ (levels la - 1) % 2 ^ 4 = la - 2 ^ (levels la - 1) ∧ lh % 2 ^ (levels la - 1) % 2 ^ 4 = lh := by decide

section
variable {c : Core} {i : Nat}

theorem Core.inner_some (h : c.inner = some i) : levels c.lh < levels c.la ∧ i = levels c.la - 1 := by
  unfold Core.inner at h
  split at h
  · next hlt => exact ⟨hlt, (Option.some.inj h).symm⟩
  · exact absurd h (by simp)

/-- The last instruction of a body that is to run again goes on at its start (R101). -/
theorem Core.loopEnd_again (hi : c.inner = some i) (hle : c.ler i = c.pc) (h : 1 < (c.lcr i).toNat) (c1 : Core) (next : W64) :
    c.loopEnd c1 next = { c1 with pc := pcOf (c.lsr i), lc := put 0 c1.lc i (c.lcr i - 1) } := by
  simp only [Core.loopEnd, hi, if_pos hle, if_pos h]

/-- The last instruction of a body that has run for the last time ends the level and goes on (R101). -/
theorem Core.loopEnd_last (hi : c.inner = some i) (hle : c.ler i = c.pc) (h : (c.lcr i).toNat ≤ 1) (c1 : Core) (next : W64) :
    c.loopEnd c1 next =
      { c1 with pc := next, lc := put 0 c1.lc i 0, sr := setFld (setFld c1.sr 24 4 (c1.la % 2 ^ i)) 20 4 (c1.lh % 2 ^ i) } := by
  simp only [Core.loopEnd, hi, if_pos hle, if_neg (Nat.not_lt.mpr h)]

theorem retire_again (hf : c.flight = []) (hr : c.redirect = none) (hi : c.inner = some i) (hle : c.ler i = c.pc) (h : 1 < (c.lcr i).toNat)
    (len : Nat) : (c.retire len).pc = pcOf (c.lsr i) ∧ (c.retire len).lcr i = c.lcr i - 1 ∧ (c.retire len).la = c.la ∧ (c.retire len).lh = c.lh := by
  rw [Core.retire_idle hf hr, Core.loopEnd_again hi hle h]
  exact ⟨rfl, look_put_same 0 c.lc i _, rfl, rfl⟩

theorem retire_last (hf : c.flight = []) (hr : c.redirect = none) (hi : c.inner = some i) (hle : c.ler i = c.pc) (hok : laLhOk c.la c.lh = true)
    (h : (c.lcr i).toNat ≤ 1) (len : Nat) : (c.retire len).pc = c.pc + BitVec.ofNat 64 len ∧ (c.retire len).lcr i = 0 ∧
      (c.retire len).la = c.la - 2 ^ i ∧ (c.retire len).lh = c.lh := by
  obtain ⟨hlt, rfl⟩ := Core.inner_some hi
  obtain ⟨hla, hlh⟩ := levels_end c.la (fld_lt _ _ _) c.lh (fld_lt _ _ _) hok hlt
  rw [Core.retire_idle hf hr, Core.loopEnd_last hi hle h]
  refine ⟨rfl, look_put_same 0 c.lc _ 0, ?_, ?_⟩
  · exact ((fld_setFld_ne _ _ _ _ (by decide)).trans (fld_setFld_same _ _ (by decide))).trans hla
  · exact (fld_setFld_same _ _ (by decide)).trans hlh

end

/-! ### Setting up a level -/

/-- The bit of a level in SR.LA. -/
theorem levelBit (i : Nat) : setBit (0 : W32) (24 + i) true = BitVec.ofNat 32 (2 ^ (24 + i)) := by
  rw [setBit_true]
  exact BitVec.zero_or

section
variable {s t : State} {n len : Nat} {k : Cond} {off : W64} {count : W32}

/-- What loop and loopi send (R98). -/
def Core.sendLevel (c : Core) (lev : Nat) (ls le : W64) (count : W32) : Core :=
  ((c.send 1 (.ls lev) ls).send 1 (.le lev) le).send 1 (.lc lev) (count.zeroExtend 64)

/-- A loop that nests where it stands sets up its level, or with a count of 0 goes on after its body (R98 to R100). -/
theorem loopBody_nests (hlev : levels (t.core n).la < 4)
    (hlt : ((t.core n).pc + BitVec.ofNat 64 len).toNat < ((t.core n).pc + 2 * off).toNat)
    (hnest : (t.core n).nestsIn ((t.core n).pc + BitVec.ofNat 64 len) ((t.core n).pc + 2 * off) = true) :
    let lev := levels (t.core n).la
    let regs (c : Core) := c.sendLevel lev ((t.core n).pc + BitVec.ofNat 64 len) ((t.core n).pc + 2 * off) count
    finish n len t (loopBody n len off count t) = if count = 0 then
        t.modCore n (fun c => { (regs c).retire len with
          pc := (t.core n).pc + 2 * off + BitVec.ofNat 64 (t.lengthAt n ((t.core n).pc + 2 * off)) })
      else after t n len (fun c => (regs c).sendSr 1 (BitVec.ofNat 32 (2 ^ (24 + lev))) (BitVec.ofNat 32 (2 ^ (24 + lev)))) := by
  intro lev regs
  have hbad : ¬(levels (t.core n).la = 4 ∨ ((t.core n).pc + 2 * off).toNat ≤ ((t.core n).pc + BitVec.ofNat 64 len).toNat ∨
      (!(t.core n).nestsIn ((t.core n).pc + BitVec.ofNat 64 len) ((t.core n).pc + 2 * off)) = true) := by
    rw [hnest]
    simp only [Bool.not_true, Bool.false_eq_true, or_false]
    omega
  unfold loopBody
  dsimp only
  rw [if_neg hbad, levelBit]
  split
  · exact finish_goto_modCore n len t regs _
  · exact finish_coreOnly n len _ t

end

/-- Settles O7: the end of the instruction at LEn tests the loop end, and both loop instructions set up their level by one body. -/
theorem hardwareLoops : Obligations.HardwareLoops := by
  unfold Obligations.HardwareLoops
  refine ⟨fun c len i hf hr hi hle hok => ⟨fun h => retire_again hf hr hi hle h len, fun h => retire_last hf hr hi hle hok h len⟩,
    fun s t n len k i count off h hslot hlev hform => ?_⟩
  intro ls le lev hlt hnest regs
  have hfin := congrArg (fun u => (.next u : Host.Outcome State Fault Refusal)) (loopBody_nests (count := count) hlev hlt hnest)
  rcases hform with ⟨dn, o, rfl, heven, rfl, rfl, rfl⟩ | ⟨m, o, rfl, rfl, rfl, rfl⟩
  · exact (issue_ready h _ [] _ (by rw [hslot, heven]; rfl) rfl).trans hfin
  · exact (issue_ready h _ [] _ hslot rfl).trans hfin

end Sys2Proof.Machine

/-! # The order in which results are delivered -/

namespace Sys2Proof.Machine
open Sys2Proof.Laws Sys2Proof.Safety

/-- The results on their way to a register: how many instructions are left, and the value. -/
def Core.pending (c : Core) (r : RegRef) : List (Nat × W64) := (c.flight.filter (fun f => f.ref = r)).map (fun f => (f.left, f.val))

/-- A register that a delivery writes whole: get reads it, and conv is what a delivered value makes of it. -/
structure Reads {α : Type} (r : RegRef) (get : Core → α) (conv : W64 → α) : Prop where
  /-- Only the register files count. -/
  frame : ∀ c c' : Core, c.d = c'.d → c.a = c'.a → get c = get c'
  same : ∀ (c : Core) (v : W64), get (c.deliver r v) = conv v
  other : ∀ (c : Core) (q : RegRef) (v : W64), q ≠ r → get (c.deliver q v) = get c

theorem reads_dreg (i : Nat) : Reads (.d i) (fun c => c.dreg i) (fun v => v.truncate 16) where
  frame c c' hd _ := congrArg (look 0 · i) hd
  same c v := look_put_same 0 c.d i _
  other c q v h := by
    cases q
    case d j => exact look_put_ne 0 c.d j i _ fun e => h (e ▸ rfl)
    all_goals rfl

theorem reads_areg (i : Nat) : Reads (.a i) (fun c => c.areg i) id where
  frame c c' _ ha := congrArg (look 0 · i) ha
  same c v := look_put_same 0 c.a i v
  other c q v h := by
    cases q
    case a j => exact look_put_ne 0 c.a j i v fun e => h (e ▸ rfl)
    all_goals rfl

/-! ### One instruction -/

/-- A result that is sent joins those on their way to its register, last. -/
theorem pending_send (c : Core) (d : Nat) (r : RegRef) (v : W64) : (c.send d r v).pending r = c.pending r ++ [(d, v)] := by
  simp [Core.pending, Core.send]

theorem pending_none {c : Core} {r : RegRef} (h : ∀ f ∈ c.flight, f.ref ≠ r) : c.pending r = [] := by
  simpa [Core.pending] using h

/-- An instruction that counts brings what stays on its way one nearer. -/
theorem pending_tick (c : Core) (r : RegRef) :
    c.tick.pending r = ((c.pending r).filter (fun e => 1 < e.1)).map (fun e => (e.1 - 1, e.2)) := by
  have hflight : c.tick.flight = (c.flight.filter (fun f => 1 < f.left)).map (fun f => { f with left := f.left - 1 }) := by
    refine List.foldlRecOn (motive := fun (d : Core) => d.flight = _) _ _ rfl fun d hd f _ => .trans ?_ hd
    cases f.ref <;> rfl
  unfold Core.pending
  rw [hflight, List.filter_map, List.filter_map, List.filter_filter, List.filter_filter, List.map_map, List.map_map]
  congr 1
  exact List.filter_congr fun f _ => Bool.and_comm _ _

section
variable {α : Type} {r : RegRef} {get : Core → α} {conv : W64 → α}

/-- Of the results that are delivered the last one to the register stays. -/
theorem get_foldl_deliver (hr : Reads r get conv) (due : List Flight) (c : Core) : get (due.foldl (fun c f => c.deliver f.ref f.val) c) =
    ((due.filter (fun f => f.ref = r)).map (fun f => (f.left, f.val))).foldl (fun _ e => conv e.2) (get c) := by
  induction due generalizing c with
  | nil => rfl
  | cons f fs ih =>
    rw [List.foldl_cons, ih]
    by_cases hf : f.ref = r
    · rw [List.filter_cons_of_pos (by simpa using hf), hf, hr.same]
      rfl
    · rw [List.filter_cons_of_neg (by simpa using hf), hr.other _ _ _ hf]

/-- What a register holds after an instruction that counts. -/
theorem get_tick (hr : Reads r get conv) (c : Core) :
    get c.tick = ((c.pending r).filter (fun e => e.1 ≤ 1)).foldl (fun _ e => conv e.2) (get c) := by
  have hdue : ((c.flight.filter (fun f => f.left ≤ 1)).filter (fun f => f.ref = r)).map (fun f => (f.left, f.val)) =
      (c.pending r).filter (fun e => e.1 ≤ 1) := by
    unfold Core.pending
    rw [List.filter_map, List.filter_filter, List.filter_filter]
    congr 1
    exact List.filter_congr fun f _ => Bool.and_comm _ _
  have hstart : get { c with flight := (c.flight.filter (fun f => 1 < f.left)).map (fun f => { f with left := f.left - 1 }) } = get c :=
    hr.frame _ _ rfl rfl
  rw [← hdue, ← hstart, ← get_foldl_deliver hr]
  exact hr.frame _ _ rfl rfl

/-! ### Several instructions -/

/-- Until the first of the results on its way is due, a register keeps its value. -/
theorem repeat_tick_waits (hr : Reads r get conv) (c : Core) {j : Nat} (h : ∀ e ∈ c.pending r, j < e.1) :
    get (Nat.repeat Core.tick j c) = get c ∧ (Nat.repeat Core.tick j c).pending r = (c.pending r).map (fun e => (e.1 - j, e.2)) := by
  induction j with
  | zero => simp [Nat.repeat]
  | succ j ih =>
    obtain ⟨hget, hpending⟩ := ih fun e he => Nat.lt_of_succ_lt (h e he)
    have hlater : ∀ e ∈ (Nat.repeat Core.tick j c).pending r, 1 < e.1 := by
      rw [hpending]
      intro e he
      obtain ⟨e', he', rfl⟩ := List.mem_map.mp he
      have := h e' he'
      dsimp only
      omega
    constructor
    · have hnone : ((Nat.repeat Core.tick j c).pending r).filter (fun e => e.1 ≤ 1) = [] := by
        simpa using hlater
      exact (get_tick hr _).trans (by rw [hnone]; exact hget)
    · refine (pending_tick _ _).trans ?_
      rw [List.filter_eq_self.mpr (by simpa using hlater), hpending, List.map_map]
      exact List.map_congr_left fun e _ => by simp [Nat.sub_sub]

/-- At the instruction where the first of them are due, the last one of those in program order stays; the others come nearer. -/
theorem repeat_tick_due (hr : Reads r get conv) (c : Core) {d : Nat} (hd : 0 < d) (h : ∀ e ∈ c.pending r, d ≤ e.1) :
    get (Nat.repeat Core.tick d c) = ((c.pending r).filter (fun e => e.1 = d)).foldl (fun _ e => conv e.2) (get c) ∧
    (Nat.repeat Core.tick d c).pending r = ((c.pending r).filter (fun e => d < e.1)).map (fun e => (e.1 - d, e.2)) := by
  obtain ⟨j, rfl⟩ : ∃ j, d = j + 1 := ⟨d - 1, by omega⟩
  obtain ⟨hget, hpending⟩ := repeat_tick_waits hr c (j := j) h
  constructor
  · refine (get_tick hr _).trans ?_
    rw [hget, hpending, List.filter_map, List.foldl_map]
    congr 1
    refine List.filter_congr fun e he => ?_
    have := h e he
    simp only [Function.comp_apply, decide_eq_decide]
    omega
  · refine (pending_tick _ _).trans ?_
    rw [hpending, List.filter_map, List.map_map]
    refine congr (congrArg _ ?_) (List.filter_congr fun e he => ?_)
    · funext e
      simp [Nat.sub_sub]
    · simp only [Function.comp_apply, decide_eq_decide]
      omega

/-- The one result on its way to a register is seen at its distance and not before (R91, R92). -/
theorem one_result (hr : Reads r get conv) {c : Core} {d : Nat} {v : W64} (hd : 0 < d) (h : c.pending r = [(d, v)]) :
    (∀ j < d, get (Nat.repeat Core.tick j c) = get c) ∧ get (Nat.repeat Core.tick d c) = conv v := by
  refine ⟨fun j hj => (repeat_tick_waits hr c (by simpa [h] using hj)).1, ?_⟩
  rw [(repeat_tick_due hr c hd (by simp [h])).1, h]
  simp

theorem get_send (hr : Reads r get conv) (c : Core) (d : Nat) (q : RegRef) (v : W64) : get (c.send d q v) = get c := hr.frame _ _ rfl rfl

/-- A result sent j instructions after another one that is still on its way. -/
theorem pending_two (hr : Reads r get conv) {c : Core} (h : c.pending r = []) {j x : Nat} (hx : 0 < x) (d : Nat) (v w : W64) :
    ((Nat.repeat Core.tick j (c.send (j + x) r v)).send d r w).pending r = [(x, v), (d, w)] := by
  have hone : (c.send (j + x) r v).pending r = [(j + x, v)] := by rw [pending_send, h]; rfl
  rw [pending_send, (repeat_tick_waits hr _ (by simpa [hone] using hx)).2, hone]
  simp

/-- The one result sent when none is on its way (R91, R92). -/
theorem sent_alone (hr : Reads r get conv) {c : Core} {d : Nat} (v : W64) (hd : 0 < d) (h : ∀ f ∈ c.flight, f.ref ≠ r) :
    (∀ j < d, get (Nat.repeat Core.tick j (c.send d r v)) = get c) ∧ get (Nat.repeat Core.tick d (c.send d r v)) = conv v := by
  have hone := one_result hr hd (c := c.send d r v) (v := v) (by rw [pending_send, pending_none h]; rfl)
  rwa [get_send hr] at hone

/-- Of two results due together the later one stays, and a shorter one stays until the older, longer one arrives (R93). -/
theorem sent_after (hr : Reads r get conv) {c : Core} {d : Nat} (j : Nat) (v w : W64) (hd : 0 < d) (h : ∀ f ∈ c.flight, f.ref ≠ r) :
    get (Nat.repeat Core.tick d ((Nat.repeat Core.tick j (c.send (j + d) r v)).send d r w)) = conv w ∧
    ∀ e, 0 < e → (let u := Nat.repeat Core.tick d ((Nat.repeat Core.tick j (c.send (j + d + e) r v)).send d r w)
      (∀ m < e, get (Nat.repeat Core.tick m u) = conv w) ∧ get (Nat.repeat Core.tick e u) = conv v) := by
  constructor
  · have htwo := pending_two hr (pending_none h) (j := j) hd d v w
    rw [(repeat_tick_due hr _ hd (by simp [htwo])).1, htwo]
    simp
  · intro e he
    have htwo := pending_two hr (pending_none h) (j := j) (Nat.add_pos_left hd e) d v w
    rw [← Nat.add_assoc] at htwo
    obtain ⟨hget, hleft⟩ := repeat_tick_due hr _ hd (fun x hx => by
      rw [htwo] at hx
      simp only [List.mem_cons, List.not_mem_nil, or_false] at hx
      rcases hx with rfl | rfl <;> simp)
    rw [htwo] at hget hleft
    have hw := hget.trans (show _ = conv w by simp [Nat.ne_of_gt he])
    obtain ⟨hwait, hdue⟩ := one_result hr he (hleft.trans (show _ = [(e, v)] by simp [he]))
    exact ⟨fun m hm => (hwait m hm).trans hw, hdue⟩

end

/-- Settles O5: the delivery of results, for data and for address registers. -/
theorem resultsAreDeliveredInOrder : Obligations.ResultsAreDeliveredInOrder := by
  unfold Obligations.ResultsAreDeliveredInOrder
  have hword (v : Word) : (v.zeroExtend 64).truncate 16 = v := BitVec.setWidth_setWidth_of_le v (by decide)
  refine ⟨fun c i d v hd h => ?_, fun c i d v hd h => sent_alone (reads_areg i) v hd h, fun c i j d v w hd h => ?_,
    fun c i j d v w hd h => sent_after (reads_areg i) j v w hd h⟩
  · have halone := sent_alone (reads_dreg i) (v.zeroExtend 64) hd h
    rwa [hword] at halone
  · have hafter := sent_after (reads_dreg i) j (v.zeroExtend 64) (w.zeroExtend 64) hd h
    rwa [hword, hword] at hafter

end Sys2Proof.Machine

/-! # Semaphore waits and takes -/

namespace Sys2Proof.Machine
open Sys2Proof.Laws Sys2Proof.Safety

/-! ### The semaphore that an instruction names -/

section
variable {s t : State} {n len j : Nat} {k : Cond} {a : W64} {ctx mayRemote : Bool}

/-- An address that names a semaphore or context of this module lies in the window of those (R348, Table 12-4). -/
theorem combTarget_range {b : W64} (h : t.combTarget a ctx mayRemote = .here b) :
    ¬(localOf a < (if ctx then combBase + 0x100000 else combBase) ∨
      (if ctx then combBase + 0x100000 else combBase) + (if ctx then 0x20000 else 0x100000) ≤ localOf a) := by
  intro hout
  have hbad : t.combTarget a ctx mayRemote = .bad .busError := if_pos hout
  exact absurd (h.symm.trans hbad) (by simp)

/-- An instruction that names a semaphore or context here, with no translation, has its effect on that one (R348). -/
theorem combInstr_here (h : NamesHere t n a ctx mayRemote j) (write : Bool) {remoteOp : Option Nat} (hr : remoteOp.isSome = mayRemote) (v : W32)
    (body : Nat → State → Res) : combInstr n a ctx write remoteOp v body t = body j t := by
  obtain ⟨hhere, hxl, rfl⟩ := h
  unfold combInstr
  rw [hr, hhere]
  unfold combHere
  dsimp only
  rw [hxl, if_neg (combTarget_range hhere)]
  rfl

/-- sem.wait, sem.take and their long forms act on the semaphore that they name, whatever errors lay in it (R342). -/
theorem semHold_here (hu : t.upsets = []) (an : Fin 8) (h : NamesHere t n ((t.core n).areg an.val) false false j) (take : Bool) (v : Core → W32) :
    semHold n take an v t = combWaited n j false ((t.core n).areg an.val) t
      (if take then t.semTake n j (v (t.core n)) else t.semWait n j (v (t.core n))) := by
  unfold semHold
  dsimp only
  rw [combInstr_here h take rfl, State.readSem_none t j hu]

/-! ### Waits and takes that end at once or hold -/

section
variable {v : W32} (hmark : (t.sem j).mark = false) (hmax : v.toNat ≤ 0x7FFFFFFF)
include hmark hmax

theorem semWait_now (hv : v.toNat ≤ (t.sem j).count.toNat) : t.semWait n j v = .ok (t, true) := by
  have hlow : ¬semMax < v.toNat := Nat.not_lt.mpr hmax
  simp [State.semWait, hlow, hmark, hv]

theorem semWait_joins (hv : (t.sem j).count.toNat < v.toNat) :
    t.semWait n j v = .ok (t.setSem j { t.sem j with waits := (t.sem j).waits ++ [(n, v)] }, false) := by
  have hlow : ¬semMax < v.toNat := Nat.not_lt.mpr hmax
  simp [State.semWait, hlow, hmark, Nat.not_le.mpr hv]

theorem semTake_now (hfifo : (t.sem j).fifo = []) (hv : v.toNat ≤ (t.sem j).count.toNat) :
    t.semTake n j v = .ok (t.semStore j { t.sem j with count := (t.sem j).count - v }, true) := by
  have hlow : ¬semMax < v.toNat := Nat.not_lt.mpr hmax
  simp only [State.semTake, if_neg hlow, hmark, Bool.false_eq_true, if_false, if_pos (And.intro hfifo hv)]

theorem semTake_joins (hv : (t.sem j).fifo ≠ [] ∨ (t.sem j).count.toNat < v.toNat) :
    t.semTake n j v = .ok (t.setSem j { t.sem j with fifo := (t.sem j).fifo ++ [(n, v)] }, false) := by
  have hlow : ¬semMax < v.toNat := Nat.not_lt.mpr hmax
  have hwait : ¬((t.sem j).fifo = [] ∧ v.toNat ≤ (t.sem j).count.toNat) := fun h => hv.elim (· h.1) (Nat.not_lt.mpr h.2)
  simp only [State.semTake, if_neg hlow, hmark, Bool.false_eq_true, if_false, if_neg hwait]

end

/-- A wait that ends at once completes, and the run-ahead data go (R295). -/
theorem finish_wait_over (n len j : Nat) (ctx : Bool) (a : W64) (t u : State) :
    finish n len t (combWaited n j ctx a t (.ok (u, true))) = after u n len (fun c => { c with runAhead := [] }) :=
  finish_coreOnly n len (fun c => { c with runAhead := [] }) u

/-- A wait that does not holds the core, clock-gated (R106). -/
theorem finish_wait_held (n len j : Nat) (ctx : Bool) (a : W64) (t u : State) :
    finish n len t (combWaited n j ctx a t (.ok (u, false))) = holding (u.gate n) n len (.wait false ctx j) :=
  (u.gate n).modCore_modCore n (fun c => { c with hold := some (.wait false ctx j) }) (fun c => { c with hlen := len })

/-- The short and the long form of a wait or take. -/
inductive SemForm (c : Core) (an : Fin 8) (n : Nat) (k : Cond) (take : Bool) (v : W32) : Nat → Instr → Prop
  | short (dn : Fin 16) (heven : evenReg dn.val = true) (hv : v = c.dpair dn.val) :
      SemForm c an n k take v 2 (if take then .semTake n k an dn else .semWait n k an dn)
  | long : SemForm c an n k take v 4 (if take then .semTakei n k an v else .semWaiti n k an v)

/-- Both forms do the same with their N. -/
theorem exec_semForm (h : Ready s t n k len) {an : Fin 8} (hj : NamesHere t n ((t.core n).areg an.val) false false j) {take : Bool} {v : W32} {i : Instr}
    (hi : SemForm (t.core n) an n k take v len i) : exec i s = .next (finish n len t (combWaited n j false ((t.core n).areg an.val) t
      (if take then t.semTake n j v else t.semWait n j v))) := by
  cases hi with
  | short dn heven hv =>
    subst hv
    rw [← semHold_here (ready_upsets h) an hj take (fun c => c.dpair dn.val)]
    cases take <;> exact issue_ready h (fun _ => evenReg dn.val) [] (semHold n _ an fun c => c.dpair dn.val) heven rfl
  | long =>
    rw [← semHold_here (ready_upsets h) an hj take (fun _ => v)]
    cases take <;> exact issue_ready h (fun _ => true) [] (semHold n _ an fun _ => v) rfl rfl

end

/-! ### Serving a semaphore -/

/-- The take FIFO is served from its head for as long as the count allows. -/
theorem serveTakes_spec (fifo : List (Nat × W32)) (c : W32) : ∃ taken, fifo = taken ++ (serveTakes c fifo).2.1 ∧
    (serveTakes c fifo).1.toNat + (taken.map (fun e => e.2.toNat)).sum = c.toNat ∧ (serveTakes c fifo).2.2 = taken.map (·.1) ∧
    ∀ e, (serveTakes c fifo).2.1.head? = some e → (serveTakes c fifo).1.toNat < e.2.toNat := by
  induction fifo generalizing c with
  | nil => exact ⟨[], rfl, rfl, rfl, fun e he => absurd he (by simp [serveTakes])⟩
  | cons x fifo ih =>
    obtain ⟨core, v⟩ := x
    by_cases hv : v.toNat ≤ c.toNat
    · obtain ⟨taken, hfifo, hsum, hcores, hhead⟩ := ih (c - v)
      have hserve : serveTakes c ((core, v) :: fifo) =
          ((serveTakes (c - v) fifo).1, (serveTakes (c - v) fifo).2.1, core :: (serveTakes (c - v) fifo).2.2) := by simp [serveTakes, hv]
      have hsub : (c - v).toNat = c.toNat - v.toNat := BitVec.toNat_sub_of_le hv
      rw [hserve]
      refine ⟨(core, v) :: taken, by rw [List.cons_append, ← hfifo], ?_, by rw [hcores]; rfl, hhead⟩
      calc (serveTakes (c - v) fifo).1.toNat + (v.toNat + (taken.map (fun e => e.2.toNat)).sum)
          = (c - v).toNat + v.toNat := by omega
        _ = c.toNat := by omega
    · have hserve : serveTakes c ((core, v) :: fifo) = (c, (core, v) :: fifo, []) := by simp [serveTakes, hv]
      rw [hserve]
      exact ⟨[], rfl, rfl, rfl, fun e he => Option.some.inj he ▸ Nat.lt_of_not_le hv⟩

/-- Settles O18: both forms of a wait and of a take come to the same operation; the FIFO is served by induction on it. -/
theorem semaphoreWaiting : Obligations.SemaphoreWaiting := by
  unfold Obligations.SemaphoreWaiting
  constructor
  · intro s t n len k an dn imm v j h hj hmark hmax q form
    have hform (take : Bool) {i : Instr} (hi : form (if take then .semTake n k an dn else .semWait n k an dn)
        (if take then .semTakei n k an imm else .semWaiti n k an imm) i) : SemForm (t.core n) an n k take v len i := by
      rcases hi with ⟨rfl, heven, hv, rfl⟩ | ⟨rfl, rfl, rfl⟩
      · exact .short dn heven hv
      · exact .long
    refine ⟨fun i hi => ⟨fun hv => ?_, fun hv => ?_⟩, fun i hi => ⟨fun hfifo hv => ?_, fun hv => ?_⟩⟩
    · rw [exec_semForm h hj (hform false hi), if_neg Bool.false_ne_true, semWait_now hmark hmax hv, finish_wait_over]
    · rw [exec_semForm h hj (hform false hi), if_neg Bool.false_ne_true, semWait_joins hmark hmax hv, finish_wait_held]
    · rw [exec_semForm h hj (hform true hi), if_pos rfl, semTake_now hmark hmax hfifo hv, finish_wait_over]
    · rw [exec_semForm h hj (hform true hi), if_pos rfl, semTake_joins hmark hmax hv, finish_wait_held]
  · intro q r taken
    obtain ⟨taken', hfifo, hsum, hcores, hhead⟩ := serveTakes_spec q.fifo q.count
    have htaken : taken = taken' := by
      have hlen := congrArg List.length hfifo
      rw [List.length_append] at hlen
      refine .trans ?_ (List.take_left' (l₂ := (serveTakes q.count q.fifo).2.1) rfl)
      exact congr (congrArg List.take (by show _ - (serveTakes q.count q.fifo).2.1.length = _; omega)) hfifo
    rw [htaken]
    exact ⟨rfl, hfifo, hsum, hhead, congrArg (_ ++ ·) hcores, rfl⟩

end Sys2Proof.Machine

/-! # Control of a core -/

namespace Sys2Proof.Machine
open Sys2Proof.Laws Sys2Proof.Safety

section
variable {a s t : State} {src : Src} {n : Nat}

/-- A write of a register of core n that does not wait. -/
theorem exec_coreWrite (hon : On s) (ht : InTurn s src) (hn : n < 192) (i : HostRow) (f : State → State) :
    command (fun s => s.inTurn src i (fun s => if n < 192 then f s else s)) s = .next (f s) :=
  (command_inTurn hon ht i _).trans (congrArg _ (if_pos hn))

/-! ### Halting -/

/-- Serving a semaphore leaves a core that holds nothing as it is. -/
theorem semStore_core (hu : s.upsets = []) (h : (s.core n).hold = none) (k : Nat) (q : Sem) : (s.semStore k q).core n = s.core n :=
  (CoreResetKept.refl (n := n + 1) hu).semStore.core n (Nat.ne_of_lt n.lt_succ_self) h

theorem wake_core (s : State) (n : Nat) : (s.wake n).core n = { s.core n with gated := false, gheld := false } := by
  have hmod := s.core_modCore n fun c => { c with gated := false, gheld := false }
  unfold State.wake
  dsimp only
  split <;> exact hmod

/-- What is left of what a core holds on when it is halted: a fence, an mcopy and a Comb wait are given up (R109, R148). -/
def haltHold (h : Option Hold) : Option Hold := match h with
  | some (.fence _) => none
  | some .mcopy => none
  | some (.wait false _ _) => none
  | h => h

/-- A halted core's dispatch state (R109, Table 11-5). -/
def haltDst (d : Dst) : Dst := match d with
  | .run => .off
  | .idle => .off
  | .task => .paused
  | d => d

/-- Core c with its wait withdrawn. -/
def Core.unwaiting (c : Core) : Core := { c with gated := false, gheld := false, hold := none }

/-- Withdrawing the Comb wait of a core that holds on one. -/
theorem withdraw_core (hu : s.upsets = []) {ctx : Bool} {k : Nat} (h : (s.core n).hold = some (.wait false ctx k)) :
    (s.withdraw n).core n = (s.core n).unwaiting := by
  have hcore : ((s.wake n).modCore n (fun c => { c with hold := none })).core n = (s.core n).unwaiting := by
    rw [State.core_modCore, wake_core]
    rfl
  have hnone : ((s.wake n).modCore n (fun c => { c with hold := none })).upsets = [] :=
    (CoreResetKept.refl (n := n) hu |>.wake (.inl rfl)).upsets
  unfold State.withdraw
  rw [h]
  cases ctx
  · dsimp only
    rw [State.readSem_none s k hu, semStore_core hnone (by rw [hcore]; rfl), hcore]
  · dsimp only
    rw [State.readCtx_none s k hu]
    exact hcore

theorem withdraw_other (h : ∀ ctx k, (s.core n).hold ≠ some (.wait false ctx k)) : s.withdraw n = s := by
  unfold State.withdraw
  split
  · next hold => exact absurd hold (h false _)
  · next hold => exact absurd hold (h true _)
  · rfl

/-- A core gives up the fence or the mcopy that it holds on. -/
def Core.giveUp (c : Core) : Core := match c.hold with
  | some (.fence _) => { c with hold := none }
  | some .mcopy => { c with hold := none, fops := c.fops.map (fun f => if f.placed then f else match f.kind with
      | .mcopy _ _ _ _ _ => { f with cut := true }
      | .setter _ => f) }
  | _ => c

theorem State.abandon_eq (s : State) (n : Nat) : s.abandon n = (s.withdraw n).modCore n Core.giveUp := rfl

theorem giveUp_eq (c : Core) {h : Option Hold} (hw : ∀ ctx k, h ≠ some (.wait false ctx k)) :
    ∃ fops, Core.giveUp { c with hold := h } = { c with fops := fops, hold := haltHold h } := by
  rcases h with _ | x
  · exact ⟨_, rfl⟩
  · cases x with
    | wait released ctx k =>
      cases released
      · exact absurd rfl (hw ctx k)
      · exact ⟨_, rfl⟩
    | _ => exact ⟨_, rfl⟩

/-- What becomes of a core that gives up what it holds on: its clock, its feeder operations and the hold alone change. -/
theorem abandon_core (hu : s.upsets = []) (n : Nat) : ∃ gated gheld fops, (s.abandon n).core n =
    { s.core n with gated := gated, gheld := gheld, fops := fops, hold := haltHold (s.core n).hold } := by
  rw [State.abandon_eq, State.core_modCore]
  by_cases h : ∃ ctx k, (s.core n).hold = some (.wait false ctx k)
  · obtain ⟨ctx, k, h⟩ := h
    rw [withdraw_core hu h, h]
    exact ⟨_, _, _, rfl⟩
  · have hw (ctx : Bool) (k : Nat) : (s.core n).hold ≠ some (.wait false ctx k) := fun e => h ⟨ctx, k, e⟩
    obtain ⟨fops, hgive⟩ := giveUp_eq (s.core n) hw
    rw [withdraw_other hw]
    exact ⟨_, _, fops, hgive⟩

/-- A core whose dispatch state is that of a halted one. -/
def Core.halted (c : Core) : Core := match c.dst with
  | .run => { c with dst := .off }
  | .idle => { c with dst := .off }
  | .task => { c with dst := .paused }
  | _ => c

theorem State.haltCore_eq (s : State) (n : Nat) : s.haltCore n = ((s.abandon n).setFldReg (rRun n) 0 1 1).modCore n Core.halted := rfl

theorem halted_eq (c : Core) : c.halted = { c with dst := haltDst c.dst } := by
  have hcases (d : Dst) : Core.halted { c with dst := d } = { c with dst := haltDst d } := by cases d <;> rfl
  exact hcases c.dst

/-- What becomes of a core that is halted. -/
theorem haltCore_core (hu : s.upsets = []) (n : Nat) : ∃ gated gheld fops, (s.haltCore n).core n =
    { s.core n with gated := gated, gheld := gheld, fops := fops, hold := haltHold (s.core n).hold, dst := haltDst (s.core n).dst } := by
  obtain ⟨gated, gheld, fops, hcore⟩ := abandon_core hu n
  have hhalt : (s.haltCore n).core n = ((s.abandon n).core n).halted := State.core_modCore _ _ _
  rw [hhalt, hcore]
  exact ⟨gated, gheld, fops, halted_eq _⟩

theorem haltCore_run (s : State) (n : Nat) : (s.haltCore n).bitReg (rRun n) 0 = true :=
  bitReg_setFldReg (s.abandon n) (rRun n) (by decide) 1 0

theorem haltCore_mem (hu : s.upsets = []) (n : Nat) : (s.haltCore n).mem = s.mem := (CoreResetKept.refl (n := n) hu).withdraw.mem

/-! ### Resuming and the software interrupt -/

/-- A core that is resumed (R323). -/
def Core.restarted (c : Core) : Core := match c.dst with
  | .off => { c with dst := .run, tended := false }
  | .paused => { c with dst := .task }
  | _ => c

theorem resumeCore_eq (hr : (s.core n).resetting = false) : s.resumeCore n = (s.setFldReg (rRun n) 0 1 0).modCore n Core.restarted := by
  rw [State.resumeCore, hr]
  rfl

theorem restarted_eq (c : Core) (d : Dst) : Core.restarted { c with dst := d } = { c with
    dst := (match d with
      | .off => .run
      | .paused => .task
      | d => d)
    tended := c.tended && d != .off } := by
  cases d <;> simp [Core.restarted]

theorem swi_eq (s : State) (n : Nat) (w : W32) :
    s.swi n w = if w.getLsbD 0 then s.modCore n (fun c => { c with ipend := c.ipend ||| 8 }) else s := by
  have hbit (c : Core) : setBit c.ipend 3 true = c.ipend ||| 8 := setBit_true _ 3
  simp only [State.swi, State.pend, hbit]

end

/-! ### Resetting -/

/-- From a to s no register of MMIO changes, and no error lies in a table. -/
structure RegsKept (a s : State) : Prop where
  regs : s.regs = a.regs
  upsets : s.upsets = []

section
variable {a s t : State} {n : Nat}

theorem RegsKept.same (h : RegsKept a s) (hregs : t.regs = s.regs := by rfl) (hupsets : t.upsets = s.upsets := by rfl) : RegsKept a t :=
  ⟨hregs.trans h.regs, hupsets.trans h.upsets⟩

theorem RegsKept.ite {c : Prop} [Decidable c] (hs : RegsKept a s) (ht : RegsKept a t) : RegsKept a (if c then s else t) := by
  split
  · exact hs
  · exact ht

theorem RegsKept.foldl {α : Type} {f : State → α → State} {xs : List α} (h : RegsKept a s) (hf : ∀ t x, RegsKept a t → RegsKept a (f t x)) :
    RegsKept a (xs.foldl f s) := foldl_keeps (RegsKept a) f hf xs s h

theorem RegsKept.modCore {f : Core → Core} (h : RegsKept a s) : RegsKept a (s.modCore n f) := h.same
theorem RegsKept.addSum {k v : Nat} (h : RegsKept a s) : RegsKept a (s.addSum k v) := h.same
theorem RegsKept.readSem {k : Nat} (h : RegsKept a s) : RegsKept a (s.readSem k) := by rwa [State.readSem_none s k h.upsets]
theorem RegsKept.readCtx {b : Nat} (h : RegsKept a s) : RegsKept a (s.readCtx b) := by rwa [State.readCtx_none s b h.upsets]

theorem RegsKept.gate (h : RegsKept a s) : RegsKept a (s.gate n) := by
  unfold State.gate
  dsimp only
  split <;> exact h.same

theorem RegsKept.wake (h : RegsKept a s) : RegsKept a (s.wake n) := by
  unfold State.wake
  dsimp only
  split <;> exact h.same

theorem RegsKept.releaseCore (h : RegsKept a s) : RegsKept a (s.releaseCore n) := by
  unfold State.releaseCore
  split
  · exact h.wake.modCore
  · exact h

theorem RegsKept.semStore {k : Nat} {q : Sem} (h : RegsKept a s) : RegsKept a (s.semStore k q) := by
  have hset : RegsKept a (s.setSem k q.serve.1) := h.same
  have hover : RegsKept a ((s.setSem k q.serve.1).over (fun x => x == .sem k)) := by rwa [State.over_none _ _ hset.upsets]
  exact hover.foldl fun _ _ ht => ht.releaseCore

theorem RegsKept.withdraw (h : RegsKept a s) : RegsKept a (s.withdraw n) := by
  unfold State.withdraw
  split
  · exact h.readSem.wake.modCore.semStore
  · exact h.readCtx.wake.same
  · exact h

theorem RegsKept.clearTask (h : RegsKept a s) : RegsKept a (s.clearTask n) := .ite (h.foldl fun _ _ ht => ht.readSem.same) h

theorem RegsKept.timed {task : Task} (h : RegsKept a s) : RegsKept a (s.timed n task).1 := by
  unfold State.timed
  split
  · exact h
  · exact h.same

theorem RegsKept.closeTask (h : RegsKept a s) : RegsKept a (s.closeTask n) := by
  unfold State.closeTask
  split
  · exact h
  · exact .ite h h.timed.modCore

theorem RegsKept.closeEnded (h : RegsKept a s) : RegsKept a (s.closeEnded n) := by
  refine .ite h (RegsKept.modCore ?_)
  refine List.foldlRecOn (motive := fun (p : State × List Task) => RegsKept a p.1) _ _ h fun p hp task _ => ?_
  split
  · exact hp
  · exact hp.timed

theorem RegsKept.settleCore (h : RegsKept a s) : RegsKept a (s.settleCore n) := .ite h.closeTask.closeEnded.gate h.closeTask.closeEnded

/-- A core that was reset waits at CORE_START, with nothing of what it did but its clock and the records to come (Table 3-13). -/
theorem resetCore_start (hu : s.upsets = []) (n : Nat) : ∃ c ended, (s.resetCore n).core n =
    { Core.afterReset c (BitVec.ofNat 64 (winBase + s.fldReg (rStart n) 0 20)) with ended := ended } := by
  unfold State.resetCore
  extract_lets t c s1 s2 gone s3 pc after s4 s5
  have ht : RegsKept s t := RegsKept.settleCore ⟨rfl, hu⟩
  have h1 : RegsKept s s1 := by
    unfold s1
    split
    · exact .ite ht ht.addSum
    · exact ht
  have h3 : RegsKept s s3 := RegsKept.clearTask h1.modCore.withdraw.same
  have hpc : pc = BitVec.ofNat 64 (winBase + s.fldReg (rStart n) 0 20) := by
    unfold pc
    rw [State.fldReg, State.reg, h3.regs]
    rfl
  have h4 : s4.core n = { c.afterReset pc with ended := c.ended ++ (c.task.map Task.byReset).toList } := State.core_setCore _ _ _
  have h5 : s5.core n = s4.core n := (withIrq_aside (.core n) (fun (s : State) => s.setReg (pageBase (.core n) + oErr) 0) s4).same (fun t => t.core n)
  rw [← hpc]
  exact ⟨c, _, h5.trans h4⟩

/-- The registers of its page that a core reset clears (Table 3-13). -/
theorem resetCore_regs (s : State) (n : Nat) : (s.resetCore n).reg (rStopinfo n) = 0 ∧ (s.resetCore n).reg (rNf n) = 0 ∧
    (s.resetCore n).reg (pageBase (.core n) + oErr) = 0 := by
  unfold State.resetCore
  extract_lets t c s1 s2 gone s3 pc after s4 s5
  have herr : s5.reg (pageBase (.core n) + oErr) = 0 :=
    (withIrq_reg_ne (.core n) _ s4 (by simp only [oErr, oIrq]; omega)).trans (State.reg_setReg _ _ _)
  have hplaces : rStopinfo n ≠ rRun n ∧ rStopinfo n ≠ rNf n ∧ rNf n ≠ rRun n ∧ pageBase (.core n) + oErr ≠ rRun n ∧
      pageBase (.core n) + oErr ≠ rNf n ∧ pageBase (.core n) + oErr ≠ rStopinfo n := by
    simp only [rStopinfo, rRun, rNf, pageBase, oErr]
    omega
  obtain ⟨hsr, hsn, hnr, her, hen, hes⟩ := hplaces
  refine ⟨?_, ?_, ?_⟩
  · rw [State.reg_setFldReg_ne _ _ _ _ _ _ hsr, State.reg_setReg_ne _ _ _ _ hsn, State.reg_setReg]
  · rw [State.reg_setFldReg_ne _ _ _ _ _ _ hnr, State.reg_setReg]
  · rw [State.reg_setFldReg_ne _ _ _ _ _ _ her, State.reg_setReg_ne _ _ _ _ hen, State.reg_setReg_ne _ _ _ _ hes, herr]

end

/-- Settles O26: halting, resuming and resetting act on the core and its registers as the lemmas above say. -/
theorem coreControl : Obligations.CoreControl := by
  unfold Obligations.CoreControl
  intro s src n hon ht hn
  have hu := hon.2
  refine ⟨?_, fun hr => ?_, fun w hkey hbit hr => ?_, fun w hw => ?_, fun hr => ?_, fun w => ?_⟩
  · obtain ⟨gated, gheld, fops, hcore⟩ := haltCore_core hu n
    refine ⟨s.haltCore n, exec_coreWrite hon ht hn (.coreHalt n) (fun s => s.haltCore n), haltCore_run s n, ?_⟩
    rw [hcore]
    exact ⟨rfl, rfl, rfl, rfl, rfl, rfl, rfl, rfl, haltCore_mem hu n⟩
  · refine (exec_coreWrite hon ht hn (.coreResume n) (fun s => s.resumeCore n)).trans (congrArg _ ?_)
    exact (resumeCore_eq hr).trans (congrArg (State.modCore _ n) (funext fun c => restarted_eq c c.dst))
  · obtain ⟨c, ended, hcore⟩ := resetCore_start hu n
    obtain ⟨hstop, hnf, herr⟩ := resetCore_regs s n
    refine ⟨s.resetCore n, (exec_coreWrite hon ht hn (.coreReset n w) (fun s => s.coreResetWrite n w)).trans (congrArg _ ?_), ?_⟩
    · exact if_pos ⟨hkey, hbit, by rw [hr]; rfl⟩
    · rw [hcore]
      exact ⟨rfl, rfl, rfl, rfl, rfl, rfl, rfl, rfl, rfl, rfl, rfl, rfl, rfl, rfl, resetCore_run s n, hstop, hnf, herr,
        (CoreResetKept.refl hu).resetCore.mem⟩
  · refine (exec_coreWrite hon ht hn (.coreReset n w) (fun s => s.coreResetWrite n w)).trans (congrArg _ (if_neg fun h => ?_))
    exact hw.elim (· h.1) fun h0 => Bool.noConfusion (h0.symm.trans h.2.1)
  · exact (command_on _ s hon).trans (congrArg _ ((if_pos hn).trans (if_pos hr)))
  · exact (exec_coreWrite hon ht hn (.coreSwi n w) (fun s => s.swi n w)).trans (congrArg _ (swi_eq s n w))

end Sys2Proof.Machine

/-! # Writing one element of a vector group -/

namespace Sys2Proof.Machine
open Sys2Proof.Laws Sys2Proof.Safety

/-! ### Runs of a table -/

section
variable {α : Type} [DecidableEq α] (d : α)

theorem look_putRun_out {k : Nat} (vs : List α) (m : Store α) {i : Nat} (h : k < i ∨ i + vs.length ≤ k) :
    look d (putRun d m i vs) k = look d m k := by
  induction vs generalizing m i with
  | nil => rfl
  | cons v vs ih =>
    rw [List.length_cons] at h
    rw [putRun, ih _ (by omega), look_put_ne d m i k v (by omega)]

theorem lookRun_putRun (vs : List α) (m : Store α) (i : Nat) : lookRun d (putRun d m i vs) i vs.length = vs := by
  induction vs generalizing m i with
  | nil => rfl
  | cons v vs ih =>
    rw [List.length_cons, lookRun, putRun, ih, look_putRun_out d vs _ (.inl i.lt_succ_self), look_put_same]

omit [DecidableEq α] in
theorem lookRun_congr {m m' : Store α} (n : Nat) {i : Nat} (h : ∀ k, i ≤ k → k < i + n → look d m k = look d m' k) :
    lookRun d m i n = lookRun d m' i n := by
  induction n generalizing i with
  | zero => rfl
  | succ n ih => rw [lookRun, lookRun, h i (Nat.le_refl i) (by omega), ih fun k hk hk' => h k (by omega) (by omega)]

end

theorem length_wordsOfNat (n x : Nat) : (wordsOfNat n x).length = n := by
  induction n generalizing x with
  | zero => rfl
  | succ n ih => rw [wordsOfNat, List.length_cons, ih]

theorem natOfWords_wordsOfNat (n : Nat) {x : Nat} (h : x < 65536 ^ n) : natOfWords (wordsOfNat n x) = x := by
  induction n generalizing x with
  | zero => rw [pow_zero, Nat.lt_one_iff] at h; rw [h]; rfl
  | succ n ih =>
    have hx : x / 65536 < 65536 ^ n := Nat.div_lt_of_lt_mul (by rwa [← Nat.pow_succ'])
    rw [wordsOfNat, natOfWords, ih hx, BitVec.toNat_ofNat]
    exact Nat.mod_add_div x 65536

/-! ### The widths of elements -/

theorem sew_cases (c : Core) : c.sew = 8 ∨ c.sew = 16 ∨ c.sew = 32 ∨ c.sew = 64 := by
  unfold Core.sew etSew
  grind

/-- A group holds VLMAX elements, which fill it (R159, R160). -/
theorem vlmax_mul_sew (c : Core) : c.vlmax * c.sew = 4096 * c.grp := by
  unfold Core.vlmax
  rcases sew_cases c with h | h | h | h <;> rw [h] <;> omega

/-- The scalar operand is a value of SEW bits (R165). -/
theorem vscalar_lt (c : Core) (d : Nat) : c.vscalar d < 2 ^ c.sew := by
  unfold Core.vscalar
  rcases sew_cases c with h | h | h | h
  · rw [if_pos h, h]
    exact Nat.mod_lt _ (by decide)
  · rw [if_neg (by rw [h]; decide), if_pos h, h]
    exact (c.dreg d).isLt
  · rw [if_neg (by rw [h]; decide), if_neg (by rw [h]; decide), if_pos h, h]
    exact (c.dpair d).isLt
  · rw [if_neg (by rw [h]; decide), if_neg (by rw [h]; decide), if_neg (by rw [h]; decide), h]
    exact (c.dquad d).isLt

/-! ### An element's bits -/

/-- The widths of whole elements: a byte, or some words. -/
def ElWidth (w : Nat) : Prop := w = 8 ∨ 16 ≤ w ∧ w % 16 = 0

theorem elWidth_sew (c : Core) : ElWidth c.sew := by
  have hsew := sew_cases c
  unfold ElWidth
  omega

/-- An element of some words lies in as many words of its own. -/
theorem wide_place {w : Nat} (hw : w % 16 = 0) (i : Nat) : i * w / 16 = i * (w / 16) := Nat.mul_div_assoc i (Nat.dvd_of_mod_eq_zero hw)

section
variable (c : Core) (e : VEl)

/-- The words of the register file that an element's bits lie in. -/
def VEl.place (e : VEl) : Nat := 256 * e.reg + e.i * e.w / 16

theorem putEl_byte (hw : e.w = 8) :
    c.putEl e = { c with v := put 0 c.v e.place (setFld (look 0 c.v e.place) (8 * (e.i % 2)) 8 e.val) } := by
  unfold Core.putEl VEl.place
  dsimp only
  rw [hw, if_pos (by decide)]

theorem putEl_wide (hw : 16 ≤ e.w) : c.putEl e = { c with v := putRun 0 c.v e.place (wordsOfNat (e.w / 16) e.val) } :=
  if_neg (Nat.not_lt.mpr hw)

theorem vel_byte (r j : Nat) : c.vel r 8 j = fld (look 0 c.v (256 * r + j * 8 / 16)) (8 * (j % 2)) 8 := rfl

theorem vel_wide (r j : Nat) {w : Nat} (hw : 16 ≤ w) : c.vel r w j = natOfWords (lookRun 0 c.v (256 * r + j * w / 16) (w / 16)) :=
  if_neg (Nat.not_lt.mpr hw)

/-- Writing an element leaves every word outside it as it is. -/
theorem look_putEl_out (hw : ElWidth e.w) {k : Nat} (h : k < e.place ∨ e.place + e.w / 16 ≤ k) (hne : k ≠ e.place) :
    look 0 (c.putEl e).v k = look 0 c.v k := by
  rcases hw with h8 | ⟨h16, -⟩
  · rw [putEl_byte c e h8]
    exact look_put_ne 0 c.v _ k _ hne
  · rw [putEl_wide c e h16]
    exact look_putRun_out 0 _ c.v (by rwa [length_wordsOfNat])

/-- An element reads as it was written. -/
theorem vel_putEl_same (hw : ElWidth e.w) (hv : e.val < 2 ^ e.w) : (c.putEl e).vel e.reg e.w e.i = e.val := by
  rcases hw with h8 | ⟨h16, hmod⟩
  · rw [putEl_byte c e h8, h8, vel_byte, VEl.place, h8, look_put_same, fld_setFld_same _ _ (by omega), Nat.mod_eq_of_lt (by rwa [h8] at hv)]
  · have hrun := lookRun_putRun 0 (wordsOfNat (e.w / 16) e.val) c.v e.place
    rw [length_wordsOfNat] at hrun
    rw [putEl_wide c e h16, vel_wide _ _ _ h16]
    refine (congrArg natOfWords hrun).trans (natOfWords_wordsOfNat _ ?_)
    rwa [show (65536 : Nat) = 2 ^ 16 from rfl, ← pow_mul, Nat.mul_div_cancel' (Nat.dvd_of_mod_eq_zero hmod)]

/-- Every other element of its width reads as before. -/
theorem vel_putEl_ne (hw : ElWidth e.w) {j : Nat} (hj : j ≠ e.i) : (c.putEl e).vel e.reg e.w j = c.vel e.reg e.w j := by
  rcases hw with h8 | ⟨h16, hmod⟩
  · rw [putEl_byte c e h8, h8, vel_byte, vel_byte, VEl.place, h8]
    by_cases hword : j * 8 / 16 = e.i * 8 / 16
    · rw [hword, look_put_same]
      exact fld_setFld_ne _ _ _ _ (by omega)
    · rw [look_put_ne _ _ _ _ _ (by omega)]
  · rw [vel_wide _ _ _ h16, vel_wide _ _ _ h16]
    refine congrArg natOfWords (lookRun_congr 0 _ fun k hk hk' => ?_)
    have hpos : 0 < e.w / 16 := Nat.div_pos h16 (by decide)
    have hapart : j * (e.w / 16) + e.w / 16 ≤ e.i * (e.w / 16) ∨ e.i * (e.w / 16) + e.w / 16 ≤ j * (e.w / 16) := by
      rw [← Nat.succ_mul, ← Nat.succ_mul]
      exact (Nat.lt_or_gt_of_ne hj).imp (Nat.mul_le_mul_right _) (Nat.mul_le_mul_right _)
    rw [wide_place hmod] at hk hk'
    refine look_putEl_out c e (.inr ⟨h16, hmod⟩) ?_ ?_ <;> rw [VEl.place, wide_place hmod] <;> omega

end

/-! ### One element written -/

section
variable (c : Core) (e : VEl)

/-- One unmarked element clears the mark of its group where it is the whole of it, and else leaves it (R192). -/
theorem writeEls_one (hm : e.mark = false) :
    c.writeEls [e] = { c with v := (c.putEl e).v, vpsn := if 64 ≤ e.w then put false c.vpsn e.group false else c.vpsn } := by
  have hput : c.putEl e = { c with v := (c.putEl e).v } := by
    unfold Core.putEl
    dsimp only
    split <;> rfl
  have hwhole : wholeGroup [e] e.group = decide (64 ≤ e.w) := by simp [wholeGroup]
  unfold Core.writeEls
  simp only [List.map_cons, List.map_nil, List.dedup_cons_of_notMem List.not_mem_nil, List.dedup_nil, List.foldl_cons, List.foldl_nil,
    List.any_cons, List.any_nil, hm, Bool.and_false, Bool.or_false, Bool.false_eq_true, if_false, hwhole, decide_eq_true_eq]
  split
  · rw [hput]
  · exact hput

end

/-- Another element of the same group of 64 bits, where an element is not all of it. -/
theorem exists_neighbour {w i cap g : Nat} (hw : w = 8 ∨ w = 16 ∨ w = 32) (hcap : cap * w = 4096 * g) (hi : i < cap) :
    ∃ j ≠ i, j < cap ∧ j * w / 64 = i * w / 64 := by
  rcases Nat.even_or_odd' i with ⟨m, rfl | rfl⟩
  · refine ⟨2 * m + 1, by omega, ?_, ?_⟩ <;> rcases hw with rfl | rfl | rfl <;> omega
  · refine ⟨2 * m, by omega, by omega, ?_⟩
    rcases hw with rfl | rfl | rfl <;> omega

/-- Writing one unmarked element of a group writes it and nothing else (R159, R192). -/
theorem vecWrites_one (c : Core) (e : VEl) (hw : e.w = c.sew) (hi : e.i < c.vlmax) (hv : e.val < 2 ^ c.sew) (hm : e.mark = false) :
    VecWrites c (c.writeEls [e]).v (c.writeEls [e]).vpsn e.reg c.sew c.vlmax (fun j => j = e.i) (fun _ => e.val) (fun _ => false) := by
  have hel : ElWidth e.w := hw ▸ elWidth_sew c
  have hfill := vlmax_mul_sew c
  have hvel (j : Nat) : Core.vel { c with v := (c.writeEls [e]).v } e.reg c.sew j = (c.putEl e).vel e.reg e.w j := by
    rw [writeEls_one c e hm, hw]
    rfl
  have hpsn : (c.writeEls [e]).vpsn = if 64 ≤ e.w then put false c.vpsn e.group false else c.vpsn := by rw [writeEls_one c e hm]
  have hplace : e.group = 64 * e.reg + e.i * c.sew / 64 := by rw [← hw]; rfl
  refine ⟨fun j hj => ⟨fun hon => ?_, fun hoff => ?_⟩, fun k hk => ?_, fun g => ⟨?_, fun _ => ⟨fun hhas hall => ?_, fun hpart => ?_⟩⟩⟩
  · rw [hvel, show j = e.i from hon]
    exact vel_putEl_same c e hel (hw ▸ hv)
  · rw [hvel, vel_putEl_ne c e hel hoff, hw]
  · have hout : (k < e.place ∨ e.place + e.w / 16 ≤ k) ∧ k ≠ e.place := by
      rw [VEl.place, hw]
      rcases sew_cases c with h | h | h | h <;> rw [h] at hfill hk ⊢ <;> omega
    rw [writeEls_one c e hm]
    exact look_putEl_out c e hel hout.1 hout.2
  · rintro ⟨j, -, -, hmark⟩
    exact absurd hmark Bool.false_ne_true
  · obtain ⟨j, hj, hg⟩ := hhas
    obtain rfl : j = e.i := hall j ⟨hj, hg⟩
    rw [hpsn, ← hg, ← hplace]
    split
    · exact look_put_same false c.vpsn _ false
    · next hw64 =>
      obtain ⟨m, hne, hlt, hm⟩ := exists_neighbour (w := c.sew) (by have := sew_cases c; omega) hfill hi
      exact absurd (hall m ⟨hlt, by rw [hm]; exact hg⟩) hne
  · rw [hpsn]
    split
    · next hw64 =>
      have h64 : c.sew = 64 := by have := sew_cases c; omega
      refine look_put_ne false c.vpsn _ g false fun hg => ?_
      rcases hpart with hnone | ⟨j, ⟨-, hj⟩, hne⟩
      · exact hnone e.i ⟨hi, by rw [hg, hplace]⟩ rfl
      · refine hne ?_
        rw [hg, hplace, h64] at hj
        show j = e.i
        omega
    · rfl

end Sys2Proof.Machine

/-! # Vector control and queries -/

namespace Sys2Proof.Machine
open Sys2Proof.Laws Sys2Proof.Safety

section
variable {s t : State} {n : Nat} {k : Cond} {c : Core}

/-! ### Issue and acceptance -/

/-- A ready vector instruction that its encoding and its element type allow, of those that no VLMAX applies to. -/
theorem vecIssueAny_ready (h : Ready s t n k 2) {enc : Core → Bool} (he : enc (t.core n) = true) (het : (t.core n).et < 8) (body : State → Res) :
    vecIssueAny n k 2 enc (fun _ => true) body s = .next (finish n 2 t (body t)) := by
  rw [vecIssueAny, issue_ready h enc [] _ he rfl, shaped_ok n _ body t (by simp [het])]

/-- A reserved ET in VTYPE, or an illegal encoding, faults (R161). -/
theorem vecIssueAny_illegal (h : Ready s t n k 2) {enc : Core → Bool} (hbad : enc (t.core n) = false ∨ 8 ≤ (t.core n).et) (body : State → Res) :
    vecIssueAny n k 2 enc (fun _ => true) body s = .next (t.syncFault n .illegalOp 0) := by
  by_cases he : enc (t.core n) = true
  · have het : 8 ≤ (t.core n).et := hbad.resolve_left (by simp [he])
    exact issue_fault h he (shaped_bad n _ body t (by simp [Nat.not_lt.mpr het]))
  · exact issue_illegal (ready_fetched h) (Bool.eq_false_iff.mpr he) [] _

/-- A ready vector instruction that is legal under VTYPE and VL. -/
theorem vecIssue_ready (h : Ready s t n k 2) {enc legal : Core → Bool} (he : enc (t.core n) = true) (het : (t.core n).et < 8)
    (hvl : (t.core n).vlen ≤ (t.core n).vlmax) (hl : legal (t.core n) = true) (body : State → Res) :
    vecIssue n k 2 enc legal body s = .next (finish n 2 t (body t)) := by
  rw [vecIssue, issue_ready h enc [] _ he rfl, shaped_ok n _ body t (by simp [Core.vOk, het, hvl, hl])]

variable {u : VUnit} {serial : Bool} {reads writes : List Nat}

theorem vAccept_of_accepts (h : Accepts c u serial reads writes) : c.vAccept u serial (reads ++ writes) = true := by
  obtain ⟨hserial, hunit, halone, hmeets, -⟩ := h
  have hunit' : c.vbusy.contains u = false := by simpa using hunit
  have halone' : (!serial || c.vbusy.isEmpty) = true := by
    cases serial
    · rfl
    · rw [halone rfl]; rfl
  simp only [Core.vAccept, hserial, hunit', halone', hmeets, Bool.not_false, Bool.and_self]

/-- Nothing that an accepted instruction reads is early. -/
theorem earlyRegs_of_accepts (h : Accepts c u serial reads writes) {rs : List Nat} (hrs : ∀ r ∈ rs, r ∈ reads) : c.earlyRegs rs = [] := by
  obtain ⟨-, -, -, -, harrived⟩ := h
  simpa [Core.earlyRegs] using fun r hr x hx => harrived r (hrs r hr) x hx

/-- An instruction with a scalar destination that its unit accepts and that reads nothing early. -/
theorem vecScalar_accepts (hu : t.upsets = []) {names rs : List Nat} (h : Accepts (t.core n) .vxu false names []) (hrs : ∀ r ∈ rs, r ∈ names) (past : Bool)
    (free : W64 → Core → Core) (f : State → Res) : vecScalar n names rs past free f t = if past then .done t else f t := by
  have haccept : (t.core n).vAccept .vxu false names = true := by
    rw [← vAccept_of_accepts h, List.append_nil]
  unfold vecScalar
  simp only [haccept, earlyRegs_of_accepts h hrs, State.vecReads, State.regReads_none t _ hu, Bool.not_true, Bool.false_eq_true, if_false,
    List.isEmpty_nil]

theorem finish_done_id (n len : Nat) (t : State) : finish n len t (.done t) = after t n len id := rfl

/-! ### vsetvl and vwait -/

/-- The widths of the element types (Table 6-1). -/
theorem etSew_table : ∀ e ∈ [(0, 8), (1, 16), (2, 32), (3, 64), (4, 16), (5, 16), (6, 32), (7, 64)], etSew e.1 = e.2 ∧ e.1 < 8 := by decide

theorem vetWord : ∀ (grp : BitVec 2) (et : BitVec 4), (grp.zeroExtend 64 <<< 4) ||| et.zeroExtend 64 = BitVec.ofNat 64 (16 * grp.toNat + et.toNat) := by
  decide

/-- What vsetvl sends: ET and GRP, VL, and VL again to Dd (R163). -/
theorem vsetvl_sends (c : Core) (dd dn : Nat) (grp : BitVec 2) (et : BitVec 4) :
    let vl := min (c.dpair dn).toNat (4096 * 2 ^ grp.toNat / etSew et.toNat)
    let max := 4096 * 2 ^ grp.toNat / etSew et.toNat
    let v : W32 := BitVec.ofNat 32 (if (c.dpair dn).toNat < max then (c.dpair dn).toNat else max)
    ((c.send 1 .vet ((grp.zeroExtend 64 <<< 4) ||| et.zeroExtend 64)).send 1 .vl (v.zeroExtend 64)).sendP 1 dd v =
      ((c.send 1 .vet (BitVec.ofNat 64 (16 * grp.toNat + et.toNat))).send 1 .vl (BitVec.ofNat 64 vl)).sendP 1 dd (BitVec.ofNat 32 vl) := by
  intro vl max v
  have hvl : (if (c.dpair dn).toNat < max then (c.dpair dn).toNat else max) = vl := by
    unfold vl
    split <;> omega
  have hlt : vl < 2 ^ 32 := lt_of_le_of_lt (min_le_left _ _) (c.dpair dn).isLt
  have hv : v.zeroExtend 64 = BitVec.ofNat 64 vl := by
    unfold v
    rw [hvl]
    refine BitVec.eq_of_toNat_eq ?_
    rw [BitVec.toNat_setWidth, BitVec.toNat_ofNat, BitVec.toNat_ofNat, Nat.mod_eq_of_lt hlt]
  rw [vetWord, hv]
  unfold v
  rw [hvl]

theorem exec_vsetvl (h : Ready s t n k 2) (het : (t.core n).et < 8) {dd dn : Fin 16} (grp : BitVec 2) {et : BitVec 4} (hdd : evenReg dd.val = true)
    (hdn : evenReg dn.val = true) {sew : Nat} (hs : (et.toNat, sew) ∈ [(0, 8), (1, 16), (2, 32), (3, 64), (4, 16), (5, 16), (6, 32), (7, 64)]) :
    exec (.vsetvl n k dd dn grp et) s = .next (after t n 2 (fun c =>
      ((c.send 1 .vet (BitVec.ofNat 64 (16 * grp.toNat + et.toNat))).send 1 .vl
        (BitVec.ofNat 64 (min ((t.core n).dpair dn.val).toNat (4096 * 2 ^ grp.toNat / sew)))).sendP 1 dd.val
        (BitVec.ofNat 32 (min ((t.core n).dpair dn.val).toNat (4096 * 2 ^ grp.toNat / sew))))) := by
  obtain ⟨hsew, hlt⟩ := etSew_table _ hs
  obtain rfl : etSew et.toNat = sew := hsew
  refine (vecIssueAny_ready h (by simp [hdd, hdn, hlt]) het (vsetvlBody n dd.val dn.val grp et)).trans (congrArg _ ?_)
  exact (finish_coreOnly n 2 _ t).trans (after_congr (vsetvl_sends (t.core n) dd.val dn.val grp et))

theorem exec_vwait (h : Ready s t n k 2) (het : (t.core n).et < 8) (hidle : (t.core n).vbusy = []) :
    exec (.vwait n k) s = .next (after t n 2 id) := by
  refine (vecIssueAny_ready h rfl het _).trans (congrArg _ ?_)
  rw [hidle]
  rfl

/-! ### vmv.x -/

section
variable {d dn : Fin 16} {va : Fin 32}

/-- The registers that hold the elements of a group. -/
theorem mem_regsOf_place {v i : Nat} (h : i < c.vlmax) : v + i * c.sew / 4096 ∈ regsOf v c.grp := by
  have hfill := vlmax_mul_sew c
  have hmul : i * c.sew < 4096 * c.grp := hfill ▸ Nat.mul_lt_mul_of_pos_right h (by have := sew_cases c; omega)
  exact List.mem_map.mpr ⟨i * c.sew / 4096, List.mem_range.mpr (by omega), rfl⟩

/-- What vmv.x does once the cross-lane unit has accepted it and nothing that it reads is early. -/
def vmvXDone (n d va dn : Nat) (t : State) : Res :=
  let c := t.core n
  let i := (c.dreg dn).toNat
  let u : State := { t with freeCtr := t.freeCtr + 1 }
  let x := Config.freeValue t.freeCtr
  if i < c.prog.toNat then .done t
  else if c.vlmax ≤ i then coreOnly n (fun k => k.sendVal 2 d c.sew 0 x.toNat) u
  else if c.vlen = 0 then coreOnly n (fun k => k.sendVal 2 d c.sew x.toNat (x.toNat / 2 ^ 8)) u
  else if c.vmark va c.sew i then .partial_ t .poison 0
  else coreOnly n (fun k => k.sendVal 2 d c.sew (c.vel va c.sew i) x.toNat) u

theorem exec_vmvX (h : Ready s t n k 2) (het : (t.core n).et < 8) (hvl : (t.core n).vlen ≤ (t.core n).vlmax) (hd : (t.core n).vscalarOk d.val = true)
    (hmod : va.val % (t.core n).grp = 0) (hin : va.val + (t.core n).grp ≤ 32) (ha : Accepts (t.core n) .vxu false (regsOf va.val (t.core n).grp) []) :
    exec (.vmvX n k d va dn) s = .next (finish n 2 t (vmvXDone n d.val va.val dn.val t)) := by
  have hgrp : grpOk va.val (t.core n).grp = true := by simp [grpOk, hmod, hin]
  refine (vecIssue_ready h hd het hvl hgrp (vmvXBody n d.val va.val dn.val)).trans (congrArg _ (congrArg _ ?_))
  unfold vmvXBody
  dsimp only
  rw [vecScalar_accepts (ready_upsets h) ha]
  · simp only [decide_eq_true_eq]
    rfl
  · intro r hr
    split at hr
    · exact absurd hr List.not_mem_nil
    · next hread =>
      rw [List.mem_singleton] at hr
      exact hr ▸ mem_regsOf_place (Nat.lt_of_not_le fun hge => hread (.inl hge))

end

section
variable {d dn va : Nat}

theorem vmvXDone_past (hi : ((t.core n).dreg dn).toNat < (t.core n).prog.toNat) : vmvXDone n d va dn t = .done t := if_pos hi

theorem vmvXDone_marked (hp : (t.core n).prog.toNat ≤ ((t.core n).dreg dn).toNat) (hi : ((t.core n).dreg dn).toNat < (t.core n).vlmax)
    (hvl : (t.core n).vlen ≠ 0) (hm : (t.core n).vmark va (t.core n).sew ((t.core n).dreg dn).toNat = true) :
    vmvXDone n d va dn t = .partial_ t .poison 0 := by
  simp only [vmvXDone, if_neg (Nat.not_lt.mpr hp), if_neg (Nat.not_le.mpr hi), if_neg hvl, if_pos hm]

theorem vmvXDone_none (hp : (t.core n).prog.toNat ≤ ((t.core n).dreg dn).toNat) (hi : ((t.core n).dreg dn).toNat < (t.core n).vlmax)
    (hvl : (t.core n).vlen = 0) : vmvXDone n d va dn t = coreOnly n (fun k => k.sendVal 2 d (t.core n).sew (Config.freeValue t.freeCtr).toNat
      ((Config.freeValue t.freeCtr).toNat / 2 ^ 8)) { t with freeCtr := t.freeCtr + 1 } := by
  simp only [vmvXDone, if_neg (Nat.not_lt.mpr hp), if_neg (Nat.not_le.mpr hi), if_pos hvl]

theorem vmvXDone_element (hp : (t.core n).prog.toNat ≤ ((t.core n).dreg dn).toNat)
    (hm : ((t.core n).dreg dn).toNat < (t.core n).vlmax → (t.core n).vlen ≠ 0 ∧ (t.core n).vmark va (t.core n).sew ((t.core n).dreg dn).toNat = false) :
    vmvXDone n d va dn t = coreOnly n (fun k => k.sendVal 2 d (t.core n).sew
      (if ((t.core n).dreg dn).toNat < (t.core n).vlmax then (t.core n).vel va (t.core n).sew ((t.core n).dreg dn).toNat else 0)
      (Config.freeValue t.freeCtr).toNat) { t with freeCtr := t.freeCtr + 1 } := by
  by_cases hi : ((t.core n).dreg dn).toNat < (t.core n).vlmax
  · obtain ⟨hvl, hmark⟩ := hm hi
    simp only [vmvXDone, if_neg (Nat.not_lt.mpr hp), if_neg (Nat.not_le.mpr hi), if_neg hvl, hmark, Bool.false_eq_true, if_false, if_pos hi]
  · simp only [vmvXDone, if_neg (Nat.not_lt.mpr hp), if_pos (Nat.le_of_not_lt hi), if_neg hi]

end

/-- A free value of SEW bits (R162; assumption log 43). -/
theorem sendVal_free (c : Core) (dist d : Nat) (x : W64) {w : Nat} (hw : w = 8 ∨ w = 16 ∨ w = 32 ∨ w = 64) :
    c.sendVal dist d w x.toNat (x.toNat / 2 ^ 8) =
      if w ≤ 16 then c.sendD dist d (x.truncate 16) else if w = 32 then c.sendP dist d (x.truncate 32) else c.sendQ dist d x := by
  have hbyte : x.toNat % 256 + 256 * (x.toNat / 256) = x.toNat := Nat.mod_add_div _ _
  rcases hw with rfl | hw
  · simp [Core.sendVal, hbyte]
  · rcases hw with rfl | rfl | rfl <;> simp [Core.sendVal]

/-- An element of 8 bits is below 256. -/
theorem vel_byte_lt (c : Core) (v i : Nat) : c.vel v 8 i < 256 := by
  rw [vel_byte]
  exact fld_lt _ _ _

/-! ### vins -/

/-- The element that vins writes (R168). -/
def Core.insElement (c : Core) (vd dm dn : Nat) : VEl :=
  { reg := vd, w := c.sew, i := (c.dreg dn).toNat, val := c.vscalar dm, mark := false }

theorem exec_vins (h : Ready s t n k 2) (het : (t.core n).et < 8) (hvl : (t.core n).vlen ≤ (t.core n).vlmax) {vd : Fin 32} {dm dn : Fin 16}
    (hd : (t.core n).vscalarOk dm.val = true) (hmod : vd.val % (t.core n).grp = 0) (hin : vd.val + (t.core n).grp ≤ 32)
    (ha : Accepts (t.core n) .valu false [] (regsOf vd.val (t.core n).grp)) :
    exec (.vins n k vd dm dn) s = .next (finish n 2 t (
      if (t.core n).vlmax ≤ ((t.core n).dreg dn.val).toNat ∨ ((t.core n).dreg dn.val).toNat < (t.core n).prog.toNat then .done t
      else coreOnly n (fun c => (c.writeEls [(t.core n).insElement vd.val dm.val dn.val]).vRuns .valu 2 false (regsOf vd.val (t.core n).grp)) t)) := by
  have hgrp : grpOk vd.val (t.core n).grp = true := by simp [grpOk, hmod, hin]
  have haccept : (t.core n).vAccept .valu false (regsOf vd.val (t.core n).grp) = true := vAccept_of_accepts ha
  refine (vecIssue_ready h hd het hvl hgrp (vinsBody n vd.val dm.val dn.val)).trans (congrArg _ (congrArg _ ?_))
  unfold vinsBody State.vecWrite
  simp only [haccept, Bool.not_true, Bool.false_eq_true, if_false, State.regReads_none t _ (ready_upsets h), State.over_none t _ (ready_upsets h),
    State.modCore_modCore]
  rfl

/-! ### Mask queries -/

section
variable {vb : Fin 32}

theorem pastVl_iff (c : Core) : c.pastVl = true ↔ 0 < c.prog.toNat ∧ c.vlen ≤ c.prog.toNat := by simp [Core.pastVl]

/-- A query that its unit accepts, and that reads nothing early. -/
theorem vecQuery (h : Ready s t n k 2) (het : (t.core n).et < 8) (hvl : (t.core n).vlen ≤ (t.core n).vlmax)
    (ha : Accepts (t.core n) .vxu false [vb.val] []) {enc : Core → Bool} (he : enc (t.core n) = true) (free : W64 → Core → Core) (f : State → Res) :
    vecIssue n k 2 enc (fun _ => true) (fun s => vecScalar n [vb.val] ((s.core n).queried vb.val) (s.core n).pastVl free f s) s =
      .next (finish n 2 t (if (t.core n).pastVl then .done t else f t)) := by
  refine (vecIssue_ready h he het hvl rfl _).trans (congrArg _ (congrArg _ (vecScalar_accepts (ready_upsets h) ha (fun r hr => ?_) _ _ _)))
  unfold Core.queried at hr
  split at hr
  · exact absurd hr List.not_mem_nil
  · exact hr

theorem predValue : ∀ (p : Fin 4) (hit mark : Bool), setBit (setBit (0 : W32) (4 + p.val) hit) (16 + p.val) mark =
    BitVec.ofNat 32 ((if hit then 2 ^ (4 + p.val) else 0) + (if mark then 2 ^ (16 + p.val) else 0)) := by decide

theorem sendPred_eq (c : Core) (p : Fin 4) (hit mark : Bool) : c.sendPred p.val hit mark =
    c.sendSr 2 (BitVec.ofNat 32 (2 ^ (4 + p.val) + 2 ^ (16 + p.val)))
      (BitVec.ofNat 32 ((if hit then 2 ^ (4 + p.val) else 0) + (if mark then 2 ^ (16 + p.val) else 0))) := by
  rw [Core.sendPred, predMask, predValue]

theorem any_mbit (c : Core) (v : Nat) [Decidable (∃ i < c.vlen, c.mbit v i = true)] :
    ((List.range c.vlen).map (fun i => c.mbit v i)).any id = decide (∃ i < c.vlen, c.mbit v i = true) := by
  rw [Bool.eq_iff_iff, decide_eq_true_iff, List.any_map, List.any_eq_true]
  simp

theorem all_mbit (c : Core) (v : Nat) [Decidable (∀ i < c.vlen, c.mbit v i = true)] :
    ((List.range c.vlen).map (fun i => c.mbit v i)).all id = decide (∀ i < c.vlen, c.mbit v i = true) := by
  rw [Bool.eq_iff_iff, decide_eq_true_iff, List.all_map, List.all_eq_true]
  simp

end

/-! ### Completion -/

theorem exec_vectorComplete (hon : On s) (hn : n < 192) (u : VUnit) : exec (.vectorComplete n u) s = .next (s.modCore n (fun c =>
    { c with vbusy := c.vbusy.erase u, vserial := c.vserial && !(c.vbusy.erase u).isEmpty })) :=
  (command_on _ s hon).trans (congrArg _ (if_pos hn))

end

end Sys2Proof.Machine

/-! # What vmv.x, vins and the mask queries leave, and O45 -/

namespace Sys2Proof.Machine
open Sys2Proof.Laws Sys2Proof.Safety

section
variable {s t : State} {n : Nat} {k : Cond}

/-! ### vmv.x -/

/-- What follows a body that acts on its core does not look at the state before it. -/
theorem finish_coreOnly_from (n len : Nat) (f : Core → Core) (t u : State) : finish n len t (coreOnly n f u) = after u n len f := finish_coreOnly n len f u

/-- An element of 8 bits in a register of 16, of which the upper byte is free (R165; assumption log 3). -/
theorem sendVal_byte (c : Core) (dist d : Nat) {x w : Nat} (up : Nat) (hw : w = 8) (hx : x < 256) :
    ∃ y : Word, y.toNat % 256 = x ∧ c.sendVal dist d w x up = c.sendD dist d y := by
  subst hw
  refine ⟨BitVec.ofNat 16 (x % 256 + 256 * up), ?_, rfl⟩
  rw [BitVec.toNat_ofNat]
  omega

theorem sendVal_16 (c : Core) (dist d x up : Nat) {w : Nat} (hw : w = 16) : c.sendVal dist d w x up = c.sendD dist d (BitVec.ofNat 16 x) := by
  subst hw
  rfl

theorem sendVal_32 (c : Core) (dist d x up : Nat) {w : Nat} (hw : w = 32) : c.sendVal dist d w x up = c.sendP dist d (BitVec.ofNat 32 x) := by
  subst hw
  rfl

theorem sendVal_64 (c : Core) (dist d x up : Nat) {w : Nat} (hw : w = 64) : c.sendVal dist d w x up = c.sendQ dist d (BitVec.ofNat 64 x) := by
  subst hw
  rfl

/-- What is read of an element of 8 bits, or the 0 past VLMAX. -/
theorem element_byte_lt {c : Core} (hw : c.sew = 8) (v i : Nat) : (if i < c.vlmax then c.vel v c.sew i else 0) < 256 := by
  split
  · exact hw ▸ vel_byte_lt c v i
  · decide

/-- vmv.x with VL = 0 sends a free value (R162). -/
theorem finish_vmvX_none {d va dn : Nat} (hp : (t.core n).prog.toNat ≤ ((t.core n).dreg dn).toNat) (hi : ((t.core n).dreg dn).toNat < (t.core n).vlmax)
    (hvl : (t.core n).vlen = 0) : ∃ y : BitVec 64, finish n 2 t (vmvXDone n d va dn t) = after { t with freeCtr := t.freeCtr + 1 } n 2 (fun c =>
      if (t.core n).sew ≤ 16 then c.sendD 2 d (y.truncate 16) else if (t.core n).sew = 32 then c.sendP 2 d (y.truncate 32) else c.sendQ 2 d y) := by
  refine ⟨Config.freeValue t.freeCtr, ?_⟩
  rw [vmvXDone_none hp hi hvl, finish_coreOnly_from]
  exact congrArg (after _ n 2) (funext fun c => sendVal_free c 2 d (Config.freeValue t.freeCtr) (sew_cases (t.core n)))

/-- vmv.x with an element that it can read, or past VLMAX. -/
theorem finish_vmvX_element {d va dn : Nat} {x : Nat} {f : Core → Core} (hp : (t.core n).prog.toNat ≤ ((t.core n).dreg dn).toNat)
    (hm : ((t.core n).dreg dn).toNat < (t.core n).vlmax → (t.core n).vlen ≠ 0 ∧ (t.core n).vmark va (t.core n).sew ((t.core n).dreg dn).toNat = false)
    (hx : (if ((t.core n).dreg dn).toNat < (t.core n).vlmax then (t.core n).vel va (t.core n).sew ((t.core n).dreg dn).toNat else 0) = x)
    (hf : (t.core n).sendVal 2 d (t.core n).sew x (Config.freeValue t.freeCtr).toNat = f (t.core n)) :
    finish n 2 t (vmvXDone n d va dn t) = after { t with freeCtr := t.freeCtr + 1 } n 2 f := by
  rw [vmvXDone_element hp hm, hx, finish_coreOnly_from]
  exact after_congr hf

/-! ### vins -/

/-- vins into an element from PROG on and below VLMAX writes it and runs in the vector ALU. -/
theorem finish_vins {vd dm dn : Nat} (hi : ((t.core n).dreg dn).toNat < (t.core n).vlmax) :
    ∃ v p, VecWrites (t.core n) v p vd (t.core n).sew (t.core n).vlmax (fun j => j = ((t.core n).dreg dn).toNat) (fun _ => (t.core n).vscalar dm)
        (fun _ => false) ∧
      finish n 2 t (coreOnly n (fun c => (c.writeEls [(t.core n).insElement vd dm dn]).vRuns .valu 2 false (regsOf vd (t.core n).grp)) t) =
        after t n 2 (fun c => { c with
          v := v, vpsn := p, vbusy := .valu :: c.vbusy, vserial := false,
          vpend := c.vpend ++ [{ left := 2, regs := regsOf vd c.grp, unit := .valu }] }) := by
  refine ⟨_, _, vecWrites_one (t.core n) ((t.core n).insElement vd dm dn) rfl hi (vscalar_lt _ _) rfl, ?_⟩
  rw [finish_coreOnly]
  refine after_congr ?_
  rw [writeEls_one (t.core n) ((t.core n).insElement vd dm dn) rfl]
  rfl

/-! ### Mask queries -/

/-- A query of mask bits into a predicate, of an instruction that PROG has not passed. -/
theorem finish_query {p : Fin 4} {vb : Fin 32} {f : List Bool → Bool} {hit : Bool}
    (hf : f ((List.range (t.core n).vlen).map (fun i => (t.core n).mbit vb.val i)) = hit) :
    finish n 2 t (coreOnly n (fun c => c.sendPred p.val (f ((List.range c.vlen).map (fun i => c.mbit vb.val i))) (c.maskMark vb.val)) t) =
      after t n 2 (fun c => c.sendSr 2 (BitVec.ofNat 32 (2 ^ (4 + p.val) + 2 ^ (16 + p.val)))
        (BitVec.ofNat 32 ((if hit then 2 ^ (4 + p.val) else 0) + (if (t.core n).maskMark vb.val then 2 ^ (16 + p.val) else 0)))) := by
  rw [finish_coreOnly]
  refine after_congr ?_
  rw [hf, sendPred_eq]

end

/-- Settles O45: each instruction is accepted, and what it then does is the statement's. -/
theorem vectorControlAndQueries : Obligations.VectorControlAndQueries := by
  unfold Obligations.VectorControlAndQueries
  refine ⟨fun s t n k h => ⟨fun het => vecIssueAny_illegal h (.inr het) _, fun dd dn grp et hbad => vecIssueAny_illegal h ?_ _,
    fun het dd dn grp et hdd hdn sew hs => exec_vsetvl h het grp hdd hdn hs, fun het hidle => exec_vwait h het hidle, fun het hvl =>
    ⟨fun d dn va hd hmod hin ha => ?_, fun vd dm dn hd hmod hin ha => ?_, fun vb ha => ?_⟩⟩, fun s n u hon hn => exec_vectorComplete hon hn u⟩
  · by_cases het : 8 ≤ (t.core n).et
    · exact .inr het
    · refine .inl ?_
      rcases hbad with hbad | hbad | hbad | hbad
      · exact absurd hbad het
      · simp [Nat.not_lt.mpr hbad]
      · simp [hbad]
      · simp [hbad]
  · have hexec := exec_vmvX (dn := dn) h het hvl hd hmod hin ha
    intro i x u
    refine ⟨fun hi => ?_, fun hp hi hvl0 hm => ?_, fun hp hi hvl0 => ?_, fun hp hm => ⟨fun hw => ?_, fun hw => ?_, fun hw => ?_, fun hw => ?_⟩⟩
    · rw [hexec, vmvXDone_past hi, finish_done_id]
    · rw [hexec, vmvXDone_marked hp hi hvl0 hm]
      rfl
    · obtain ⟨y, hy⟩ := finish_vmvX_none (d := d.val) (va := va.val) hp hi hvl0
      exact ⟨y, hexec.trans (congrArg _ hy)⟩
    · obtain ⟨y, hy, hsend⟩ := sendVal_byte (t.core n) 2 d.val (Config.freeValue t.freeCtr).toNat hw (element_byte_lt hw va.val i)
      exact ⟨y, hy, hexec.trans (congrArg _ (finish_vmvX_element hp hm rfl hsend))⟩
    · exact hexec.trans (congrArg _ (finish_vmvX_element hp hm rfl (sendVal_16 _ 2 _ _ _ hw)))
    · exact hexec.trans (congrArg _ (finish_vmvX_element hp hm rfl (sendVal_32 _ 2 _ _ _ hw)))
    · exact hexec.trans (congrArg _ (finish_vmvX_element hp hm rfl (sendVal_64 _ 2 _ _ _ hw)))
  · have hexec := exec_vins (dn := dn) h het hvl hd hmod hin ha
    intro i
    refine ⟨fun hi => ?_, fun hi hp => ?_⟩
    · rw [hexec, if_pos hi, finish_done_id]
    · obtain ⟨v, p, hwrites, hrun⟩ := finish_vins (vd := vd.val) (dm := dm.val) hi
      refine ⟨v, p, hwrites, ?_⟩
      rw [hexec, if_neg (by omega), hrun]
  · intro mark sr
    refine ⟨fun hp hpast p d hd => ?_, fun hp => ?_⟩
    · have hpast : (t.core n).pastVl = true := (pastVl_iff _).mpr ⟨hp, hpast⟩
      refine ⟨(vecQuery h het hvl ha rfl _ _).trans ?_, (vecQuery h het hvl ha rfl _ _).trans ?_, (vecQuery h het hvl ha hd _ _).trans ?_⟩ <;>
        rw [hpast, if_pos rfl, finish_done_id]
    · have hpast : ¬ (t.core n).pastVl = true := fun e => by
        have := (pastVl_iff _).mp e
        omega
      refine ⟨fun p => ⟨(vecQuery h het hvl ha rfl _ _).trans ?_, (vecQuery h het hvl ha rfl _ _).trans ?_⟩, fun d hd => ⟨fun hm => ?_, fun hm => ?_⟩⟩
      · rw [if_neg hpast]
        exact congrArg _ (finish_query (f := fun l => l.any id) (any_mbit _ _))
      · rw [if_neg hpast]
        exact congrArg _ (finish_query (f := fun l => l.all id) (all_mbit _ _))
      · refine (vecQuery h het hvl ha hd _ _).trans ?_
        rw [if_neg hpast, if_neg (show ¬ (t.core n).maskMark vb.val = true from Bool.eq_false_iff.mp hm), finish_coreOnly]
      · refine (vecQuery h het hvl ha hd _ _).trans ?_
        rw [if_neg hpast, if_pos (show (t.core n).maskMark vb.val = true from hm)]
        rfl

end Sys2Proof.Machine
